-- ==== Sys2Proof/Word.lean ====
section
/-! DEFINITION. The word types of the model. A register, a descriptor field in flight, a Knot, a counter and a thread
register are bit vectors; every arithmetic helper over them stands in Sys2Proof/Machine/Bits.lean. -/
namespace Sys2Proof

/-- One byte of a memory or of a frame. -/
abbrev Byte := BitVec 8

/-- A 16-bit word: a completion status, a tag. -/
abbrev Half := BitVec 16

/-- A 32-bit word. -/
abbrev Word := BitVec 32

/-- A 64-bit word: a register, a Knot, a time, a thread register. -/
abbrev DWord := BitVec 64

/-- One 64-byte descriptor or extension descriptor, byte 0 in bits 7:0 (R10, R11). -/
abbrev Desc := BitVec 512

end Sys2Proof
end

