-- ==== Sys2Proof/Machine/TypesFabric.lean ====
section
/-! DEFINITION. The state of the Wober fabric (13_peer_fabric.md) and of the twin unit (14_twin_pairing.md). Every field
with a default has it as its reset value. -/
namespace Sys2Proof.Machine

/-- A fabric packet (R404): the header fields and the payload. Its length field is the payload's length. -/
structure Packet where
  dst : Nat
  src : Nat
  /-- Virtual channel class: 0 request, 1 response, 2 multicast, 3 management. -/
  cls : Nat
  dl : Nat := 0
  type : Nat
  hops : Nat := 0
  epoch : Nat := 0
  part : Nat := 0
  crit : Nat := 0
  tag : Nat := 0
  stream : Nat := 0
  payload : List Byte := []
  deriving DecidableEq, Repr, Inhabited

/-- A packet in an input buffer of the chip: the link it came by (6: injected here). -/
structure InPacket where
  link : Nat
  packet : Packet
  /-- Of a copy of a multicast packet that came by a link: its number, and the link, the virtual channel and the units of the input
  buffer that its last copy releases (R413). -/
  held : Option (Nat × Nat × Nat × Nat) := none
  deriving DecidableEq, Repr, Inhabited

/-- A flit in a replay buffer (R398): its units, and the packet that ends in it. -/
structure ReplayFlit where
  seq : Nat
  units : List Byte
  packet : Packet
  last : Bool := true
  resends : Nat := 0
  deriving DecidableEq, Repr, Inhabited

/-- A link beyond its registers (R396 to R411). Virtual channel v is class v / 2 with dateline class v mod 2. -/
structure Link where
  txSeq : Nat := 0
  /-- The sequence number expected next from the peer. -/
  rxSeq : Nat := 0
  replay : List ReplayFlit := []
  /-- Packet bytes received of a packet that spans flits. -/
  partialRx : List Byte := []
  /-- Credits held for the peer's buffers, in units, per virtual channel. -/
  credits : List Nat := List.replicate 8 0
  /-- Units freed here and not yet returned, per virtual channel. -/
  owed : List Nat := List.replicate 8 0
  /-- When ack last advanced, or the flits that it must cover were last sent (R398). -/
  ackAt : DWord := 0
  /-- When the neighbour's last heartbeat came, or the link came UP (R415). -/
  heardAt : DWord := 0
  /-- When the link last entered MISMATCH or WIRING (R400). -/
  failedAt : DWord := 0
  /-- A LINK_SERVICE that waits for its detours to be in force before the link is taken out (R425). -/
  serviceCmd : Option Nat := none
  /-- A return was ordered while it waits (R481). -/
  reenable : Bool := false
  deriving DecidableEq, Repr, Inhabited

/-- Who waits for the response to a request of this chip. -/
inductive ReqOwner where
  | command (cmd : Nat)
  | thread (cmd stem tile slot : Nat)
  | firmware
  deriving DecidableEq, Repr, Inhabited

/-- What a response completes. -/
inductive ReqKind where
  /-- A piece of a command's read of another chip: the global address of the read and the piece's offset in it. -/
  | piece (addr off : Nat)
  /-- A load of `bytes` at a local address into `rd`, sign-extended when `signed`. -/
  | load (addr rd bytes : Nat) (signed : Bool)
  | store (addr : Nat)
  | atomic (addr rd : Nat)
  | knot (num : Nat)
  /-- A gather fetch, by its number. -/
  | fetch (id : Nat)
  | put
  | publish
  | mcast
  /-- A substitute that a chip is told of (R421). -/
  | substituted
  deriving DecidableEq, Repr, Inhabited

/-- An outstanding request of this chip (R412, R418). -/
structure Request where
  tag : Nat
  dst : Nat
  owner : ReqOwner
  kind : ReqKind
  /-- Responses still to come: 1, or the chips of a multicast's box. -/
  left : Nat := 1
  epoch : Nat := 0
  /-- The comp_width that it names for its data: 0 for none (R405, R414). -/
  comp : Nat := 0
  space : Nat := 32
  issued : DWord := 0
  deriving DecidableEq, Repr, Inhabited

/-- A command's read of another chip's memory: its global address and length, and the pieces that have arrived, each with
its offset. -/
structure RemoteRead where
  cmd : Nat
  addr : Nat
  len : Nat
  got : List (Nat × List Byte) := []
  deriving DecidableEq, Repr, Inhabited

/-- An entry that a route table holds for a destination (R408). Absent: 7, no override. -/
structure RouteEntry where
  chip : Nat
  entry : Nat
  deriving DecidableEq, Repr, Inhabited

/-- The token bucket of a partition at a link output (R478): the bytes in it at a moment, below 0 while it owes some. -/
structure Bucket where
  part : Nat
  link : Nat
  bytes : Int
  at_ : DWord
  deriving DecidableEq, Repr, Inhabited

/-- The fabric beyond its registers. -/
structure Fabric where
  links : List Link := List.replicate 6 {}
  bank0 : List RouteEntry := []
  bank1 : List RouteEntry := []
  /-- Tables have been written into the inactive bank since the last route change. -/
  loaded : Bool := false
  requests : List Request := []
  nextTag : Nat := 0
  /-- Requests that wait for the limit of R412 or for an old epoch (R416), oldest first, with their packets. -/
  waiting : List (Request × Packet) := []
  reads : List RemoteRead := []
  /-- Packets in the input buffers, oldest first. -/
  inbox : List InPacket := []
  /-- An acting root has taken the root's place (R422). -/
  acting : Bool := false
  /-- ROUTE_REBUILD and WBL_ROUTE_COMMIT commands that wait for the end of a route change (R417, R425). -/
  routeCmds : List Nat := []
  /-- When heartbeats were last sent (R415). -/
  beatAt : Option DWord := none
  /-- Multicast packets that have been copied so far (R413). -/
  copied : Nat := 0
  /-- Buckets that have been used; any other is full (R478). -/
  buckets : List Bucket := []
  /-- Consecutive arbitrations that each virtual channel has lost at each output (R412): output, channel, count. -/
  losses : List (Nat × Nat × Nat) := []
  /-- The outputs whose last packet of the two lowest classes was a request (R412). -/
  requestLast : List Nat := []
  deriving DecidableEq, Repr, Inhabited

/-- A frame signature that waits to be compared (R441): its stream set, window and bytes. Of a signature of this chip also when it
was sent, and the TWN_SIG_EXCHANGE it belongs to. -/
structure SigWait where
  set : Nat
  window : Int
  bytes : List Byte
  cmd : Option Nat := none
  sentNs : DWord := 0
  deriving DecidableEq, Repr, Inhabited

/-- A frame that has completed its engine work and waits for the comparison (R442): its RUN, its status so far, and the tiles that ran
it, one mask a Stem. -/
structure FrameWait where
  cmd : Nat
  set : Nat
  window : Int
  status : Half
  detail : Word
  tiles : List DWord
  deriving DecidableEq, Repr, Inhabited

/-- A twin message that is being reassembled from fragments (R432). -/
structure Fragments where
  subtype : Nat
  total : Nat
  bytes : List (Nat × List Byte) := []
  deriving DecidableEq, Repr, Inhabited

/-- The twin unit beyond its registers. -/
structure Twin where
  /-- The TWIN_PAIR command that waits, and the list it named: stream set and package handle. -/
  pairCmd : Option Nat := none
  list : List (Nat × Nat) := []
  /-- The list of the last accepted TWIN_PAIR (R446). -/
  lastList : List (Nat × Nat) := []
  detachCmd : Option Nat := none
  /-- A TWIN_PAIR that reached DETACHING (R446). -/
  nextPair : Option (Nat × List (Nat × Nat)) := none
  /-- The chip was SOLO when its handshake began (R429). -/
  wasSolo : Bool := false
  /-- The chip left its pairing when it entered the safe state, and pairs again once Bark has released it (R445). -/
  returning : Bool := false
  /-- The chip was shadow when it last had a role by agreement (R430). -/
  wasShadow : Bool := false
  /-- The HELLO messages of the handshake, and the partner's certificates and proof as they arrived (R432). -/
  ownHello : List Byte := []
  peerHello : List Byte := []
  peerCert : List Byte := []
  peerProof : List Byte := []
  /-- The partner's public key, once its certificates have been verified; this chip's proof has been sent; the checks up to the lists
  have passed (R433). -/
  peerKey : List Byte := []
  proofSent : Bool := false
  checked : Bool := false
  /-- The role this chip takes under R431, once its checks have passed. -/
  ownRole : Nat := 0
  /-- The partner's role message. -/
  peerRole : Nat := 0
  /-- Keys of the contexts that the lead has sent, and the generations that its tables carry (R434). -/
  syncKeys : List (List Byte) := []
  syncGens : List (Nat × Nat) := []
  /-- Confirmed: contexts, versions, time (R434). -/
  syncContexts : Bool := false
  syncVersions : Bool := false
  syncTime : Bool := false
  /-- When SYNC was entered (R434). -/
  syncAt : DWord := 0
  /-- The end of the lead's state has reached this shadow (R434). -/
  syncHeard : Bool := false
  /-- k0 has been sent or received. -/
  syncDone : Bool := false
  /-- Stream sets whose history buffer has reached this shadow in this pairing (R436). -/
  copied : List Nat := []
  own : List SigWait := []
  peer : List SigWait := []
  frames : List FrameWait := []
  /-- The latest compared window of each stream set. -/
  judged : List (Nat × Int) := []
  /-- The last compared frames, newest first: whether each was a dispute (R444). -/
  disputes : List Bool := []
  /-- Consecutive compared frames whose partner's signature was late (R445). -/
  lateRun : Nat := 0
  /-- Messages from the partner whose fragments are still arriving, and messages that are complete (R432). -/
  rx : List Fragments := []
  arrived : List (List Byte) := []
  /-- TWIN_FAULT_IN_N is low. -/
  faultIn : Bool := false
  deriving DecidableEq, Repr, Inhabited

end Sys2Proof.Machine
end

