-- ==== Sys2Proof/Machine/TypesIngest.lean ====
section
/-! DEFINITION. The state of the time unit (04_time_reference.md) and of the Sweep Ingest Unit (05_sweep_ingest.md).
Every field with a default has it as its reset value. -/
namespace Sys2Proof.Machine

/-- One entry of a command's counter totals (R513, R517). -/
structure CountEntry where
  unit : Nat
  code : Nat
  value : DWord
  deriving DecidableEq, Repr, Inhabited

/-- The time unit beyond its registers (R122 to R137). The registers hold state, clock class, next_sec and the rest. -/
structure Time where
  /-- The count of nanoseconds (R122), as the Crown network's leaf holds it. -/
  now : DWord := 0
  /-- Nanoseconds that the reference has counted since power-on: what every interval and timeout is measured by. No step or slewing
  of the count moves it. -/
  uptime : DWord := 0
  /-- Steps of the count so far (R124): between two of them no island's count goes back. -/
  epoch : Nat := 0
  /-- The upper half of TIM_NOW that a read of its low half has latched for the next read of the upper half (R137). -/
  latchedHigh : Option Word := none
  /-- PPS_IN and the 10 MHz input are both present. -/
  inputsPresent : Bool := false
  /-- LOCKED was reached since reset or since source_sel last became 1 (R125). -/
  reachedLocked : Bool := false
  /-- Consecutive PPS_IN edges with a phase error below 20 ns, up to 16. -/
  goodEdges : Nat := 0
  /-- Consecutive rejected PPS_IN edges, up to 3. -/
  badEdges : Nat := 0
  /-- A TIM_NEXT_SEC write waits for the next edge or boundary (R126). -/
  nextSecPending : Bool := false
  /-- PPS_OUTn pins, high while true (R131). -/
  ppsOut0 : Bool := false
  ppsOut1 : Bool := false
  /-- The count at the last rise of each PPS output (R131). -/
  ppsRise0 : DWord := 0
  ppsRise1 : DWord := 0
  /-- Phase error that slewing has still to remove, signed ns (R127). -/
  phaseErr : Int := 0
  /-- Parts per million of slewing owed that have not yet made a whole nanosecond (R127). -/
  slewAcc : Nat := 0
  /-- A sensor port has been up since reset (R124, R126). -/
  portsUp : Bool := false
  /-- The second whose edge each PPS output gave last (R131). -/
  lastEdge0 : Option Nat := none
  lastEdge1 : Option Nat := none
  /-- When HOLDOVER was entered last (R125). -/
  holdoverAt : DWord := 0
  /-- When each port last sent a Sync and an Announce (R128), and when the twin partner's Announce last reached it (R129). -/
  syncSent : List (Option DWord) := List.replicate 16 none
  announced : List (Option DWord) := List.replicate 16 none
  partnerHeard : List DWord := List.replicate 16 0
  /-- Delay measurements completed on the upstream hop (R135), and the last measured round trip. -/
  delayMeasures : Nat := 0
  linkDelayNs : Nat := 0
  /-- The upstream path is lost (R135). -/
  upstreamLost : Bool := false
  deriving DecidableEq, Repr, Inhabited

/-- The five fields of a frame's key (R142). -/
structure FrameKey where
  port : Nat
  srcMac : Nat
  srcIp : Nat
  udpPort : Nat
  sensorId : Nat
  deriving DecidableEq, Repr, Inhabited

/-- Parse paths (R147). -/
inductive Format where
  | pointPacket | rangeImage | program | reserved
  deriving DecidableEq, Repr, Inhabited

/-- Stream-context states (R147). -/
inductive CtxState where
  | free | active | silent | disabled
  deriving DecidableEq, Repr, Inhabited

/-- A frame in a receive FIFO, with the context its classifier resolved (R143). -/
structure QFrame where
  stamp : DWord
  length : Nat
  key : FrameKey
  srcUdpPort : Nat
  isV6 : Bool
  payload : List Byte
  ctx : Nat
  deriving DecidableEq, Repr, Inhabited

/-- A port's receive FIFO of 1 MiB, oldest frame first. Its count of frames accepted is held twice (R480). -/
structure RxFifo where
  frames : List QFrame := []
  wr : Nat := 0
  wrCopy : Nat := 0
  deriving DecidableEq, Repr, Inhabited

/-- A point or return as parsing emits it (R155, R156, R159), its coordinates in the sensor frame. Points from range
images hold the FP32 patterns that R157 gives for x, y and z in metres. -/
structure RawPoint where
  ctx : Nat
  /-- Receive stamp, or the header or SETT time (R162). -/
  base : DWord
  offsetNs : Word
  /-- Integer millimetres for point packets and EMITC; FP32 metre patterns for range returns. -/
  metric : Bool
  x : Int
  y : Int
  z : Int
  intensity : Nat
  beam : Nat
  ret : Nat
  /-- What its context gave when the frame was parsed (R161): its stream set, its sensor lag and its extrinsic transform. -/
  set : Nat
  lagNs : Word
  extQ : List Word
  extT : List Word
  deriving DecidableEq, Repr, Inhabited

/-- An ingest point record before it is laid out in 32 bytes (R173). -/
structure Point where
  x : Int
  y : Int
  z : Int
  dtUs : Int
  intensity : Nat
  beam : Nat
  ret : Nat
  sweep : Nat
  extrap : Bool
  ctx : Nat
  deriving DecidableEq, Repr, Inhabited

/-- A pose record (R165): FP32 patterns. -/
structure Pose where
  t : DWord
  px : Word
  py : Word
  pz : Word
  qw : Word
  qx : Word
  qy : Word
  qz : Word
  deriving DecidableEq, Repr, Inhabited

/-- One of the 16 pose sources (R165, R166). -/
structure PoseSource where
  num : Nat
  part : Nat := 0
  /-- true: fed by type-2 packets of the port context. -/
  fromPort : Bool := false
  gapMs : Nat := 1
  ctx : Nat := 0
  /-- The latest 1,024 accepted records, oldest first. -/
  records : List Pose := []
  deriving DecidableEq, Repr, Inhabited

/-- A calibration table (R157): FP32 patterns, one entry per beam as (elev, az_off, range_off, origin_z). -/
structure Calib where
  num : Nat
  part : Nat
  azStep : Word
  rangeUnitUm : Word
  entries : List (Word × Word × Word × Word)
  deriving DecidableEq, Repr, Inhabited

/-- An open or closed batch of a stream set's window on its way to a voxel insert queue (R175). -/
structure Batch where
  set : Nat
  window : Int
  /-- Re-expressed points of an earlier window. -/
  reexpressed : Bool
  points : List Point
  /-- The last batch of its window's live or of its re-expressed points. -/
  final : Bool
  /-- Ready to be pushed once credit is available (R176). -/
  closed : Bool
  /-- When its first record came (R175). -/
  since : DWord := 0
  deriving DecidableEq, Repr, Inhabited

/-- A sweep window of a stream set (R163, R164, R170, R171). -/
structure Window where
  k : Int
  isOpen : Bool := true
  /-- The latched reference pose, as FP64 patterns of x, y, z and the quaternion, and its extrapolated flag (R170). -/
  refPose : Option (List DWord × Bool) := none
  /-- Places in the set's point buffer of the records stored for it, as first de-skewed, in order (R174). -/
  stored : List Nat := []
  /-- Its final live batch has been pushed, and its final re-expressed batch (R177). -/
  livePushed : Bool := false
  rePushed : Bool := false
  /-- The frame of this window has been made ready (R177). -/
  ready : Bool := false
  /-- The increments of its window (R178, R518): unit ID, counter code, count; and the items lost in it (R185). -/
  counts : List (Nat × Nat × Nat) := []
  lost : Nat := 0
  /-- Its buffer-full event has been posted (R181). -/
  full : Bool := false
  /-- The time stamp of the end of its window was reached and its frame has been taken by a RUN. -/
  taken : Bool := false
  deriving DecidableEq, Repr, Inhabited

/-- The settings of a stream set (R183). -/
structure SetCfg where
  depth : Nat
  poseSource : Nat
  periodUs : Nat
  phaseUs : Nat
  graceUs : Nat
  maxAuto : Nat
  maxPoints : Nat
  buffer : Nat := 0
  closeKnot : Nat := 0
  /-- The voxel insert queue of R203. none: the basic level, where firmware sets it for each RUN (R184). -/
  route : Option Nat := none
  deriving DecidableEq, Repr, Inhabited

/-- A configured stream set. -/
structure StreamSet where
  num : Nat
  part : Nat
  cfg : SetCfg
  /-- Settings that take effect at the next window start (R183). -/
  next : Option SetCfg := none
  windows : List Window := []
  /-- The window that closes next, once the settings are in force. -/
  nextClose : Option Int := none
  /-- Records written to the point buffer so far (R174). -/
  written : Nat := 0
  /-- For a context, the window of its latest parse-fault event (R181). -/
  faulted : List (Nat × Int) := []
  /-- Ingest counts since the last close (R178), and items lost since then. -/
  acc : List (Nat × Nat × Nat) := []
  lost : Nat := 0
  /-- The voxel grid that VOXEL_GRID_SET gives to the next RUN (R212, R213): vx, vy, vz, ox, oy, oz, and the crop box's x_min,
  x_max, y_min, y_max, z_min, z_max. -/
  grid : Option (List Int) := none
  deriving DecidableEq, Repr, Inhabited

/-- A stream context held by the device (R147). Counters wrap at their widths. -/
structure Ctx where
  id : Nat
  key : FrameKey
  state : CtxState
  format : Format
  template : Bool
  auto : Bool
  timeSource : Bool
  set : Nat
  calib : Nat
  program : Nat
  part : Nat
  ageMs : Nat
  lagNs : Word
  maxPoints : Nat
  extQ : List Word
  extT : List Word
  maxRangeMm : Nat
  lastNs : DWord := 0
  frames : Word := 0
  points : DWord := 0
  lostFrames : Word := 0
  parseFaults : Word := 0
  windowDrops : Word := 0
  poseDrops : Word := 0
  budgetPoints : Word := 0
  bufferDrops : Word := 0
  extrapolated : Word := 0
  /-- Firmware allocated it for a basic-level command (R8). -/
  basic : Bool := false
  deriving DecidableEq, Repr, Inhabited

/-- The discovery queue or the event queue in host memory (R180). -/
structure HostRing where
  log2 : Nat
  base : Nat
  written : Word := 0
  readCount : Word := 0
  /-- Entries that wait for the head line to be read again. -/
  waiting : List (List Byte) := []
  deriving DecidableEq, Repr, Inhabited

/-- The Sweep Ingest Unit. -/
structure Ingest where
  fifos : List RxFifo := List.replicate 16 {}
  /-- Contexts that are not FREE, by rising ID. -/
  ctxs : List Ctx := []
  /-- The context cache: up to 8,192 context IDs, most recently used first (R146). -/
  cache : List Nat := []
  /-- Contexts being fetched into the cache. -/
  fetching : List Nat := []
  /-- The parse program store: words that are not 0, by rising index (R158). -/
  store : List (Nat × DWord) := []
  calibs : List Calib := []
  poses : List PoseSource := []
  sets : List StreamSet := []
  /-- Points parsed and waiting for de-skew, oldest first. -/
  deskew : List RawPoint := []
  batches : List Batch := []
  /-- Keys in the discovery filter, each with the time of its entry (R179), at most 256. -/
  filter : List (FrameKey × DWord) := []
  discovery : Option HostRing := none
  events : Option HostRing := none
  headLine : Nat := 0
  vector : Nat := 0
  discSeq : Word := 0
  eventSeq : Word := 0
  deriving DecidableEq, Repr, Inhabited

end Sys2Proof.Machine
end

