-- ==== Sys2Proof/Machine/TypesMaps.lean ====
section
/-! DEFINITION. The state of the Canopy engines (10_canopy_dense.md), the Sort Engines (11_sort_select.md) and the
Gather Engines with their prior tables and Burl caches (12_prior_tables.md). Every field with a default has it as its
reset value. Map cells, directory slots, rows and output rows are bytes of the memories and stand nowhere else. -/
namespace Sys2Proof.Machine

/-- Commands and the channel blocks (as a bit mask) that they pin or hold (R318). -/
structure BlockUse where
  cmd : Nat
  mask : Nat
  deriving DecidableEq, Repr, Inhabited

/-- A defined map (R314 to R318). -/
structure CMap where
  id : Nat
  part : Nat
  fmt : Nat
  inHbm : Bool
  bands : Nat
  width : Nat
  height : Nat
  cBlocks : Nat
  firstStem : Nat
  x0 : Int
  y0 : Int
  vx : Nat
  vy : Nat
  ox : Int
  oy : Int
  base : Nat
  t0 : Nat
  m : Nat
  offset : Nat
  /-- Bit cb: block cb valid (R317). -/
  valid : Nat := 0
  pins : List BlockUse := []
  holds : List BlockUse := []
  /-- Firmware holds it for a basic-level command (R8). -/
  firmware : Option Nat := none
  deriving DecidableEq, Repr, Inhabited

/-- A fold, warp or devoxelisation in progress: units completed by each Stem's engine (R332). -/
structure CanopyRun where
  cmd : Nat
  done : List Nat := [0, 0, 0, 0]
  saturated : Nat := 0
  nonfinite : Nat := 0
  absent : Nat := 0
  border : Nat := 0
  probes : Nat := 0
  folded : Nat := 0
  deriving DecidableEq, Repr, Inhabited

/-- What firmware remembers of the previous frame of a RUN for its history map (R329). -/
structure History where
  set : Nat
  /-- The package that keeps the buffers, and the RUN that they were allocated for. -/
  handle : Nat
  cmd : Nat
  window : Int
  tRef : Int
  /-- The latched reference pose of its window, as FP64 patterns (R170, R328). -/
  ref : Option (List DWord) := none
  valid : Bool
  deriving DecidableEq, Repr, Inhabited

/-- The Canopy engines. -/
structure Canopy where
  maps : List CMap := []
  runs : List CanopyRun := []
  history : List History := []
  /-- Stream sets with a history reset pending, and history limits in ms (R334). -/
  resets : List Nat := []
  limits : List (Nat × Nat) := []
  deriving DecidableEq, Repr, Inhabited

/-- The scratch area that firmware has placed for a sort on a Stem (R359, R362). -/
structure ScratchArea where
  stem : Nat
  base : Nat
  bytes : Nat
  deriving DecidableEq, Repr, Inhabited

/-- A sort, top-k, merge or NMS command in progress: for each Stem the row its engine is in and the chunks of that
row it has completed (R357, R360). -/
structure SortRun where
  cmd : Nat
  /-- The Stems whose engines take its rows, rising: the mask's, or those that firmware chose. -/
  stems : List Nat := []
  /-- The scratch areas of a basic-level SORT. -/
  scratch : List ScratchArea := []
  row : List Nat := [0, 0, 0, 0]
  chunk : List Nat := [0, 0, 0, 0]
  rowsDone : Nat := 0
  nanKeys : Nat := 0
  collapsed : Nat := 0
  boxesInvalid : Nat := 0
  iouTests : Nat := 0
  suppressed : Nat := 0
  elements : Nat := 0
  deriving DecidableEq, Repr, Inhabited

/-- NMS parameters that override a package's on a stream set (R362): FP32 patterns, and 0 for the package's max_out. -/
structure NmsOverride where
  set : Nat
  iouThr : Word
  scoreThr : Word
  maxOut : Nat
  deriving DecidableEq, Repr, Inhabited

/-- The Sort Engines. -/
structure SortUnit where
  runs : List SortRun := []
  overrides : List NmsOverride := []
  deriving DecidableEq, Repr, Inhabited

/-- States of a version slot (R375). FREE is the absence of a version. -/
inductive VersionState where
  | building | current | retiring
  deriving DecidableEq, Repr, Inhabited

/-- A live version of a prior table on this chip (R374 to R378). -/
structure Version where
  slot : Nat
  state : VersionState
  gen : Nat
  d : Nat
  dirBase : Nat
  rowBase : Nat
  rowsCap : Nat
  rowsUsed : Nat := 0
  deriving DecidableEq, Repr, Inhabited

/-- A prior table (R371 to R373). -/
structure Prior where
  id : Nat
  part : Nat
  index : Bool
  home : Bool
  /-- The home chip's ID, as the last order from home gave it; this chip's own where it is home. -/
  homeChip : Option Nat := none
  rowBytes : Nat
  members : List Nat
  indexLimit : Nat
  versions : List Version := []
  /-- A destroy that waits for the last pin (R379). -/
  destroyCmd : Option Nat := none
  /-- Home has ordered this member to destroy it: it takes no new lookups, and goes with the last pin (R379). -/
  leaving : Bool := false
  /-- The firmware of another chip's PRIOR_LOAD had it created here, and no version of it has been published yet (R388). -/
  fresh : Bool := false
  /-- Firmware holds it for a basic-level command (R8). -/
  firmware : Option Nat := none
  deriving DecidableEq, Repr, Inhabited

/-- The version that a lookup command pins on this chip (R378). -/
structure Pin where
  cmd : Nat
  table : Nat
  slot : Nat
  gen : Nat
  deriving DecidableEq, Repr, Inhabited

/-- An entry of an engine's coalescing hash (R382): the input of the key's first occurrence, and whether it was hit. -/
structure HashEntry where
  set : Nat
  key : Nat
  first : Nat
  hit : Bool := false
  /-- Whether the first occurrence's row was found, once its output has been written. -/
  result : Option Bool := none
  deriving DecidableEq, Repr, Inhabited

/-- Where one Gather Engine stands in a lookup command (R381, R386): its batch, counted over the command, and the
inputs of that batch it has taken. -/
structure GatherPos where
  engine : Nat
  batch : Nat
  taken : Nat := 0
  hash : List HashEntry := []
  deriving DecidableEq, Repr, Inhabited

/-- What an owner answers a fetch with. -/
inductive FetchAnswer where
  | found (row : List Byte)
  | missing
  | failed (status : Half) (detail : Word)
  deriving DecidableEq, Repr, Inhabited

/-- A fetch in flight (R378, R382): inputs that copy its row are listed with it. -/
structure Fetch where
  id : Nat
  cmd : Nat
  engine : Nat
  table : Nat
  slot : Nat
  gen : Nat
  key : Nat
  owner : Nat
  inputs : List Nat
  answer : Option FetchAnswer := none
  /-- The row is to be copied into the Burl (R383). -/
  promote : Bool := false
  deriving DecidableEq, Repr, Inhabited

/-- A lookup command in progress. -/
structure GatherRun where
  cmd : Nat
  table : Nat
  slot : Nat
  gen : Nat
  positions : List GatherPos := []
  /-- Inputs whose output has been written. -/
  written : Nat := 0
  lookups : Nat := 0
  fetches : Nat := 0
  remoteFetches : Nat := 0
  coalesced : Nat := 0
  bypass : Nat := 0
  burlHits : Nat := 0
  defInvalid : Nat := 0
  defMissing : Nat := 0
  deriving DecidableEq, Repr, Inhabited

/-- A put record on its way to its owner (R376). A default put goes to every member. -/
structure PutRecord where
  cmd : Nat
  table : Nat
  slot : Nat
  gen : Nat
  isDefault : Bool
  key : Nat
  row : List Byte
  /-- The member chip it is for, and the chip that sent it. -/
  owner : Nat
  source : Nat
  /-- What the request that brought it carries: its tag, criticality class and stream. -/
  tag : Nat := 0
  crit : Nat := 0
  stream : Nat := 0
  deriving DecidableEq, Repr, Inhabited

/-- Where a put, a publish or a prior load stands: firmware prepares the other members, records are put, the members are checked, the
members are ordered; a destroy orders its members. -/
inductive PutPhase where
  | prepare | puts | check | order | destroy
  deriving DecidableEq, Repr, Inhabited

/-- The bookkeeping of such a command: answers still to come to its phase, counts so far, and members whose check failed. -/
structure PutRun where
  cmd : Nat
  table : Nat
  slot : Nat := 0
  gen : Nat := 0
  phase : PutPhase
  left : Nat
  replaced : Nat := 0
  refused : Nat := 0
  faults : List Nat := []
  deriving DecidableEq, Repr, Inhabited

/-- A row fetch as its owner receives it (R378): the asking chip, its fetch number, and the pinned version and key. -/
structure FetchRequest where
  chip : Nat
  id : Nat
  table : Nat
  slot : Nat
  gen : Nat
  key : Nat
  /-- What the request that brought it carries: class, stream and comp_width. -/
  crit : Nat := 0
  stream : Nat := 0
  comp : Nat := 0
  deriving DecidableEq, Repr, Inhabited

/-- What firmware tells another member to prepare for a PRIOR_LOAD (R388): the table, and the size of the version. -/
structure PriorPlan where
  part : Nat
  index : Bool
  rowBytes : Nat
  members : List Nat
  indexLimit : Nat
  d : Nat
  rowsCap : Nat
  deriving DecidableEq, Repr, Inhabited

/-- What the home chip asks of a member (R377 to R379, R388, R390): to check a version, to make it CURRENT, to free its slot, to destroy
the table, to prepare a version of a table, to take back what it prepared. -/
inductive MemberAct where
  | check | publish | free | destroy
  | prepare (plan : PriorPlan)
  | undo
  deriving DecidableEq, Repr, Inhabited

/-- An order of the home chip for one member (R377). -/
structure PublishOrder where
  act : MemberAct := .publish
  cmd : Nat
  table : Nat
  slot : Nat
  gen : Nat
  member : Nat
  home : Nat
  tag : Nat := 0
  deriving DecidableEq, Repr, Inhabited

/-- A member's report to the home chip that it no longer pins a version (R378). -/
structure UnpinReport where
  table : Nat
  slot : Nat
  gen : Nat
  member : Nat
  deriving DecidableEq, Repr, Inhabited

/-- A Burl allocation (R384). `next` is a new setting that takes effect at the engines' next chunk boundary. -/
structure BurlAlloc where
  part : Nat
  stem : Nat
  t0 : Nat
  m : Nat
  offset : Nat
  units : Nat
  deriving DecidableEq, Repr, Inhabited

/-- A row cached in a Burl, least recently used first in the list (R383). -/
structure BurlRow where
  stem : Nat
  part : Nat
  table : Nat
  gen : Nat
  key : Nat
  row : List Byte
  deriving DecidableEq, Repr, Inhabited

/-- An entry of a Stem's promotion filter (R383). -/
structure BurlCount where
  stem : Nat
  table : Nat
  gen : Nat
  key : Nat
  count : Nat
  deriving DecidableEq, Repr, Inhabited

/-- The Gather Engines and the prior tables. -/
structure Gather where
  tables : List Prior := []
  pins : List Pin := []
  runs : List GatherRun := []
  fetches : List Fetch := []
  nextFetch : Nat := 0
  puts : List PutRecord := []
  putRuns : List PutRun := []
  orders : List PublishOrder := []
  reports : List UnpinReport := []
  /-- Reports received at home: a version becomes FREE once every member has reported. -/
  reported : List UnpinReport := []
  allocs : List BurlAlloc := []
  nextAllocs : List BurlAlloc := []
  rows : List BurlRow := []
  filter : List BurlCount := []
  /-- When the filter of each Stem was last cleared (R383). -/
  filterAt : List DWord := [0, 0, 0, 0]
  /-- Bound priors: package handle, prior slot, table (R388). -/
  binds : List (Nat × Nat × Nat) := []
  deriving DecidableEq, Repr, Inhabited

end Sys2Proof.Machine
end

