-- ==== Sys2Proof/Machine/TypesSparse.lean ====
section
/-! DEFINITION. The state of the Voxel Hash Engines (06_voxel_hash.md), the Kernel Map Engines and sparse convolutions
(07_sparse_convolution.md), the tile arrays (08_tile_arithmetic.md) and the Twig threads (09_twig_threads.md). Every
field with a default has it as its reset value. Slots, accumulation rows, output rows and spill chunks are bytes of the
memories and stand nowhere else. -/
namespace Sys2Proof.Machine

/-- Voxel-table states (R204). ABSENT is the absence of a table. -/
inductive TableState where
  | empty | filling | final | clearing | failed
  deriving DecidableEq, Repr, Inhabited

/-- A region of Sapwood in each Stem of a table (R197): first tile, log2 of the tile count, offset in each slice. -/
structure SapRegion where
  t0 : Nat
  m : Nat
  offset : Nat
  deriving DecidableEq, Repr, Inhabited

/-- What VHE_CREATE fixes of a table (R188, R215, R216). -/
structure TableCfg where
  log2 : Nat
  /-- Stems of the table: 1, 2 or 4. -/
  n : Nat
  inHbm : Bool
  xStrip : Bool
  halo : Nat
  firstStem : Nat
  reduce : Nat
  splitOp : Nat
  maxCells : Nat
  voxel : List Nat
  batch : Nat
  cIn : Nat
  splitDepth : Nat
  origin : List Int
  sources : Nat
  base : Nat
  accBase : Nat
  slots : SapRegion
  acc : SapRegion
  /-- x_min, x_max, y_min, y_max, z_min, z_max. -/
  crop : List Int
  stripBase : Int
  stripWidth : Nat
  deriving DecidableEq, Repr, Inhabited

/-- Where a finalised table's output rows lie (R219). -/
structure OutPlace where
  fmt : Nat
  inHbm : Bool
  region : SapRegion
  base : Nat
  deriving DecidableEq, Repr, Inhabited

/-- A batch in a table's insert queue (R203, R205). -/
structure QBatch where
  /-- The window of a routed batch; none for a batch of an insert command. -/
  window : Option Int
  final : Bool
  points : List Point
  /-- The batch value of its keys, and the stream set of a routed batch. -/
  batch : Nat
  set : Nat := 0
  /-- The insert command it belongs to, and whether it is that command's last. -/
  cmd : Option Nat
  last : Bool
  /-- Taken for insertion at the head of the queue (R205). -/
  accepted : Bool := false
  deriving DecidableEq, Repr, Inhabited

/-- An order that waits to take effect on a table: VHE_CLEAR or VHE_FINALISE (R218, R219). It remembers how many
batches the queue had accepted, and which commands pinned the table, at its dispatch. -/
structure TableOrder where
  cmd : Nat
  clear : Bool
  waitFinal : Bool
  out : OutPlace
  batchesBefore : Nat
  pinsBefore : List Nat
  deriving DecidableEq, Repr, Inhabited

/-- Counts of a table since its last clear (R210). -/
structure TableCounts where
  cropDrops : Nat := 0
  stalePoints : Nat := 0
  pointsRefused : Nat := 0
  probeExhausted : Nat := 0
  failedPoints : Nat := 0
  haloRefused : Nat := 0
  /-- Bit j: Stem j refused a replica. -/
  haloMask : Nat := 0
  deriving DecidableEq, Repr, Inhabited

/-- A voxel table that exists. -/
structure Table where
  id : Nat
  part : Nat
  cfg : TableCfg
  state : TableState := .empty
  epoch : Nat := 1
  frameTag : Option Int := none
  finalSeen : Bool := false
  overflowed : Bool := false
  haloIncomplete : Bool := false
  /-- Cells created in each Stem's subtable. -/
  cells : List Nat := [0, 0, 0, 0]
  counts : TableCounts := {}
  /-- What the engines have counted since the last clear for points that belong to no command: they are its frame's (R210). -/
  frameCounts : List CountEntry := []
  queue : List QBatch := []
  /-- Batches accepted into the queue so far, held twice (R480), and batches inserted or discarded so far. -/
  accepted : Nat := 0
  acceptedCopy : Nat := 0
  done : Nat := 0
  orders : List TableOrder := []
  /-- Insert commands with records still to queue: command and records queued (R217). -/
  inserts : List (Nat × Nat) := []
  out : Option OutPlace := none
  /-- Commands that pin the table for reading, and the convolution that holds it as its output (R233). -/
  pins : List Nat := []
  heldBy : Option Nat := none
  /-- Firmware holds it for a basic-level command (R8). -/
  firmware : Option Nat := none
  deriving DecidableEq, Repr, Inhabited

/-- Modes of a sparse convolution (R227). -/
inductive ConvMode where
  | dilating | submanifold | strided | transposed
  deriving DecidableEq, Repr, Inhabited

/-- One pair of a kernel map (R238). -/
structure Pair where
  offset : Nat
  outSite : Nat
  inSite : Nat
  remote : Bool
  deriving DecidableEq, Repr, Inhabited

/-- A group of output sites of a Stem (R239 to R243). -/
structure SiteGroup where
  stem : Nat
  num : Nat
  /-- The KME that formed it. -/
  unit : Nat := 0
  /-- Pairs in segment order. Empty once they stand in the spill region only. -/
  pairs : List Pair
  /-- Spill chunks it holds, by index in its quarter, in sequence order. -/
  chunks : List Nat := []
  spilled : Bool := false
  /-- It waits for spill chunks (R240). -/
  waitingChunks : Bool := false
  /-- Spilled and read back. -/
  readBack : Bool := false
  /-- Work items of the group that have not completed. -/
  itemsLeft : Nat
  deriving DecidableEq, Repr, Inhabited

/-- A convolution or map write in progress (R232 to R256). -/
structure Conv where
  cmd : Nat
  mode : ConvMode
  inTable : Nat
  outTable : Nat
  mapOnly : Bool
  /-- Input cells whose candidates have been sent, per Stem (R234). -/
  siteDone : List Nat := [0, 0, 0, 0]
  /-- The site phase has ended, or there is none. -/
  mapPhase : Bool
  /-- Groups formed so far, per Stem. -/
  groupNext : List Nat := [0, 0, 0, 0]
  groups : List SiteGroup := []
  /-- Chunks free in each quarter of the spill region, lowest first. -/
  freeChunks : List (List Nat) := [[], [], [], []]
  groupsSpilled : Nat := 0
  pairTotal : Nat := 0
  candidatesRefused : Nat := 0
  sitesCropped : Nat := 0
  haloFallback : Nat := 0
  deriving DecidableEq, Repr, Inhabited

/-- What a work item computes. -/
inductive ItemKind where
  /-- A group of a convolution and one output-channel block (R243). -/
  | conv (stem group cout : Nat)
  /-- Rows of a TILE_GEMM, from the first on, and an output block (R285); or rows of a TILE_CONVERT (R286). -/
  | gemm (first count nb : Nat)
  | convert (first count : Nat)
  /-- A block row part and an output-channel block of a dense map layer (R324). -/
  | dense (item cout : Nat)
  deriving DecidableEq, Repr, Inhabited

/-- A work item of a command (R243, R279). -/
structure WorkItem where
  cmd : Nat
  kind : ItemKind
  /-- The Stem whose mask it is dealt to, and the logical tile once it has started. -/
  stem : Nat
  tile : Option Nat
  /-- A tile that must take it: the deal of R285. -/
  fixedTile : Option Nat := none
  /-- The half of the accumulator file that a small item occupies (R274). -/
  half : Nat := 0
  passes : Nat := 0
  /-- Broadcasts committed so far. -/
  broadcasts : Nat := 0
  /-- Preempted at its boundary and waiting to resume (R89). -/
  suspended : Bool := false
  done : Bool := false
  deriving DecidableEq, Repr, Inhabited

/-- Thread-slot states (R293). FREE is the absence of a thread. -/
inductive ThreadState where
  | ready | stalled | waiting | suspended | exited
  deriving DecidableEq, Repr, Inhabited

/-- What a stalled thread waits for: the register and the value that arrives (R295). -/
structure PendingResult where
  rd : Nat
  value : DWord
  deriving DecidableEq, Repr, Inhabited

/-- A Twig thread in a slot (R293 to R311). -/
structure Thread where
  stem : Nat
  tile : Nat
  slot : Nat
  cmd : Nat
  index : Nat
  state : ThreadState := .ready
  pc : DWord
  /-- x0 to x31; x0 is 0. -/
  regs : List DWord
  instret : DWord := 0
  pendingResult : Option PendingResult := none
  /-- The Knot wait in progress: rd, Knot and threshold (R302). -/
  knotWait : Option (Nat × Nat × DWord) := none
  /-- It gives up its next issue slot (R300). -/
  yielded : Bool := false
  /-- The result that arrives is an acquire (R298). -/
  acquire : Bool := false
  exitCode : Word := 0
  deriving DecidableEq, Repr, Inhabited

/-- A tile program (R303 to R309). -/
structure Program where
  cmd : Nat
  part : Nat
  entry : Nat
  /-- The slots that its threads take, in the order of their global indices (R305): Stem, tile, slot. -/
  slots : List (Nat × Nat × Nat)
  arg : DWord
  stackBase : Nat
  stackKib : Nat
  limitUs : Nat
  arrayAccess : Bool
  saveBase : Nat
  /-- Four 64-bit masks. -/
  tiles : List Nat
  started : Bool := false
  /-- Since when it has been running, unless it is SUSPENDED on all its tiles, and how long in ns it ran before (R308). -/
  since : Option DWord := none
  ran : Nat := 0
  /-- Tiles on which its threads stop at instruction boundaries, and tiles on which they are SUSPENDED (R307): Stem, tile. -/
  suspending : List (Nat × Nat) := []
  suspended : List (Nat × Nat) := []
  deriving DecidableEq, Repr, Inhabited

/-- A line of an instruction cache or of a read cache: Stem, tile, local line address, bytes. -/
structure CacheLine where
  stem : Nat
  tile : Nat
  line : Nat
  bytes : List Byte
  deriving DecidableEq, Repr, Inhabited

/-- The half of a tile's accumulator file that its last item of 256 entries or fewer took (R274). -/
structure TileHalf where
  stem : Nat
  tile : Nat
  half : Nat
  deriving DecidableEq, Repr, Inhabited

/-- What a tile's Twig keeps: the slot that issued last (R294), and what CSR cycle last read as (R292). -/
structure TwigTile where
  stem : Nat
  tile : Nat
  issued : Nat := 15
  cycle : DWord := 0
  deriving DecidableEq, Repr, Inhabited

/-- Whose work an engine does, and the units of work of that command in the current time slice (R248, R332, R360, R386). -/
structure EngineTurn where
  unit : Nat
  cmd : Nat
  units : Nat
  deriving DecidableEq, Repr, Inhabited

/-- The compute units of the Stems. -/
structure Compute where
  tables : List Table := []
  convs : List Conv := []
  items : List WorkItem := []
  /-- Stochastic-rounding generators: command, Stem, tile, state (R273). -/
  generators : List (Nat × Nat × Nat × DWord) := []
  programs : List Program := []
  threads : List Thread := []
  icache : List CacheLine := []
  rcache : List CacheLine := []
  halves : List TileHalf := []
  /-- The tiles of which a thread has issued. -/
  twigs : List TwigTile := []
  /-- The engines that have served a command, by unit ID. -/
  turns : List EngineTurn := []
  /-- Firmware's spill pool of each partition: partition, base, MiB (R251). -/
  spillPools : List (Nat × Nat × Nat) := []
  deriving DecidableEq, Repr, Inhabited

end Sys2Proof.Machine
end

