-- ==== Sys2Proof/Machine/TypesQueue.lean ====
section
/-! DEFINITION. The state of the queues: rings, groups, commands in flight, Knots, events, held writes (chapter
03_command_queues.md), of the PCIe functions (19_host_interface.md) and of the memories' control logic
(02_memory_and_addresses.md). Every field with a default has it as its reset value. -/
namespace Sys2Proof.Machine

/-- A Sapwood bank (R43, R59). -/
structure BankId where
  stem : Nat
  tile : Nat
  bank : Nat
  deriving DecidableEq, Repr, Inhabited

/-- Submission-ring states (R106). -/
inductive SqState where
  | off | starting | on | draining | error
  deriving DecidableEq, Repr, Inhabited

/-- A submission ring that exists (R71 to R76, R106 to R108). The fetched count is held twice (R98). -/
structure Sq where
  num : Nat
  fn : Nat
  part : Nat
  crit : Nat
  log2 : Nat
  base : Nat
  state : SqState := .off
  fetched : Word := 0
  fetchedCopy : Word := 0
  /-- The tail count last read from the doorbell line. -/
  tail : Word := 0
  reenable : Bool := false
  /-- A drain accepted in STARTING, to take effect at ON (R108). -/
  drainPending : Bool := false
  drainPoint : Word := 0
  /-- A drain of this ring was turned into a kill, or a kill was ordered: commands in flight end KILLED. -/
  killed : Bool := false
  /-- A descriptor read is outstanding for this many descriptors (R76). -/
  reading : Nat := 0
  deriving DecidableEq, Repr, Inhabited

/-- A completion ring that is ON (R92 to R98, R109, R112). The posted count is held twice (R98). -/
structure Cq where
  num : Nat
  fn : Nat
  log2 : Nat
  base : Nat
  vector : Nat
  coalesceCount : Nat := 0
  coalesceUs : Nat := 0
  stallMs : Nat := 0
  posted : Word := 0
  postedCopy : Word := 0
  head : Word := 0
  reserved : Nat := 0
  fault : Bool := false
  /-- irq records written since the vector was last raised (R96). -/
  coalesced : Nat := 0
  /-- When the first of them was written. -/
  coalescedAt : DWord := 0
  /-- The ring has no free slot, and its head line is being read again until one is (R92). -/
  headReading : Bool := false
  deriving DecidableEq, Repr, Inhabited

/-- How the Doorbell Watch polls a line (R77). -/
structure Line where
  group : Nat
  active : Bool := false
  /-- Polling interval in ns: 250 while active, doubling to 16,000 when idle. -/
  intervalNs : Nat := 250
  /-- A read of the line is outstanding. -/
  reading : Bool := false
  /-- The 16 tail counts as the line last delivered them; those not yet delivered count as 0. -/
  tails : List Word := []
  /-- When the line was last read, and when a tail in it last changed. -/
  readAt : Option DWord := none
  changedAt : DWord := 0
  deriving DecidableEq, Repr, Inhabited

/-- A ring group given to a function by GROUP_ALLOC, with its two host lines (R75, R114). -/
structure Group where
  num : Nat
  fn : Nat
  dbLine : Nat
  headLine : Nat
  deriving DecidableEq, Repr, Inhabited

/-- Where a command is between fetch and the write of its last completion record (R84 to R90). `waiting`: in the wait
stage. `running`: dispatched. `finished`: its engine work has ended with the status in the command; it retires next. -/
inductive CmdPhase where
  | waiting | running | finished
  deriving DecidableEq, Repr, Inhabited

/-- A command in flight (R86). -/
structure Cmd where
  id : Nat
  sq : Nat
  fn : Nat
  part : Nat
  crit : Nat
  /-- The base descriptor, then its extension descriptors. -/
  descs : List Desc
  phase : CmdPhase := .waiting
  status : Half := 0
  detail : Word := 0
  startNs : DWord := 0
  /-- The stamp of the event that ended its engine work. -/
  endNs : DWord := 0
  /-- It failed a check of R84: no counter record, and the record goes where R84 says. -/
  failedCheck : Bool := false
  /-- The completion ring it holds a reserved slot in. -/
  slot : Option Nat := none
  /-- Its Knot wait has been met at some test (R100). -/
  waitMet : Bool := false
  /-- Its Knot wait passed knot_wait_ms (R101). -/
  waitSlow : Bool := false
  /-- Ended by a kill of its ring or of its function, or by the safe state. -/
  killed : Bool := false
  /-- Frames completed, for a RUN (R116). -/
  frames : Nat := 0
  twinOutcome : Nat := 0
  counts : List CountEntry := []
  /-- Time of fetch, for its time in the wait stage (R518). -/
  fetchNs : DWord := 0
  /-- When it entered the wait stage; since when it has waited for a completion slot, and that its CQ-stall event has been posted
  (R94, R101). -/
  waitAt : DWord := 0
  slotSince : Option DWord := none
  stalled : Bool := false
  /-- Since when it has lost arbitration to commands of its own class and of higher classes (R88). -/
  lostOwn : Option DWord := none
  lostCross : Option DWord := none
  /-- How many commands had been dispatched before it. -/
  turn : Nat := 0
  /-- TILE_SR_SEED at its dispatch (R273). -/
  srSeed : DWord := 0
  /-- Bytes 0 to 3 of its counter record, as read at dispatch (R516). -/
  counterHdr : Option Nat := none
  /-- Its engine, tiles or firmware have taken it. -/
  started : Bool := false
  /-- Ended by a Function Level Reset: no record of any kind is written for it (R560). -/
  silent : Bool := false
  /-- A RUN whose last frame's record has been written (R116). -/
  recorded : Bool := false
  /-- Dispatched by the physical function's administrative ring while the safe state held: it completes with its own
  status (R458). -/
  safeOwn : Bool := false
  deriving DecidableEq, Repr, Inhabited

/-- An event waiting to be written to a function's administrative completion ring (R97). -/
structure QEvent where
  fn : Nat
  code : Nat
  ring : Nat
  detail : Word
  count : Nat := 1
  firstNs : DWord := 0
  lastNs : DWord := 0
  deriving DecidableEq, Repr, Inhabited

/-- An armed Knot interrupt (R100, R118). -/
structure KnotArm where
  fn : Nat
  vector : Nat
  knot : Nat
  threshold : DWord
  deriving DecidableEq, Repr, Inhabited

/-- A write or message that the Queue Manager owes a function and holds under R595. -/
inductive HeldWrite where
  /-- A completion record for a completion ring; its sq_fetched and phase are set when it is written (R91). -/
  | record (fn cq : Nat) (bytes : List Byte) (irq : Bool)
  /-- An event record: it is waiting to be written, so further occurrences are merged into it (R97). -/
  | event (e : QEvent)
  /-- An MSI-X message that follows records which have been written (R96). -/
  | message (fn vector : Nat)
  /-- A counter record in the host memory window. -/
  | counter (fn : Nat) (addr : Nat) (bytes : List Byte)
  deriving DecidableEq, Repr, Inhabited

/-- A sparse layer of a package, as the growth admission needs it (R252): the mode's code (R227), the layer whose output it
reads and the one whose table is its key set (none: the package's input table), its kernel, the cells of its output's crop
box, its output table, and whether the package accepts its overflow. -/
structure LayerFacts where
  mode : Nat
  input : Option Nat
  keySet : Option Nat
  extent : List Nat
  stride : List Nat
  dilation : List Nat
  cropCells : Nat
  log2 : Nat
  stems : Nat
  xStrip : Bool
  acceptOverflow : Bool
  deriving DecidableEq, Repr, Inhabited

/-- A tile program of a package, as the package declares it and firmware places it (R309): entry, stacks, save area, run limit and
whether it holds the arrays. -/
structure ProgramFacts where
  entry : Nat
  stackBase : Nat := 0
  stackKib : Nat := 0
  saveBase : Nat
  limitUs : Nat := 0
  arrayAccess : Bool := false
  deriving DecidableEq, Repr, Inhabited

/-- The tolerances of a twin comparison (R441, R450): lengths in millimetres, scores in quantised units, FP32 patterns for samples. -/
structure Tolerances where
  posTol : Nat
  sizeTol : Nat
  posQ : Nat
  sizeQ : Nat
  scoreTol : Nat
  missScore : Nat
  bevRel : Word
  bevAbs : Word
  deriving DecidableEq, Repr, Inhabited

/-- The history map of a package (R329): the limit in ms, the two of its maps that firmware alternates as buffers, the map into which the
last buffer is warped with the first block that the warp writes, and whether the warp replicates the border (R341). A map is named by its
place in the package's list. -/
structure HistoryFacts where
  limitMs : Nat
  first : Nat
  second : Nat
  dst : Nat
  dstBlock : Nat := 0
  replicate : Bool := false
  deriving DecidableEq, Repr, Inhabited

/-- A loaded Jegus package: the facts of it that the spec lets the device use (R35, R115, R116). The package format is
the Jegus documentation's, so the facts stand here as loaded. -/
structure Package where
  handle : Nat
  part : Nat
  /-- Least usable Sapwood per Stem, in 128 KiB banks. -/
  minBanks : Nat
  /-- The Sapwood banks that firmware took for it (R65). -/
  banks : List BankId := []
  /-- Logical tiles it needs, one 64-bit mask a Stem. -/
  tiles : List DWord
  /-- Its voxel tables, as firmware places them (R188, R211): those that take the points of the stream set, one, or two that windows
  alternate between. -/
  tables : List TableCfg := []
  /-- The tables of its sparse layers' outputs, as firmware places them (R250). -/
  outTables : List TableCfg := []
  /-- Its maps, as firmware places them (R314). -/
  maps : List CMap := []
  /-- The bounds that it declares for each number of a stream set's own grid (R213). -/
  gridBounds : List (Int × Int) := []
  layers : List LayerFacts := []
  programs : List ProgramFacts := []
  /-- The history map that it names (R329, R334). -/
  history : Option HistoryFacts := none
  /-- Tolerances of its own (R450). -/
  ownTol : Option Tolerances := none
  /-- SHA3-512 digest of the package, as measured (R500). -/
  digest : List Byte := []
  deriving DecidableEq, Repr, Inhabited

/-- A window whose frame has been made ready (R177): its index, its reference time and its end in ns (R163), the ingest counts of the
window and the items lost in it (R178). -/
structure FrameWin where
  k : Int := 0
  tRef : Int := 0
  /-- Its latched reference pose, where a point found one (R170). -/
  ref : Option (List DWord) := none
  stop : Int := 0
  counts : List (Nat × Nat × Nat) := []
  lost : Nat := 0
  deriving DecidableEq, Repr, Inhabited

/-- A RUN in progress (R116). -/
structure Run where
  cmd : Nat
  handle : Nat
  part : Nat
  set : Nat
  frameCount : Nat
  /-- The sequence number of the next frame. -/
  seq : Nat := 0
  /-- Windows that are ready and whose frames have not started, oldest first. -/
  waiting : List FrameWin := []
  /-- A frame of it is running. -/
  frameActive : Bool := false
  /-- The window of the frame that is running. -/
  window : FrameWin := {}
  /-- The history limit in ms of its stream set, and whether a history reset was pending, when the frame started (R334). -/
  historyLimit : Option Nat := none
  historyReset : Bool := false
  /-- The NMS parameters that override the package's for the frame (R362). -/
  nms : Option NmsOverride := none
  /-- A drain of its ring: the current frame is the last (R116). -/
  draining : Bool := false
  /-- The voxel tables that firmware allocated for it, in the order of the package's: those that take points first (R8, R188). -/
  tables : List Nat := []
  /-- The maps that firmware defined for it, in the order of the package's (R8, R314). -/
  maps : List Nat := []
  deriving DecidableEq, Repr, Inhabited

/-- The function that a held write is owed to. -/
def HeldWrite.fn : HeldWrite → Nat
  | .record f _ _ _ => f
  | .event e => e.fn
  | .message f _ => f
  | .counter f _ _ => f

/-- The queues. -/
structure Queues where
  sqs : List Sq := []
  cqs : List Cq := []
  groups : List Group := []
  lines : List Line := []
  cmds : List Cmd := []
  nextCmd : Nat := 0
  /-- Commands dispatched so far. -/
  dispatched : Nat := 0
  events : List QEvent := []
  /-- Knots that do not read 0, in rising order. -/
  knots : List (Nat × DWord) := []
  arms : List KnotArm := []
  held : List HeldWrite := []
  /-- The ring of each criticality class whose descriptors were read last (R87). -/
  turns : List Nat := [0, 0, 0, 0]
  packages : List Package := []
  nextHandle : Nat := 1
  runs : List Run := []
  /-- Submission rings under a latched Bark order (R105, R458). -/
  latched : List Nat := []
  deriving DecidableEq, Repr, Inhabited

/-- Device power state of a function (R548). -/
inductive DState where
  | d0 | d3hot
  deriving DecidableEq, Repr, Inhabited

/-- What PCIe configuration space and BAR4 hold for one function (R554 to R565). -/
structure Fn where
  num : Nat
  busMaster : Bool := false
  /-- ATS is enabled: addresses of the host memory window are translated (R44). -/
  ats : Bool := false
  dstate : DState := .d0
  msixEnable : Bool := false
  fnMask : Bool := false
  /-- Vectors whose mask bit is clear. -/
  unmasked : List Nat := []
  /-- Vectors whose pending bit is set. -/
  pendingVecs : List Nat := []
  /-- BAR2 size in bytes (R561). -/
  bar2Bytes : Nat := 0x40000000
  /-- A Function Level Reset is in progress (R560). -/
  resetting : Bool := false
  /-- Non-fatal and correctable errors logged in AER. -/
  aerNonFatal : Nat := 0
  aerCorrectable : Nat := 0
  deriving DecidableEq, Repr, Inhabited

/-- The PCIe endpoint. -/
structure Pcie where
  /-- One entry for each enabled function. -/
  fns : List Fn := [{ num := 0 }]
  numVfs : Nat := 0
  /-- BAR2 size of every virtual function (R561). -/
  vfBar2Bytes : Nat := 0x40000000
  vfEnable : Bool := false
  /-- Configuration requests are completed normally (R488). -/
  configReady : Bool := false
  /-- Mailbox requests waiting, in the order of their go writes (R501). -/
  mailboxQueue : List Nat := []
  deriving DecidableEq, Repr, Inhabited

/-- The two kinds of error a memory word can hold (R47). -/
inductive EccKind where
  | corrected | uncorrectable
  deriving DecidableEq, Repr, Inhabited

/-- What a zeroing of R65 to R67 clears: a bank, a part of one, or a range of a stack's HBM. -/
inductive Region where
  | bank (b : BankId)
  | burl (stem : Nat) (lo hi : Nat)
  | hbm (stack : Nat) (lo hi : Nat)
  deriving DecidableEq, Repr, Inhabited

/-- A zeroing in progress: a scrub on release (R65), or one that a hand-over waits for, with the partition and the firewall windows
that give it the region (R66, R67). -/
structure HandOver where
  region : Region
  toPart : Option Nat
  windows : List Nat := []
  deriving DecidableEq, Repr, Inhabited

/-- A range of a firewall target and the partition that a window last gave it to: none where a window gave it to every partition. -/
structure Given where
  target : Nat
  lo : Nat
  hi : Nat
  part : Option Nat
  deriving DecidableEq, Repr, Inhabited

/-- The control logic of the memories. -/
structure MemCtl where
  /-- Aligned 8-byte words that hold an error, by local address: HBM and Sapwood (R46, R47, R53). -/
  errs : List (Nat × EccKind) := []
  /-- Soft repairs in progress: stack and row (R49). -/
  softPpr : List (Nat × Nat) := []
  /-- Pseudo-channels whose retirement is queued, oldest first: stack and pseudo-channel (R50). -/
  retireQueue : List (Nat × Nat) := []
  /-- Stacks whose pending slice has been vacated and is being migrated (R51). -/
  migrating : List Nat := []
  /-- Banks in STARTING with a power-down pending (R60). -/
  downPending : List BankId := []
  /-- Banks retired in place (R57). -/
  retired : List BankId := []
  /-- Zeroings in progress. -/
  handOvers : List HandOver := []
  /-- To whom Sapwood and HBM were last given (R66, R67): what no window has covered yet belonged to nobody. -/
  given : List Given := []
  deriving DecidableEq, Repr, Inhabited

end Sys2Proof.Machine
end

