-- ==== Sys2Proof/Machine/TypesSafety.lean ====
section
/-! DEFINITION. The state of Bark and the spares (15_safety_spares.md), of start-up and security
(16_security_startup.md), of observability (17_observability.md), of power (18_power_clocks.md) and of the pins and
rails (20_electrical_package.md). Every field with a default has it as its reset value. -/
namespace Sys2Proof.Machine

/-- A record of Bark's log (R471). -/
structure LogRecord where
  seq : Word
  time : DWord
  source : Nat
  cls : Nat
  reaction : Nat
  kind : Nat
  stem : Nat := 0
  part : Option Nat := none
  logical : Nat := 0
  physical : Nat := 0
  count : Nat := 1
  detail : DWord := 0
  deriving DecidableEq, Repr, Inhabited

/-- The kinds of engine that have a spare on each Stem (R24, BRK_SPARESn). -/
inductive EngineKind where
  | vhe | kme | sort | gather | canopy
  deriving DecidableEq, Repr, Inhabited

/-- What a graft moves (R469). -/
inductive GraftTarget where
  | tile (stem tile : Nat)
  | engine (stem : Nat) (kind : EngineKind) (num : Nat)
  | bank (stem tile bank : Nat)
  | lane (link lane : Nat)
  deriving DecidableEq, Repr, Inhabited

/-- A physical tile position of a Stem, 0 to 67. -/
structure Position where
  stem : Nat
  pos : Nat
  deriving DecidableEq, Repr, Inhabited

/-- How a Core Sample runs (R461, R463). -/
inductive SampleKind where
  | rotation | inPlace
  deriving DecidableEq, Repr, Inhabited

/-- Where a Core Sample stands. `copying`: step 1 of R461. `testing`: steps 2 to 4, or the in-place test.
`waitingIdle`, `waitingBoundary`: an in-place sample that waits for its tile (R463). -/
inductive SampleStep where
  | copying | waitingIdle | waitingBoundary | testing
  deriving DecidableEq, Repr, Inhabited

/-- A Core Sample in progress (R461 to R466). -/
structure Sample where
  stem : Nat
  tile : Nat
  kind : SampleKind
  step : SampleStep
  /-- The position of a rotation sample that is neither a free spare nor the tile's own: the spare that it takes, and from the switch
  on the position under test. -/
  spare : Nat := 0
  /-- When an in-place sample began to wait for its tile to fall idle (R463). -/
  since : DWord := 0
  /-- A wear graft took this sample's move as its own (R467). -/
  asGraft : Bool := false
  deriving DecidableEq, Repr, Inhabited

/-- A requested set of Core Samples (R466, R483). -/
structure SampleSet where
  /-- The BRK_CS_REQUEST command, or none for a twin dispute. -/
  cmd : Option Nat
  /-- Tiles still to sample: Stem and logical tile, in ascending order. -/
  tiles : List (Nat × Nat)
  failures : Nat := 0
  /-- The first tile of the set that was lost: Stem and logical tile. -/
  lost : Option (Nat × Nat) := none
  deriving DecidableEq, Repr, Inhabited

/-- When a logical tile was last sampled, and last sampled with a pass. -/
structure SampleTime where
  stem : Nat
  tile : Nat
  last : DWord
  pass : DWord
  deriving DecidableEq, Repr, Inhabited

/-- A repair that the report of a source started and that has not finished (R49 to R51, R594): a row of a stack, or a
pseudo-channel of one. -/
structure Handling where
  source : Nat
  isRow : Bool
  stack : Nat
  num : Nat
  deriving DecidableEq, Repr, Inhabited

/-- The wear readings of a unit past each threshold on consecutive samples (R468). -/
structure WearCount where
  unit : GraftTarget
  warn : Nat
  graft : Nat
  deriving DecidableEq, Repr, Inhabited

/-- Bark beyond its registers. -/
structure Bark where
  /-- The pins, low while true (R453, R590). -/
  faultLow : Bool := true
  twinFaultLow : Bool := true
  /-- Bark itself is being reset (R452, R581): the source that it reports once it runs again, and whether the safe state was
  entered at that moment, with the rest of R457 still to come. -/
  stopped : Option (Nat × Bool) := none
  graftLog : List LogRecord := []
  faultLog : List LogRecord := []
  graftSeq : Word := 0
  faultSeq : Word := 0
  /-- The flash mirror of the log (R472). -/
  flashGraft : List LogRecord := []
  flashFault : List LogRecord := []
  /-- Time of the last MSI-X message that Bark sent, and a raise held for the end of its millisecond (R455). -/
  lastVectorNs : Option DWord := none
  vectorHeld : Bool := false
  /-- Sources with a fatal report since reset, oldest first (R459). -/
  fatalSeen : List Nat := []
  /-- The latest report with reaction 2: source and time (R459). -/
  lastReaction2 : Option (Nat × DWord) := none
  /-- Repairs that reports have started and that have not finished (R594). -/
  handling : List Handling := []
  samples : List Sample := []
  sampleSets : List SampleSet := []
  /-- When each logical tile was last sampled. -/
  lastSample : List SampleTime := []
  /-- Physical position of each logical tile that is not at its own number: Stem, tile, position (R25). -/
  placed : List (Nat × Nat × Nat) := []
  /-- Positions retired for good. -/
  retiredPos : List Position := []
  /-- Logical tiles lost (R470). -/
  lostTiles : List (Nat × Nat) := []
  /-- Engines lost: Stem, kind and logical number (R470). -/
  lostEngines : List (Nat × EngineKind × Nat) := []
  /-- Engines that a graft has moved to their Stem's spare: Stem, kind and logical number. -/
  onSpare : List (Nat × EngineKind × Nat) := []
  /-- Grafts that are scheduled and not yet done (R468, R527). -/
  graftDue : List GraftTarget := []
  wear : List WearCount := []
  /-- When the delay monitors were last compared (R468). -/
  wearAt : Option DWord := none
  /-- TDMA slot in force on each Stem (R479). -/
  slots : List Nat := [0, 0, 0, 0]
  /-- Time from which the current rotation round of a Stem counts. -/
  roundStart : List DWord := [0, 0, 0, 0]
  deriving DecidableEq, Repr, Inhabited

/-- Start-up stages (R487). -/
inductive Stage where
  | rom | bark | firmware | memory | samples | waitLock | ready | recovery | halt
  deriving DecidableEq, Repr, Inhabited

/-- OTP lifecycle (R495). -/
inductive Lifecycle where
  | manufacture | production | decommissioned
  deriving DecidableEq, Repr, Inhabited

/-- The one-time-programmable memory (R495). -/
structure Otp where
  rootDigests : List (List Byte) := List.replicate 4 (List.replicate 64 0)
  revoked : Nat := 0
  rollback : Nat := 0
  lifecycle : Lifecycle := .production
  debugDisable : Bool := false
  bootModeLock : Bool := false
  serial : DWord := 0
  identitySeed : List Byte := List.replicate 32 0
  deriving DecidableEq, Repr, Inhabited

/-- One copy of the boot directory (R493). -/
structure Directory where
  seq : Word := 0
  preferredB : Bool := false
  trial : Bool := false
  validA : Bool := false
  validB : Bool := false
  crcOk : Bool := false
  deriving DecidableEq, Repr, Inhabited

/-- The boot flash (R492). An image is the list of its bytes. -/
structure Flash where
  present : Bool := true
  dir0 : Directory := {}
  dir1 : Directory := {}
  slotA : List Byte := []
  slotB : List Byte := []
  deriving DecidableEq, Repr, Inhabited

/-- States of a selective IDE stream (R503). -/
inductive IdeState where
  | disabled | secure | insecure
  deriving DecidableEq, Repr, Inhabited

/-- Security beyond its registers. -/
structure Security where
  otp : Otp := {}
  flash : Flash := {}
  /-- PERST# is asserted (R584). -/
  perst : Bool := true
  bootMode : Nat := 0
  /-- Time of the release of PERST# (R488). -/
  releasedAt : DWord := 0
  /-- Verification failures in this start-up (R490). -/
  failures : Nat := 0
  /-- The verified signer key of the running image (R496). -/
  signerKey : List Byte := []
  /-- The live debug challenge: its 64 bytes and its scope (R504). -/
  challenge : Option (List Byte × Nat) := none
  /-- When it was issued. -/
  challengeAt : DWord := 0
  /-- IDE streams 0 to 7. -/
  ide : List IdeState := List.replicate 8 .disabled
  /-- The command whose FIRMWARE_STAGE is running (R507). -/
  staging : Option Nat := none
  /-- The 16 measurement registers (R500). -/
  measure : List (List Byte) := List.replicate 16 (List.replicate 64 0)
  /-- The identity chain that the vendor issued: a CA certificate and the device's own (R499). -/
  chain : List Byte := []
  /-- The device has an identity (R498). -/
  identity : Bool := false
  deriving DecidableEq, Repr, Inhabited

/-- A trace record (R521): its payload as bytes. -/
structure TraceRecord where
  time : DWord
  unit : Nat
  type : Nat
  trigger : Bool
  layerId : Nat
  opId : Nat
  ring : Nat
  part : Nat
  payload : List Byte
  deriving DecidableEq, Repr, Inhabited

/-- A Rings record (R525). -/
structure RingsRecord where
  time : Nat
  event : Nat
  source : Nat
  place : Nat
  opId : Nat
  param : List Byte
  deriving DecidableEq, Repr, Inhabited

/-- A dump that Bark is capturing (R527, R528). -/
structure Dump where
  seq : Word
  reason : Nat
  unit : Nat
  time : DWord
  slot : Nat
  deriving DecidableEq, Repr, Inhabited

/-- Observability beyond its registers. -/
structure Observe where
  /-- Free-running counters that are not 0: unit, counter code, value (R513). -/
  counters : List (Nat × Nat × DWord) := []
  /-- Delta registers that are not 0 (R514). -/
  deltas : List (Nat × Nat × DWord) := []
  /-- The command that each unit is serving or served last (R513): unit, command. -/
  serving : List (Nat × Nat) := []
  /-- The last 64 events of each unit, newest first (R525). -/
  rings : List (Nat × List RingsRecord) := []
  /-- Records of the trace run (R522). -/
  traceCount : Nat := 0
  /-- Records still to write after the trigger. -/
  postLeft : Nat := 0
  dumps : List Dump := []
  dumpSeq : Word := 0
  /-- Units that hung and have committed nothing since (R527). -/
  hung : List Nat := []
  /-- When each unit last committed a unit of work, took up a command's work, or hung (R526, R527). -/
  workAt : List (Nat × DWord) := []
  /-- The perturbation generator (R530). -/
  pertState : DWord := 1
  deriving DecidableEq, Repr, Inhabited

/-- Power beyond its registers (R536 to R550). Pollard's ceilings in units of 25 MHz, one entry a Stem. -/
structure Power where
  tileCeil : List Nat := [48, 48, 48, 48]
  engineCeil : List Nat := [40, 40, 40, 40]
  /-- The last loop found the power below 97 % of the cap (R539, R541). -/
  headroom : Bool := false
  /-- The power readings of the last millisecond in mW, newest first, and tenths of a µJ that PWR_ENERGY does not show yet (R552). -/
  recent : List Nat := []
  energyRem : Nat := 0
  /-- Time up to which PWR_STEMn_THROTTLE has been counted (R552). -/
  throttleAt : DWord := 0
  /-- Stems with a power-down pending in STARTING (R481), and those that were ON before D3hot (R550). -/
  downPending : List Nat := []
  wasOn : List Nat := []
  /-- The STEM_POWER command that waits for a Stem's OFF or ON. -/
  offCmds : List (Nat × Nat) := []
  onCmds : List (Nat × Nat) := []
  deriving DecidableEq, Repr, Inhabited

/-- What leaves the device other than through memory: the model's own record of outputs, newest first. -/
inductive Output where
  /-- An MSI-X message. -/
  | msix (fn vector : Nat)
  /-- A frame sent on a sensor port. -/
  | frame (port : Nat) (bytes : List Byte)
  /-- A PTP message sent on a sensor port in a profile, and so in its transport (R128): its message type, its time and, for an
  Announce, clock class and priority2. -/
  | ptp (port profile : Nat) (layer2 : Bool) (kind : Nat) (time : DWord) (info : List Nat)
  /-- A management or protocol packet, or a flit, sent on a Wober link. -/
  | packet (link : Nat) (bytes : List Byte)
  /-- A history buffer, copied to the twin partner (R436): stream set, package digest and window, and the buffer's contents. -/
  | historyCopy (set : Nat) (digest : List Byte) (window : Int) (bytes : List Byte)
  /-- A completion of a host request: the function, its kind (0 data, 1 Completer Abort, 2 Request Retry Status, 3
  Unsupported Request) and its data. -/
  | completion (fn kind : Nat) (bytes : List Byte)
  /-- A read of host memory that the device issues: the function that is its requester, the host address and the length. -/
  | hostRead (fn addr len : Nat)
  /-- A write through the host memory window: its requester, the host address and the bytes (R44). -/
  | hostWrite (fn addr : Nat) (bytes : List Byte)
  /-- A PCIe AtomicOp: its requester, the host address and the operation's code (R64). -/
  | hostAtomic (fn addr op : Nat)
  deriving DecidableEq, Repr, Inhabited

end Sys2Proof.Machine
end

