-- ==== Sys2Proof/Machine/TypesCommand.lean ====
section
/-! DEFINITION. The operands of the commands that carry more than numbers: what the environment supplies with an event. -/
namespace Sys2Proof.Machine

/-- Bytes that the host has stored in its memory and that are visible when a read of the device is served. -/
structure HostStore where
  addr : Nat
  bytes : List Byte
  deriving DecidableEq, Repr, Inhabited

/-- What Bark decides, from its history, that an HBM report needs (R49, R50). -/
inductive Repair where
  | none
  /-- A soft post-package repair of this row of the stack. -/
  | row (stack row : Nat)
  /-- The retirement of this pseudo-channel of the stack. -/
  | pseudoChannel (stack pc : Nat)
  deriving DecidableEq, Repr, Inhabited

/-- An error report (R455, R471). -/
structure Report where
  source : Nat
  stem : Nat := 0
  part : Option Nat := none
  logical : Nat := 0
  physical : Nat := 0
  detail : DWord := 0
  repair : Repair := .none
  deriving DecidableEq, Repr, Inhabited

/-- The facts of a Jegus package image that PACKAGE_LOAD checks (R35, R115). The image format is the Jegus
documentation's, so what firmware reads out of it stands here. -/
structure PackageFacts where
  minBanks : Nat
  tiles : List DWord
  hbmBytes : Nat := 0
  /-- As in a loaded package (R188, R211, R213, R314). -/
  tables : List TableCfg := []
  outTables : List TableCfg := []
  maps : List CMap := []
  gridBounds : List (Int × Int) := []
  layers : List LayerFacts := []
  programs : List ProgramFacts := []
  history : Option HistoryFacts := none
  ownTol : Option Tolerances := none
  digest : List Byte := []
  /-- Firmware's reason code when it rejects the image itself: 0 for none. -/
  reason : Word := 0
  deriving DecidableEq, Repr, Inhabited

/-- What a frame of a RUN produced (R116, R437 to R440): the status its layers ended with, the NMS records that the
package declares as its signature source, the declared map, the logical tiles that ran it, and the history layer's rows. -/
structure FrameFacts where
  status : Half := 0
  detail : Word := 0
  boxes : List (List Byte) := []
  map : Option Nat := none
  tiles : List DWord := []
  /-- The rows that the history layer wrote: column, row, channel block and bytes (R329). -/
  history : List (Nat × Nat × Nat × List Byte) := []
  deriving DecidableEq, Repr, Inhabited

/-- A flit as the peer sent it (its bytes 0 to 227 and its CRC), and the byte errors the wire added: position in the
256-byte flit and difference (R397). -/
structure FlitIn where
  sent : List Byte
  errors : List (Nat × Byte) := []
  deriving DecidableEq, Repr, Inhabited

/-- What the two ends of a link exchange in training (R400). -/
structure TrainFacts where
  chip : Nat
  link : Nat
  role : Nat
  dims : Nat
  standby : Bool
  digest : List Byte
  deriving DecidableEq, Repr, Inhabited

/-- A delay-monitor reading of a unit (R468): the increase in parts per thousand. -/
structure WearReading where
  unit : GraftTarget
  increase : Nat
  deriving DecidableEq, Repr, Inhabited

end Sys2Proof.Machine
end

