-- ==== Sys2Proof/Syntax.lean ====
section
/-! DEFINITION. The commands of the block: one constructor for each row of spec/opcode_table.json, in the table's order.
A command is a register access, a bus or protocol operation, an event on a pin or the step of an engine. Operands named
`cmd` are the number of a command in flight (R86), whose descriptors the state holds; the other operands name units and
carry what the environment supplies. -/
namespace Sys2Proof
open Sys2Proof.Machine

/-- A command of the block. -/
inductive Instr where
  /-- REGISTER_WRITE (R12). A BAR0 write to a register that has no row of its own sets, ignores or clamps the field as
  its access code and description state. -/
  | registerWrite (fn off bytes : Nat) (value : DWord)
  /-- SENSOR_PORT_LINK_UP (R27). A sensor port's link comes up, which is allowed only after the time tree is
  calibrated. -/
  | sensorPortLinkUp (port : Nat)
  /-- BARK_REPORT (R455). An error report reaches Bark, which stamps it, logs it, counts it and applies the source's
  reaction. -/
  | barkReport (report : Report)
  /-- BARK_VECTOR_HOLD_EXPIRE (R455). The 1 ms vector limit ends, and one merged MSI-X message is sent for the held
  raises. -/
  | barkVectorHoldExpire
  /-- PATROL_SCRUB (R48). Patrol scrub reads HBM words on its interval and applies the HBM error rules to each. -/
  | patrolScrub (addr : Nat) (found : Option EccKind)
  /-- SOFT_PPR_COMPLETE (R49). A soft repair finishes, the row contents are written back, held accesses resume and
  Bark logs a kind 7 record. -/
  | softPprComplete (stack row : Nat)
  /-- VACATED_ACK (R51). Software writes 1 to HBM_STACKn_RETIRE_ACK.vacated, which starts line migration when a
  retirement is pending. -/
  | vacatedAck (stack : Nat)
  /-- RETIRE_MIGRATION_DONE (R51). Migration completes, retired_pc_mask is set, retire_pending clears, Bark is told
  and any queued retirement starts. -/
  | retireMigrationDone (stack : Nat)
  /-- SAP_TILE_PWR_REQ_WRITE (R59). A write to SAP_TILE_PWR_REQ before the set-up lock requests banks on or off. -/
  | sapTilePwrReqWrite (stem tile : Nat) (value : Word)
  /-- BANK_POWER_UP_DONE (R58). A bank finishes zeroing and passes from STARTING to ON, applying any pending
  power-down. -/
  | bankPowerUpDone (stem tile bank : Nat)
  /-- BANK_DRAIN_DONE (R59). A DRAINING bank reaches OFF and, if reenable_pending is set, passes straight to STARTING.
  -/
  | bankDrainDone (stem tile bank : Nat)
  /-- BANK_RETIRE (R57). At the next pass boundary Bark retires a Sapwood bank in place when no spare position
  remains. -/
  | bankRetire (stem tile bank : Nat)
  /-- SAPWOOD_SCRUB_DONE (R66). Zeroing of Sapwood banks or a Burl allocation ends, and the hand-over to the new
  partition completes. -/
  | sapwoodScrubDone (index : Nat)
  /-- HBM_ZERO_DONE (R67). Zeroing of an HBM region ends, and its hand-over to another partition completes. -/
  | hbmZeroDone (index : Nat)
  /-- ADMIN_CFG_ENABLE (R72). A write of enable to CRN_ADMIN_CFG turns the administrative rings ON, or is refused with
  cfg_error set. -/
  | adminCfgEnable (fn : Nat) (value : Word)
  /-- DOORBELL_POLL (R77). The Doorbell Watch's poll interval for a doorbell line expires, and it issues a read of the
  line. -/
  | doorbellPoll (group : Nat)
  /-- LINE_IDLE_TIMEOUT (R77). idle_after_us passes with no tail change, and the line's polling interval starts to
  back off. -/
  | lineIdleTimeout (group : Nat)
  /-- DOORBELL_READ_RETURN (R76). A doorbell line read returns or fails; tails are checked and descriptor reads are
  issued. -/
  | doorbellReadReturn (group : Nat) (ok : Bool) (stores : List HostStore)
  /-- DESCRIPTOR_FETCH_RETURN (R84). Fetched descriptors return and each chain is checked in the order of R84. -/
  | descriptorFetchReturn (sq : Nat) (ok : Bool) (stores : List HostStore)
  /-- COMMAND_DISPATCH (R87). A ready command whose wait, fence, slot, pins and arbitration allow it is dispatched to
  its engine, tiles or firmware. -/
  | commandDispatch (cmd : Nat)
  /-- COMMAND_RETIRE (R90). A command's outputs become visible, its signal Knot is incremented and its completion
  record is written. -/
  | commandRetire (cmd : Nat)
  /-- HEAD_LINE_READ_RETURN (R93). A re-read of a completion ring's head line returns, and the head count is accepted
  or rejected. -/
  | headLineReadReturn (cq : Nat) (ok : Bool) (stores : List HostStore)
  /-- CQ_STALL_TIMEOUT (R94). A command has waited for a completion slot past the stall timeout, and a CQ-stall event
  is posted. -/
  | cqStallTimeout (cmd : Nat)
  /-- CQ_COALESCE_TIMEOUT (R96). coalesce_us passes after the first irq record, and the completion ring's vector is
  raised. -/
  | cqCoalesceTimeout (cq : Nat)
  /-- KNOT_WAIT_TIMEOUT (R101). A Knot wait passes knot_wait_ms unmet, and a Knot-wait event is posted. -/
  | knotWaitTimeout (cmd : Nat)
  /-- BUS_MASTER_CHANGE (R595). A function's bus mastering is enabled or disabled, which holds or releases its
  completion writes. -/
  | busMasterChange (fn : Nat) (on : Bool)
  /-- SQ_CREATE (R111). Creates a submission ring in state OFF in a group of the submitting function. -/
  | sqCreate (cmd : Nat)
  /-- CQ_CREATE (R112). Creates a completion ring and turns it ON. -/
  | cqCreate (cmd : Nat)
  /-- RING_ENABLE (R107). A RING_STATE enable moves a ring toward STARTING and ON, or sets reenable_pending on a
  draining ring. -/
  | ringEnable (cmd : Nat)
  /-- RING_START_READ_RETURN (R107). The tail read of an enabling ring returns; the fetched count is set and the ring
  goes ON, or to ERROR on failure. -/
  | ringStartReadReturn (sq : Nat) (ok : Bool) (stores : List HostStore)
  /-- RING_DRAIN (R107). A RING_STATE drain sets a drain point and lets the ring run to OFF. -/
  | ringDrain (cmd : Nat) (ok : Bool) (stores : List HostStore)
  /-- RING_KILL (R107). A RING_STATE kill stops fetching and terminates every command in flight with KILLED. -/
  | ringKill (cmd : Nat)
  /-- RING_DELETE_SQ (R107). A RING_STATE delete removes an OFF submission ring. -/
  | ringDeleteSq (cmd : Nat)
  /-- RING_DELETE_CQ (R109). A RING_STATE delete removes a completion ring that no command in flight names. -/
  | ringDeleteCq (cmd : Nat)
  /-- GROUP_ALLOC (R114). Gives a group of 16 rings, with its doorbell and head lines, to the submitting function. -/
  | groupAlloc (cmd : Nat)
  /-- GROUP_FREE (R110). Frees a group of the function when none of its rings exist. -/
  | groupFree (cmd : Nat)
  /-- PACKAGE_LOAD (R115). Checks a Jegus package against the partition's resources and returns a handle. -/
  | packageLoad (cmd : Nat) (facts : PackageFacts)
  /-- PACKAGE_UNLOAD (R110). Releases a loaded package that no RUN uses. -/
  | packageUnload (cmd : Nat)
  /-- RUN (R116). Runs a compiled package on a stream set for a count of frames or continuously. -/
  | run (cmd : Nat)
  /-- RUN_FRAME_COMPLETE (R116). A frame of a RUN finishes, its signature is handled and its per-frame completion
  record is written. -/
  | runFrameComplete (cmd : Nat) (facts : FrameFacts)
  /-- BANK_POWER (R117). Powers Sapwood banks of a logical tile up or down under the bank state rules. -/
  | bankPower (cmd : Nat)
  /-- NOP (R110). Does nothing and completes. -/
  | nop (cmd : Nat)
  /-- KNOT_SIGNAL (R118). Adds an increment to a local or remote Knot. -/
  | knotSignal (cmd : Nat)
  /-- KNOT_RESET (R118). Sets a local Knot to a given value. -/
  | knotReset (cmd : Nat)
  /-- KNOT_ARM (R118). Arms a one-shot MSI-X interrupt on a local Knot threshold. -/
  | knotArm (cmd : Nat)
  /-- PPS_IN_EDGE (R125). A PPS_IN edge is accepted or rejected and drives locking and the time-of-day setting. -/
  | ppsInEdge (err : Int)
  /-- TIME_INPUT_LOSS (R125). PPS_IN or 10 MHz is missing for 2 s, which moves the time unit to HOLDOVER or FREERUN.
  -/
  | timeInputLoss
  /-- HOLDOVER_EXPIRED (R125). holdover_max_s passes in HOLDOVER, holdover_expired is set and the clock class falls to
  248. -/
  | holdoverExpired
  /-- TIM_NEXT_SEC_WRITE (R126). Software writes the TAI second of the next PPS edge, to be applied or rejected with
  tod_conflict. -/
  | timNextSecWrite (value : DWord)
  /-- TOD_CONFLICT_CLEAR (R137). A write of 1 to TIM_STATUS.tod_conflict clears it. -/
  | todConflictClear
  /-- TIM_NOW_LOW_READ (R137). A read of TIM_NOW bits 31:0 latches bits 63:32 for the next read. -/
  | timNowLowRead
  /-- PPS_OUT_EDGE (R131). At each whole second, PPS_OUTn rises and any free-running time-of-day write is applied. -/
  | ppsOutEdge (out : Nat)
  /-- PPS_OUT_FALL (R131). width_us after its rising edge, PPS_OUTn falls. -/
  | ppsOutFall (out : Nat)
  /-- PTP_SYNC_TX (R128). A grandmaster port sends a two-step Sync and its Follow_Up at the sync rate. -/
  | ptpSyncTx (port : Nat)
  /-- PTP_ANNOUNCE_TX (R128). A grandmaster port sends its once-per-second Announce. -/
  | ptpAnnounceTx (port : Nat)
  /-- PTP_DELAY_REQ (R128). A port answers a received Delay_Req or Pdelay_Req. -/
  | ptpDelayReq (port : Nat) (peer : Bool) (stamp : DWord)
  /-- PTP_ANNOUNCE_RX (R129). A received Announce is counted as foreign, or puts the port in PASSIVE when it comes
  from the twin partner. -/
  | ptpAnnounceRx (port : Nat) (fromPartner : Bool)
  /-- PTP_PASSIVE_TIMEOUT (R129). Three Announce intervals pass without partner Announces, and the port returns to
  grandmaster. -/
  | ptpPassiveTimeout (port : Nat)
  /-- TREE_CALIBRATED (R132). Start-up calibration of every time-tree leaf completes and tree_calibrated is set. -/
  | treeCalibrated
  /-- FOLLOWER_DELAY_MEASURE (R134). Every 125 ms a follower measures its upstream link delay both ways and corrects
  its time. -/
  | followerDelayMeasure (t1 t2 t3 t4 : DWord) (rootClass : Nat)
  /-- SENSOR_FRAME_RX (R140). A frame arrives on a sensor port and is discarded, answered, passed to the time unit or
  queued to a context. -/
  | sensorFrameRx (port : Nat) (frame : List Byte) (fcsOk : Bool)
  /-- CONTEXT_FETCH_DONE (R146). A context that missed the on-die cache arrives from HBM, and its waiting frames can
  proceed. -/
  | contextFetchDone (ctx : Nat)
  /-- FRAME_PARSE (R152). A free parse engine takes the oldest FIFO head frame and parses it whole by its context's
  path. -/
  | frameParse (port : Nat)
  /-- POINT_DESKEW (R168). A point enters a de-skew pipeline, gets its time, window and pose, and is transformed and
  stored or dropped. -/
  | pointDeskew
  /-- CONTEXT_AGEING_CHECK (R149). The periodic check ages silent contexts to SILENT or FREE and posts events. -/
  | contextAgeingCheck (ctx : Nat)
  /-- DISCOVERY_HOLDOFF_EXPIRE (R179). holdoff_ms passes, and an unknown key leaves the discovery filter. -/
  | discoveryHoldoffExpire (key : FrameKey)
  /-- INGEST_HEAD_LINE_READ (R180). A re-read of the discovery and event queue head line returns, and the entry is
  written or overwrites an unread one. -/
  | ingestHeadLineRead (ok : Bool) (stores : List HostStore)
  /-- BATCH_TIMEOUT (R175). batch_timeout_us passes after a batch's first record, and the batch is pushed. -/
  | batchTimeout (set : Nat)
  /-- BATCH_PUSH (R176). A batch of ingest point records moves to its voxel insert queue once credit is available. -/
  | batchPush (set : Nat)
  /-- WINDOW_CLOSE (R164). A sweep window reaches its end plus grace, closes, marks its open batch final and starts
  re-expression. -/
  | windowClose (set : Nat)
  /-- WINDOW_FRAME_READY (R177). The final live and re-expressed batches of a window are pushed, close_knot is
  incremented and a RUN frame starts. -/
  | windowFrameReady (set : Nat)
  /-- STREAM_SET_CONFIG (R183). Configures a stream set's period, depth, pose source and limits under admission
  control. -/
  | streamSetConfig (cmd : Nat)
  /-- SENSOR_ADD (R182). Writes a context image as a new stream context. -/
  | sensorAdd (cmd : Nat)
  /-- SENSOR_REMOVE (R182). Makes a context FREE. -/
  | sensorRemove (cmd : Nat)
  /-- TEMPLATE_SET (R182). Writes a template context for admission. -/
  | templateSet (cmd : Nat)
  /-- CALIB_LOAD (R182). Loads a calibration table. -/
  | calibLoad (cmd : Nat)
  /-- POSE_SOURCE_CONFIG (R182). Configures a pose source. -/
  | poseSourceConfig (cmd : Nat)
  /-- POSE_PUSH (R166). Pushes pose records from the host to a pose source, accepting or rejecting each. -/
  | posePush (cmd : Nat)
  /-- INGEST_QUEUES (R182). Sets up the discovery and event queues. -/
  | ingestQueues (cmd : Nat)
  /-- SENSOR_READ (R182). Copies a 128-byte context to memory. -/
  | sensorRead (cmd : Nat)
  /-- CTX_WRITE (R184). Expert write of context bytes 0 to 79. -/
  | ctxWrite (cmd : Nat)
  /-- CTX_READ (R184). Expert read of a context. -/
  | ctxRead (cmd : Nat)
  /-- PROGRAM_LOAD (R184). Loads parse program instructions into the program store. -/
  | programLoad (cmd : Nat)
  /-- SET_WRITE (R184). Expert write of a stream set's full settings. -/
  | setWrite (cmd : Nat)
  /-- VHE_BATCH_ACCEPT (R205). A batch at the head of a table's insert queue is taken for insertion, discarded as
  stale, or held. -/
  | vheBatchAccept (table : Nat)
  /-- VHE_CHUNK (R208). An engine inserts one chunk of up to 4,096 records, creating, refusing or replicating cells.
  -/
  | vheChunk (table : Nat)
  /-- VOXEL_GRID_SET (R213). Sets a stream set's voxel grid for the next RUN and reruns admission. -/
  | voxelGridSet (cmd : Nat)
  /-- VOXEL_ADMIT_CHECK (R213). Computes admission for a package on a stream set without change. -/
  | voxelAdmitCheck (cmd : Nat)
  /-- VHE_CREATE (R215). Creates and zeroes a voxel table. -/
  | vheCreate (cmd : Nat)
  /-- VHE_CLEAR (R218). Orders a table clear. -/
  | vheClear (cmd : Nat)
  /-- VHE_CLEAR_EFFECT (R218). Once earlier batches are inserted and pins retired, the table passes through CLEARING
  to EMPTY. -/
  | vheClearEffect (table : Nat)
  /-- VHE_INSERT (R217). Inserts ingest point records from memory into a table. -/
  | vheInsert (cmd : Nat)
  /-- VHE_FINALISE (R219). Orders finalisation of a table. -/
  | vheFinalise (cmd : Nat)
  /-- VHE_FINALISE_EFFECT (R219). Once earlier batches and final_seen allow, output rows are written and the table
  becomes FINAL. -/
  | vheFinaliseEffect (table : Nat)
  /-- VHE_LOOKUP (R220). Looks up points or keys and writes site IDs. -/
  | vheLookup (cmd : Nat)
  /-- VHE_DESTROY (R214). Destroys a table. -/
  | vheDestroy (cmd : Nat)
  /-- MAXPROBE_READ (R222). A read of VHE_STEMn_MAXPROBE returns max_probe and clears it. -/
  | maxprobeRead (stem : Nat)
  /-- SPARSE_ADMIT_CHECK (R252). Checks growth admission for every layer of a package. -/
  | sparseAdmitCheck (cmd : Nat)
  /-- SPILL_POOL_SET (R251). Sets the spill region for firmware-run layers of the partition. -/
  | spillPoolSet (cmd : Nat)
  /-- KME_CONV (R254). Runs a sparse convolution layer. -/
  | kmeConv (cmd : Nat)
  /-- KME_MAP_WRITE (R256). Builds and writes kernel-map pairs as spill chunks without arithmetic. -/
  | kmeMapWrite (cmd : Nat)
  /-- KME_SITE_CHUNK (R234). A KME forms candidate keys for a chunk of input cells and sends them to the owning VHEs.
  -/
  | kmeSiteChunk (cmd stem : Nat)
  /-- SITE_PHASE_END (R234). Every Stem has sent and inserted its candidates, and the output table becomes FINAL. -/
  | sitePhaseEnd (cmd : Nat)
  /-- KME_GROUP (R239). A KME probes a group's input keys, sorts pairs into segments and streams or spills them. -/
  | kmeGroup (cmd stem : Nat)
  /-- SPILL_CHUNK_CLAIM (R240). A waiting group gets the spill chunks it needs once other groups give them back. -/
  | spillChunkClaim (cmd stem group : Nat)
  /-- SPILL_READBACK (R242). A spill chunk read back from HBM is checked and replayed. -/
  | spillReadback (cmd stem group : Nat)
  /-- SPILL_USE_READ (R258). A read of KME_STEMn_SPILL_USE returns high_water and clears it. -/
  | spillUseRead (stem : Nat)
  /-- WORK_ITEM_START (R243). A ready work item goes to the next free tile of the mask. -/
  | workItemStart (index : Nat)
  /-- CONV_PASS (R245). A tile completes a convolution pass, saving its accumulator image or writing output rows. -/
  | convPass (index : Nat)
  /-- GEMM (R282). Basic-level matrix product with firmware-chosen tiles. -/
  | gemm (cmd : Nat)
  /-- CONVERT (R282). Basic-level row format conversion. -/
  | convert (cmd : Nat)
  /-- TILE_GEMM (R283). Expert dense matrix product on the tile arrays. -/
  | tileGemm (cmd : Nat)
  /-- TILE_CONVERT (R286). Expert row conversion with scale and ReLU. -/
  | tileConvert (cmd : Nat)
  /-- GEMM_PASS (R278). A tile completes a pass of a TILE_GEMM or TILE_CONVERT work item. -/
  | gemmPass (index : Nat)
  /-- TWIG_RUN (R303). Expert launch of a tile program on chosen slots and tiles. -/
  | twigRun (cmd : Nat)
  /-- PROGRAM_RUN (R309). Basic-level launch of a package's tile program. -/
  | programRun (cmd : Nat)
  /-- TWIG_THREADS_START (R306). When every named slot is free, a program's threads start at entry with their initial
  registers. -/
  | twigThreadsStart (cmd : Nat)
  /-- TWIG_INTEGER_OP (R295). A thread issues an integer or branch instruction. -/
  | twigIntegerOp (thread : Nat)
  /-- TWIG_MULDIV (R295). A thread issues a multiply or divide. -/
  | twigMuldiv (thread : Nat)
  /-- TWIG_LOAD (R296). A thread issues a load to a permitted region. -/
  | twigLoad (thread : Nat)
  /-- TWIG_LOAD_RETURN (R295). A stalled thread's load, AMO, multiply, divide or fetch result arrives and the thread
  becomes READY. -/
  | twigLoadReturn (thread : Nat)
  /-- TWIG_STORE (R296). A thread issues a store. -/
  | twigStore (thread : Nat)
  /-- TWIG_AMO (R298). A thread issues a 64-bit AMO executed as a memory-side atomic. -/
  | twigAmo (thread : Nat)
  /-- TWIG_CSR_READ (R292). A thread reads cycle, time, instret or twtid. -/
  | twigCsrRead (thread : Nat)
  /-- TWIG_FENCE (R298). A FENCE acts as release followed by acquire. -/
  | twigFence (thread : Nat)
  /-- FENCE_I (R292). FENCE.I invalidates the tile's instruction cache. -/
  | fenceI (thread : Nat)
  /-- ECALL_EBREAK (R291). ECALL or EBREAK raises the break exception. -/
  | ecallEbreak (thread : Nat)
  /-- TWIG_ILLEGAL_INSTRUCTION (R310). An unsupported or illegal instruction raises the illegal-instruction exception
  and fails the program. -/
  | twigIllegalInstruction (thread : Nat)
  /-- TW_ACQ (R300). Acquire; invalidates the tile's read cache. -/
  | twAcq (thread : Nat)
  /-- TW_REL (R300). Release. -/
  | twRel (thread : Nat)
  /-- TW_YIELD (R300). The thread gives up its next issue slot. -/
  | twYield (thread : Nat)
  /-- TW_EXIT (R308). The thread ends with an exit code; the last exit completes the command. -/
  | twExit (thread : Nat)
  /-- TW_TIME (R300). Reads time-tree time. -/
  | twTime (thread : Nat)
  /-- TW_TID (R300). Reads the identity word. -/
  | twTid (thread : Nat)
  /-- KNOT_SIG (R302). A thread signals a local or remote Knot with release semantics. -/
  | knotSig (thread : Nat)
  /-- KNOT_WAIT (R302). A thread waits on a local Knot with acquire semantics. -/
  | knotWait (thread : Nat)
  /-- KNOT_RD (R302). A thread reads a local Knot. -/
  | knotRd (thread : Nat)
  /-- TW_CAS (R300). A thread performs a 64-bit compare-and-swap. -/
  | twCas (thread : Nat)
  /-- TWIG_SUSPEND_DONE (R307). A preempted or moved program's threads finish saving and enter SUSPENDED. -/
  | twigSuspendDone (cmd : Nat)
  /-- TWIG_RESUME (R307). Suspended threads resume on the same logical tiles once they are free. -/
  | twigResume (cmd : Nat)
  /-- TWIG_WATCHDOG (R308). A program's running time passes run_limit_us, and it fails with TWIG_WATCHDOG. -/
  | twigWatchdog (cmd : Nat)
  /-- HISTORY_RESET (R334). Requests a history reset for the next frame of a stream set. -/
  | historyReset (cmd : Nat)
  /-- HISTORY_LIMIT (R334). Sets a stream set's history limit. -/
  | historyLimit (cmd : Nat)
  /-- CNP_MAP_DEFINE (R336). Defines a map's geometry, format and placement. -/
  | cnpMapDefine (cmd : Nat)
  /-- CNP_MAP_FREE (R319). Frees a map once it can hold every block. -/
  | cnpMapFree (cmd : Nat)
  /-- CNP_FOLD (R320). Folds a FINAL voxel table along z into a map. -/
  | cnpFold (cmd : Nat)
  /-- CNP_DENSE (R323). Runs a dense convolution layer on a map. -/
  | cnpDense (cmd : Nat)
  /-- CNP_WARP (R327). Warps a source map into destination blocks. -/
  | cnpWarp (cmd : Nat)
  /-- CNP_DEVOX (R330). Scatters rows or labels from cells back to points. -/
  | cnpDevox (cmd : Nat)
  /-- CANOPY_UNIT (R332). A Canopy engine completes one unit of a fold, warp or devoxelisation. -/
  | canopyUnit (cmd stem : Nat)
  /-- DENSE_PASS (R325). A tile completes a pass of a dense map work item. -/
  | densePass (index : Nat)
  /-- SORT (R362). Basic-level stable sort. -/
  | sort (cmd : Nat)
  /-- TOPK (R362). Basic-level top-k selection. -/
  | topk (cmd : Nat)
  /-- MERGE (R362). Basic-level merge of sorted lists. -/
  | merge (cmd : Nat)
  /-- NMS (R362). Basic-level non-maximum suppression. -/
  | nms (cmd : Nat)
  /-- NMS_OVERRIDE (R362). Overrides a package's NMS parameters for a stream set. -/
  | nmsOverride (cmd : Nat)
  /-- SRT_SORT (R350). Expert stable sort of rows. -/
  | srtSort (cmd : Nat)
  /-- SRT_TOPK (R350). Expert top-k of rows with sentinel padding. -/
  | srtTopk (cmd : Nat)
  /-- SRT_MERGE (R351). Expert merge of 2 to 16 sorted lists. -/
  | srtMerge (cmd : Nat)
  /-- SRT_NMS (R355). Expert rotated-box NMS of rows. -/
  | srtNms (cmd : Nat)
  /-- SORT_CHUNK (R360). A Sort Engine completes one chunk of elements or IoU tests. -/
  | sortChunk (cmd stem : Nat)
  /-- PRIOR_LOAD (R388). Creates, builds, fills and publishes a prior table from an image. -/
  | priorLoad (cmd : Nat)
  /-- PRIOR_BIND (R388). Binds a prior table to a package slot. -/
  | priorBind (cmd : Nat)
  /-- BURL_SIZE (R388). Sizes the partition's Burl allocations. -/
  | burlSize (cmd : Nat)
  /-- GTH_TABLE_CREATE (R392). Creates a prior table on this member chip. -/
  | gthTableCreate (cmd : Nat)
  /-- GTH_VERSION_BUILD (R376). Moves a FREE version slot to BUILDING and zeroes it. -/
  | gthVersionBuild (cmd : Nat)
  /-- GTH_PUT (R376). Sends records to their owners for a BUILDING version. -/
  | gthPut (cmd : Nat)
  /-- PUT_RECORD_AT_OWNER (R376). An owner receives a put record, claims a slot and writes, replaces or refuses the
  row. -/
  | putRecordAtOwner (record : PutRecord)
  /-- GTH_PUBLISH (R377). The home chip publishes a version to every member. -/
  | gthPublish (cmd : Nat)
  /-- PUBLISH_ORDER (R377). A member applies a publish order, making the slot CURRENT and the previous one RETIRING.
  -/
  | publishOrder (order : PublishOrder)
  /-- GTH_GATHER (R391). Looks up rows by key or index and writes them. -/
  | gthGather (cmd : Nat)
  /-- GATHER_CHUNK (R386). A Gather Engine processes one chunk of inputs through validity, coalescing, Burl and fetch.
  -/
  | gatherChunk (cmd engine : Nat)
  /-- PRIOR_FETCH_REQUEST (R378). An owner serves a row fetch from the pinned version. -/
  | priorFetchRequest (request : FetchRequest)
  /-- GATHER_FETCH_RETURN (R378). A fetched row returns and is written, copied to coalesced slots, or promoted to the
  Burl. -/
  | gatherFetchReturn (fetch : Nat)
  /-- BURL_WINDOW_EXPIRE (R383). burl_window_us passes, and the Burl promotion filter is cleared. -/
  | burlWindowExpire (stem : Nat)
  /-- VERSION_UNPIN_REPORT (R378). The home chip receives a member's last unpin and frees the RETIRING slot on every
  member. -/
  | versionUnpinReport (report : UnpinReport)
  /-- GTH_BURL_SET (R384). Sets a partition's Burl allocation on a Stem. -/
  | gthBurlSet (cmd : Nat)
  /-- GTH_TABLE_DESTROY (R390). Destroys a prior table on every member. -/
  | gthTableDestroy (cmd : Nat)
  /-- FLIT_RX (R397). A flit arrives on a link and is corrected, checked, acknowledged and unpacked. -/
  | flitRx (link : Nat) (flit : FlitIn)
  /-- REPLAY_TIMEOUT (R398). ack does not advance for 256 flit times, and the sender resends from the first
  unacknowledged flit. -/
  | replayTimeout (link : Nat)
  /-- LANE_SPARE_SWITCH (R399). Both ends switch the spare lane in at an agreed flit boundary. -/
  | laneSpareSwitch (link lane : Nat)
  /-- LINK_TRAINING_DONE (R400). A link finishes training after the set-up lock and enters UP, MISMATCH or WIRING. -/
  | linkTrainingDone (link : Nat) (facts : TrainFacts)
  /-- LINK_TRAINING_RETRY (R400). A link in MISMATCH or WIRING retries training each second. -/
  | linkTrainingRetry (link : Nat)
  /-- PACKET_FORWARD (R406). A packet not for this chip is routed and sent once the next hop has credit. -/
  | packetForward (index : Nat)
  /-- READ (R405). A READ packet at its target reads memory and returns READ_DATA or an ACK with a status. -/
  | read (packet : Packet)
  /-- WRITE (R405). A WRITE packet at its target writes dense or compressed data. -/
  | write (packet : Packet)
  /-- ATOMIC (R405). An ATOMIC packet at its target performs the atomic and ACKs the previous value. -/
  | atomic (packet : Packet)
  /-- KNOT_SIGNAL_PACKET (R405). A KNOT_SIGNAL packet signals a Knot at its target. -/
  | knotSignalPacket (packet : Packet)
  /-- READ_DATA (R405). Read data returns to the requester. -/
  | readData (packet : Packet)
  /-- ACK (R405). An ACK returns status to the requester, completing a request or counting toward a multicast. -/
  | ack (packet : Packet)
  /-- MCAST_WRITE (R413). A multicast write is written locally and copied onward over its box. -/
  | mcastWrite (packet : Packet)
  /-- MGMT (R405). A management packet, such as a heartbeat, time or firmware message, is handled. -/
  | mgmt (packet : Packet)
  /-- RESERVED_PACKET_TYPE (R405). A packet of a reserved type is discarded and reported to Bark. -/
  | reservedPacketType (packet : Packet)
  /-- HEARTBEAT_TX (R415). Every 1 ms a heartbeat MGMT packet is sent on each UP link. -/
  | heartbeatTx
  /-- HEARTBEAT_MISS (R415). Three heartbeats are missed on a link, which goes DOWN. -/
  | heartbeatMiss (link : Nat)
  /-- REQUEST_TIMEOUT (R418). A fabric request has no response after req_timeout_us, and its command fails with
  FABRIC_TIMEOUT. -/
  | requestTimeout (index : Nat)
  /-- DETOUR_COMMIT (R417). Root firmware commits precomputed detour tables after a failure. -/
  | detourCommit (tables : List RouteEntry)
  /-- ROUTE_CHANGE_DRAINED (R417). No old-epoch packet remains, and the old bank becomes inactive. -/
  | routeChangeDrained
  /-- ACTING_ROOT_TIMEOUT (R422). One second after the root is lost, the lowest eligible chip becomes acting root. -/
  | actingRootTimeout
  /-- LINK_SERVICE_OUT (R425). Commits detours, then takes a link out into SERVICE. -/
  | linkServiceOut (cmd : Nat)
  /-- LINK_SERVICE_RETURN (R425). Returns a link from SERVICE. -/
  | linkServiceReturn (cmd : Nat)
  /-- ROUTE_REBUILD (R425). Firmware computes, checks and commits tables for all current failures. -/
  | routeRebuild (cmd : Nat)
  /-- WBL_ROUTE_LOAD (R425). Writes a route table into this chip's inactive bank. -/
  | wblRouteLoad (cmd : Nat)
  /-- WBL_ROUTE_COMMIT (R417). Checks the banks for cycles and performs the epoch change. -/
  | wblRouteCommit (cmd : Nat)
  /-- WBL_ALIAS_SET (R421). Sets or removes an alias on every chip. -/
  | wblAliasSet (cmd : Nat)
  /-- LINK_RETRAIN_ORDER (R425). WBL_LINK_ORDER retrains a link. -/
  | linkRetrainOrder (cmd : Nat)
  /-- LINK_FORCE_SPARE (R425). WBL_LINK_ORDER forces the spare lane in. -/
  | linkForceSpare (cmd : Nat)
  /-- LINK_DOWN_ORDER (R425). WBL_LINK_ORDER takes a link down. -/
  | linkDownOrder (cmd : Nat)
  /-- TWIN_PAIR (R447). Starts or requests pairing with the twin for a list of stream sets and packages. -/
  | twinPair (cmd : Nat)
  /-- TWIN_DETACH (R446). Sends LEAVING at the next frame boundary and detaches to SOLO. -/
  | twinDetach (cmd : Nat)
  /-- TWN_SIG_EXCHANGE (R448). Exchanges a caller-built signature with the partner and compares it. -/
  | twnSigExchange (cmd : Nat)
  /-- TWN_COPY (R448). Copies local data to the partner. -/
  | twnCopy (cmd : Nat)
  /-- HELLO (R432). The partner's HELLO arrives for the handshake. -/
  | hello (message : List Byte)
  /-- CERT (R433). The partner's certificate arrives and is verified. -/
  | cert (message : List Byte)
  /-- PROOF (R433). The partner's proof signature arrives and is verified. -/
  | proof (message : List Byte)
  /-- ROLE (R431). The partner's role message arrives and is checked for agreement. -/
  | role (message : List Byte)
  /-- SYNC_DATA (R434). Lead state arrives at the shadow and is applied and confirmed. -/
  | syncData (message : List Byte)
  /-- SYNC_DONE (R436). The lead's k0 arrives at the shadow. -/
  | syncDone (message : List Byte)
  /-- SIGNATURE (R441). A partner's frame signature arrives and the frame is compared. -/
  | signature (message : List Byte)
  /-- VERDICT (R443). The partner's Core Sample verdict of a dispute arrives and is recorded. -/
  | verdict (message : List Byte)
  /-- LEAVING (R445). A LEAVING message from the partner moves this chip to SOLO. -/
  | leaving (message : List Byte)
  /-- SYNC_TIMEOUT (R434). SYNC does not complete within sync_timeout_s, and both chips return to WAIT_LINK. -/
  | syncTimeout
  /-- HISTORY_COPY_ARRIVE (R436). The lead's history buffer copy reaches the shadow, and both enter PAIRED. -/
  | historyCopyArrive (message : List Byte)
  /-- SIG_WAIT_TIMEOUT (R442). The partner's signature is late by sig_wait_us, and the frame counts as a late dispute.
  -/
  | sigWaitTimeout
  /-- TWIN_FAULT_IN (R445). TWIN_FAULT_IN_N goes low, and the chip enters SOLO. -/
  | twinFaultIn
  /-- LOCKSTEP_MISMATCH (R452). Bark's cores disagree; hardware drives the fault pins low and resets Bark. -/
  | lockstepMismatch
  /-- BARK_CLOCK_LOST (R452). The missing-clock detector finds Bark's oscillator stopped and does the same. -/
  | barkClockLost
  /-- BARK_RESTART (R452). Bark restarts from its boot ROM and finds the device in SAFE. -/
  | barkRestart
  /-- MGMT_HEARTBEAT_MISS (R452). A management core misses its 10 ms heartbeat, reporting source 0x02. -/
  | mgmtHeartbeatMiss (core : Nat)
  /-- SAFE_RELEASE (R459). Asks Bark to release the safe state after its checks. -/
  | safeRelease (cmd : Nat)
  /-- FAULT_LOG_READ (R482). Copies log records to host memory. -/
  | faultLogRead (cmd : Nat)
  /-- BRK_CS_REQUEST (R483). Requests Core Samples of a set of tiles. -/
  | brkCsRequest (cmd : Nat)
  /-- CORE_SAMPLE_START (R461). A rotation lane takes the oldest tile and starts copying its slice to a free spare
  position. -/
  | coreSampleStart (stem : Nat)
  /-- CORE_SAMPLE_SWITCH (R461). At the tile's pass boundary its state moves to the spare position. -/
  | coreSampleSwitch (stem tile : Nat)
  /-- IN_PLACE_SAMPLE_TAKE (R463). An in-place lane takes an idle tile, or one at its requested pass boundary, and
  saves its accumulators. -/
  | inPlaceSampleTake (stem tile : Nat)
  /-- IN_PLACE_LAG_EXPIRE (R463). lag_us passes without the tile falling idle, and Bark requests its next pass
  boundary. -/
  | inPlaceLagExpire (stem tile : Nat)
  /-- CORE_SAMPLE_COMPLETE (R465). The golden run ends, and the signature is compared, passing or failing the
  position. -/
  | coreSampleComplete (stem tile : Nat) (pass : Bool)
  /-- CS_CFG_WRITE (R464). A write to BRK_CS_CFG is accepted or refused with cfg_error. -/
  | csCfgWrite (value : Word)
  /-- SRC_CFG_WRITE (R455). A write to BRK_SRCs_CFG sets a reaction, storing 2 for a 3. -/
  | srcCfgWrite (source : Nat) (value : Word)
  /-- WEAR_SAMPLE (R468). Bark reads the delay monitors against their baselines and warns or schedules grafts. -/
  | wearSample (readings : List WearReading)
  /-- GRAFT (R469). At the unit's boundary a tile, engine, bank or lane moves to a spare, or the unit is lost. -/
  | graft (target : GraftTarget)
  /-- LOG_FLASH_WRITE (R472). Bark writes graft and fault records to the boot flash mirror. -/
  | logFlashWrite
  /-- TDMA_SLOT_CHANGE (R479). A TDMA slot begins and work of excluded partitions is preempted. -/
  | tdmaSlotChange (stem : Nat)
  /-- PERST_RELEASE (R487). PERST# is released, latching the boot mode and starting the boot ROM. -/
  | perstRelease (bootMode outOfOrder : Nat)
  /-- PERST_ASSERT (R584). PERST# is asserted, which resets the device except Bark's always-on domain. -/
  | perstAssert
  /-- PCIE_CONFIG_REQUEST (R488). A configuration request is answered with Request Retry Status or completed. -/
  | pcieConfigRequest (fn offset : Nat) (write : Bool) (value : Word)
  /-- BOOT_ROM_COMPLETE (R487). The ROM finishes verifying and loading Bark firmware, or restarts or halts on a
  failure. -/
  | bootRomComplete
  /-- BARK_FIRMWARE_COMPLETE (R487). Bark firmware finishes loading the management firmware and the stage becomes
  FIRMWARE. -/
  | barkFirmwareComplete (ok : Bool)
  /-- GRAFT_LOG_APPLIED (R472). The graft section is read and applied, and the stage becomes MEMORY. -/
  | graftLogApplied
  /-- MEMORY_STAGE_COMPLETE (R487). HBM training, Sapwood BIST and tree calibration finish, and the stage becomes
  SAMPLES. -/
  | memoryStageComplete (ok : Bool) (deadStacks : Nat)
  /-- SAMPLES_STAGE_COMPLETE (R487). Every position has been sampled, and the stage moves to WAIT_LOCK or READY. -/
  | samplesStageComplete (failed : List Position)
  /-- FIRMWARE_STAGE (R506). Writes and verifies an image in the slot that is not running. -/
  | firmwareStage (cmd : Nat)
  /-- FIRMWARE_ACTIVATE_TRIAL (R493). FIRMWARE_ACTIVATE with action 0 prefers the staged slot on trial from the next
  reset. -/
  | firmwareActivateTrial (cmd : Nat)
  /-- FIRMWARE_ACTIVATE_COMMIT (R493). FIRMWARE_ACTIVATE with action 1 commits the running slot and clears seen. -/
  | firmwareActivateCommit (cmd : Nat)
  /-- OTP_ORDER (R497). Applies a signed order to revoke a root slot. -/
  | otpOrder (cmd : Nat)
  /-- ROLLBACK_COMMIT (R497). Blows rollback bits up to the running sec_version. -/
  | rollbackCommit (cmd : Nat)
  /-- MEASURE_EXTEND (R500). Extends a host measurement register. -/
  | measureExtend (cmd : Nat)
  /-- SEC_HASH (R508). Computes SHA3-512 of a region. -/
  | secHash (cmd : Nat)
  /-- SEC_VERIFY (R508). Verifies an ML-DSA-87 signature. -/
  | secVerify (cmd : Nat)
  /-- ATTEST (R502). Mailbox request that writes a signed attestation report. -/
  | attest (fn : Nat)
  /-- CERT_READ (R501). Mailbox request that writes the identity chain. -/
  | certRead (fn : Nat)
  /-- DEBUG_CHALLENGE (R504). Mailbox request that issues a debug challenge. -/
  | debugChallenge (fn : Nat)
  /-- DEBUG_RESPONSE (R505). Mailbox request that checks a debug response and unlocks or refuses. -/
  | debugResponse (fn : Nat)
  /-- RECOVERY_BLOCK (R501). Mailbox request that writes recovery image data to slot B, verifying on the last block.
  -/
  | recoveryBlock (fn : Nat)
  /-- CHALLENGE_EXPIRE (R504). A debug challenge expires 60 s after issue. -/
  | challengeExpire
  /-- IDE_INTEGRITY_FAILURE (R503). An IDE stream fails integrity, enters Insecure and is counted and reported through
  AER. -/
  | ideIntegrityFailure (stream : Nat) (cmd : Option Nat)
  /-- SPDM_MESSAGE (R503). An SPDM or IDE_KM message over DOE is handled, for example programming IDE keys. -/
  | spdmMessage (message : List Byte)
  /-- TRACE_START (R522). TRACE_CTRL starts tracing and resets the record count. -/
  | traceStart (cmd : Nat)
  /-- TRACE_STOP (R532). TRACE_CTRL stops tracing. -/
  | traceStop (cmd : Nat)
  /-- TRACE_TRIGGER_NOW (R523). TRACE_CTRL triggers the trace. -/
  | traceTriggerNow (cmd : Nat)
  /-- TRACE_SET_MODE (R532). TRACE_CTRL sets the trace mode. -/
  | traceSetMode (cmd : Nat)
  /-- TRACE_MARK (R532). Emits a marker trace record. -/
  | traceMark (cmd : Nat)
  /-- DUMP_REQUEST (R532). Asks Bark for a dump with reason 2. -/
  | dumpRequest (cmd : Nat)
  /-- UNIT_HANG (R527). A unit commits no unit of work for wd_us, so it is dumped and its input queue is reset. -/
  | unitHang (unit : Nat)
  /-- HANG_GRAFT_TIMEOUT (R527). A hung unit still commits nothing after a further wd_us, and it is grafted or lost.
  -/
  | hangGraftTimeout (unit : Nat)
  /-- DUMP_WRITTEN (R528). Bark finishes writing a dump into its slot, copies it to the host and raises the vector. -/
  | dumpWritten
  /-- DUMP_SLOT_FREE (R528). A write of 1 to TRC_DUMP_STATUS.slot_full frees a dump slot. -/
  | dumpSlotFree (slot : Nat)
  /-- PERT_REGISTER_WRITE (R530). A write to a perturbation register takes effect only while the perturbation scope is
  unlocked. -/
  | pertRegisterWrite (fn off bytes : Nat) (value : DWord)
  /-- POLLARD_LOOP (R538). Every 100 µs Pollard compares package power with the cap and moves ceilings. -/
  | pollardLoop (milliwatts : Nat)
  /-- THERMAL_SAMPLE (R543). Every 100 µs tile temperatures are read and thermal ceilings moved. -/
  | thermalSample (temps : List (List Nat))
  /-- POWER_CAP (R538). Sets the Pollard cap. -/
  | powerCap (cmd : Nat)
  /-- STEM_POWER_OFF (R545). Orders a Stem off after ownership checks. -/
  | stemPowerOff (cmd : Nat)
  /-- STEM_POWER_ON (R547). Orders a Stem on, or sets reenable_pending on a draining Stem. -/
  | stemPowerOn (cmd : Nat)
  /-- STEM_OFF_DONE (R546). A draining Stem reaches OFF. -/
  | stemOffDone (stem : Nat)
  /-- STEM_START_DONE (R547). A starting Stem finishes calibration, self-refresh exit and in-place samples, and
  reaches ON. -/
  | stemStartDone (stem : Nat) (failed : List Position)
  /-- PMCSR_D3HOT (R549). A write of D3hot to a function's PMCSR kills its remaining rings and enters D3hot. -/
  | pmcsrD3hot (fn : Nat)
  /-- PMCSR_D0 (R550). A write of D0 returns a function from D3hot and restarts its Stems. -/
  | pmcsrD0 (fn : Nat)
  /-- PCIE_LINK_RETRAIN (R556). The PCIe link retrains to a new speed or width and reports to AER. -/
  | pcieLinkRetrain (speed width : Nat)
  /-- FUNCTION_LEVEL_RESET (R560). A Function Level Reset of a function kills its rings and stops its requests. -/
  | functionLevelReset (fn : Nat)
  /-- FLR_COMPLETE (R560). The last command of a reset function retires; its rings, groups and registers return to
  reset. -/
  | flrComplete (fn : Nat)
  /-- VF_ENABLE_WRITE (R558). Setting VF Enable creates virtual functions; clearing it resets them all. -/
  | vfEnableWrite (enable : Bool) (numVfs : Nat)
  /-- BAR2_READ (R563). A host read through BAR2 reaches local space or completes with Completer Abort. -/
  | bar2Read (fn offset len : Nat)
  /-- BAR2_WRITE (R563). A host write through BAR2 reaches local space or is dropped. -/
  | bar2Write (fn offset : Nat) (data : List Byte)
  /-- MSIX_UNMASK (R565). A vector or function mask clears, and a pending message is sent. -/
  | msixUnmask (fn : Nat) (vector : Option Nat)
  /-- SETUP_LOCK_WRITE (R567). A write of PCI_SETUP_LOCK.lock runs the checks and sets the lock or lock_error. -/
  | setupLockWrite (fn : Nat) (value : Word)
  /-- FN_LOCK_WRITE (R568). A write of PCI_FN_LOCK.lock sets the function's own lock. -/
  | fnLockWrite (fn : Nat) (value : Word)
  /-- RAIL_TRIP (R581). A rail monitor trips, reporting source 0x03, or resets Bark when a Bark rail trips. -/
  | railTrip (rail : Nat)
  /-- VDD_BARK_POWER_ON (R586). VDD_BARK powers on, clearing Bark's always-on domain. -/
  | vddBarkPowerOn
  /-- TIME_INPUTS_RETURN (R125). PPS_IN and the 10 MHz input are both present again, which moves the time unit from
  HOLDOVER, or from FREERUN with source_sel 1, to LOCKING. -/
  | timeInputsReturn
  /-- WINDOW_START (R183). A stream set's window starts, the next window opens, and settings written by
  STREAM_SET_CONFIG take effect with accumulated sweeps discarded. -/
  | windowStart (set : Nat)
  /-- SENSOR_PORT_LINK_DOWN (R186). A sensor port's Ethernet link is lost and SIU_PORTp_CFG.link_up clears. -/
  | sensorPortLinkDown (port : Nat)
  deriving DecidableEq, Repr

end Sys2Proof
end

