-- ==== Sys2Proof/Decode.lean ====
section
/-! DEFINITION. The block's commands have no encoding: no row of spec/opcode_table.json gives bits (its `fields` lists are
empty), because a command is an event at the block and not a word that it fetches. Descriptors, which do have bits, are
decoded where the Queue Manager checks them (Machine/Descriptor.lean). -/
namespace Sys2Proof

/-- The command that a word spells by the table's bits: none, for every word. -/
def decodeTableWord (_nbits _w : Nat) : Option Instr := none

end Sys2Proof
end

