-- ==== Sys2Proof/Machine/Bits.lean ====
section
/-! DEFINITION. Bit fields, sign extension, byte order (R10, R11) and saturating counts. -/
namespace Sys2Proof.Machine

/-- Bits `lo + w - 1` down to `lo` of a number. -/
def getBits (x lo w : Nat) : Nat := (x >>> lo) % 2 ^ w

/-- A number with bit b set. -/
def setBit (x b : Nat) : Nat := x ||| (1 <<< b)

/-- A number with bit b clear. -/
def clearBit (x b : Nat) : Nat := if x.testBit b then x - (1 <<< b) else x

/-- A number with bit b at a given value. -/
def putBit (x b : Nat) (v : Bool) : Nat := if v then setBit x b else clearBit x b

/-- The number with field `lo`, `w` replaced. -/
def putBits (x lo w v : Nat) : Nat := x - (getBits x lo w <<< lo) + ((v % 2 ^ w) <<< lo)

/-- The value of w bits read as two's complement. -/
def toSigned (w x : Nat) : Int := if x % 2 ^ w < 2 ^ (w - 1) then (x % 2 ^ w : Nat) else ((x % 2 ^ w : Nat) : Int) - (2 ^ w : Nat)

/-- The w-bit pattern of an integer, wrapping. -/
def ofSigned (w : Nat) (x : Int) : Nat := (x % ((2 ^ w : Nat) : Int)).toNat

/-- Little-endian bytes as a number (R10). -/
def bytesToNat : List Byte → Nat
  | [] => 0
  | b :: r => b.toNat + 256 * bytesToNat r

/-- The n low bytes of a number, little-endian (R10). -/
def natToBytes : Nat → Nat → List Byte
  | 0, _ => []
  | n + 1, x => BitVec.ofNat 8 x :: natToBytes n (x / 256)

/-- Big-endian bytes as a number (network order). -/
def bytesToNatBE (b : List Byte) : Nat := bytesToNat b.reverse

/-- The n low bytes of a number, big-endian. -/
def natToBytesBE (n x : Nat) : List Byte := (natToBytes n x).reverse

/-- n bytes from position i of a list, zero beyond its end. -/
def slice (b : List Byte) (i n : Nat) : List Byte :=
  let t := (b.drop i).take n
  t ++ List.replicate (n - t.length) 0

/-- The little-endian number of n bytes at position i. -/
def leAt (b : List Byte) (i n : Nat) : Nat := bytesToNat (slice b i n)

/-- The big-endian number of n bytes at position i. -/
def beAt (b : List Byte) (i n : Nat) : Nat := bytesToNatBE (slice b i n)

/-- A count that stops at the largest value of w bits. -/
def satTo (w x : Nat) : Nat := min x (2 ^ w - 1)

/-- The positions of the set bits of a mask below n, rising. -/
def bitList (n mask : Nat) : List Nat := (List.range n).filter (fun i => mask.testBit i)

/-- The number of set bits below n. -/
def popCount (n mask : Nat) : Nat := (bitList n mask).length

/-- Element i of a list, or a default. -/
def nth {α : Type} (d : α) (l : List α) (i : Nat) : α := (l[i]?).getD d

/-- A list with element i replaced by a function of it. -/
def updAt {α : Type} (l : List α) (i : Nat) (f : α → α) : List α := l.modify i f

/-- Every element that a test picks is replaced by a function of it. -/
def updWhere {α : Type} (l : List α) (p : α → Bool) (f : α → α) : List α := l.map (fun x => if p x then f x else x)

/-- The integer rounded down of a quotient of integers with a positive divisor. -/
def floorDiv (a b : Int) : Int := Int.fdiv a b

/-- The smallest number of pieces of size b that cover a. -/
def ceilDiv (a b : Nat) : Nat := if b = 0 then 0 else (a + b - 1) / b

/-- Ones in the w low bits. -/
def lowMask (w : Nat) : DWord := BitVec.ofNat 64 (2 ^ w - 1)

end Sys2Proof.Machine
end

