-- ==== Sys2Proof/Machine/Flags.lean ====
section
/-! DEFINITION. Completion statuses (R16 to R18, R119, R484): the class of a status, and which status a command carries when
several conditions meet. The codes of an engine's own range stand with the engine. -/
namespace Sys2Proof.Machine

/-- SUCCESS. -/
def stSuccess : Half := 0x0000
/-- WAIT_SLOW (R101). -/
def stWaitSlow : Half := 0x0001
/-- COUNTER_RECORD_FAILED (R519). -/
def stCounterFailed : Half := 0x0002
/-- KNOT_WRAP (R102). -/
def stKnotWrap : Half := 0x0003
/-- BAD_OPCODE (R84). -/
def stBadOpcode : Half := 0x0040
/-- RESERVED_FIELD (R84). -/
def stReservedField : Half := 0x0041
/-- BAD_VALUE (R84). -/
def stBadValue : Half := 0x0042
/-- CHAIN (R84). -/
def stChain : Half := 0x0043
/-- ADDRESS (R42). -/
def stAddress : Half := 0x0044
/-- OWNERSHIP (R84). -/
def stOwnership : Half := 0x0045
/-- RESOURCE (R35, R114). -/
def stResource : Half := 0x0046
/-- KILLED (R107). -/
def stKilled : Half := 0x0047
/-- LATCHED (R105). -/
def stLatched : Half := 0x0048
/-- NOT_ADMIN (R84). -/
def stNotAdmin : Half := 0x0049
/-- RING_STATE (R107). -/
def stRingState : Half := 0x004A
/-- CQ_INVALID (R84). -/
def stCqInvalid : Half := 0x004B
/-- FIRMWARE (R119). -/
def stFirmware : Half := 0x004C
/-- UNREACHABLE (R41, R401). -/
def stUnreachable : Half := 0x0840
/-- UNCORRECTABLE (R47, R53). -/
def stUncorrectable : Half := 0x0A40
/-- SAFE_STATE (R458). -/
def stSafeState : Half := 0x0A41
/-- FIREWALL (R476). -/
def stFirewall : Half := 0x0A42
/-- QUEUE_RESET (R480). -/
def stQueueReset : Half := 0x0A43
/-- UNIT_LOST (R470, R483). -/
def stUnitLost : Half := 0x0A44
/-- CRIT_DENIED (R477). -/
def stCritDenied : Half := 0x0A45
/-- RELEASE_REFUSED (R459). -/
def stReleaseRefused : Half := 0x0A46

/-- A failure: a low byte of 0x40 or more (R17). -/
def isFailure (st : Half) : Bool := decide (0x40 ≤ st.toNat % 256)

/-- A reported condition: a low byte of 0x01 to 0x3F (R17). -/
def isCondition (st : Half) : Bool := decide (0 < st.toNat % 256) && decide (st.toNat % 256 < 0x40)

/-- The status of the least code among conditions that a command met, with its detail; SUCCESS where there is none. -/
def leastCode : List (Half × Word) → Half × Word
  | [] => (stSuccess, 0)
  | c :: r =>
    let d := leastCode r
    if d.1 = stSuccess then c else if c.1.toNat ≤ d.1.toNat then c else d

/-- The status and detail that a command carries when it meets another condition (R17, R210): a failure that it holds
stays, a new failure replaces a condition, and between conditions the lower code wins. -/
def combine (a b : Half × Word) : Half × Word :=
  if isFailure a.1 then a
  else if isFailure b.1 then b
  else if a.1 = stSuccess then b
  else if b.1 = stSuccess then a
  else if b.1.toNat < a.1.toNat then b else a

/-- A detail that holds a count, saturating at 32 bits. -/
def satDetail (n : Nat) : Word := BitVec.ofNat 32 (satTo 32 n)

end Sys2Proof.Machine
end

