-- ==== Sys2Proof/Machine/Mem.lean ====
section
/-! DEFINITION. A memory as a list of (address, byte) pairs in one canonical form: addresses strictly rising, and no
entry equal to what an unlisted address reads as, which is zero. -/
namespace Sys2Proof.Machine

/-- What a byte that the list does not hold reads as. Sapwood reads as zero after power-up (R58); for HBM, the host's
memory and the accumulator files it is a DESIGN CHOICE. -/
def unlisted : Byte := 0

/-- One byte. -/
def memGet : List Host.Cell → Nat → Byte
  | [], _ => unlisted
  | (k, v) :: r, a => if k = a then v else memGet r a

/-- One byte stored. -/
def memSet : List Host.Cell → Nat → Byte → List Host.Cell
  | [], a, v => if v = unlisted then [] else [(a, v)]
  | (k, w) :: r, a, v =>
    if a < k then (if v = unlisted then (k, w) :: r else (a, v) :: (k, w) :: r)
    else if a = k then (if v = unlisted then r else (a, v) :: r)
    else (k, w) :: memSet r a v

/-- n bytes from an address, lowest first. -/
def memRead (m : List Host.Cell) : Nat → Nat → List Byte
  | _, 0 => []
  | a, n + 1 => memGet m a :: memRead m (a + 1) n

/-- Bytes stored from an address, lowest first. -/
def memWrite (m : List Host.Cell) : Nat → List Byte → List Host.Cell
  | _, [] => m
  | a, b :: r => memWrite (memSet m a b) (a + 1) r

/-- Every byte from lo up to hi, not included, reads zero. -/
def memClear (m : List Host.Cell) (lo hi : Nat) : List Host.Cell := m.filter (fun c => c.1 < lo || hi ≤ c.1)

/-- The canonical form, from a least address on. -/
def memWfFrom : Nat → List Host.Cell → Bool
  | _, [] => true
  | lo, (k, v) :: r => decide (lo ≤ k) && decide (v ≠ unlisted) && memWfFrom (k + 1) r

/-- The canonical form. -/
def memWf (m : List Host.Cell) : Bool := memWfFrom 0 m

end Sys2Proof.Machine
end

