-- ==== Sys2Proof/Config.lean ====
section
/-! DEFINITION. What an implementation fixes and the spec does not state: the two variants and the two silicon revisions,
the free values, and the functions whose results the spec leaves to another document. A constant declared opaque has no
value that Lean can see: a statement about it holds whatever it is. -/
namespace Sys2Proof.Config

/-- The two variants of the part (R1). -/
inductive Variant where
  | ovm9416 | ovm9412
  deriving DecidableEq, Repr, Inhabited

/-- The two silicon revisions (chapter "Scope and Conventions"): B0 in production, A0 as engineering samples. -/
inductive Revision where
  | a0 | b0
  deriving DecidableEq, Repr, Inhabited

/-- The n-th free value that the machine draws (the state counts the draws). -/
opaque freeWord : Nat → DWord

/-- The n-th free choice among k possibilities: an order the spec does not promise, an eviction, a combining. -/
opaque freePick : Nat → Nat → Nat

/-- A choice below k. Where there is one possibility it is that one. -/
def pick (n k : Nat) : Nat := if k ≤ 1 then 0 else freePick n k % k

/-- SHA3-512 of a string of bytes (R499): 64 bytes. The spec names the function and does not define it. -/
opaque sha3 : List Byte → List Byte

/-- Whether a signature verifies under ML-DSA-87 (R499): key, message, signature. -/
opaque mldsaVerify : List Byte → List Byte → List Byte → Bool

/-- An ML-DSA-87 signature by the key derived from a seed, of a message (R498, R499). -/
opaque mldsaSign : List Byte → List Byte → List Byte

/-- The ML-DSA-87 public key derived from a seed (R498). -/
opaque mldsaPublic : List Byte → List Byte

/-- The 64-byte block that the ROM measures first (R500), of the lifecycle, the latched boot mode, boot_mode_lock, debug_disable and the
rollback value: the spec states neither its layout nor the ROM's version. -/
opaque romBlock : List Nat → List Byte

/-- A pseudo-random word that a generator makes from its state, where the spec leaves the generator open. -/
opaque nextRandom : DWord → DWord

/-- Values of functions that the spec names without stating their rounding: the function by number, and its FP32 or
FP64 operands. -/
opaque realFn : Nat → List DWord → DWord

/-- How far the clock islands lie apart (R32): by how much the islands' counts may lag behind the Crown network's (by the steps of
the count so far and the count), and by how much an island leads that lag (by island as well). -/
opaque leafBack : Nat → Nat → Nat
opaque leafLead : Nat → Nat → Nat → Nat

/-- The page to which the host translates a 4 KiB page of a function's host addresses where ATS is enabled (R44): the function and the
page. -/
opaque atsPage : Nat → Nat → Nat

/-- The chip whose fabric_role the integrator has set to 1 (R134, R422): the fabric root, which another chip's registers do not name. -/
opaque fabricRoot : Nat

/-- The MAC address of a sensor port, which the spec names and does not give a source for (R140, R141). -/
opaque portMac : Nat → Nat

/-- Whether a Neighbor Advertisement carries the Override flag, which the spec leaves open (R141). -/
opaque overrideFlag : Bool

/-- Where configuration space holds three registers whose place the spec does not give: 0 the MSI-X message control (R565), 1 the
size of BAR2 and 2 that of the virtual functions' BAR2 (R561). -/
opaque cfgOffset : Nat → Nat

/-- What a management packet of the shared firmware says (R405): a heartbeat of a link (R415); that a link of a chip is DOWN (R415); that a
route change is abandoned (R419); that a lost chip has a substitute, 0xFFFF for none any more (R421); anything else. -/
inductive FirmwareMsg where
  | heartbeat
  | linkDown (chip link : Nat)
  | abandon
  | substituted (lost substitute : Nat)
  | other
  deriving DecidableEq, Repr, Inhabited

/-- The payload of such a packet, subtype first, and what a payload says: the shared firmware version defines both (R405). -/
opaque firmwareBytes : FirmwareMsg → List Byte
opaque firmwareMsg : List Byte → FirmwareMsg

/-- The 12 check bytes of a code over the even (0) or odd (1) bytes 0 to 231 of a flit (R397): the spec names the code RS(128, 116) over
GF(2^8) and gives neither its field nor its generator. -/
opaque fecCheck : Nat → List Byte → List Byte

end Sys2Proof.Config
end

