-- ==== Sys2Proof/Machine/RegMap.lean ====
section
/-! DEFINITION. The register map of BAR0, as the register tables of spec/ give it (R12, R69, R120, R137, R186, R222,
R258, R288, R312, R344, R369, R394, R427, R450, R485, R510, R533, R552, R574): one name per register, its offset, its
repetition, its width and its fields with their access codes and reset values. A field bit that no field of a table
names is reserved (R14): it reads 0 and a write to it is ignored. Reset values that a table gives as "From OTP",
"Latched", "f" or per variant are completed by `Machine.resetField` (Machine/RegOps.lean). -/
namespace Sys2Proof.Machine

/-- The access codes of R12. -/
inductive Access where
  | rw | ro | wo | w1c | w1s | rc | rwl
  deriving DecidableEq, Repr

/-- The registers of BAR0. -/
inductive Reg where
  /-- CRN_CHIP_ID, offset 0x10000 (R69). -/
  | crnChipId
  /-- HBM_MAP_CTRL, offset 0x400000 (R69). -/
  | hbmMapCtrl
  /-- HBM_PATROL_CTRL, offset 0x400004 (R69). -/
  | hbmPatrolCtrl
  /-- HBM_STACKn_STATUS, offset 0x400100 (R69). -/
  | hbmStackStatus
  /-- HBM_STACKn_RETIRE_ACK, offset 0x400108 (R69). -/
  | hbmStackRetireAck
  /-- HBM_STACKn_ECC_CE, offset 0x400110 (R69). -/
  | hbmStackEccCe
  /-- HBM_STACKn_ECC_UE, offset 0x400118 (R69). -/
  | hbmStackEccUe
  /-- HBM_STACKn_ERR_ADDR, offset 0x400120 (R69). -/
  | hbmStackErrAddr
  /-- SAP_STEMn_STATUS, offset 0x440000 (R69). -/
  | sapStemStatus
  /-- SAP_STEMn_ECC_CE, offset 0x440008 (R69). -/
  | sapStemEccCe
  /-- SAP_STEMn_ECC_UE, offset 0x440010 (R69). -/
  | sapStemEccUe
  /-- SAP_STEMn_ERR_ADDR, offset 0x440018 (R69). -/
  | sapStemErrAddr
  /-- SAP_SCRUB_ON_RELEASE, offset 0x440800 (R69). -/
  | sapScrubOnRelease
  /-- SAP_SCRUB_STATUS, offset 0x440808 (R69). -/
  | sapScrubStatus
  /-- SAP_TILE_PWR_REQ, offset 0x441000 (R69). -/
  | sapTilePwrReq
  /-- SAP_TILE_PWR_STATE, offset 0x442000 (R69). -/
  | sapTilePwrState
  /-- CRN_ADMIN_SQ_BASE, offset 0x20000 (R120). -/
  | crnAdminSqBase
  /-- CRN_ADMIN_CQ_BASE, offset 0x20008 (R120). -/
  | crnAdminCqBase
  /-- CRN_ADMIN_DB_LINE, offset 0x20010 (R120). -/
  | crnAdminDbLine
  /-- CRN_ADMIN_HEAD_LINE, offset 0x20018 (R120). -/
  | crnAdminHeadLine
  /-- CRN_ADMIN_CFG, offset 0x20020 (R120). -/
  | crnAdminCfg
  /-- CRN_RING_STATEn, offset 0x28000 (R120). -/
  | crnRingState
  /-- CRN_DBW_CTRL, offset 0x24000 (R120). -/
  | crnDbwCtrl
  /-- CRN_QM_TIMEOUTS, offset 0x24004 (R120). -/
  | crnQmTimeouts
  /-- CRN_STARVE_LIMIT, offset 0x24008 (R120). -/
  | crnStarveLimit
  /-- CRN_INFLIGHT, offset 0x24010 (R120). -/
  | crnInflight
  /-- CRN_PART_CAPp, offset 0x24100 (R120). -/
  | crnPartCap
  /-- CRN_KNOT_OWNERk, offset 0x24200 (R120). -/
  | crnKnotOwner
  /-- TIM_CTRL, offset 0x80000 (R137). -/
  | timCtrl
  /-- TIM_STATUS, offset 0x80004 (R137). -/
  | timStatus
  /-- TIM_NOW, offset 0x80008 (R137). -/
  | timNow
  /-- TIM_PHASE_ERR, offset 0x80010 (R137). -/
  | timPhaseErr
  /-- TIM_NEXT_SEC, offset 0x80018 (R137). -/
  | timNextSec
  /-- TIM_PPS_OUTn, offset 0x80020 (R137). -/
  | timPpsOut
  /-- TIM_PPS_IN_STAT, offset 0x80028 (R137). -/
  | timPpsInStat
  /-- TIM_PORTp_CFG, offset 0x80100 (R137). -/
  | timPortCfg
  /-- TIM_PORTp_STAT, offset 0x80180 (R137). -/
  | timPortStat
  /-- SIU_CTRL, offset 0x100000 (R186). -/
  | siuCtrl
  /-- SIU_CTX_BASE, offset 0x100008 (R186). -/
  | siuCtxBase
  /-- SIU_DISC_CTRL, offset 0x100010 (R186). -/
  | siuDiscCtrl
  /-- SIU_QUEUE_LOST, offset 0x100018 (R186). -/
  | siuQueueLost
  /-- SIU_CACHE_MISS, offset 0x100020 (R186). -/
  | siuCacheMiss
  /-- SIU_PORTp_CFG, offset 0x101000 (R186). -/
  | siuPortCfg
  /-- SIU_PORTp_IPV4, offset 0x101004 (R186). -/
  | siuPortIpv4
  /-- SIU_PORTp_IPV6, offset 0x101010 (R186). -/
  | siuPortIpv6
  /-- SIU_PORTp_CNT, offset 0x101040 (R186). -/
  | siuPortCnt
  /-- SIU_POSE_REJq, offset 0x102000 (R186). -/
  | siuPoseRej
  /-- VHE_CTRL, offset 0x140000 (R222). -/
  | vheCtrl
  /-- VHE_TABLEt_STATUS, offset 0x141000 (R222). -/
  | vheTableStatus
  /-- VHE_TABLEt_FRAME, offset 0x141008 (R222). -/
  | vheTableFrame
  /-- VHE_TABLEt_CELLSj, offset 0x141010 (R222). -/
  | vheTableCells
  /-- VHE_TABLEt_REFUSED, offset 0x141020 (R222). -/
  | vheTableRefused
  /-- VHE_STEMn_INSERTS, offset 0x142000 (R222). -/
  | vheStemInserts
  /-- VHE_STEMn_COMBINED, offset 0x142008 (R222). -/
  | vheStemCombined
  /-- VHE_STEMn_PROBES, offset 0x142010 (R222). -/
  | vheStemProbes
  /-- VHE_STEMn_MAXPROBE, offset 0x142018 (R222). -/
  | vheStemMaxprobe
  /-- KME_CTRL, offset 0x180000 (R258). -/
  | kmeCtrl
  /-- KME_STEMn_PROBES, offset 0x181000 (R258). -/
  | kmeStemProbes
  /-- KME_STEMn_REMOTE, offset 0x181008 (R258). -/
  | kmeStemRemote
  /-- KME_STEMn_PAIRS, offset 0x181010 (R258). -/
  | kmeStemPairs
  /-- KME_STEMn_SPILLED, offset 0x181018 (R258). -/
  | kmeStemSpilled
  /-- KME_STEMn_SPILL_USE, offset 0x181020 (R258). -/
  | kmeStemSpillUse
  /-- TILE_CTRL, offset 0x1C0000 (R288). -/
  | tileCtrl
  /-- TILE_SR_SEED, offset 0x1C0008 (R288). -/
  | tileSrSeed
  /-- TILE_SR_PART, offset 0x1C0010 (R288). -/
  | tileSrPart
  /-- TILE_STEMn_MACS, offset 0x1C1000 (R288). -/
  | tileStemMacs
  /-- TILE_STEMn_SATURATED, offset 0x1C1008 (R288). -/
  | tileStemSaturated
  /-- TILE_STEMn_NONFINITE, offset 0x1C1010 (R288). -/
  | tileStemNonfinite
  /-- TILE_STEMn_META, offset 0x1C1018 (R288). -/
  | tileStemMeta
  /-- TILE_STEMn_PASSES, offset 0x1C1020 (R288). -/
  | tileStemPasses
  /-- TILE_STEMn_DISCARDED, offset 0x1C1028 (R288). -/
  | tileStemDiscarded
  /-- TWIG_CTRL, offset 0x1C4000 (R312). -/
  | twigCtrl
  /-- TWIG_STEMn_INSTRET, offset 0x1C4100 (R312). -/
  | twigStemInstret
  /-- TWIG_STEMn_EXCEPT, offset 0x1C4108 (R312). -/
  | twigStemExcept
  /-- TWIG_STEMn_SUSPENDS, offset 0x1C4110 (R312). -/
  | twigStemSuspends
  /-- CNP_CTRL, offset 0x200000 (R344). -/
  | cnpCtrl
  /-- CNP_MAPm_STATUS, offset 0x201000 (R344). -/
  | cnpMapStatus
  /-- CNP_STEMn_PROBES, offset 0x202000 (R344). -/
  | cnpStemProbes
  /-- CNP_STEMn_FOLDED, offset 0x202008 (R344). -/
  | cnpStemFolded
  /-- CNP_STEMn_BORDER, offset 0x202010 (R344). -/
  | cnpStemBorder
  /-- CNP_STEMn_ABSENT, offset 0x202018 (R344). -/
  | cnpStemAbsent
  /-- SRT_CTRL, offset 0x240000 (R369). -/
  | srtCtrl
  /-- SRT_STEMn_ELEMENTS, offset 0x241000 (R369). -/
  | srtStemElements
  /-- SRT_STEMn_IOU, offset 0x241008 (R369). -/
  | srtStemIou
  /-- SRT_STEMn_COLLAPSED, offset 0x241010 (R369). -/
  | srtStemCollapsed
  /-- SRT_STEMn_SUPPRESSED, offset 0x241018 (R369). -/
  | srtStemSuppressed
  /-- GTH_CTRL, offset 0x280000 (R394). -/
  | gthCtrl
  /-- GTH_TABLEt_STATUS, offset 0x281000 (R394). -/
  | gthTableStatus
  /-- GTH_TABLEt_PINS, offset 0x281008 (R394). -/
  | gthTablePins
  /-- GTH_STEMn_LOOKUPS, offset 0x282000 (R394). -/
  | gthStemLookups
  /-- GTH_STEMn_FETCHES, offset 0x282008 (R394). -/
  | gthStemFetches
  /-- GTH_STEMn_COALESCED, offset 0x282010 (R394). -/
  | gthStemCoalesced
  /-- GTH_STEMn_BURL_HITS, offset 0x282018 (R394). -/
  | gthStemBurlHits
  /-- GTH_STEMn_DEFAULTS, offset 0x282020 (R394). -/
  | gthStemDefaults
  /-- GTH_STEMn_BURL, offset 0x282028 (R394). -/
  | gthStemBurl
  /-- WBL_FABRIC_CFG, offset 0x2C0000 (R427). -/
  | wblFabricCfg
  /-- WBL_FABRIC_STATUS, offset 0x2C0004 (R427). -/
  | wblFabricStatus
  /-- WBL_TIMEOUT, offset 0x2C0008 (R427). -/
  | wblTimeout
  /-- WBL_DROPS, offset 0x2C0010 (R427). -/
  | wblDrops
  /-- WBL_ALIASa, offset 0x2C0100 (R427). -/
  | wblAlias
  /-- WBL_LINKl_CFG, offset 0x2C1000 (R427). -/
  | wblLinkCfg
  /-- WBL_LINKl_CREDIT, offset 0x2C1004 (R427). -/
  | wblLinkCredit
  /-- WBL_LINKl_STATUS, offset 0x2C1008 (R427). -/
  | wblLinkStatus
  /-- WBL_LINKl_CNT, offset 0x2C1010 (R427). -/
  | wblLinkCnt
  /-- TWN_CFG, offset 0x300000 (R450). -/
  | twnCfg
  /-- TWN_TOL_BOX, offset 0x300008 (R450). -/
  | twnTolBox
  /-- TWN_TOL_SCORE, offset 0x300010 (R450). -/
  | twnTolScore
  /-- TWN_TOL_BEV, offset 0x300018 (R450). -/
  | twnTolBev
  /-- TWN_SIG, offset 0x300020 (R450). -/
  | twnSig
  /-- TWN_DIVERGE, offset 0x300024 (R450). -/
  | twnDiverge
  /-- TWN_TIMEOUTS, offset 0x300028 (R450). -/
  | twnTimeouts
  /-- TWN_STATUS, offset 0x300030 (R450). -/
  | twnStatus
  /-- TWN_FIRST_FRAME, offset 0x300038 (R450). -/
  | twnFirstFrame
  /-- TWN_LAST_DISPUTE, offset 0x300040 (R450). -/
  | twnLastDispute
  /-- TWN_VERDICT, offset 0x300048 (R450). -/
  | twnVerdict
  /-- TWN_CNT, offset 0x300080 (R450). -/
  | twnCnt
  /-- TWN_PEER_DIGESTi, offset 0x300100 (R450). -/
  | twnPeerDigest
  /-- BRK_STATUS, offset 0x340000 (R485). -/
  | brkStatus
  /-- BRK_SAFE_CFG, offset 0x340008 (R485). -/
  | brkSafeCfg
  /-- BRK_SRCs_CFG, offset 0x340100 (R485). -/
  | brkSrcCfg
  /-- BRK_SRCs_CNT, offset 0x340200 (R485). -/
  | brkSrcCnt
  /-- BRK_CS_CFG, offset 0x340400 (R485). -/
  | brkCsCfg
  /-- BRK_CS_STEMn, offset 0x340410 (R485). -/
  | brkCsStem
  /-- BRK_WEAR_CFG, offset 0x340480 (R485). -/
  | brkWearCfg
  /-- BRK_SPARESn, offset 0x340490 (R485). -/
  | brkSpares
  /-- BRK_LOG_STATUS, offset 0x3404C0 (R485). -/
  | brkLogStatus
  /-- BRK_PARTp_CFG, offset 0x340800 (R485). -/
  | brkPartCfg
  /-- BRK_TDMA_CFGn, offset 0x340C00 (R485). -/
  | brkTdmaCfg
  /-- BRK_TDMA_SLOTn_i, offset 0x340D00 (R485). -/
  | brkTdmaSlot
  /-- BRK_FW_DENYt, offset 0x34F000 (R485). -/
  | brkFwDeny
  /-- SEC_BOOT_STATUS, offset 0x380000 (R510). -/
  | secBootStatus
  /-- SEC_OTP_STATUS, offset 0x380008 (R510). -/
  | secOtpStatus
  /-- SEC_SERIAL, offset 0x380010 (R510). -/
  | secSerial
  /-- SEC_TRIAL_SEEN, offset 0x380018 (R510). -/
  | secTrialSeen
  /-- SEC_ROOT_DIGESTk_i, offset 0x380100 (R510). -/
  | secRootDigest
  /-- SEC_MEASUREr_i, offset 0x380400 (R510). -/
  | secMeasure
  /-- SEC_DEBUG_STATUS, offset 0x380800 (R510). -/
  | secDebugStatus
  /-- SEC_IDE_FAIL, offset 0x380808 (R510). -/
  | secIdeFail
  /-- SEC_MBOX_CMD, offset 0x381000 (R510). -/
  | secMboxCmd
  /-- SEC_MBOX_ARGi, offset 0x381008 (R510). -/
  | secMboxArg
  /-- TRC_CTRL, offset 0x3C0000 (R533). -/
  | trcCtrl
  /-- TRC_BASE, offset 0x3C0008 (R533). -/
  | trcBase
  /-- TRC_SIZE, offset 0x3C0010 (R533). -/
  | trcSize
  /-- TRC_POST, offset 0x3C0014 (R533). -/
  | trcPost
  /-- TRC_TRIGGER, offset 0x3C0018 (R533). -/
  | trcTrigger
  /-- TRC_PART_MASK, offset 0x3C0020 (R533). -/
  | trcPartMask
  /-- TRC_STATUS, offset 0x3C0028 (R533). -/
  | trcStatus
  /-- TRC_DROPPED, offset 0x3C0030 (R533). -/
  | trcDropped
  /-- TRC_WD_CFG, offset 0x3C0040 (R533). -/
  | trcWdCfg
  /-- TRC_DUMP_BASE, offset 0x3C0048 (R533). -/
  | trcDumpBase
  /-- TRC_DUMP_HOST, offset 0x3C0050 (R533). -/
  | trcDumpHost
  /-- TRC_DUMP_STATUS, offset 0x3C0058 (R533). -/
  | trcDumpStatus
  /-- TRC_DELTA_SEL, offset 0x3C0060 (R533). -/
  | trcDeltaSel
  /-- TRC_DELTAi, offset 0x3C0080 (R533). -/
  | trcDelta
  /-- TRC_PERT_CTRL, offset 0x3C0100 (R533). -/
  | trcPertCtrl
  /-- TRC_PERT_SEED, offset 0x3C0108 (R533). -/
  | trcPertSeed
  /-- TRC_PERT_SCOPE, offset 0x3C0110 (R533). -/
  | trcPertScope
  /-- PWR_CTRL, offset 0x480000 (R552). -/
  | pwrCtrl
  /-- PWR_CAP, offset 0x480004 (R552). -/
  | pwrCap
  /-- PWR_STATUS, offset 0x480008 (R552). -/
  | pwrStatus
  /-- PWR_ENERGY, offset 0x480010 (R552). -/
  | pwrEnergy
  /-- PWR_STEMn_STATUS, offset 0x480100 (R552). -/
  | pwrStemStatus
  /-- PWR_STEMn_THROTTLE, offset 0x480108 (R552). -/
  | pwrStemThrottle
  /-- PCI_SETUP_LOCK, offset 0x8000 (R574). -/
  | pciSetupLock
  /-- PCI_FN_LOCK, offset 0x8004 (R574). -/
  | pciFnLock
  /-- PCI_LINK_STATUS, offset 0x8008 (R574). -/
  | pciLinkStatus
  /-- PCI_FN_PARTf, offset 0x8100 (R574). -/
  | pciFnPart
  /-- PCI_BAR2_BASEf, offset 0x8200 (R574). -/
  | pciBar2Base
  /-- BRK_FWt_Ww bytes 0-7, offset 0x348000 (R485). -/
  | brkFwBase
  /-- BRK_FWt_Ww bytes 8-15, offset 0x348008 (R485). -/
  | brkFwLimit
  /-- BRK_FWt_Ww bytes 16-23, offset 0x348010 (R485). -/
  | brkFwCtl
  deriving DecidableEq, Repr

/-- One field of a register: bits `lo + width - 1` down to `lo`. -/
structure Field where
  reg : Reg
  lo : Nat
  width : Nat
  access : Access
  reset : Nat
  deriving DecidableEq, Repr

namespace Fld

/-- CRN_CHIP_ID.chip_id, bits 15:0, RWL. -/
def crnChipId_chip_id : Field := ⟨.crnChipId, 0, 16, .rwl, 0x0⟩
/-- HBM_MAP_CTRL.map_mode, bits 0, RWL. -/
def hbmMapCtrl_map_mode : Field := ⟨.hbmMapCtrl, 0, 1, .rwl, 0x0⟩
/-- HBM_PATROL_CTRL.interval_h, bits 15:8, RWL. -/
def hbmPatrolCtrl_interval_h : Field := ⟨.hbmPatrolCtrl, 8, 8, .rwl, 0x18⟩
/-- HBM_PATROL_CTRL.enable, bits 0, RWL. -/
def hbmPatrolCtrl_enable : Field := ⟨.hbmPatrolCtrl, 0, 1, .rwl, 0x1⟩
/-- HBM_STACKn_STATUS.retired_pc_mask, bits 63:32, RO. -/
def hbmStackStatus_retired_pc_mask : Field := ⟨.hbmStackStatus, 32, 32, .ro, 0x0⟩
/-- HBM_STACKn_STATUS.retire_pending, bits 31, RO. -/
def hbmStackStatus_retire_pending : Field := ⟨.hbmStackStatus, 31, 1, .ro, 0x0⟩
/-- HBM_STACKn_STATUS.pending_pc, bits 30:26, RO. -/
def hbmStackStatus_pending_pc : Field := ⟨.hbmStackStatus, 26, 5, .ro, 0x0⟩
/-- HBM_STACKn_STATUS.usable_slices, bits 21:16, RO. -/
def hbmStackStatus_usable_slices : Field := ⟨.hbmStackStatus, 16, 6, .ro, 0x20⟩
/-- HBM_STACKn_STATUS.soft_ppr_count, bits 15:0, RO. -/
def hbmStackStatus_soft_ppr_count : Field := ⟨.hbmStackStatus, 0, 16, .ro, 0x0⟩
/-- HBM_STACKn_RETIRE_ACK.vacated, bits 0, WO. -/
def hbmStackRetireAck_vacated : Field := ⟨.hbmStackRetireAck, 0, 1, .wo, 0x0⟩
/-- HBM_STACKn_ECC_CE.ce_count, bits 63:0, RO. -/
def hbmStackEccCe_ce_count : Field := ⟨.hbmStackEccCe, 0, 64, .ro, 0x0⟩
/-- HBM_STACKn_ECC_UE.ue_count, bits 63:0, RO. -/
def hbmStackEccUe_ue_count : Field := ⟨.hbmStackEccUe, 0, 64, .ro, 0x0⟩
/-- HBM_STACKn_ERR_ADDR.ue_addr, bits 47:0, RO. -/
def hbmStackErrAddr_ue_addr : Field := ⟨.hbmStackErrAddr, 0, 48, .ro, 0x0⟩
/-- SAP_STEMn_STATUS.retired_banks, bits 23:16, RO. -/
def sapStemStatus_retired_banks : Field := ⟨.sapStemStatus, 16, 8, .ro, 0x0⟩
/-- SAP_STEMn_STATUS.spare_positions, bits 11:8, RO. -/
def sapStemStatus_spare_positions : Field := ⟨.sapStemStatus, 8, 4, .ro, 0x4⟩
/-- SAP_STEMn_STATUS.banks_per_slice, bits 3:0, RO. -/
def sapStemStatus_banks_per_slice : Field := ⟨.sapStemStatus, 0, 4, .ro, 0xC⟩
/-- SAP_STEMn_ECC_CE.ce_count, bits 63:0, RO. -/
def sapStemEccCe_ce_count : Field := ⟨.sapStemEccCe, 0, 64, .ro, 0x0⟩
/-- SAP_STEMn_ECC_UE.ue_count, bits 63:0, RO. -/
def sapStemEccUe_ue_count : Field := ⟨.sapStemEccUe, 0, 64, .ro, 0x0⟩
/-- SAP_STEMn_ERR_ADDR.ue_addr, bits 47:0, RO. -/
def sapStemErrAddr_ue_addr : Field := ⟨.sapStemErrAddr, 0, 48, .ro, 0x0⟩
/-- SAP_SCRUB_ON_RELEASE.scrub_on_release, bits 63:0, RWL. -/
def sapScrubOnRelease_scrub_on_release : Field := ⟨.sapScrubOnRelease, 0, 64, .rwl, 0x0⟩
/-- SAP_SCRUB_STATUS.scrub_active, bits 3:0, RO. -/
def sapScrubStatus_scrub_active : Field := ⟨.sapScrubStatus, 0, 4, .ro, 0x0⟩
/-- SAP_TILE_PWR_REQ.bank_on, bits 11:0, RWL. -/
def sapTilePwrReq_bank_on : Field := ⟨.sapTilePwrReq, 0, 12, .rwl, 0xFFF⟩
/-- SAP_TILE_PWR_STATE.reenable_pending, bits 43:32, RO. -/
def sapTilePwrState_reenable_pending : Field := ⟨.sapTilePwrState, 32, 12, .ro, 0x0⟩
/-- SAP_TILE_PWR_STATE.bank_state, bits 23:0, RO. -/
def sapTilePwrState_bank_state : Field := ⟨.sapTilePwrState, 0, 24, .ro, 0xAAAAAA⟩
/-- CRN_ADMIN_SQ_BASE.base, bits 63:12, RWL. -/
def crnAdminSqBase_base : Field := ⟨.crnAdminSqBase, 12, 52, .rwl, 0x0⟩
/-- CRN_ADMIN_CQ_BASE.base, bits 63:12, RWL. -/
def crnAdminCqBase_base : Field := ⟨.crnAdminCqBase, 12, 52, .rwl, 0x0⟩
/-- CRN_ADMIN_DB_LINE.line, bits 63:6, RWL. -/
def crnAdminDbLine_line : Field := ⟨.crnAdminDbLine, 6, 58, .rwl, 0x0⟩
/-- CRN_ADMIN_HEAD_LINE.line, bits 63:6, RWL. -/
def crnAdminHeadLine_line : Field := ⟨.crnAdminHeadLine, 6, 58, .rwl, 0x0⟩
/-- CRN_ADMIN_CFG.enable, bits 31, RWL. -/
def crnAdminCfg_enable : Field := ⟨.crnAdminCfg, 31, 1, .rwl, 0x0⟩
/-- CRN_ADMIN_CFG.cfg_error, bits 30, RO. -/
def crnAdminCfg_cfg_error : Field := ⟨.crnAdminCfg, 30, 1, .ro, 0x0⟩
/-- CRN_ADMIN_CFG.vector, bits 26:16, RWL. -/
def crnAdminCfg_vector : Field := ⟨.crnAdminCfg, 16, 11, .rwl, 0x0⟩
/-- CRN_ADMIN_CFG.cq_log2, bits 12:8, RWL. -/
def crnAdminCfg_cq_log2 : Field := ⟨.crnAdminCfg, 8, 5, .rwl, 0x6⟩
/-- CRN_ADMIN_CFG.sq_log2, bits 4:0, RWL. -/
def crnAdminCfg_sq_log2 : Field := ⟨.crnAdminCfg, 0, 5, .rwl, 0x6⟩
/-- CRN_RING_STATEn.cq_fault, bits 8, RO. -/
def crnRingState_cq_fault : Field := ⟨.crnRingState, 8, 1, .ro, 0x0⟩
/-- CRN_RING_STATEn.cq_on, bits 7, RO. -/
def crnRingState_cq_on : Field := ⟨.crnRingState, 7, 1, .ro, 0x0⟩
/-- CRN_RING_STATEn.reenable_pending, bits 6, RO. -/
def crnRingState_reenable_pending : Field := ⟨.crnRingState, 6, 1, .ro, 0x0⟩
/-- CRN_RING_STATEn.sq_state, bits 2:0, RO. -/
def crnRingState_sq_state : Field := ⟨.crnRingState, 0, 3, .ro, 0x0⟩
/-- CRN_DBW_CTRL.idle_after_us, bits 15:0, RWL. -/
def crnDbwCtrl_idle_after_us : Field := ⟨.crnDbwCtrl, 0, 16, .rwl, 0x32⟩
/-- CRN_QM_TIMEOUTS.knot_wait_ms, bits 31:16, RWL. -/
def crnQmTimeouts_knot_wait_ms : Field := ⟨.crnQmTimeouts, 16, 16, .rwl, 0x64⟩
/-- CRN_QM_TIMEOUTS.cq_stall_ms, bits 15:0, RWL. -/
def crnQmTimeouts_cq_stall_ms : Field := ⟨.crnQmTimeouts, 0, 16, .rwl, 0xA⟩
/-- CRN_STARVE_LIMIT.cross_ms, bits 31:16, RWL. -/
def crnStarveLimit_cross_ms : Field := ⟨.crnStarveLimit, 16, 16, .rwl, 0xA⟩
/-- CRN_STARVE_LIMIT.within_us, bits 15:0, RWL. -/
def crnStarveLimit_within_us : Field := ⟨.crnStarveLimit, 0, 16, .rwl, 0x7D0⟩
/-- CRN_INFLIGHT.count, bits 16:0, RO. -/
def crnInflight_count : Field := ⟨.crnInflight, 0, 17, .ro, 0x0⟩
/-- CRN_PART_CAPp.cap, bits 16:0, RWL. -/
def crnPartCap_cap : Field := ⟨.crnPartCap, 0, 17, .rwl, 0x10000⟩
/-- CRN_KNOT_OWNERk.valid0, bits 7, RWL. -/
def crnKnotOwner_valid0 : Field := ⟨.crnKnotOwner, 7, 1, .rwl, 0x0⟩
/-- CRN_KNOT_OWNERk.partition0, bits 5:0, RWL. -/
def crnKnotOwner_partition0 : Field := ⟨.crnKnotOwner, 0, 6, .rwl, 0x0⟩
/-- CRN_KNOT_OWNERk.valid1, bits 15, RWL. -/
def crnKnotOwner_valid1 : Field := ⟨.crnKnotOwner, 15, 1, .rwl, 0x0⟩
/-- CRN_KNOT_OWNERk.partition1, bits 13:8, RWL. -/
def crnKnotOwner_partition1 : Field := ⟨.crnKnotOwner, 8, 6, .rwl, 0x0⟩
/-- CRN_KNOT_OWNERk.valid2, bits 23, RWL. -/
def crnKnotOwner_valid2 : Field := ⟨.crnKnotOwner, 23, 1, .rwl, 0x0⟩
/-- CRN_KNOT_OWNERk.partition2, bits 21:16, RWL. -/
def crnKnotOwner_partition2 : Field := ⟨.crnKnotOwner, 16, 6, .rwl, 0x0⟩
/-- CRN_KNOT_OWNERk.valid3, bits 31, RWL. -/
def crnKnotOwner_valid3 : Field := ⟨.crnKnotOwner, 31, 1, .rwl, 0x0⟩
/-- CRN_KNOT_OWNERk.partition3, bits 29:24, RWL. -/
def crnKnotOwner_partition3 : Field := ⟨.crnKnotOwner, 24, 6, .rwl, 0x0⟩
/-- CRN_KNOT_OWNERk.valid4, bits 39, RWL. -/
def crnKnotOwner_valid4 : Field := ⟨.crnKnotOwner, 39, 1, .rwl, 0x0⟩
/-- CRN_KNOT_OWNERk.partition4, bits 37:32, RWL. -/
def crnKnotOwner_partition4 : Field := ⟨.crnKnotOwner, 32, 6, .rwl, 0x0⟩
/-- CRN_KNOT_OWNERk.valid5, bits 47, RWL. -/
def crnKnotOwner_valid5 : Field := ⟨.crnKnotOwner, 47, 1, .rwl, 0x0⟩
/-- CRN_KNOT_OWNERk.partition5, bits 45:40, RWL. -/
def crnKnotOwner_partition5 : Field := ⟨.crnKnotOwner, 40, 6, .rwl, 0x0⟩
/-- CRN_KNOT_OWNERk.valid6, bits 55, RWL. -/
def crnKnotOwner_valid6 : Field := ⟨.crnKnotOwner, 55, 1, .rwl, 0x0⟩
/-- CRN_KNOT_OWNERk.partition6, bits 53:48, RWL. -/
def crnKnotOwner_partition6 : Field := ⟨.crnKnotOwner, 48, 6, .rwl, 0x0⟩
/-- CRN_KNOT_OWNERk.valid7, bits 63, RWL. -/
def crnKnotOwner_valid7 : Field := ⟨.crnKnotOwner, 63, 1, .rwl, 0x0⟩
/-- CRN_KNOT_OWNERk.partition7, bits 61:56, RWL. -/
def crnKnotOwner_partition7 : Field := ⟨.crnKnotOwner, 56, 6, .rwl, 0x0⟩
/-- TIM_CTRL.holdover_max_s, bits 31:16, RWL. -/
def timCtrl_holdover_max_s : Field := ⟨.timCtrl, 16, 16, .rwl, 0xE10⟩
/-- TIM_CTRL.slew_ppm, bits 15:8, RWL. -/
def timCtrl_slew_ppm : Field := ⟨.timCtrl, 8, 8, .rwl, 0x32⟩
/-- TIM_CTRL.fabric_role, bits 3:2, RWL. -/
def timCtrl_fabric_role : Field := ⟨.timCtrl, 2, 2, .rwl, 0x0⟩
/-- TIM_CTRL.source_sel, bits 1:0, RWL. -/
def timCtrl_source_sel : Field := ⟨.timCtrl, 0, 2, .rwl, 0x0⟩
/-- TIM_STATUS.tod_conflict, bits 18, W1C. -/
def timStatus_tod_conflict : Field := ⟨.timStatus, 18, 1, .w1c, 0x0⟩
/-- TIM_STATUS.tree_calibrated, bits 17, RO. -/
def timStatus_tree_calibrated : Field := ⟨.timStatus, 17, 1, .ro, 0x0⟩
/-- TIM_STATUS.holdover_expired, bits 16, RO. -/
def timStatus_holdover_expired : Field := ⟨.timStatus, 16, 1, .ro, 0x0⟩
/-- TIM_STATUS.clock_class, bits 15:8, RO. -/
def timStatus_clock_class : Field := ⟨.timStatus, 8, 8, .ro, 0xF8⟩
/-- TIM_STATUS.state, bits 2:0, RO. -/
def timStatus_state : Field := ⟨.timStatus, 0, 3, .ro, 0x0⟩
/-- TIM_NOW.now_ns, bits 63:0, RO. -/
def timNow_now_ns : Field := ⟨.timNow, 0, 64, .ro, 0x0⟩
/-- TIM_PHASE_ERR.phase_err_ns, bits 31:0, RO. -/
def timPhaseErr_phase_err_ns : Field := ⟨.timPhaseErr, 0, 32, .ro, 0x0⟩
/-- TIM_NEXT_SEC.next_sec, bits 47:0, RW. -/
def timNextSec_next_sec : Field := ⟨.timNextSec, 0, 48, .rw, 0x0⟩
/-- TIM_PPS_OUTn.enable, bits 31, RWL. -/
def timPpsOut_enable : Field := ⟨.timPpsOut, 31, 1, .rwl, 0x0⟩
/-- TIM_PPS_OUTn.width_us, bits 19:0, RWL. -/
def timPpsOut_width_us : Field := ⟨.timPpsOut, 0, 20, .rwl, 0x64⟩
/-- TIM_PPS_IN_STAT.rejected, bits 31:0, RO. -/
def timPpsInStat_rejected : Field := ⟨.timPpsInStat, 0, 32, .ro, 0x0⟩
/-- TIM_PORTp_CFG.enable, bits 31, RWL. -/
def timPortCfg_enable : Field := ⟨.timPortCfg, 31, 1, .rwl, 0x1⟩
/-- TIM_PORTp_CFG.profile, bits 30:29, RWL. -/
def timPortCfg_profile : Field := ⟨.timPortCfg, 29, 2, .rwl, 0x2⟩
/-- TIM_PORTp_CFG.sync_rate, bits 26:24, RWL. -/
def timPortCfg_sync_rate : Field := ⟨.timPortCfg, 24, 3, .rwl, 0x3⟩
/-- TIM_PORTp_CFG.rx_latency_ns, bits 23:12, RWL. -/
def timPortCfg_rx_latency_ns : Field := ⟨.timPortCfg, 12, 12, .rwl, 0x0⟩
/-- TIM_PORTp_CFG.tx_latency_ns, bits 11:0, RWL. -/
def timPortCfg_tx_latency_ns : Field := ⟨.timPortCfg, 0, 12, .rwl, 0x0⟩
/-- TIM_PORTp_STAT.foreign_announce, bits 31:16, RO. -/
def timPortStat_foreign_announce : Field := ⟨.timPortStat, 16, 16, .ro, 0x0⟩
/-- TIM_PORTp_STAT.passive, bits 0, RO. -/
def timPortStat_passive : Field := ⟨.timPortStat, 0, 1, .ro, 0x0⟩
/-- SIU_CTRL.enable, bits 31, RWL. -/
def siuCtrl_enable : Field := ⟨.siuCtrl, 31, 1, .rwl, 0x0⟩
/-- SIU_CTRL.batch_timeout_us, bits 15:0, RWL. -/
def siuCtrl_batch_timeout_us : Field := ⟨.siuCtrl, 0, 16, .rwl, 0x32⟩
/-- SIU_CTX_BASE.base, bits 47:24, RWL. -/
def siuCtxBase_base : Field := ⟨.siuCtxBase, 24, 24, .rwl, 0x0⟩
/-- SIU_DISC_CTRL.holdoff_ms, bits 15:0, RWL. -/
def siuDiscCtrl_holdoff_ms : Field := ⟨.siuDiscCtrl, 0, 16, .rwl, 0x3E8⟩
/-- SIU_QUEUE_LOST.event_lost, bits 63:32, RO. -/
def siuQueueLost_event_lost : Field := ⟨.siuQueueLost, 32, 32, .ro, 0x0⟩
/-- SIU_QUEUE_LOST.disc_lost, bits 31:0, RO. -/
def siuQueueLost_disc_lost : Field := ⟨.siuQueueLost, 0, 32, .ro, 0x0⟩
/-- SIU_CACHE_MISS.misses, bits 63:0, RO. -/
def siuCacheMiss_misses : Field := ⟨.siuCacheMiss, 0, 64, .ro, 0x0⟩
/-- SIU_PORTp_CFG.enable, bits 31, RWL. -/
def siuPortCfg_enable : Field := ⟨.siuPortCfg, 31, 1, .rwl, 0x0⟩
/-- SIU_PORTp_CFG.speed, bits 30, RWL. -/
def siuPortCfg_speed : Field := ⟨.siuPortCfg, 30, 1, .rwl, 0x1⟩
/-- SIU_PORTp_CFG.fec, bits 29:28, RWL. -/
def siuPortCfg_fec : Field := ⟨.siuPortCfg, 28, 2, .rwl, 0x2⟩
/-- SIU_PORTp_CFG.sid_enable, bits 27, RWL. -/
def siuPortCfg_sid_enable : Field := ⟨.siuPortCfg, 27, 1, .rwl, 0x0⟩
/-- SIU_PORTp_CFG.sid_offset, bits 26:16, RWL. -/
def siuPortCfg_sid_offset : Field := ⟨.siuPortCfg, 16, 11, .rwl, 0x0⟩
/-- SIU_PORTp_CFG.link_up, bits 0, RO. -/
def siuPortCfg_link_up : Field := ⟨.siuPortCfg, 0, 1, .ro, 0x0⟩
/-- SIU_PORTp_IPV4.addr, bits 31:0, RWL. -/
def siuPortIpv4_addr : Field := ⟨.siuPortIpv4, 0, 32, .rwl, 0x0⟩
/-- SIU_PORTp_IPV6.addr, bits 63:0, RWL. -/
def siuPortIpv6_addr : Field := ⟨.siuPortIpv6, 0, 64, .rwl, 0x0⟩
/-- SIU_PORTp_CNT.count, bits 63:0, RO. -/
def siuPortCnt_count : Field := ⟨.siuPortCnt, 0, 64, .ro, 0x0⟩
/-- SIU_POSE_REJq.pose_rejected, bits 63:0, RO. -/
def siuPoseRej_pose_rejected : Field := ⟨.siuPoseRej, 0, 64, .ro, 0x0⟩
/-- VHE_CTRL.adm_k, bits 19:16, RWL. -/
def vheCtrl_adm_k : Field := ⟨.vheCtrl, 16, 4, .rwl, 0x4⟩
/-- VHE_CTRL.combine_enable, bits 0, RWL. -/
def vheCtrl_combine_enable : Field := ⟨.vheCtrl, 0, 1, .rwl, 0x1⟩
/-- VHE_TABLEt_STATUS.partition, bits 19:14, RO. -/
def vheTableStatus_partition : Field := ⟨.vheTableStatus, 14, 6, .ro, 0x0⟩
/-- VHE_TABLEt_STATUS.epoch, bits 13:7, RO. -/
def vheTableStatus_epoch : Field := ⟨.vheTableStatus, 7, 7, .ro, 0x0⟩
/-- VHE_TABLEt_STATUS.final_seen, bits 6, RO. -/
def vheTableStatus_final_seen : Field := ⟨.vheTableStatus, 6, 1, .ro, 0x0⟩
/-- VHE_TABLEt_STATUS.overflowed, bits 5, RO. -/
def vheTableStatus_overflowed : Field := ⟨.vheTableStatus, 5, 1, .ro, 0x0⟩
/-- VHE_TABLEt_STATUS.halo_incomplete, bits 4, RO. -/
def vheTableStatus_halo_incomplete : Field := ⟨.vheTableStatus, 4, 1, .ro, 0x0⟩
/-- VHE_TABLEt_STATUS.state, bits 2:0, RO. -/
def vheTableStatus_state : Field := ⟨.vheTableStatus, 0, 3, .ro, 0x0⟩
/-- VHE_TABLEt_FRAME.frame_tag, bits 63:0, RO. -/
def vheTableFrame_frame_tag : Field := ⟨.vheTableFrame, 0, 64, .ro, 0x0⟩
/-- VHE_TABLEt_CELLSj.cells, bits 21:0, RO. -/
def vheTableCells_cells : Field := ⟨.vheTableCells, 0, 22, .ro, 0x0⟩
/-- VHE_TABLEt_REFUSED.points_refused, bits 63:0, RO. -/
def vheTableRefused_points_refused : Field := ⟨.vheTableRefused, 0, 64, .ro, 0x0⟩
/-- VHE_STEMn_INSERTS.inserts, bits 63:0, RO. -/
def vheStemInserts_inserts : Field := ⟨.vheStemInserts, 0, 64, .ro, 0x0⟩
/-- VHE_STEMn_COMBINED.combined, bits 63:0, RO. -/
def vheStemCombined_combined : Field := ⟨.vheStemCombined, 0, 64, .ro, 0x0⟩
/-- VHE_STEMn_PROBES.probes, bits 63:0, RO. -/
def vheStemProbes_probes : Field := ⟨.vheStemProbes, 0, 64, .ro, 0x0⟩
/-- VHE_STEMn_MAXPROBE.max_probe, bits 6:0, RC. -/
def vheStemMaxprobe_max_probe : Field := ⟨.vheStemMaxprobe, 0, 7, .rc, 0x0⟩
/-- KME_CTRL.slice_groups, bits 7:0, RWL. -/
def kmeCtrl_slice_groups : Field := ⟨.kmeCtrl, 0, 8, .rwl, 0x8⟩
/-- KME_STEMn_PROBES.probes, bits 63:0, RO. -/
def kmeStemProbes_probes : Field := ⟨.kmeStemProbes, 0, 64, .ro, 0x0⟩
/-- KME_STEMn_REMOTE.remote_probes, bits 63:0, RO. -/
def kmeStemRemote_remote_probes : Field := ⟨.kmeStemRemote, 0, 64, .ro, 0x0⟩
/-- KME_STEMn_PAIRS.pairs, bits 63:0, RO. -/
def kmeStemPairs_pairs : Field := ⟨.kmeStemPairs, 0, 64, .ro, 0x0⟩
/-- KME_STEMn_SPILLED.pairs_spilled, bits 63:0, RO. -/
def kmeStemSpilled_pairs_spilled : Field := ⟨.kmeStemSpilled, 0, 64, .ro, 0x0⟩
/-- KME_STEMn_SPILL_USE.high_water, bits 31:16, RC. -/
def kmeStemSpillUse_high_water : Field := ⟨.kmeStemSpillUse, 16, 16, .rc, 0x0⟩
/-- KME_STEMn_SPILL_USE.in_use, bits 15:0, RO. -/
def kmeStemSpillUse_in_use : Field := ⟨.kmeStemSpillUse, 0, 16, .ro, 0x0⟩
/-- TILE_CTRL.acc_alternate, bits 0, RWL. -/
def tileCtrl_acc_alternate : Field := ⟨.tileCtrl, 0, 1, .rwl, 0x1⟩
/-- TILE_SR_SEED.seed, bits 63:0, RWL. -/
def tileSrSeed_seed : Field := ⟨.tileSrSeed, 0, 64, .rwl, 0x1⟩
/-- TILE_SR_PART.sr_part, bits 63:0, RWL. -/
def tileSrPart_sr_part : Field := ⟨.tileSrPart, 0, 64, .rwl, 0x0⟩
/-- TILE_STEMn_MACS.macs, bits 63:0, RO. -/
def tileStemMacs_macs : Field := ⟨.tileStemMacs, 0, 64, .ro, 0x0⟩
/-- TILE_STEMn_SATURATED.saturated, bits 63:0, RO. -/
def tileStemSaturated_saturated : Field := ⟨.tileStemSaturated, 0, 64, .ro, 0x0⟩
/-- TILE_STEMn_NONFINITE.nonfinite, bits 63:0, RO. -/
def tileStemNonfinite_nonfinite : Field := ⟨.tileStemNonfinite, 0, 64, .ro, 0x0⟩
/-- TILE_STEMn_META.meta_faults, bits 63:0, RO. -/
def tileStemMeta_meta_faults : Field := ⟨.tileStemMeta, 0, 64, .ro, 0x0⟩
/-- TILE_STEMn_PASSES.passes, bits 63:0, RO. -/
def tileStemPasses_passes : Field := ⟨.tileStemPasses, 0, 64, .ro, 0x0⟩
/-- TILE_STEMn_DISCARDED.passes_discarded, bits 63:0, RO. -/
def tileStemDiscarded_passes_discarded : Field := ⟨.tileStemDiscarded, 0, 64, .ro, 0x0⟩
/-- TWIG_CTRL.default_limit_us, bits 31:0, RWL. -/
def twigCtrl_default_limit_us : Field := ⟨.twigCtrl, 0, 32, .rwl, 0xF4240⟩
/-- TWIG_STEMn_INSTRET.instret, bits 63:0, RO. -/
def twigStemInstret_instret : Field := ⟨.twigStemInstret, 0, 64, .ro, 0x0⟩
/-- TWIG_STEMn_EXCEPT.exceptions, bits 63:0, RO. -/
def twigStemExcept_exceptions : Field := ⟨.twigStemExcept, 0, 64, .ro, 0x0⟩
/-- TWIG_STEMn_SUSPENDS.suspends, bits 63:0, RO. -/
def twigStemSuspends_suspends : Field := ⟨.twigStemSuspends, 0, 64, .ro, 0x0⟩
/-- CNP_CTRL.slice_items, bits 7:0, RWL. -/
def cnpCtrl_slice_items : Field := ⟨.cnpCtrl, 0, 8, .rwl, 0x8⟩
/-- CNP_MAPm_STATUS.valid_blocks, bits 63:32, RO. -/
def cnpMapStatus_valid_blocks : Field := ⟨.cnpMapStatus, 32, 32, .ro, 0x0⟩
/-- CNP_MAPm_STATUS.readers, bits 31:24, RO. -/
def cnpMapStatus_readers : Field := ⟨.cnpMapStatus, 24, 8, .ro, 0x0⟩
/-- CNP_MAPm_STATUS.writers, bits 23:16, RO. -/
def cnpMapStatus_writers : Field := ⟨.cnpMapStatus, 16, 8, .ro, 0x0⟩
/-- CNP_MAPm_STATUS.partition, bits 13:8, RO. -/
def cnpMapStatus_partition : Field := ⟨.cnpMapStatus, 8, 6, .ro, 0x0⟩
/-- CNP_MAPm_STATUS.defined, bits 0, RO. -/
def cnpMapStatus_defined : Field := ⟨.cnpMapStatus, 0, 1, .ro, 0x0⟩
/-- CNP_STEMn_PROBES.fold_probes, bits 63:0, RO. -/
def cnpStemProbes_fold_probes : Field := ⟨.cnpStemProbes, 0, 64, .ro, 0x0⟩
/-- CNP_STEMn_FOLDED.cells_folded, bits 63:0, RO. -/
def cnpStemFolded_cells_folded : Field := ⟨.cnpStemFolded, 0, 64, .ro, 0x0⟩
/-- CNP_STEMn_BORDER.warp_border, bits 63:0, RO. -/
def cnpStemBorder_warp_border : Field := ⟨.cnpStemBorder, 0, 64, .ro, 0x0⟩
/-- CNP_STEMn_ABSENT.devox_absent, bits 63:0, RO. -/
def cnpStemAbsent_devox_absent : Field := ⟨.cnpStemAbsent, 0, 64, .ro, 0x0⟩
/-- SRT_CTRL.slice_chunks, bits 7:0, RWL. -/
def srtCtrl_slice_chunks : Field := ⟨.srtCtrl, 0, 8, .rwl, 0x10⟩
/-- SRT_STEMn_ELEMENTS.elements, bits 63:0, RO. -/
def srtStemElements_elements : Field := ⟨.srtStemElements, 0, 64, .ro, 0x0⟩
/-- SRT_STEMn_IOU.iou_tests, bits 63:0, RO. -/
def srtStemIou_iou_tests : Field := ⟨.srtStemIou, 0, 64, .ro, 0x0⟩
/-- SRT_STEMn_COLLAPSED.collapsed, bits 63:0, RO. -/
def srtStemCollapsed_collapsed : Field := ⟨.srtStemCollapsed, 0, 64, .ro, 0x0⟩
/-- SRT_STEMn_SUPPRESSED.suppressed, bits 63:0, RO. -/
def srtStemSuppressed_suppressed : Field := ⟨.srtStemSuppressed, 0, 64, .ro, 0x0⟩
/-- GTH_CTRL.slice_chunks, bits 31:24, RWL. -/
def gthCtrl_slice_chunks : Field := ⟨.gthCtrl, 24, 8, .rwl, 0x8⟩
/-- GTH_CTRL.burl_threshold, bits 23:16, RWL. -/
def gthCtrl_burl_threshold : Field := ⟨.gthCtrl, 16, 8, .rwl, 0x8⟩
/-- GTH_CTRL.burl_window_us, bits 15:0, RWL. -/
def gthCtrl_burl_window_us : Field := ⟨.gthCtrl, 0, 16, .rwl, 0x3E8⟩
/-- GTH_TABLEt_STATUS.cur_gen, bits 63:32, RO. -/
def gthTableStatus_cur_gen : Field := ⟨.gthTableStatus, 32, 32, .ro, 0x0⟩
/-- GTH_TABLEt_STATUS.live_mask, bits 31:16, RO. -/
def gthTableStatus_live_mask : Field := ⟨.gthTableStatus, 16, 16, .ro, 0x0⟩
/-- GTH_TABLEt_STATUS.partition, bits 13:8, RO. -/
def gthTableStatus_partition : Field := ⟨.gthTableStatus, 8, 6, .ro, 0x0⟩
/-- GTH_TABLEt_STATUS.cur_slot, bits 7:4, RO. -/
def gthTableStatus_cur_slot : Field := ⟨.gthTableStatus, 4, 4, .ro, 0x0⟩
/-- GTH_TABLEt_STATUS.kind, bits 2, RO. -/
def gthTableStatus_kind : Field := ⟨.gthTableStatus, 2, 1, .ro, 0x0⟩
/-- GTH_TABLEt_STATUS.home, bits 1, RO. -/
def gthTableStatus_home : Field := ⟨.gthTableStatus, 1, 1, .ro, 0x0⟩
/-- GTH_TABLEt_STATUS.defined, bits 0, RO. -/
def gthTableStatus_defined : Field := ⟨.gthTableStatus, 0, 1, .ro, 0x0⟩
/-- GTH_TABLEt_PINS.pins, bits 63:0, RO. -/
def gthTablePins_pins : Field := ⟨.gthTablePins, 0, 64, .ro, 0x0⟩
/-- GTH_STEMn_LOOKUPS.lookups, bits 63:0, RO. -/
def gthStemLookups_lookups : Field := ⟨.gthStemLookups, 0, 64, .ro, 0x0⟩
/-- GTH_STEMn_FETCHES.fetches, bits 63:0, RO. -/
def gthStemFetches_fetches : Field := ⟨.gthStemFetches, 0, 64, .ro, 0x0⟩
/-- GTH_STEMn_COALESCED.coalesced, bits 63:0, RO. -/
def gthStemCoalesced_coalesced : Field := ⟨.gthStemCoalesced, 0, 64, .ro, 0x0⟩
/-- GTH_STEMn_BURL_HITS.burl_hits, bits 63:0, RO. -/
def gthStemBurlHits_burl_hits : Field := ⟨.gthStemBurlHits, 0, 64, .ro, 0x0⟩
/-- GTH_STEMn_DEFAULTS.defaults, bits 63:0, RO. -/
def gthStemDefaults_defaults : Field := ⟨.gthStemDefaults, 0, 64, .ro, 0x0⟩
/-- GTH_STEMn_BURL.allocated, bits 6:0, RO. -/
def gthStemBurl_allocated : Field := ⟨.gthStemBurl, 0, 7, .ro, 0x0⟩
/-- WBL_FABRIC_CFG.standby, bits 31, RWL. -/
def wblFabricCfg_standby : Field := ⟨.wblFabricCfg, 31, 1, .rwl, 0x0⟩
/-- WBL_FABRIC_CFG.root_eligible, bits 30, RWL. -/
def wblFabricCfg_root_eligible : Field := ⟨.wblFabricCfg, 30, 1, .rwl, 0x1⟩
/-- WBL_FABRIC_CFG.standby_x, bits 29:25, RWL. -/
def wblFabricCfg_standby_x : Field := ⟨.wblFabricCfg, 25, 5, .rwl, 0x1F⟩
/-- WBL_FABRIC_CFG.dz_m1, bits 14:10, RWL. -/
def wblFabricCfg_dz_m1 : Field := ⟨.wblFabricCfg, 10, 5, .rwl, 0x0⟩
/-- WBL_FABRIC_CFG.dy_m1, bits 9:5, RWL. -/
def wblFabricCfg_dy_m1 : Field := ⟨.wblFabricCfg, 5, 5, .rwl, 0x0⟩
/-- WBL_FABRIC_CFG.dx_m1, bits 4:0, RWL. -/
def wblFabricCfg_dx_m1 : Field := ⟨.wblFabricCfg, 0, 5, .rwl, 0x0⟩
/-- WBL_FABRIC_STATUS.acting_root, bits 31:16, RO. -/
def wblFabricStatus_acting_root : Field := ⟨.wblFabricStatus, 16, 16, .ro, 0x0⟩
/-- WBL_FABRIC_STATUS.cfg_error, bits 2, RO. -/
def wblFabricStatus_cfg_error : Field := ⟨.wblFabricStatus, 2, 1, .ro, 0x0⟩
/-- WBL_FABRIC_STATUS.epoch, bits 1, RO. -/
def wblFabricStatus_epoch : Field := ⟨.wblFabricStatus, 1, 1, .ro, 0x0⟩
/-- WBL_FABRIC_STATUS.change_active, bits 0, RO. -/
def wblFabricStatus_change_active : Field := ⟨.wblFabricStatus, 0, 1, .ro, 0x0⟩
/-- WBL_TIMEOUT.req_timeout_us, bits 15:0, RWL. -/
def wblTimeout_req_timeout_us : Field := ⟨.wblTimeout, 0, 16, .rwl, 0x2710⟩
/-- WBL_DROPS.hop_limit_drops, bits 63:32, RO. -/
def wblDrops_hop_limit_drops : Field := ⟨.wblDrops, 32, 32, .ro, 0x0⟩
/-- WBL_DROPS.timeouts, bits 31:0, RO. -/
def wblDrops_timeouts : Field := ⟨.wblDrops, 0, 32, .ro, 0x0⟩
/-- WBL_ALIASa.valid, bits 31, RO. -/
def wblAlias_valid : Field := ⟨.wblAlias, 31, 1, .ro, 0x0⟩
/-- WBL_ALIASa.substitute, bits 30:16, RO. -/
def wblAlias_substitute : Field := ⟨.wblAlias, 16, 15, .ro, 0x0⟩
/-- WBL_ALIASa.lost, bits 14:0, RO. -/
def wblAlias_lost : Field := ⟨.wblAlias, 0, 15, .ro, 0x0⟩
/-- WBL_LINKl_CFG.role, bits 1:0, RWL. -/
def wblLinkCfg_role : Field := ⟨.wblLinkCfg, 0, 2, .rwl, 0x0⟩
/-- WBL_LINKl_CREDIT.mgmt, bits 31:24, RWL. -/
def wblLinkCredit_mgmt : Field := ⟨.wblLinkCredit, 24, 8, .rwl, 0x22⟩
/-- WBL_LINKl_CREDIT.mcast, bits 23:16, RWL. -/
def wblLinkCredit_mcast : Field := ⟨.wblLinkCredit, 16, 8, .rwl, 0x40⟩
/-- WBL_LINKl_CREDIT.resp, bits 15:8, RWL. -/
def wblLinkCredit_resp : Field := ⟨.wblLinkCredit, 8, 8, .rwl, 0xA0⟩
/-- WBL_LINKl_CREDIT.req, bits 7:0, RWL. -/
def wblLinkCredit_req : Field := ⟨.wblLinkCredit, 0, 8, .rwl, 0x60⟩
/-- WBL_LINKl_STATUS.nbr_chip, bits 63:48, RO. -/
def wblLinkStatus_nbr_chip : Field := ⟨.wblLinkStatus, 48, 16, .ro, 0x0⟩
/-- WBL_LINKl_STATUS.nbr_link, bits 47:45, RO. -/
def wblLinkStatus_nbr_link : Field := ⟨.wblLinkStatus, 45, 3, .ro, 0x0⟩
/-- WBL_LINKl_STATUS.spared_lane, bits 40:37, RO. -/
def wblLinkStatus_spared_lane : Field := ⟨.wblLinkStatus, 37, 4, .ro, 0xF⟩
/-- WBL_LINKl_STATUS.state, bits 2:0, RO. -/
def wblLinkStatus_state : Field := ⟨.wblLinkStatus, 0, 3, .ro, 0x0⟩
/-- WBL_LINKl_CNT.count, bits 63:0, RO. -/
def wblLinkCnt_count : Field := ⟨.wblLinkCnt, 0, 64, .ro, 0x0⟩
/-- TWN_CFG.auto_pair, bits 31, RWL. -/
def twnCfg_auto_pair : Field := ⟨.twnCfg, 31, 1, .rwl, 0x1⟩
/-- TWN_CFG.prefer_lead, bits 30, RWL. -/
def twnCfg_prefer_lead : Field := ⟨.twnCfg, 30, 1, .rwl, 0x0⟩
/-- TWN_CFG.pin_enable, bits 29, RWL. -/
def twnCfg_pin_enable : Field := ⟨.twnCfg, 29, 1, .rwl, 0x0⟩
/-- TWN_TOL_BOX.pos_tol, bits 63:48, RWL. -/
def twnTolBox_pos_tol : Field := ⟨.twnTolBox, 48, 16, .rwl, 0x64⟩
/-- TWN_TOL_BOX.size_tol, bits 47:32, RWL. -/
def twnTolBox_size_tol : Field := ⟨.twnTolBox, 32, 16, .rwl, 0x64⟩
/-- TWN_TOL_BOX.pos_q, bits 31:24, RWL. -/
def twnTolBox_pos_q : Field := ⟨.twnTolBox, 24, 8, .rwl, 0x14⟩
/-- TWN_TOL_BOX.size_q, bits 23:16, RWL. -/
def twnTolBox_size_q : Field := ⟨.twnTolBox, 16, 8, .rwl, 0xA⟩
/-- TWN_TOL_SCORE.score_tol, bits 31:16, RWL. -/
def twnTolScore_score_tol : Field := ⟨.twnTolScore, 16, 16, .rwl, 0xCCD⟩
/-- TWN_TOL_SCORE.miss_score, bits 15:0, RWL. -/
def twnTolScore_miss_score : Field := ⟨.twnTolScore, 0, 16, .rwl, 0x4CCC⟩
/-- TWN_TOL_BEV.bev_rel, bits 63:32, RWL. -/
def twnTolBev_bev_rel : Field := ⟨.twnTolBev, 32, 32, .rwl, 0x3D4CCCCD⟩
/-- TWN_TOL_BEV.bev_abs, bits 31:0, RWL. -/
def twnTolBev_bev_abs : Field := ⟨.twnTolBev, 0, 32, .rwl, 0x3C23D70A⟩
/-- TWN_SIG.sig_boxes, bits 25:16, RWL. -/
def twnSig_sig_boxes : Field := ⟨.twnSig, 16, 10, .rwl, 0x200⟩
/-- TWN_SIG.sig_samples, bits 6:0, RWL. -/
def twnSig_sig_samples : Field := ⟨.twnSig, 0, 7, .rwl, 0x40⟩
/-- TWN_DIVERGE.window_m, bits 31:16, RWL. -/
def twnDiverge_window_m : Field := ⟨.twnDiverge, 16, 16, .rwl, 0x64⟩
/-- TWN_DIVERGE.count_n, bits 15:0, RWL. -/
def twnDiverge_count_n : Field := ⟨.twnDiverge, 0, 16, .rwl, 0x3⟩
/-- TWN_TIMEOUTS.sig_wait_us, bits 31:16, RWL. -/
def twnTimeouts_sig_wait_us : Field := ⟨.twnTimeouts, 16, 16, .rwl, 0x7D0⟩
/-- TWN_TIMEOUTS.lost_frames, bits 15:8, RWL. -/
def twnTimeouts_lost_frames : Field := ⟨.twnTimeouts, 8, 8, .rwl, 0x3⟩
/-- TWN_TIMEOUTS.sync_timeout_s, bits 7:0, RWL. -/
def twnTimeouts_sync_timeout_s : Field := ⟨.twnTimeouts, 0, 8, .rwl, 0xA⟩
/-- TWN_STATUS.window_disputes, bits 55:48, RO. -/
def twnStatus_window_disputes : Field := ⟨.twnStatus, 48, 8, .ro, 0x0⟩
/-- TWN_STATUS.lost_reason, bits 43:40, RO. -/
def twnStatus_lost_reason : Field := ⟨.twnStatus, 40, 4, .ro, 0x0⟩
/-- TWN_STATUS.partner_chip, bits 31:16, RO. -/
def twnStatus_partner_chip : Field := ⟨.twnStatus, 16, 16, .ro, 0x0⟩
/-- TWN_STATUS.reenable_pending, bits 9, RO. -/
def twnStatus_reenable_pending : Field := ⟨.twnStatus, 9, 1, .ro, 0x0⟩
/-- TWN_STATUS.diverged, bits 8, RO. -/
def twnStatus_diverged : Field := ⟨.twnStatus, 8, 1, .ro, 0x0⟩
/-- TWN_STATUS.role, bits 7:6, RO. -/
def twnStatus_role : Field := ⟨.twnStatus, 6, 2, .ro, 0x0⟩
/-- TWN_STATUS.state, bits 2:0, RO. -/
def twnStatus_state : Field := ⟨.twnStatus, 0, 3, .ro, 0x0⟩
/-- TWN_FIRST_FRAME.k0, bits 63:0, RO. -/
def twnFirstFrame_k0 : Field := ⟨.twnFirstFrame, 0, 64, .ro, 0x0⟩
/-- TWN_LAST_DISPUTE.window, bits 63:0, RO. -/
def twnLastDispute_window : Field := ⟨.twnLastDispute, 0, 64, .ro, 0x0⟩
/-- TWN_VERDICT.partner_verdict, bits 3:2, RO. -/
def twnVerdict_partner_verdict : Field := ⟨.twnVerdict, 2, 2, .ro, 0x0⟩
/-- TWN_VERDICT.local_verdict, bits 1:0, RO. -/
def twnVerdict_local_verdict : Field := ⟨.twnVerdict, 0, 2, .ro, 0x0⟩
/-- TWN_CNT.count, bits 63:0, RO. -/
def twnCnt_count : Field := ⟨.twnCnt, 0, 64, .ro, 0x0⟩
/-- TWN_PEER_DIGESTi.digest, bits 63:0, RWL. -/
def twnPeerDigest_digest : Field := ⟨.twnPeerDigest, 0, 64, .rwl, 0x0⟩
/-- BRK_STATUS.safe_source, bits 39:32, RO. -/
def brkStatus_safe_source : Field := ⟨.brkStatus, 32, 8, .ro, 0x0⟩
/-- BRK_STATUS.fault_n_low, bits 7, RO. -/
def brkStatus_fault_n_low : Field := ⟨.brkStatus, 7, 1, .ro, 0x1⟩
/-- BRK_STATUS.latched, bits 6, RO. -/
def brkStatus_latched : Field := ⟨.brkStatus, 6, 1, .ro, 0x0⟩
/-- BRK_STATUS.mode, bits 1:0, RO. -/
def brkStatus_mode : Field := ⟨.brkStatus, 0, 2, .ro, 0x0⟩
/-- BRK_SAFE_CFG.stop_mode, bits 31, RWL. -/
def brkSafeCfg_stop_mode : Field := ⟨.brkSafeCfg, 31, 1, .rwl, 0x1⟩
/-- BRK_SAFE_CFG.release_host, bits 30, RWL. -/
def brkSafeCfg_release_host : Field := ⟨.brkSafeCfg, 30, 1, .rwl, 0x1⟩
/-- BRK_SAFE_CFG.safe_crit, bits 29:28, RWL. -/
def brkSafeCfg_safe_crit : Field := ⟨.brkSafeCfg, 28, 2, .rwl, 0x2⟩
/-- BRK_SAFE_CFG.vector, bits 10:0, RWL. -/
def brkSafeCfg_vector : Field := ⟨.brkSafeCfg, 0, 11, .rwl, 0x0⟩
/-- BRK_SRCs_CFG.reaction, bits 1:0, RWL; RO for fatal sources. -/
def brkSrcCfg_reaction : Field := ⟨.brkSrcCfg, 0, 2, .rwl, 0x0⟩
/-- BRK_SRCs_CNT.reports, bits 63:0, RO. -/
def brkSrcCnt_reports : Field := ⟨.brkSrcCnt, 0, 64, .ro, 0x0⟩
/-- BRK_CS_CFG.enable, bits 31, RWL. -/
def brkCsCfg_enable : Field := ⟨.brkCsCfg, 31, 1, .rwl, 0x1⟩
/-- BRK_CS_CFG.cfg_error, bits 30, RO. -/
def brkCsCfg_cfg_error : Field := ⟨.brkCsCfg, 30, 1, .ro, 0x0⟩
/-- BRK_CS_CFG.lanes_m1, bits 29:28, RWL. -/
def brkCsCfg_lanes_m1 : Field := ⟨.brkCsCfg, 28, 2, .rwl, 0x1⟩
/-- BRK_CS_CFG.ftti_ms, bits 27:16, RWL. -/
def brkCsCfg_ftti_ms : Field := ⟨.brkCsCfg, 16, 12, .rwl, 0x64⟩
/-- BRK_CS_CFG.lag_us, bits 15:0, RWL. -/
def brkCsCfg_lag_us : Field := ⟨.brkCsCfg, 0, 16, .rwl, 0x3E8⟩
/-- BRK_CS_STEMn.last_round_us, bits 63:48, RO. -/
def brkCsStem_last_round_us : Field := ⟨.brkCsStem, 48, 16, .ro, 0x0⟩
/-- BRK_CS_STEMn.oldest_age_ms, bits 47:36, RO. -/
def brkCsStem_oldest_age_ms : Field := ⟨.brkCsStem, 36, 12, .ro, 0x0⟩
/-- BRK_CS_STEMn.failures, bits 31:16, RO. -/
def brkCsStem_failures : Field := ⟨.brkCsStem, 16, 16, .ro, 0x0⟩
/-- BRK_CS_STEMn.inplace_lanes, bits 5:3, RO. -/
def brkCsStem_inplace_lanes : Field := ⟨.brkCsStem, 3, 3, .ro, 0x0⟩
/-- BRK_CS_STEMn.rotation_lanes, bits 2:0, RO. -/
def brkCsStem_rotation_lanes : Field := ⟨.brkCsStem, 0, 3, .ro, 0x0⟩
/-- BRK_WEAR_CFG.sample_ms, bits 23:16, RWL. -/
def brkWearCfg_sample_ms : Field := ⟨.brkWearCfg, 16, 8, .rwl, 0x64⟩
/-- BRK_WEAR_CFG.graft_pm, bits 15:8, RWL. -/
def brkWearCfg_graft_pm : Field := ⟨.brkWearCfg, 8, 8, .rwl, 0x3C⟩
/-- BRK_WEAR_CFG.warn_pm, bits 7:0, RWL. -/
def brkWearCfg_warn_pm : Field := ⟨.brkWearCfg, 0, 8, .rwl, 0x1E⟩
/-- BRK_SPARESn.lost, bits 20:16, RO. -/
def brkSpares_lost : Field := ⟨.brkSpares, 16, 5, .ro, 0x0⟩
/-- BRK_SPARESn.spare, bits 4:0, RO. -/
def brkSpares_spare : Field := ⟨.brkSpares, 0, 5, .ro, 0x1F⟩
/-- BRK_LOG_STATUS.fault_lost, bits 63:32, RO. -/
def brkLogStatus_fault_lost : Field := ⟨.brkLogStatus, 32, 32, .ro, 0x0⟩
/-- BRK_LOG_STATUS.graft_full, bits 16, RO. -/
def brkLogStatus_graft_full : Field := ⟨.brkLogStatus, 16, 1, .ro, 0x0⟩
/-- BRK_LOG_STATUS.graft_records, bits 15:0, RO. -/
def brkLogStatus_graft_records : Field := ⟨.brkLogStatus, 0, 16, .ro, 0x0⟩
/-- BRK_PARTp_CFG.fab_burst, bits 63:56, RWL. -/
def brkPartCfg_fab_burst : Field := ⟨.brkPartCfg, 56, 8, .rwl, 0x40⟩
/-- BRK_PARTp_CFG.fab_rate, bits 55:48, RWL. -/
def brkPartCfg_fab_rate : Field := ⟨.brkPartCfg, 48, 8, .rwl, 0x0⟩
/-- BRK_PARTp_CFG.hbm_burst, bits 47:40, RWL. -/
def brkPartCfg_hbm_burst : Field := ⟨.brkPartCfg, 40, 8, .rwl, 0x40⟩
/-- BRK_PARTp_CFG.hbm_rate, bits 39:32, RWL. -/
def brkPartCfg_hbm_rate : Field := ⟨.brkPartCfg, 32, 8, .rwl, 0x0⟩
/-- BRK_PARTp_CFG.max_crit, bits 1:0, RWL. -/
def brkPartCfg_max_crit : Field := ⟨.brkPartCfg, 0, 2, .rwl, 0x3⟩
/-- BRK_TDMA_CFGn.enable, bits 31, RWL. -/
def brkTdmaCfg_enable : Field := ⟨.brkTdmaCfg, 31, 1, .rwl, 0x0⟩
/-- BRK_TDMA_CFGn.slots_m1, bits 26:24, RWL. -/
def brkTdmaCfg_slots_m1 : Field := ⟨.brkTdmaCfg, 24, 3, .rwl, 0x0⟩
/-- BRK_TDMA_CFGn.slot_us, bits 15:0, RWL. -/
def brkTdmaCfg_slot_us : Field := ⟨.brkTdmaCfg, 0, 16, .rwl, 0x3E8⟩
/-- BRK_TDMA_SLOTn_i.members, bits 63:0, RWL. -/
def brkTdmaSlot_members : Field := ⟨.brkTdmaSlot, 0, 64, .rwl, 0xFFFFFFFFFFFFFFFF⟩
/-- BRK_FW_DENYt.denied, bits 63:0, RO. -/
def brkFwDeny_denied : Field := ⟨.brkFwDeny, 0, 64, .ro, 0x0⟩
/-- SEC_BOOT_STATUS.error, bits 63:48, RO. -/
def secBootStatus_error : Field := ⟨.secBootStatus, 48, 16, .ro, 0x0⟩
/-- SEC_BOOT_STATUS.sec_version, bits 47:40, RO. -/
def secBootStatus_sec_version : Field := ⟨.secBootStatus, 40, 8, .ro, 0x0⟩
/-- SEC_BOOT_STATUS.key_slot, bits 13:12, RO. -/
def secBootStatus_key_slot : Field := ⟨.secBootStatus, 12, 2, .ro, 0x0⟩
/-- SEC_BOOT_STATUS.lifecycle, bits 11:10, RO. -/
def secBootStatus_lifecycle : Field := ⟨.secBootStatus, 10, 2, .ro, 0x0⟩
/-- SEC_BOOT_STATUS.boot_mode, bits 9:7, RO. -/
def secBootStatus_boot_mode : Field := ⟨.secBootStatus, 7, 3, .ro, 0x0⟩
/-- SEC_BOOT_STATUS.trial, bits 6, RO. -/
def secBootStatus_trial : Field := ⟨.secBootStatus, 6, 1, .ro, 0x0⟩
/-- SEC_BOOT_STATUS.slot, bits 5, RO. -/
def secBootStatus_slot : Field := ⟨.secBootStatus, 5, 1, .ro, 0x0⟩
/-- SEC_BOOT_STATUS.stage, bits 3:0, RO. -/
def secBootStatus_stage : Field := ⟨.secBootStatus, 0, 4, .ro, 0x0⟩
/-- SEC_OTP_STATUS.rollback, bits 23:16, RO. -/
def secOtpStatus_rollback : Field := ⟨.secOtpStatus, 16, 8, .ro, 0x0⟩
/-- SEC_OTP_STATUS.boot_mode_lock, bits 9, RO. -/
def secOtpStatus_boot_mode_lock : Field := ⟨.secOtpStatus, 9, 1, .ro, 0x0⟩
/-- SEC_OTP_STATUS.debug_disable, bits 8, RO. -/
def secOtpStatus_debug_disable : Field := ⟨.secOtpStatus, 8, 1, .ro, 0x0⟩
/-- SEC_OTP_STATUS.revoked, bits 3:0, RO. -/
def secOtpStatus_revoked : Field := ⟨.secOtpStatus, 0, 4, .ro, 0x0⟩
/-- SEC_SERIAL.device_serial, bits 63:0, RO. -/
def secSerial_device_serial : Field := ⟨.secSerial, 0, 64, .ro, 0x0⟩
/-- SEC_TRIAL_SEEN.trial_slot, bits 33, RO. -/
def secTrialSeen_trial_slot : Field := ⟨.secTrialSeen, 33, 1, .ro, 0x0⟩
/-- SEC_TRIAL_SEEN.seen, bits 32, RO. -/
def secTrialSeen_seen : Field := ⟨.secTrialSeen, 32, 1, .ro, 0x0⟩
/-- SEC_TRIAL_SEEN.trial_seq, bits 31:0, RO. -/
def secTrialSeen_trial_seq : Field := ⟨.secTrialSeen, 0, 32, .ro, 0x0⟩
/-- SEC_ROOT_DIGESTk_i.digest, bits 63:0, RO. -/
def secRootDigest_digest : Field := ⟨.secRootDigest, 0, 64, .ro, 0x0⟩
/-- SEC_MEASUREr_i.value, bits 63:0, RO. -/
def secMeasure_value : Field := ⟨.secMeasure, 0, 64, .ro, 0x0⟩
/-- SEC_DEBUG_STATUS.failures, bits 15:8, RO. -/
def secDebugStatus_failures : Field := ⟨.secDebugStatus, 8, 8, .ro, 0x0⟩
/-- SEC_DEBUG_STATUS.lockout, bits 4, RO. -/
def secDebugStatus_lockout : Field := ⟨.secDebugStatus, 4, 1, .ro, 0x0⟩
/-- SEC_DEBUG_STATUS.unlocked, bits 1:0, RO. -/
def secDebugStatus_unlocked : Field := ⟨.secDebugStatus, 0, 2, .ro, 0x0⟩
/-- SEC_IDE_FAIL.failures, bits 63:0, RO. -/
def secIdeFail_failures : Field := ⟨.secIdeFail, 0, 64, .ro, 0x0⟩
/-- SEC_MBOX_CMD.go, bits 31, W1S. -/
def secMboxCmd_go : Field := ⟨.secMboxCmd, 31, 1, .w1s, 0x0⟩
/-- SEC_MBOX_CMD.done, bits 30, RO. -/
def secMboxCmd_done : Field := ⟨.secMboxCmd, 30, 1, .ro, 0x0⟩
/-- SEC_MBOX_CMD.status, bits 23:8, RO. -/
def secMboxCmd_status : Field := ⟨.secMboxCmd, 8, 16, .ro, 0x0⟩
/-- SEC_MBOX_CMD.opcode, bits 7:0, RW. -/
def secMboxCmd_opcode : Field := ⟨.secMboxCmd, 0, 8, .rw, 0x0⟩
/-- SEC_MBOX_ARGi.arg, bits 63:0, RW. -/
def secMboxArg_arg : Field := ⟨.secMboxArg, 0, 64, .rw, 0x0⟩
/-- TRC_CTRL.enable, bits 31, RWL. -/
def trcCtrl_enable : Field := ⟨.trcCtrl, 31, 1, .rwl, 0x0⟩
/-- TRC_CTRL.mode, bits 30:29, RWL. -/
def trcCtrl_mode : Field := ⟨.trcCtrl, 29, 2, .rwl, 0x0⟩
/-- TRC_CTRL.all_commands, bits 28, RWL. -/
def trcCtrl_all_commands : Field := ⟨.trcCtrl, 28, 1, .rwl, 0x0⟩
/-- TRC_CTRL.unit_mask, bits 15:0, RWL. -/
def trcCtrl_unit_mask : Field := ⟨.trcCtrl, 0, 16, .rwl, 0xFFFF⟩
/-- TRC_BASE.base, bits 47:12, RWL. -/
def trcBase_base : Field := ⟨.trcBase, 12, 36, .rwl, 0x0⟩
/-- TRC_SIZE.size_mib, bits 12:0, RWL. -/
def trcSize_size_mib : Field := ⟨.trcSize, 0, 13, .rwl, 0x0⟩
/-- TRC_POST.post_records, bits 26:0, RWL. -/
def trcPost_post_records : Field := ⟨.trcPost, 0, 27, .rwl, 0x1000⟩
/-- TRC_TRIGGER.on_failure, bits 63, RWL. -/
def trcTrigger_on_failure : Field := ⟨.trcTrigger, 63, 1, .rwl, 0x1⟩
/-- TRC_TRIGGER.on_status, bits 62, RWL. -/
def trcTrigger_on_status : Field := ⟨.trcTrigger, 62, 1, .rwl, 0x0⟩
/-- TRC_TRIGGER.on_op, bits 61, RWL. -/
def trcTrigger_on_op : Field := ⟨.trcTrigger, 61, 1, .rwl, 0x0⟩
/-- TRC_TRIGGER.on_bark, bits 60, RWL. -/
def trcTrigger_on_bark : Field := ⟨.trcTrigger, 60, 1, .rwl, 0x0⟩
/-- TRC_TRIGGER.op_id, bits 47:32, RWL. -/
def trcTrigger_op_id : Field := ⟨.trcTrigger, 32, 16, .rwl, 0x0⟩
/-- TRC_TRIGGER.status, bits 31:16, RWL. -/
def trcTrigger_status : Field := ⟨.trcTrigger, 16, 16, .rwl, 0x0⟩
/-- TRC_TRIGGER.source, bits 7:0, RWL. -/
def trcTrigger_source : Field := ⟨.trcTrigger, 0, 8, .rwl, 0x0⟩
/-- TRC_PART_MASK.part_mask, bits 63:0, RWL. -/
def trcPartMask_part_mask : Field := ⟨.trcPartMask, 0, 64, .rwl, 0xFFFFFFFFFFFFFFFF⟩
/-- TRC_STATUS.state, bits 63:62, RO. -/
def trcStatus_state : Field := ⟨.trcStatus, 62, 2, .ro, 0x0⟩
/-- TRC_STATUS.wrapped, bits 61, RO. -/
def trcStatus_wrapped : Field := ⟨.trcStatus, 61, 1, .ro, 0x0⟩
/-- TRC_STATUS.trigger_slot, bits 58:32, RO. -/
def trcStatus_trigger_slot : Field := ⟨.trcStatus, 32, 27, .ro, 0x0⟩
/-- TRC_STATUS.next_slot, bits 26:0, RO. -/
def trcStatus_next_slot : Field := ⟨.trcStatus, 0, 27, .ro, 0x0⟩
/-- TRC_DROPPED.dropped, bits 63:0, RO. -/
def trcDropped_dropped : Field := ⟨.trcDropped, 0, 64, .ro, 0x0⟩
/-- TRC_WD_CFG.enable, bits 31, RWL. -/
def trcWdCfg_enable : Field := ⟨.trcWdCfg, 31, 1, .rwl, 0x1⟩
/-- TRC_WD_CFG.wd_us, bits 23:0, RWL. -/
def trcWdCfg_wd_us : Field := ⟨.trcWdCfg, 0, 24, .rwl, 0x2710⟩
/-- TRC_DUMP_BASE.base, bits 47:12, RWL. -/
def trcDumpBase_base : Field := ⟨.trcDumpBase, 12, 36, .rwl, 0x0⟩
/-- TRC_DUMP_HOST.host, bits 63:12, RWL. -/
def trcDumpHost_host : Field := ⟨.trcDumpHost, 12, 52, .rwl, 0x0⟩
/-- TRC_DUMP_STATUS.dumps_lost, bits 31:16, RO. -/
def trcDumpStatus_dumps_lost : Field := ⟨.trcDumpStatus, 16, 16, .ro, 0x0⟩
/-- TRC_DUMP_STATUS.slot_full, bits 1:0, W1C. -/
def trcDumpStatus_slot_full : Field := ⟨.trcDumpStatus, 0, 2, .w1c, 0x0⟩
/-- TRC_DELTA_SEL.unit, bits 15:0, RW. -/
def trcDeltaSel_unit : Field := ⟨.trcDeltaSel, 0, 16, .rw, 0x0⟩
/-- TRC_DELTAi.delta, bits 63:0, RO. -/
def trcDelta_delta : Field := ⟨.trcDelta, 0, 64, .ro, 0x0⟩
/-- TRC_PERT_CTRL.enable, bits 31, RW. -/
def trcPertCtrl_enable : Field := ⟨.trcPertCtrl, 31, 1, .rw, 0x0⟩
/-- TRC_PERT_CTRL.jitter_pct, bits 23:20, RW. -/
def trcPertCtrl_jitter_pct : Field := ⟨.trcPertCtrl, 20, 4, .rw, 0x0⟩
/-- TRC_PERT_CTRL.bp_prob, bits 19:12, RW. -/
def trcPertCtrl_bp_prob : Field := ⟨.trcPertCtrl, 12, 8, .rw, 0x0⟩
/-- TRC_PERT_CTRL.delay_max, bits 5:0, RW. -/
def trcPertCtrl_delay_max : Field := ⟨.trcPertCtrl, 0, 6, .rw, 0x0⟩
/-- TRC_PERT_SEED.seed, bits 63:0, RW. -/
def trcPertSeed_seed : Field := ⟨.trcPertSeed, 0, 64, .rw, 0x1⟩
/-- TRC_PERT_SCOPE.kinds, bits 15:0, RW. -/
def trcPertScope_kinds : Field := ⟨.trcPertScope, 0, 16, .rw, 0x0⟩
/-- PWR_CTRL.pollard_enable, bits 31, RWL. -/
def pwrCtrl_pollard_enable : Field := ⟨.pwrCtrl, 31, 1, .rwl, 0x1⟩
/-- PWR_CTRL.boost_enable, bits 30, RWL. -/
def pwrCtrl_boost_enable : Field := ⟨.pwrCtrl, 30, 1, .rwl, 0x0⟩
/-- PWR_CTRL.boost_c, bits 23:16, RWL. -/
def pwrCtrl_boost_c : Field := ⟨.pwrCtrl, 16, 8, .rwl, 0x55⟩
/-- PWR_CTRL.throttle_c, bits 15:8, RWL. -/
def pwrCtrl_throttle_c : Field := ⟨.pwrCtrl, 8, 8, .rwl, 0x5F⟩
/-- PWR_CTRL.tile_floor, bits 5:0, RWL. -/
def pwrCtrl_tile_floor : Field := ⟨.pwrCtrl, 0, 6, .rwl, 0x18⟩
/-- PWR_CAP.cap_w, bits 8:0, RWL. -/
def pwrCap_cap_w : Field := ⟨.pwrCap, 0, 9, .rwl, 0x1E0⟩
/-- PWR_STATUS.power_mw, bits 63:32, RO. -/
def pwrStatus_power_mw : Field := ⟨.pwrStatus, 32, 32, .ro, 0x0⟩
/-- PWR_STATUS.boost_active, bits 2, RO. -/
def pwrStatus_boost_active : Field := ⟨.pwrStatus, 2, 1, .ro, 0x0⟩
/-- PWR_STATUS.thermal_active, bits 1, RO. -/
def pwrStatus_thermal_active : Field := ⟨.pwrStatus, 1, 1, .ro, 0x0⟩
/-- PWR_STATUS.cap_unmet, bits 0, RO. -/
def pwrStatus_cap_unmet : Field := ⟨.pwrStatus, 0, 1, .ro, 0x0⟩
/-- PWR_ENERGY.energy_uj, bits 63:0, RO. -/
def pwrEnergy_energy_uj : Field := ⟨.pwrEnergy, 0, 64, .ro, 0x0⟩
/-- PWR_STEMn_STATUS.max_temp_c, bits 63:56, RO. -/
def pwrStemStatus_max_temp_c : Field := ⟨.pwrStemStatus, 56, 8, .ro, 0x0⟩
/-- PWR_STEMn_STATUS.hottest_tile, bits 53:48, RO. -/
def pwrStemStatus_hottest_tile : Field := ⟨.pwrStemStatus, 48, 6, .ro, 0x0⟩
/-- PWR_STEMn_STATUS.tile_ceiling, bits 47:40, RO. -/
def pwrStemStatus_tile_ceiling : Field := ⟨.pwrStemStatus, 40, 8, .ro, 0x30⟩
/-- PWR_STEMn_STATUS.engine_ceiling, bits 39:32, RO. -/
def pwrStemStatus_engine_ceiling : Field := ⟨.pwrStemStatus, 32, 8, .ro, 0x28⟩
/-- PWR_STEMn_STATUS.thermal_ceiling, bits 31:24, RO. -/
def pwrStemStatus_thermal_ceiling : Field := ⟨.pwrStemStatus, 24, 8, .ro, 0x38⟩
/-- PWR_STEMn_STATUS.clamp, bits 3, RO. -/
def pwrStemStatus_clamp : Field := ⟨.pwrStemStatus, 3, 1, .ro, 0x0⟩
/-- PWR_STEMn_STATUS.reenable_pending, bits 2, RO. -/
def pwrStemStatus_reenable_pending : Field := ⟨.pwrStemStatus, 2, 1, .ro, 0x0⟩
/-- PWR_STEMn_STATUS.state, bits 1:0, RO. -/
def pwrStemStatus_state : Field := ⟨.pwrStemStatus, 0, 2, .ro, 0x2⟩
/-- PWR_STEMn_THROTTLE.throttle_ns, bits 63:0, RO. -/
def pwrStemThrottle_throttle_ns : Field := ⟨.pwrStemThrottle, 0, 64, .ro, 0x0⟩
/-- PCI_SETUP_LOCK.lock, bits 31, W1S. -/
def pciSetupLock_lock : Field := ⟨.pciSetupLock, 31, 1, .w1s, 0x0⟩
/-- PCI_SETUP_LOCK.lock_error, bits 30, RO. -/
def pciSetupLock_lock_error : Field := ⟨.pciSetupLock, 30, 1, .ro, 0x0⟩
/-- PCI_SETUP_LOCK.error_code, bits 26:24, RO. -/
def pciSetupLock_error_code : Field := ⟨.pciSetupLock, 24, 3, .ro, 0x0⟩
/-- PCI_SETUP_LOCK.error_index, bits 15:0, RO. -/
def pciSetupLock_error_index : Field := ⟨.pciSetupLock, 0, 16, .ro, 0x0⟩
/-- PCI_FN_LOCK.lock, bits 0, W1S. -/
def pciFnLock_lock : Field := ⟨.pciFnLock, 0, 1, .w1s, 0x0⟩
/-- PCI_LINK_STATUS.degraded, bits 11, RO. -/
def pciLinkStatus_degraded : Field := ⟨.pciLinkStatus, 11, 1, .ro, 0x0⟩
/-- PCI_LINK_STATUS.flit_mode, bits 10, RO. -/
def pciLinkStatus_flit_mode : Field := ⟨.pciLinkStatus, 10, 1, .ro, 0x0⟩
/-- PCI_LINK_STATUS.width, bits 9:4, RO. -/
def pciLinkStatus_width : Field := ⟨.pciLinkStatus, 4, 6, .ro, 0x0⟩
/-- PCI_LINK_STATUS.speed, bits 2:0, RO. -/
def pciLinkStatus_speed : Field := ⟨.pciLinkStatus, 0, 3, .ro, 0x0⟩
/-- PCI_FN_PARTf.partition, bits 5:0, RWL. -/
def pciFnPart_partition : Field := ⟨.pciFnPart, 0, 6, .rwl, 0x0⟩
/-- PCI_BAR2_BASEf.base, bits 47:30, RWL. -/
def pciBar2Base_base : Field := ⟨.pciBar2Base, 30, 18, .rwl, 0x0⟩
/-- BRK_FWt_Ww bytes 0-7.base, bits 47:12, RWL. -/
def brkFwBase_base : Field := ⟨.brkFwBase, 12, 36, .rwl, 0x0⟩
/-- BRK_FWt_Ww bytes 8-15.limit, bits 47:12, RWL. -/
def brkFwLimit_limit : Field := ⟨.brkFwLimit, 12, 36, .rwl, 0x0⟩
/-- BRK_FWt_Ww bytes 16-23.stream_mask, bits 47:32, RWL. -/
def brkFwCtl_stream_mask : Field := ⟨.brkFwCtl, 32, 16, .rwl, 0x0⟩
/-- BRK_FWt_Ww bytes 16-23.stream_value, bits 31:16, RWL. -/
def brkFwCtl_stream_value : Field := ⟨.brkFwCtl, 16, 16, .rwl, 0x0⟩
/-- BRK_FWt_Ww bytes 16-23.enable, bits 15, RWL. -/
def brkFwCtl_enable : Field := ⟨.brkFwCtl, 15, 1, .rwl, 0x0⟩
/-- BRK_FWt_Ww bytes 16-23.lock, bits 14, RWL. -/
def brkFwCtl_lock : Field := ⟨.brkFwCtl, 14, 1, .rwl, 0x0⟩
/-- BRK_FWt_Ww bytes 16-23.exec, bits 13, RWL. -/
def brkFwCtl_exec : Field := ⟨.brkFwCtl, 13, 1, .rwl, 0x0⟩
/-- BRK_FWt_Ww bytes 16-23.atomic, bits 12, RWL. -/
def brkFwCtl_atomic : Field := ⟨.brkFwCtl, 12, 1, .rwl, 0x0⟩
/-- BRK_FWt_Ww bytes 16-23.write, bits 11, RWL. -/
def brkFwCtl_write : Field := ⟨.brkFwCtl, 11, 1, .rwl, 0x0⟩
/-- BRK_FWt_Ww bytes 16-23.read, bits 10, RWL. -/
def brkFwCtl_read : Field := ⟨.brkFwCtl, 10, 1, .rwl, 0x0⟩
/-- BRK_FWt_Ww bytes 16-23.crit_min, bits 9:8, RWL. -/
def brkFwCtl_crit_min : Field := ⟨.brkFwCtl, 8, 2, .rwl, 0x0⟩
/-- BRK_FWt_Ww bytes 16-23.any_partition, bits 6, RWL. -/
def brkFwCtl_any_partition : Field := ⟨.brkFwCtl, 6, 1, .rwl, 0x0⟩
/-- BRK_FWt_Ww bytes 16-23.partition, bits 5:0, RWL. -/
def brkFwCtl_partition : Field := ⟨.brkFwCtl, 0, 6, .rwl, 0x0⟩

end Fld

/-- What the map says of a register as a whole: its BAR0 offset, how many bytes it takes, its repetition (count and
stride of each index, outermost first), whether every function has its own, and its fields. -/
structure RegInfo where
  offset : Nat
  bytes : Nat
  dims : List (Nat × Nat)
  perFn : Bool
  fields : List Field
  deriving DecidableEq, Repr

/-- The register map. -/
def Reg.info : Reg → RegInfo
  | .crnChipId => ⟨0x10000, 4, [], false, [Fld.crnChipId_chip_id]⟩
  | .hbmMapCtrl => ⟨0x400000, 4, [], false, [Fld.hbmMapCtrl_map_mode]⟩
  | .hbmPatrolCtrl => ⟨0x400004, 4, [], false, [Fld.hbmPatrolCtrl_interval_h, Fld.hbmPatrolCtrl_enable]⟩
  | .hbmStackStatus => ⟨0x400100, 8, [(4, 0x40)], false, [Fld.hbmStackStatus_retired_pc_mask, Fld.hbmStackStatus_retire_pending, Fld.hbmStackStatus_pending_pc, Fld.hbmStackStatus_usable_slices, Fld.hbmStackStatus_soft_ppr_count]⟩
  | .hbmStackRetireAck => ⟨0x400108, 4, [(4, 0x40)], false, [Fld.hbmStackRetireAck_vacated]⟩
  | .hbmStackEccCe => ⟨0x400110, 8, [(4, 0x40)], false, [Fld.hbmStackEccCe_ce_count]⟩
  | .hbmStackEccUe => ⟨0x400118, 8, [(4, 0x40)], false, [Fld.hbmStackEccUe_ue_count]⟩
  | .hbmStackErrAddr => ⟨0x400120, 8, [(4, 0x40)], false, [Fld.hbmStackErrAddr_ue_addr]⟩
  | .sapStemStatus => ⟨0x440000, 4, [(4, 0x100)], false, [Fld.sapStemStatus_retired_banks, Fld.sapStemStatus_spare_positions, Fld.sapStemStatus_banks_per_slice]⟩
  | .sapStemEccCe => ⟨0x440008, 8, [(4, 0x100)], false, [Fld.sapStemEccCe_ce_count]⟩
  | .sapStemEccUe => ⟨0x440010, 8, [(4, 0x100)], false, [Fld.sapStemEccUe_ue_count]⟩
  | .sapStemErrAddr => ⟨0x440018, 8, [(4, 0x100)], false, [Fld.sapStemErrAddr_ue_addr]⟩
  | .sapScrubOnRelease => ⟨0x440800, 8, [], false, [Fld.sapScrubOnRelease_scrub_on_release]⟩
  | .sapScrubStatus => ⟨0x440808, 4, [], false, [Fld.sapScrubStatus_scrub_active]⟩
  | .sapTilePwrReq => ⟨0x441000, 4, [(4, 0x100), (64, 0x4)], false, [Fld.sapTilePwrReq_bank_on]⟩
  | .sapTilePwrState => ⟨0x442000, 8, [(4, 0x200), (64, 0x8)], false, [Fld.sapTilePwrState_reenable_pending, Fld.sapTilePwrState_bank_state]⟩
  | .crnAdminSqBase => ⟨0x20000, 8, [], true, [Fld.crnAdminSqBase_base]⟩
  | .crnAdminCqBase => ⟨0x20008, 8, [], true, [Fld.crnAdminCqBase_base]⟩
  | .crnAdminDbLine => ⟨0x20010, 8, [], true, [Fld.crnAdminDbLine_line]⟩
  | .crnAdminHeadLine => ⟨0x20018, 8, [], true, [Fld.crnAdminHeadLine_line]⟩
  | .crnAdminCfg => ⟨0x20020, 4, [], true, [Fld.crnAdminCfg_enable, Fld.crnAdminCfg_cfg_error, Fld.crnAdminCfg_vector, Fld.crnAdminCfg_cq_log2, Fld.crnAdminCfg_sq_log2]⟩
  | .crnRingState => ⟨0x28000, 4, [(4096, 0x4)], true, [Fld.crnRingState_cq_fault, Fld.crnRingState_cq_on, Fld.crnRingState_reenable_pending, Fld.crnRingState_sq_state]⟩
  | .crnDbwCtrl => ⟨0x24000, 4, [], false, [Fld.crnDbwCtrl_idle_after_us]⟩
  | .crnQmTimeouts => ⟨0x24004, 4, [], false, [Fld.crnQmTimeouts_knot_wait_ms, Fld.crnQmTimeouts_cq_stall_ms]⟩
  | .crnStarveLimit => ⟨0x24008, 4, [], false, [Fld.crnStarveLimit_cross_ms, Fld.crnStarveLimit_within_us]⟩
  | .crnInflight => ⟨0x24010, 4, [], false, [Fld.crnInflight_count]⟩
  | .crnPartCap => ⟨0x24100, 4, [(64, 0x4)], false, [Fld.crnPartCap_cap]⟩
  | .crnKnotOwner => ⟨0x24200, 8, [(32, 0x8)], false, [Fld.crnKnotOwner_valid0, Fld.crnKnotOwner_partition0, Fld.crnKnotOwner_valid1, Fld.crnKnotOwner_partition1, Fld.crnKnotOwner_valid2, Fld.crnKnotOwner_partition2, Fld.crnKnotOwner_valid3, Fld.crnKnotOwner_partition3, Fld.crnKnotOwner_valid4, Fld.crnKnotOwner_partition4, Fld.crnKnotOwner_valid5, Fld.crnKnotOwner_partition5, Fld.crnKnotOwner_valid6, Fld.crnKnotOwner_partition6, Fld.crnKnotOwner_valid7, Fld.crnKnotOwner_partition7]⟩
  | .timCtrl => ⟨0x80000, 4, [], false, [Fld.timCtrl_holdover_max_s, Fld.timCtrl_slew_ppm, Fld.timCtrl_fabric_role, Fld.timCtrl_source_sel]⟩
  | .timStatus => ⟨0x80004, 4, [], false, [Fld.timStatus_tod_conflict, Fld.timStatus_tree_calibrated, Fld.timStatus_holdover_expired, Fld.timStatus_clock_class, Fld.timStatus_state]⟩
  | .timNow => ⟨0x80008, 8, [], false, [Fld.timNow_now_ns]⟩
  | .timPhaseErr => ⟨0x80010, 4, [], false, [Fld.timPhaseErr_phase_err_ns]⟩
  | .timNextSec => ⟨0x80018, 8, [], false, [Fld.timNextSec_next_sec]⟩
  | .timPpsOut => ⟨0x80020, 4, [(2, 0x4)], false, [Fld.timPpsOut_enable, Fld.timPpsOut_width_us]⟩
  | .timPpsInStat => ⟨0x80028, 4, [], false, [Fld.timPpsInStat_rejected]⟩
  | .timPortCfg => ⟨0x80100, 4, [(16, 0x4)], false, [Fld.timPortCfg_enable, Fld.timPortCfg_profile, Fld.timPortCfg_sync_rate, Fld.timPortCfg_rx_latency_ns, Fld.timPortCfg_tx_latency_ns]⟩
  | .timPortStat => ⟨0x80180, 4, [(16, 0x4)], false, [Fld.timPortStat_foreign_announce, Fld.timPortStat_passive]⟩
  | .siuCtrl => ⟨0x100000, 4, [], false, [Fld.siuCtrl_enable, Fld.siuCtrl_batch_timeout_us]⟩
  | .siuCtxBase => ⟨0x100008, 8, [], false, [Fld.siuCtxBase_base]⟩
  | .siuDiscCtrl => ⟨0x100010, 4, [], false, [Fld.siuDiscCtrl_holdoff_ms]⟩
  | .siuQueueLost => ⟨0x100018, 8, [], false, [Fld.siuQueueLost_event_lost, Fld.siuQueueLost_disc_lost]⟩
  | .siuCacheMiss => ⟨0x100020, 8, [], false, [Fld.siuCacheMiss_misses]⟩
  | .siuPortCfg => ⟨0x101000, 4, [(16, 0x100)], false, [Fld.siuPortCfg_enable, Fld.siuPortCfg_speed, Fld.siuPortCfg_fec, Fld.siuPortCfg_sid_enable, Fld.siuPortCfg_sid_offset, Fld.siuPortCfg_link_up]⟩
  | .siuPortIpv4 => ⟨0x101004, 4, [(16, 0x100)], false, [Fld.siuPortIpv4_addr]⟩
  | .siuPortIpv6 => ⟨0x101010, 8, [(16, 0x100), (2, 0x8)], false, [Fld.siuPortIpv6_addr]⟩
  | .siuPortCnt => ⟨0x101040, 8, [(16, 0x100), (7, 0x8)], false, [Fld.siuPortCnt_count]⟩
  | .siuPoseRej => ⟨0x102000, 8, [(16, 0x8)], false, [Fld.siuPoseRej_pose_rejected]⟩
  | .vheCtrl => ⟨0x140000, 4, [], false, [Fld.vheCtrl_adm_k, Fld.vheCtrl_combine_enable]⟩
  | .vheTableStatus => ⟨0x141000, 4, [(64, 0x40)], false, [Fld.vheTableStatus_partition, Fld.vheTableStatus_epoch, Fld.vheTableStatus_final_seen, Fld.vheTableStatus_overflowed, Fld.vheTableStatus_halo_incomplete, Fld.vheTableStatus_state]⟩
  | .vheTableFrame => ⟨0x141008, 8, [(64, 0x40)], false, [Fld.vheTableFrame_frame_tag]⟩
  | .vheTableCells => ⟨0x141010, 4, [(64, 0x40), (4, 0x4)], false, [Fld.vheTableCells_cells]⟩
  | .vheTableRefused => ⟨0x141020, 8, [(64, 0x40)], false, [Fld.vheTableRefused_points_refused]⟩
  | .vheStemInserts => ⟨0x142000, 8, [(4, 0x40)], false, [Fld.vheStemInserts_inserts]⟩
  | .vheStemCombined => ⟨0x142008, 8, [(4, 0x40)], false, [Fld.vheStemCombined_combined]⟩
  | .vheStemProbes => ⟨0x142010, 8, [(4, 0x40)], false, [Fld.vheStemProbes_probes]⟩
  | .vheStemMaxprobe => ⟨0x142018, 8, [(4, 0x40)], false, [Fld.vheStemMaxprobe_max_probe]⟩
  | .kmeCtrl => ⟨0x180000, 4, [], false, [Fld.kmeCtrl_slice_groups]⟩
  | .kmeStemProbes => ⟨0x181000, 8, [(4, 0x40)], false, [Fld.kmeStemProbes_probes]⟩
  | .kmeStemRemote => ⟨0x181008, 8, [(4, 0x40)], false, [Fld.kmeStemRemote_remote_probes]⟩
  | .kmeStemPairs => ⟨0x181010, 8, [(4, 0x40)], false, [Fld.kmeStemPairs_pairs]⟩
  | .kmeStemSpilled => ⟨0x181018, 8, [(4, 0x40)], false, [Fld.kmeStemSpilled_pairs_spilled]⟩
  | .kmeStemSpillUse => ⟨0x181020, 4, [(4, 0x40)], false, [Fld.kmeStemSpillUse_high_water, Fld.kmeStemSpillUse_in_use]⟩
  | .tileCtrl => ⟨0x1C0000, 4, [], false, [Fld.tileCtrl_acc_alternate]⟩
  | .tileSrSeed => ⟨0x1C0008, 8, [], false, [Fld.tileSrSeed_seed]⟩
  | .tileSrPart => ⟨0x1C0010, 8, [], false, [Fld.tileSrPart_sr_part]⟩
  | .tileStemMacs => ⟨0x1C1000, 8, [(4, 0x40)], false, [Fld.tileStemMacs_macs]⟩
  | .tileStemSaturated => ⟨0x1C1008, 8, [(4, 0x40)], false, [Fld.tileStemSaturated_saturated]⟩
  | .tileStemNonfinite => ⟨0x1C1010, 8, [(4, 0x40)], false, [Fld.tileStemNonfinite_nonfinite]⟩
  | .tileStemMeta => ⟨0x1C1018, 8, [(4, 0x40)], false, [Fld.tileStemMeta_meta_faults]⟩
  | .tileStemPasses => ⟨0x1C1020, 8, [(4, 0x40)], false, [Fld.tileStemPasses_passes]⟩
  | .tileStemDiscarded => ⟨0x1C1028, 8, [(4, 0x40)], false, [Fld.tileStemDiscarded_passes_discarded]⟩
  | .twigCtrl => ⟨0x1C4000, 4, [], false, [Fld.twigCtrl_default_limit_us]⟩
  | .twigStemInstret => ⟨0x1C4100, 8, [(4, 0x40)], false, [Fld.twigStemInstret_instret]⟩
  | .twigStemExcept => ⟨0x1C4108, 8, [(4, 0x40)], false, [Fld.twigStemExcept_exceptions]⟩
  | .twigStemSuspends => ⟨0x1C4110, 8, [(4, 0x40)], false, [Fld.twigStemSuspends_suspends]⟩
  | .cnpCtrl => ⟨0x200000, 4, [], false, [Fld.cnpCtrl_slice_items]⟩
  | .cnpMapStatus => ⟨0x201000, 8, [(256, 0x10)], false, [Fld.cnpMapStatus_valid_blocks, Fld.cnpMapStatus_readers, Fld.cnpMapStatus_writers, Fld.cnpMapStatus_partition, Fld.cnpMapStatus_defined]⟩
  | .cnpStemProbes => ⟨0x202000, 8, [(4, 0x40)], false, [Fld.cnpStemProbes_fold_probes]⟩
  | .cnpStemFolded => ⟨0x202008, 8, [(4, 0x40)], false, [Fld.cnpStemFolded_cells_folded]⟩
  | .cnpStemBorder => ⟨0x202010, 8, [(4, 0x40)], false, [Fld.cnpStemBorder_warp_border]⟩
  | .cnpStemAbsent => ⟨0x202018, 8, [(4, 0x40)], false, [Fld.cnpStemAbsent_devox_absent]⟩
  | .srtCtrl => ⟨0x240000, 4, [], false, [Fld.srtCtrl_slice_chunks]⟩
  | .srtStemElements => ⟨0x241000, 8, [(4, 0x40)], false, [Fld.srtStemElements_elements]⟩
  | .srtStemIou => ⟨0x241008, 8, [(4, 0x40)], false, [Fld.srtStemIou_iou_tests]⟩
  | .srtStemCollapsed => ⟨0x241010, 8, [(4, 0x40)], false, [Fld.srtStemCollapsed_collapsed]⟩
  | .srtStemSuppressed => ⟨0x241018, 8, [(4, 0x40)], false, [Fld.srtStemSuppressed_suppressed]⟩
  | .gthCtrl => ⟨0x280000, 4, [], false, [Fld.gthCtrl_slice_chunks, Fld.gthCtrl_burl_threshold, Fld.gthCtrl_burl_window_us]⟩
  | .gthTableStatus => ⟨0x281000, 8, [(256, 0x10)], false, [Fld.gthTableStatus_cur_gen, Fld.gthTableStatus_live_mask, Fld.gthTableStatus_partition, Fld.gthTableStatus_cur_slot, Fld.gthTableStatus_kind, Fld.gthTableStatus_home, Fld.gthTableStatus_defined]⟩
  | .gthTablePins => ⟨0x281008, 8, [(256, 0x10)], false, [Fld.gthTablePins_pins]⟩
  | .gthStemLookups => ⟨0x282000, 8, [(4, 0x40)], false, [Fld.gthStemLookups_lookups]⟩
  | .gthStemFetches => ⟨0x282008, 8, [(4, 0x40)], false, [Fld.gthStemFetches_fetches]⟩
  | .gthStemCoalesced => ⟨0x282010, 8, [(4, 0x40)], false, [Fld.gthStemCoalesced_coalesced]⟩
  | .gthStemBurlHits => ⟨0x282018, 8, [(4, 0x40)], false, [Fld.gthStemBurlHits_burl_hits]⟩
  | .gthStemDefaults => ⟨0x282020, 8, [(4, 0x40)], false, [Fld.gthStemDefaults_defaults]⟩
  | .gthStemBurl => ⟨0x282028, 4, [(4, 0x40)], false, [Fld.gthStemBurl_allocated]⟩
  | .wblFabricCfg => ⟨0x2C0000, 4, [], false, [Fld.wblFabricCfg_standby, Fld.wblFabricCfg_root_eligible, Fld.wblFabricCfg_standby_x, Fld.wblFabricCfg_dz_m1, Fld.wblFabricCfg_dy_m1, Fld.wblFabricCfg_dx_m1]⟩
  | .wblFabricStatus => ⟨0x2C0004, 4, [], false, [Fld.wblFabricStatus_acting_root, Fld.wblFabricStatus_cfg_error, Fld.wblFabricStatus_epoch, Fld.wblFabricStatus_change_active]⟩
  | .wblTimeout => ⟨0x2C0008, 4, [], false, [Fld.wblTimeout_req_timeout_us]⟩
  | .wblDrops => ⟨0x2C0010, 8, [], false, [Fld.wblDrops_hop_limit_drops, Fld.wblDrops_timeouts]⟩
  | .wblAlias => ⟨0x2C0100, 4, [(64, 0x4)], false, [Fld.wblAlias_valid, Fld.wblAlias_substitute, Fld.wblAlias_lost]⟩
  | .wblLinkCfg => ⟨0x2C1000, 4, [(6, 0x100)], false, [Fld.wblLinkCfg_role]⟩
  | .wblLinkCredit => ⟨0x2C1004, 4, [(6, 0x100)], false, [Fld.wblLinkCredit_mgmt, Fld.wblLinkCredit_mcast, Fld.wblLinkCredit_resp, Fld.wblLinkCredit_req]⟩
  | .wblLinkStatus => ⟨0x2C1008, 8, [(6, 0x100)], false, [Fld.wblLinkStatus_nbr_chip, Fld.wblLinkStatus_nbr_link, Fld.wblLinkStatus_spared_lane, Fld.wblLinkStatus_state]⟩
  | .wblLinkCnt => ⟨0x2C1010, 8, [(6, 0x100), (5, 0x8)], false, [Fld.wblLinkCnt_count]⟩
  | .twnCfg => ⟨0x300000, 4, [], false, [Fld.twnCfg_auto_pair, Fld.twnCfg_prefer_lead, Fld.twnCfg_pin_enable]⟩
  | .twnTolBox => ⟨0x300008, 8, [], false, [Fld.twnTolBox_pos_tol, Fld.twnTolBox_size_tol, Fld.twnTolBox_pos_q, Fld.twnTolBox_size_q]⟩
  | .twnTolScore => ⟨0x300010, 4, [], false, [Fld.twnTolScore_score_tol, Fld.twnTolScore_miss_score]⟩
  | .twnTolBev => ⟨0x300018, 8, [], false, [Fld.twnTolBev_bev_rel, Fld.twnTolBev_bev_abs]⟩
  | .twnSig => ⟨0x300020, 4, [], false, [Fld.twnSig_sig_boxes, Fld.twnSig_sig_samples]⟩
  | .twnDiverge => ⟨0x300024, 4, [], false, [Fld.twnDiverge_window_m, Fld.twnDiverge_count_n]⟩
  | .twnTimeouts => ⟨0x300028, 4, [], false, [Fld.twnTimeouts_sig_wait_us, Fld.twnTimeouts_lost_frames, Fld.twnTimeouts_sync_timeout_s]⟩
  | .twnStatus => ⟨0x300030, 8, [], false, [Fld.twnStatus_window_disputes, Fld.twnStatus_lost_reason, Fld.twnStatus_partner_chip, Fld.twnStatus_reenable_pending, Fld.twnStatus_diverged, Fld.twnStatus_role, Fld.twnStatus_state]⟩
  | .twnFirstFrame => ⟨0x300038, 8, [], false, [Fld.twnFirstFrame_k0]⟩
  | .twnLastDispute => ⟨0x300040, 8, [], false, [Fld.twnLastDispute_window]⟩
  | .twnVerdict => ⟨0x300048, 4, [], false, [Fld.twnVerdict_partner_verdict, Fld.twnVerdict_local_verdict]⟩
  | .twnCnt => ⟨0x300080, 8, [(7, 0x8)], false, [Fld.twnCnt_count]⟩
  | .twnPeerDigest => ⟨0x300100, 8, [(8, 0x8)], false, [Fld.twnPeerDigest_digest]⟩
  | .brkStatus => ⟨0x340000, 8, [], false, [Fld.brkStatus_safe_source, Fld.brkStatus_fault_n_low, Fld.brkStatus_latched, Fld.brkStatus_mode]⟩
  | .brkSafeCfg => ⟨0x340008, 4, [], false, [Fld.brkSafeCfg_stop_mode, Fld.brkSafeCfg_release_host, Fld.brkSafeCfg_safe_crit, Fld.brkSafeCfg_vector]⟩
  | .brkSrcCfg => ⟨0x340100, 4, [(64, 0x4)], false, [Fld.brkSrcCfg_reaction]⟩
  | .brkSrcCnt => ⟨0x340200, 8, [(64, 0x8)], false, [Fld.brkSrcCnt_reports]⟩
  | .brkCsCfg => ⟨0x340400, 4, [], false, [Fld.brkCsCfg_enable, Fld.brkCsCfg_cfg_error, Fld.brkCsCfg_lanes_m1, Fld.brkCsCfg_ftti_ms, Fld.brkCsCfg_lag_us]⟩
  | .brkCsStem => ⟨0x340410, 8, [(4, 0x10)], false, [Fld.brkCsStem_last_round_us, Fld.brkCsStem_oldest_age_ms, Fld.brkCsStem_failures, Fld.brkCsStem_inplace_lanes, Fld.brkCsStem_rotation_lanes]⟩
  | .brkWearCfg => ⟨0x340480, 4, [], false, [Fld.brkWearCfg_sample_ms, Fld.brkWearCfg_graft_pm, Fld.brkWearCfg_warn_pm]⟩
  | .brkSpares => ⟨0x340490, 4, [(4, 0x8)], false, [Fld.brkSpares_lost, Fld.brkSpares_spare]⟩
  | .brkLogStatus => ⟨0x3404C0, 8, [], false, [Fld.brkLogStatus_fault_lost, Fld.brkLogStatus_graft_full, Fld.brkLogStatus_graft_records]⟩
  | .brkPartCfg => ⟨0x340800, 8, [(64, 0x8)], false, [Fld.brkPartCfg_fab_burst, Fld.brkPartCfg_fab_rate, Fld.brkPartCfg_hbm_burst, Fld.brkPartCfg_hbm_rate, Fld.brkPartCfg_max_crit]⟩
  | .brkTdmaCfg => ⟨0x340C00, 4, [(4, 0x8)], false, [Fld.brkTdmaCfg_enable, Fld.brkTdmaCfg_slots_m1, Fld.brkTdmaCfg_slot_us]⟩
  | .brkTdmaSlot => ⟨0x340D00, 8, [(4, 0x40), (8, 0x8)], false, [Fld.brkTdmaSlot_members]⟩
  | .brkFwDeny => ⟨0x34F000, 8, [(11, 0x8)], false, [Fld.brkFwDeny_denied]⟩
  | .secBootStatus => ⟨0x380000, 8, [], false, [Fld.secBootStatus_error, Fld.secBootStatus_sec_version, Fld.secBootStatus_key_slot, Fld.secBootStatus_lifecycle, Fld.secBootStatus_boot_mode, Fld.secBootStatus_trial, Fld.secBootStatus_slot, Fld.secBootStatus_stage]⟩
  | .secOtpStatus => ⟨0x380008, 4, [], false, [Fld.secOtpStatus_rollback, Fld.secOtpStatus_boot_mode_lock, Fld.secOtpStatus_debug_disable, Fld.secOtpStatus_revoked]⟩
  | .secSerial => ⟨0x380010, 8, [], false, [Fld.secSerial_device_serial]⟩
  | .secTrialSeen => ⟨0x380018, 8, [], false, [Fld.secTrialSeen_trial_slot, Fld.secTrialSeen_seen, Fld.secTrialSeen_trial_seq]⟩
  | .secRootDigest => ⟨0x380100, 8, [(4, 0x40), (8, 0x8)], false, [Fld.secRootDigest_digest]⟩
  | .secMeasure => ⟨0x380400, 8, [(16, 0x40), (8, 0x8)], false, [Fld.secMeasure_value]⟩
  | .secDebugStatus => ⟨0x380800, 4, [], false, [Fld.secDebugStatus_failures, Fld.secDebugStatus_lockout, Fld.secDebugStatus_unlocked]⟩
  | .secIdeFail => ⟨0x380808, 8, [], false, [Fld.secIdeFail_failures]⟩
  | .secMboxCmd => ⟨0x381000, 4, [], true, [Fld.secMboxCmd_go, Fld.secMboxCmd_done, Fld.secMboxCmd_status, Fld.secMboxCmd_opcode]⟩
  | .secMboxArg => ⟨0x381008, 8, [(4, 0x8)], true, [Fld.secMboxArg_arg]⟩
  | .trcCtrl => ⟨0x3C0000, 4, [], false, [Fld.trcCtrl_enable, Fld.trcCtrl_mode, Fld.trcCtrl_all_commands, Fld.trcCtrl_unit_mask]⟩
  | .trcBase => ⟨0x3C0008, 8, [], false, [Fld.trcBase_base]⟩
  | .trcSize => ⟨0x3C0010, 4, [], false, [Fld.trcSize_size_mib]⟩
  | .trcPost => ⟨0x3C0014, 4, [], false, [Fld.trcPost_post_records]⟩
  | .trcTrigger => ⟨0x3C0018, 8, [], false, [Fld.trcTrigger_on_failure, Fld.trcTrigger_on_status, Fld.trcTrigger_on_op, Fld.trcTrigger_on_bark, Fld.trcTrigger_op_id, Fld.trcTrigger_status, Fld.trcTrigger_source]⟩
  | .trcPartMask => ⟨0x3C0020, 8, [], false, [Fld.trcPartMask_part_mask]⟩
  | .trcStatus => ⟨0x3C0028, 8, [], false, [Fld.trcStatus_state, Fld.trcStatus_wrapped, Fld.trcStatus_trigger_slot, Fld.trcStatus_next_slot]⟩
  | .trcDropped => ⟨0x3C0030, 8, [], false, [Fld.trcDropped_dropped]⟩
  | .trcWdCfg => ⟨0x3C0040, 4, [], false, [Fld.trcWdCfg_enable, Fld.trcWdCfg_wd_us]⟩
  | .trcDumpBase => ⟨0x3C0048, 8, [], false, [Fld.trcDumpBase_base]⟩
  | .trcDumpHost => ⟨0x3C0050, 8, [], false, [Fld.trcDumpHost_host]⟩
  | .trcDumpStatus => ⟨0x3C0058, 4, [], false, [Fld.trcDumpStatus_dumps_lost, Fld.trcDumpStatus_slot_full]⟩
  | .trcDeltaSel => ⟨0x3C0060, 4, [], false, [Fld.trcDeltaSel_unit]⟩
  | .trcDelta => ⟨0x3C0080, 8, [(16, 0x8)], false, [Fld.trcDelta_delta]⟩
  | .trcPertCtrl => ⟨0x3C0100, 4, [], false, [Fld.trcPertCtrl_enable, Fld.trcPertCtrl_jitter_pct, Fld.trcPertCtrl_bp_prob, Fld.trcPertCtrl_delay_max]⟩
  | .trcPertSeed => ⟨0x3C0108, 8, [], false, [Fld.trcPertSeed_seed]⟩
  | .trcPertScope => ⟨0x3C0110, 8, [], false, [Fld.trcPertScope_kinds]⟩
  | .pwrCtrl => ⟨0x480000, 4, [], false, [Fld.pwrCtrl_pollard_enable, Fld.pwrCtrl_boost_enable, Fld.pwrCtrl_boost_c, Fld.pwrCtrl_throttle_c, Fld.pwrCtrl_tile_floor]⟩
  | .pwrCap => ⟨0x480004, 4, [], false, [Fld.pwrCap_cap_w]⟩
  | .pwrStatus => ⟨0x480008, 8, [], false, [Fld.pwrStatus_power_mw, Fld.pwrStatus_boost_active, Fld.pwrStatus_thermal_active, Fld.pwrStatus_cap_unmet]⟩
  | .pwrEnergy => ⟨0x480010, 8, [], false, [Fld.pwrEnergy_energy_uj]⟩
  | .pwrStemStatus => ⟨0x480100, 8, [(4, 0x40)], false, [Fld.pwrStemStatus_max_temp_c, Fld.pwrStemStatus_hottest_tile, Fld.pwrStemStatus_tile_ceiling, Fld.pwrStemStatus_engine_ceiling, Fld.pwrStemStatus_thermal_ceiling, Fld.pwrStemStatus_clamp, Fld.pwrStemStatus_reenable_pending, Fld.pwrStemStatus_state]⟩
  | .pwrStemThrottle => ⟨0x480108, 8, [(4, 0x40)], false, [Fld.pwrStemThrottle_throttle_ns]⟩
  | .pciSetupLock => ⟨0x8000, 4, [], false, [Fld.pciSetupLock_lock, Fld.pciSetupLock_lock_error, Fld.pciSetupLock_error_code, Fld.pciSetupLock_error_index]⟩
  | .pciFnLock => ⟨0x8004, 4, [], true, [Fld.pciFnLock_lock]⟩
  | .pciLinkStatus => ⟨0x8008, 4, [], false, [Fld.pciLinkStatus_degraded, Fld.pciLinkStatus_flit_mode, Fld.pciLinkStatus_width, Fld.pciLinkStatus_speed]⟩
  | .pciFnPart => ⟨0x8100, 4, [(64, 0x4)], false, [Fld.pciFnPart_partition]⟩
  | .pciBar2Base => ⟨0x8200, 8, [(64, 0x8)], false, [Fld.pciBar2Base_base]⟩
  | .brkFwBase => ⟨0x348000, 8, [(11, 0x800), (64, 0x20)], false, [Fld.brkFwBase_base]⟩
  | .brkFwLimit => ⟨0x348008, 8, [(11, 0x800), (64, 0x20)], false, [Fld.brkFwLimit_limit]⟩
  | .brkFwCtl => ⟨0x348010, 8, [(11, 0x800), (64, 0x20)], false, [Fld.brkFwCtl_stream_mask, Fld.brkFwCtl_stream_value, Fld.brkFwCtl_enable, Fld.brkFwCtl_lock, Fld.brkFwCtl_exec, Fld.brkFwCtl_atomic, Fld.brkFwCtl_write, Fld.brkFwCtl_read, Fld.brkFwCtl_crit_min, Fld.brkFwCtl_any_partition, Fld.brkFwCtl_partition]⟩

/-- A part of the list of all registers. -/
def Reg.part1 : List Reg := [.crnChipId, .hbmMapCtrl, .hbmPatrolCtrl, .hbmStackStatus, .hbmStackRetireAck, .hbmStackEccCe, .hbmStackEccUe, .hbmStackErrAddr, .sapStemStatus, .sapStemEccCe, .sapStemEccUe, .sapStemErrAddr, .sapScrubOnRelease, .sapScrubStatus, .sapTilePwrReq, .sapTilePwrState, .crnAdminSqBase, .crnAdminCqBase, .crnAdminDbLine, .crnAdminHeadLine, .crnAdminCfg, .crnRingState, .crnDbwCtrl, .crnQmTimeouts]

/-- A part of the list of all registers. -/
def Reg.part2 : List Reg := [.crnStarveLimit, .crnInflight, .crnPartCap, .crnKnotOwner, .timCtrl, .timStatus, .timNow, .timPhaseErr, .timNextSec, .timPpsOut, .timPpsInStat, .timPortCfg, .timPortStat, .siuCtrl, .siuCtxBase, .siuDiscCtrl, .siuQueueLost, .siuCacheMiss, .siuPortCfg, .siuPortIpv4, .siuPortIpv6, .siuPortCnt, .siuPoseRej, .vheCtrl]

/-- A part of the list of all registers. -/
def Reg.part3 : List Reg := [.vheTableStatus, .vheTableFrame, .vheTableCells, .vheTableRefused, .vheStemInserts, .vheStemCombined, .vheStemProbes, .vheStemMaxprobe, .kmeCtrl, .kmeStemProbes, .kmeStemRemote, .kmeStemPairs, .kmeStemSpilled, .kmeStemSpillUse, .tileCtrl, .tileSrSeed, .tileSrPart, .tileStemMacs, .tileStemSaturated, .tileStemNonfinite, .tileStemMeta, .tileStemPasses, .tileStemDiscarded, .twigCtrl]

/-- A part of the list of all registers. -/
def Reg.part4 : List Reg := [.twigStemInstret, .twigStemExcept, .twigStemSuspends, .cnpCtrl, .cnpMapStatus, .cnpStemProbes, .cnpStemFolded, .cnpStemBorder, .cnpStemAbsent, .srtCtrl, .srtStemElements, .srtStemIou, .srtStemCollapsed, .srtStemSuppressed, .gthCtrl, .gthTableStatus, .gthTablePins, .gthStemLookups, .gthStemFetches, .gthStemCoalesced, .gthStemBurlHits, .gthStemDefaults, .gthStemBurl, .wblFabricCfg]

/-- A part of the list of all registers. -/
def Reg.part5 : List Reg := [.wblFabricStatus, .wblTimeout, .wblDrops, .wblAlias, .wblLinkCfg, .wblLinkCredit, .wblLinkStatus, .wblLinkCnt, .twnCfg, .twnTolBox, .twnTolScore, .twnTolBev, .twnSig, .twnDiverge, .twnTimeouts, .twnStatus, .twnFirstFrame, .twnLastDispute, .twnVerdict, .twnCnt, .twnPeerDigest, .brkStatus, .brkSafeCfg, .brkSrcCfg]

/-- A part of the list of all registers. -/
def Reg.part6 : List Reg := [.brkSrcCnt, .brkCsCfg, .brkCsStem, .brkWearCfg, .brkSpares, .brkLogStatus, .brkPartCfg, .brkTdmaCfg, .brkTdmaSlot, .brkFwDeny, .secBootStatus, .secOtpStatus, .secSerial, .secTrialSeen, .secRootDigest, .secMeasure, .secDebugStatus, .secIdeFail, .secMboxCmd, .secMboxArg, .trcCtrl, .trcBase, .trcSize, .trcPost]

/-- A part of the list of all registers. -/
def Reg.part7 : List Reg := [.trcTrigger, .trcPartMask, .trcStatus, .trcDropped, .trcWdCfg, .trcDumpBase, .trcDumpHost, .trcDumpStatus, .trcDeltaSel, .trcDelta, .trcPertCtrl, .trcPertSeed, .trcPertScope, .pwrCtrl, .pwrCap, .pwrStatus, .pwrEnergy, .pwrStemStatus, .pwrStemThrottle, .pciSetupLock, .pciFnLock, .pciLinkStatus, .pciFnPart, .pciBar2Base]

/-- A part of the list of all registers. -/
def Reg.part8 : List Reg := [.brkFwBase, .brkFwLimit, .brkFwCtl]

/-- Every register of the map. -/
def Reg.all : List Reg := Reg.part1 ++ Reg.part2 ++ Reg.part3 ++ Reg.part4 ++ Reg.part5 ++ Reg.part6 ++ Reg.part7 ++ Reg.part8

end Sys2Proof.Machine
end

