-- ==== Sys2Proof/Machine/State.lean ====
section
/-! DEFINITION. The state of the machine, as plain data; the reasons a step can stop; and the state after reset. -/
namespace Sys2Proof.Machine

/-- Why the machine stops. -/
inductive Fault where
  /-- Raised by a meaning whose operands name a unit of the block that does not exist (`Sys2Proof.wellFormed` is false
  of the command): no such event can happen. Safe: the machine stops where the hardware has no behaviour. -/
  | noSuchUnit
  deriving DecidableEq, Repr

/-- Why a command has no meaning. -/
inductive Refusal where
  /-- Raised by the dispatch for a command whose meaning is not written: the command's mnemonic. Safe. -/
  | notModelled (mnemonic : String)
  deriving DecidableEq, Repr

/-- Where the value of a register field is kept: the register, the field's lowest bit, the index of the register among
its repetitions (outermost index first), and the function whose copy it is. -/
structure RegKey where
  reg : Reg
  lo : Nat
  idx : Nat
  fn : Nat
  deriving DecidableEq, Repr

/-- The state. -/
structure State where
  /-- Commands that wait, first in first out. -/
  pending : List Instr
  /-- The variant of the part (R1) and its silicon revision. -/
  variant : Config.Variant
  revision : Config.Revision
  /-- Register fields that have been written since reset; every other field holds its reset value (Machine/RegOps.lean reads and
  writes them). -/
  regs : List (RegKey × DWord)
  /-- HBM by local address; Sapwood by window address (R43); host memory by host address; accumulator files and the
  rest of tile control space by local address. -/
  hbm : List Host.Cell
  sap : List Host.Cell
  host : List Host.Cell
  acc : List Host.Cell
  mem : MemCtl
  queues : Queues
  pcie : Pcie
  time : Time
  ingest : Ingest
  compute : Compute
  canopy : Canopy
  sort : SortUnit
  gather : Gather
  fabric : Fabric
  twin : Twin
  bark : Bark
  security : Security
  observe : Observe
  power : Power
  /-- Error reports on their way to Bark, oldest first (R455): BARK_REPORT brings them there. -/
  reports : List Report
  /-- Free values drawn so far. -/
  free : Nat
  /-- What has left the device other than through memory, newest first. -/
  out : List Output
  deriving DecidableEq, Repr

/-- The machine right after reset: every register field at its reset value, memory with nothing listed, nothing waiting. -/
def State.reset : State where
  pending := []
  variant := .ovm9416
  revision := .b0
  regs := []
  hbm := []
  sap := []
  host := []
  acc := []
  mem := {}
  queues := {}
  pcie := {}
  time := {}
  ingest := {}
  compute := {}
  canopy := {}
  sort := {}
  gather := {}
  fabric := {}
  twin := {}
  bark := {}
  security := {}
  observe := {}
  power := {}
  reports := []
  free := 0
  out := []

end Sys2Proof.Machine
end

