-- ==== Sys2Proof/Machine/RegOps.lean ====
section
/-! DEFINITION. The one home of every register field: its value after reset, reading it and writing it. Who may write a
field, and what else a write does, stands in Machine/Registers.lean. -/
namespace Sys2Proof.Machine

/-- Default reactions of the error sources (R456): 0 for reserved IDs. -/
def defaultReaction (source : Nat) : Nat :=
  if source ≤ 0x06 then 2
  else if source = 0x11 ∨ source = 0x14 then 2
  else if source = 0x08 ∨ source = 0x0B ∨ source = 0x0D ∨ source = 0x12 ∨ source = 0x13 ∨ source = 0x18 ∨ source = 0x1E then 0
  else if source = 0x07 ∨ source > 0x1E then 0
  else 1

/-- The class of an error source (R454, R456): 0 corrected, 1 contained, 2 fatal. -/
def sourceClass (source : Nat) : Nat :=
  if source ≤ 0x04 ∨ source = 0x06 then 2
  else if source = 0x08 ∨ source = 0x0B ∨ source = 0x0D ∨ source = 0x0F ∨ source = 0x12 ∨ source = 0x13 ∨ source = 0x15 ∨ source = 0x18 then 0
  else 1

/-- The value of a field after reset (the Reset columns; per variant R1, R69; per function R559; per source R456). -/
def resetField (v : Config.Variant) (f : Field) (idx : Nat) : DWord :=
  if f = Fld.sapStemStatus_banks_per_slice then (match v with | .ovm9416 => 12 | .ovm9412 => 8)
  else if f = Fld.sapTilePwrReq_bank_on then (match v with | .ovm9416 => 0xFFF | .ovm9412 => 0x0FF)
  else if f = Fld.sapTilePwrState_bank_state then (match v with | .ovm9416 => 0xAAAAAA | .ovm9412 => 0x00AAAA)
  else if f = Fld.brkSrcCfg_reaction then BitVec.ofNat 64 (defaultReaction idx)
  else if f = Fld.pciFnPart_partition then BitVec.ofNat 64 idx
  else BitVec.ofNat 64 f.reset

/-- The place where a field of a register is kept. -/
def Field.key (f : Field) (idx fn : Nat) : RegKey := ⟨f.reg, f.lo, idx, fn⟩

/-- The kept value of a place, if it does not hold its reset value. -/
def regFind : List (RegKey × DWord) → RegKey → Option DWord
  | [], _ => none
  | (k, v) :: r, q => if k = q then some v else regFind r q

/-- The list of kept values with one place replaced. -/
def regPut : List (RegKey × DWord) → RegKey → DWord → List (RegKey × DWord)
  | [], q, v => [(q, v)]
  | (k, w) :: r, q, v => if k = q then (q, v) :: r else (k, w) :: regPut r q v

/-- The value of a field. -/
def State.rd (s : State) (f : Field) (idx : Nat := 0) (fn : Nat := 0) : DWord :=
  (regFind s.regs (f.key idx fn)).getD (resetField s.variant f idx)

/-- The value of a field as a number. -/
def State.rdN (s : State) (f : Field) (idx : Nat := 0) (fn : Nat := 0) : Nat := (s.rd f idx fn).toNat

/-- A one-bit field as a truth value. -/
def State.rdB (s : State) (f : Field) (idx : Nat := 0) (fn : Nat := 0) : Bool := s.rd f idx fn != 0

/-- The state with a field set; a value wider than the field is cut to it. -/
def State.wr (s : State) (f : Field) (v : DWord) (idx : Nat := 0) (fn : Nat := 0) : State :=
  { s with regs := regPut s.regs (f.key idx fn) (v &&& lowMask f.width) }

/-- The state with a field set to a number. -/
def State.wrN (s : State) (f : Field) (v : Nat) (idx : Nat := 0) (fn : Nat := 0) : State :=
  s.wr f (BitVec.ofNat 64 v) idx fn

/-- The state with a one-bit field set. -/
def State.wrB (s : State) (f : Field) (v : Bool) (idx : Nat := 0) (fn : Nat := 0) : State :=
  s.wr f (if v then 1 else 0) idx fn

/-- A free-running count goes up: it wraps at its width. -/
def State.count (s : State) (f : Field) (n : Nat) (idx : Nat := 0) (fn : Nat := 0) : State :=
  s.wr f (s.rd f idx fn + BitVec.ofNat 64 n) idx fn

/-- A saturating count goes up. -/
def State.countSat (s : State) (f : Field) (n : Nat) (idx : Nat := 0) (fn : Nat := 0) : State :=
  s.wrN f (satTo f.width (s.rdN f idx fn + n)) idx fn

/-- Every kept value of the per-function registers of a function is dropped: they return to reset (R560). -/
def State.resetFnRegs (s : State) (fn : Nat) : State :=
  { s with regs := s.regs.filter (fun kv => !((Reg.info kv.1.reg).perFn && kv.1.fn == fn)) }

end Sys2Proof.Machine
end

