-- ==== Sys2Proof/WellFormed.lean ====
section
/-! DEFINITION. What makes a command well formed: every operand that names a unit of the block names one that exists
(R22, R24, R43, R71, R396, R456, R558, R561). -/
namespace Sys2Proof

/-- A sensor port (R22). -/
def isPort (n : Nat) : Bool := decide (n < 16)
/-- A Stem or an HBM stack (R22). -/
def isStem (n : Nat) : Bool := decide (n < 4)
/-- A logical tile of a Stem (R25). -/
def isTile (n : Nat) : Bool := decide (n < 64)
/-- A Sapwood bank of a slice (R43); the OVM-9412 has 8 of the 12. -/
def isBank (n : Nat) : Bool := decide (n < 12)
/-- A PCIe function (R72). -/
def isFn (n : Nat) : Bool := decide (n < 64)
/-- A ring group (R71). -/
def isGroup (n : Nat) : Bool := decide (n < 256)
/-- A ring (R71). -/
def isRing (n : Nat) : Bool := decide (n < 4096)
/-- A Wober link (R396). -/
def isLink (n : Nat) : Bool := decide (n < 6)
/-- A lane of a link (R396). -/
def isLane (n : Nat) : Bool := decide (n < 9)
/-- A Twig thread slot of the chip: ((Stem * 64 + tile) * 16 + slot). -/
def isThread (n : Nat) : Bool := decide (n < 4096)
/-- A Gather Engine of the chip (R24): Stem * 2 + engine. -/
def isEngine (n : Nat) : Bool := decide (n < 8)
/-- An offset in BAR0 of the physical function (R561). -/
def isBar0 (n : Nat) : Bool := decide (n < 0x4000000)
/-- An error source (R456). -/
def isSource (n : Nat) : Bool := decide (n < 64)
/-- A selective IDE stream (R503). -/
def isIdeStream (n : Nat) : Bool := decide (n < 8)
/-- A PPS output (R131). -/
def isPpsOut (n : Nat) : Bool := decide (n < 2)
/-- A Crown management core (R22). -/
def isCore (n : Nat) : Bool := decide (n < 4)
/-- A dump slot (R528). -/
def isDumpSlot (n : Nat) : Bool := decide (n < 2)
/-- A rail, by its index in the table of R579. -/
def isRail (n : Nat) : Bool := decide (n < 10)

/-- The active engines of a kind on a Stem (R24). -/
def Machine.EngineKind.active : Machine.EngineKind → Nat
  | .vhe => 4 | .kme => 4 | .sort => 1 | .gather => 2 | .canopy => 1

/-- Whether a unit that can be grafted exists (R24, R25, R43, R396). -/
def Machine.GraftTarget.isUnit : Machine.GraftTarget → Bool
  | .tile j t => isStem j && isTile t
  | .bank j t b => isStem j && isTile t && isBank b
  | .engine j k n => isStem j && decide (n < k.active)
  | .lane l n => isLink l && isLane n

/-- Whether a unit ID (R512) names a unit with a watchdog (R526): the Queue Manager, the Doorbell Watch, an engine, a tile or a link. -/
def isWatched (u : Nat) : Bool :=
  let n := u % 1024
  let crown := u / 1024 % 4 == 0
  match u / 4096 with
  | 0 | 12 => crown && n == 0
  | 3 | 4 => decide (n < 4)
  | 5 => decide (n < 64)
  | 6 | 7 => n == 0
  | 8 => decide (n < 2)
  | 9 => crown && isLink n
  | _ => false

/-- Readings of every tile's temperature sensor, Stem by Stem (R543). -/
def isTemps (ts : List (List Nat)) : Bool := ts.length == 4 && ts.all (fun l => l.length == 64 && l.all (fun t => decide (t < 256)))

/-- A physical tile position (R24): 64 active and 4 spare on a Stem. -/
def Machine.Position.isPosition (p : Machine.Position) : Bool := isStem p.stem && decide (p.pos < 68)

/-- The units that a command names exist. -/
def wellFormed : Instr → Bool
  | .registerWrite fn off _ _ => isFn fn && isBar0 off
  | .sensorPortLinkUp port => isPort port
  | .barkReport _ => true
  | .barkVectorHoldExpire => true
  | .patrolScrub _ _ => true
  | .softPprComplete stack _ => isStem stack
  | .vacatedAck stack => isStem stack
  | .retireMigrationDone stack => isStem stack
  | .sapTilePwrReqWrite stem tile _ => isStem stem && isTile tile
  | .bankPowerUpDone stem tile bank => isStem stem && isTile tile && isBank bank
  | .bankDrainDone stem tile bank => isStem stem && isTile tile && isBank bank
  | .bankRetire stem tile bank => isStem stem && isTile tile && isBank bank
  | .sapwoodScrubDone _ => true
  | .hbmZeroDone _ => true
  | .adminCfgEnable fn _ => isFn fn
  | .doorbellPoll group => isGroup group
  | .lineIdleTimeout group => isGroup group
  | .doorbellReadReturn group _ _ => isGroup group
  | .descriptorFetchReturn sq _ _ => isRing sq
  | .commandDispatch _ => true
  | .commandRetire _ => true
  | .headLineReadReturn cq _ _ => isRing cq
  | .cqStallTimeout _ => true
  | .cqCoalesceTimeout cq => isRing cq
  | .knotWaitTimeout _ => true
  | .busMasterChange fn _ => isFn fn
  | .sqCreate _ => true
  | .cqCreate _ => true
  | .ringEnable _ => true
  | .ringStartReadReturn sq _ _ => isRing sq
  | .ringDrain _ _ _ => true
  | .ringKill _ => true
  | .ringDeleteSq _ => true
  | .ringDeleteCq _ => true
  | .groupAlloc _ => true
  | .groupFree _ => true
  | .packageLoad _ _ => true
  | .packageUnload _ => true
  | .run _ => true
  | .runFrameComplete _ _ => true
  | .bankPower _ => true
  | .nop _ => true
  | .knotSignal _ => true
  | .knotReset _ => true
  | .knotArm _ => true
  | .ppsInEdge _ => true
  | .timeInputLoss => true
  | .holdoverExpired => true
  | .timNextSecWrite _ => true
  | .todConflictClear => true
  | .timNowLowRead => true
  | .ppsOutEdge out => isPpsOut out
  | .ppsOutFall out => isPpsOut out
  | .ptpSyncTx port => isPort port
  | .ptpAnnounceTx port => isPort port
  | .ptpDelayReq port _ _ => isPort port
  | .ptpAnnounceRx port _ => isPort port
  | .ptpPassiveTimeout port => isPort port
  | .treeCalibrated => true
  | .followerDelayMeasure _ _ _ _ _ => true
  | .sensorFrameRx port _ _ => isPort port
  | .contextFetchDone _ => true
  | .frameParse port => isPort port
  | .pointDeskew => true
  | .contextAgeingCheck _ => true
  | .discoveryHoldoffExpire _ => true
  | .ingestHeadLineRead _ _ => true
  | .batchTimeout _ => true
  | .batchPush _ => true
  | .windowClose _ => true
  | .windowFrameReady _ => true
  | .streamSetConfig _ => true
  | .sensorAdd _ => true
  | .sensorRemove _ => true
  | .templateSet _ => true
  | .calibLoad _ => true
  | .poseSourceConfig _ => true
  | .posePush _ => true
  | .ingestQueues _ => true
  | .sensorRead _ => true
  | .ctxWrite _ => true
  | .ctxRead _ => true
  | .programLoad _ => true
  | .setWrite _ => true
  | .vheBatchAccept _ => true
  | .vheChunk _ => true
  | .voxelGridSet _ => true
  | .voxelAdmitCheck _ => true
  | .vheCreate _ => true
  | .vheClear _ => true
  | .vheClearEffect _ => true
  | .vheInsert _ => true
  | .vheFinalise _ => true
  | .vheFinaliseEffect _ => true
  | .vheLookup _ => true
  | .vheDestroy _ => true
  | .maxprobeRead stem => isStem stem
  | .sparseAdmitCheck _ => true
  | .spillPoolSet _ => true
  | .kmeConv _ => true
  | .kmeMapWrite _ => true
  | .kmeSiteChunk _ stem => isStem stem
  | .sitePhaseEnd _ => true
  | .kmeGroup _ stem => isStem stem
  | .spillChunkClaim _ stem _ => isStem stem
  | .spillReadback _ stem _ => isStem stem
  | .spillUseRead stem => isStem stem
  | .workItemStart _ => true
  | .convPass _ => true
  | .gemm _ => true
  | .convert _ => true
  | .tileGemm _ => true
  | .tileConvert _ => true
  | .gemmPass _ => true
  | .twigRun _ => true
  | .programRun _ => true
  | .twigThreadsStart _ => true
  | .twigIntegerOp thread => isThread thread
  | .twigMuldiv thread => isThread thread
  | .twigLoad thread => isThread thread
  | .twigLoadReturn thread => isThread thread
  | .twigStore thread => isThread thread
  | .twigAmo thread => isThread thread
  | .twigCsrRead thread => isThread thread
  | .twigFence thread => isThread thread
  | .fenceI thread => isThread thread
  | .ecallEbreak thread => isThread thread
  | .twigIllegalInstruction thread => isThread thread
  | .twAcq thread => isThread thread
  | .twRel thread => isThread thread
  | .twYield thread => isThread thread
  | .twExit thread => isThread thread
  | .twTime thread => isThread thread
  | .twTid thread => isThread thread
  | .knotSig thread => isThread thread
  | .knotWait thread => isThread thread
  | .knotRd thread => isThread thread
  | .twCas thread => isThread thread
  | .twigSuspendDone _ => true
  | .twigResume _ => true
  | .twigWatchdog _ => true
  | .historyReset _ => true
  | .historyLimit _ => true
  | .cnpMapDefine _ => true
  | .cnpMapFree _ => true
  | .cnpFold _ => true
  | .cnpDense _ => true
  | .cnpWarp _ => true
  | .cnpDevox _ => true
  | .canopyUnit _ stem => isStem stem
  | .densePass _ => true
  | .sort _ => true
  | .topk _ => true
  | .merge _ => true
  | .nms _ => true
  | .nmsOverride _ => true
  | .srtSort _ => true
  | .srtTopk _ => true
  | .srtMerge _ => true
  | .srtNms _ => true
  | .sortChunk _ stem => isStem stem
  | .priorLoad _ => true
  | .priorBind _ => true
  | .burlSize _ => true
  | .gthTableCreate _ => true
  | .gthVersionBuild _ => true
  | .gthPut _ => true
  | .putRecordAtOwner _ => true
  | .gthPublish _ => true
  | .publishOrder _ => true
  | .gthGather _ => true
  | .gatherChunk _ engine => isEngine engine
  | .priorFetchRequest _ => true
  | .gatherFetchReturn _ => true
  | .burlWindowExpire stem => isStem stem
  | .versionUnpinReport _ => true
  | .gthBurlSet _ => true
  | .gthTableDestroy _ => true
  | .flitRx link _ => isLink link
  | .replayTimeout link => isLink link
  | .laneSpareSwitch link lane => isLink link && isLane lane
  | .linkTrainingDone link _ => isLink link
  | .linkTrainingRetry link => isLink link
  | .packetForward _ => true
  | .read _ => true
  | .write _ => true
  | .atomic _ => true
  | .knotSignalPacket _ => true
  | .readData _ => true
  | .ack _ => true
  | .mcastWrite _ => true
  | .mgmt _ => true
  | .reservedPacketType _ => true
  | .heartbeatTx => true
  | .heartbeatMiss link => isLink link
  | .requestTimeout _ => true
  | .detourCommit _ => true
  | .routeChangeDrained => true
  | .actingRootTimeout => true
  | .linkServiceOut _ => true
  | .linkServiceReturn _ => true
  | .routeRebuild _ => true
  | .wblRouteLoad _ => true
  | .wblRouteCommit _ => true
  | .wblAliasSet _ => true
  | .linkRetrainOrder _ => true
  | .linkForceSpare _ => true
  | .linkDownOrder _ => true
  | .twinPair _ => true
  | .twinDetach _ => true
  | .twnSigExchange _ => true
  | .twnCopy _ => true
  | .hello _ => true
  | .cert _ => true
  | .proof _ => true
  | .role _ => true
  | .syncData _ => true
  | .syncDone _ => true
  | .signature _ => true
  | .verdict _ => true
  | .leaving _ => true
  | .syncTimeout => true
  | .historyCopyArrive _ => true
  | .sigWaitTimeout => true
  | .twinFaultIn => true
  | .lockstepMismatch => true
  | .barkClockLost => true
  | .barkRestart => true
  | .mgmtHeartbeatMiss core => isCore core
  | .safeRelease _ => true
  | .faultLogRead _ => true
  | .brkCsRequest _ => true
  | .coreSampleStart stem => isStem stem
  | .coreSampleSwitch stem tile => isStem stem && isTile tile
  | .inPlaceSampleTake stem tile => isStem stem && isTile tile
  | .inPlaceLagExpire stem tile => isStem stem && isTile tile
  | .coreSampleComplete stem tile _ => isStem stem && isTile tile
  | .csCfgWrite _ => true
  | .srcCfgWrite source _ => isSource source
  | .wearSample readings => readings.all (fun r => r.unit.isUnit)
  | .graft target => target.isUnit
  | .logFlashWrite => true
  | .tdmaSlotChange stem => isStem stem
  | .perstRelease _ _ => true
  | .perstAssert => true
  | .pcieConfigRequest fn _ _ _ => isFn fn
  | .bootRomComplete => true
  | .barkFirmwareComplete _ => true
  | .graftLogApplied => true
  | .memoryStageComplete _ _ => true
  | .samplesStageComplete failed => failed.all (fun p => p.isPosition)
  | .firmwareStage _ => true
  | .firmwareActivateTrial _ => true
  | .firmwareActivateCommit _ => true
  | .otpOrder _ => true
  | .rollbackCommit _ => true
  | .measureExtend _ => true
  | .secHash _ => true
  | .secVerify _ => true
  | .attest fn => isFn fn
  | .certRead fn => isFn fn
  | .debugChallenge fn => isFn fn
  | .debugResponse fn => isFn fn
  | .recoveryBlock fn => isFn fn
  | .challengeExpire => true
  | .ideIntegrityFailure stream _ => isIdeStream stream
  | .spdmMessage _ => true
  | .traceStart _ => true
  | .traceStop _ => true
  | .traceTriggerNow _ => true
  | .traceSetMode _ => true
  | .traceMark _ => true
  | .dumpRequest _ => true
  | .unitHang unit => isWatched unit
  | .hangGraftTimeout unit => isWatched unit
  | .dumpWritten => true
  | .dumpSlotFree slot => isDumpSlot slot
  | .pertRegisterWrite fn off _ _ => isFn fn && isBar0 off
  | .pollardLoop _ => true
  | .thermalSample temps => isTemps temps
  | .powerCap _ => true
  | .stemPowerOff _ => true
  | .stemPowerOn _ => true
  | .stemOffDone stem => isStem stem
  | .stemStartDone stem failed => isStem stem && failed.all (fun p => p.isPosition)
  | .pmcsrD3hot fn => isFn fn
  | .pmcsrD0 fn => isFn fn
  | .pcieLinkRetrain _ _ => true
  | .functionLevelReset fn => isFn fn
  | .flrComplete fn => isFn fn
  | .vfEnableWrite _ _ => true
  | .bar2Read fn _ _ => isFn fn
  | .bar2Write fn _ _ => isFn fn
  | .msixUnmask fn _ => isFn fn
  | .setupLockWrite fn _ => isFn fn
  | .fnLockWrite fn _ => isFn fn
  | .railTrip rail => isRail rail
  | .vddBarkPowerOn => true
  | .timeInputsReturn => true
  | .windowStart _ => true
  | .sensorPortLinkDown port => isPort port

end Sys2Proof
end

