-- ==== Sys2Proof/Machine/Ops.lean ====
section
/-! DEFINITION. The named operations that the meanings share: functions and partitions, free values, messages to the host,
completion rings and events, Knots, commands in flight, counters, Rings and trace. -/
namespace Sys2Proof.Machine

/-- What a command makes of a state: its effect is on everything but the queue of commands and what the part is (R1). -/
def State.after (s t : State) : State := { t with pending := s.pending, variant := s.variant, revision := s.revision }

/-- The answer of a meaning in a state: the next state where the units it names exist, and else a fault. -/
def answer (s : State) (ok : Bool) (t : State) : Host.Outcome State Fault Refusal :=
  if ok then .next (s.after t) else .fault .noSuchUnit

/-! Time, free values and outputs. -/

/-- Time-tree time (R122), as the Crown network's leaf has it. -/
def State.now (s : State) : DWord := s.time.now

/-- Whether an interval has passed since a moment, both in the reference's nanoseconds since power-on. -/
def State.passed (s : State) (since : DWord) (ns : Nat) : Bool := decide (ns ≤ (s.time.uptime - since).toNat)

/-- Whether an interval has passed since the last time, if there was one. -/
def State.duePeriod (s : State) (last : Option DWord) (ns : Nat) : Bool :=
  match last with
  | some t => s.passed t ns
  | none => true

/-! Clock islands, as far as they stamp events (R30, R132). Each Stem's network is `stemIsland`; a tile's and an engine's island
goes by its unit ID. -/
def crownIsland : Nat := 0
def coresIsland : Nat := 1
def barkIsland : Nat := 2
def siuIsland : Nat := 3
def stemIsland (stem : Nat) : Nat := 4 + stem

/-- The island of a unit, by its ID (R30, R512). -/
def unitIsland (unit : Nat) : Nat :=
  match unit / 4096 with
  | 0 | 9 | 10 | 11 | 12 => crownIsland
  | 1 | 2 => siuIsland
  | 13 => barkIsland
  | 14 => stemIsland (unit % 4)
  | _ => unit

/-- What an island's count was corrected to at a count of the Crown network: at most 2 ns from it, and from every other island's. -/
def leafPoint (epoch isl t : Nat) : Nat :=
  ((t : Int) + (Config.leafLead isl epoch t % 3 : Nat) - (Config.leafBack epoch t % 3 : Nat)).toNat

/-- An island's count: it never goes back (R124), so it is the greatest of its corrections so far. One that lies more than four
counts back is no greater than those since. -/
def leafCount (epoch isl t : Nat) : Nat :=
  (List.range 5).foldl (fun m i => max m (leafPoint epoch isl (t - i))) 0

/-- Time-tree time as the leaf of an island has it (R32, R132). -/
def State.leaf (s : State) (isl : Nat) : DWord :=
  if isl = crownIsland then s.now else BitVec.ofNat 64 (leafCount s.time.epoch isl s.now.toNat)

/-- The next free value, and the state in which it has been drawn. -/
def State.draw (s : State) : DWord × State := (Config.freeWord s.free, { s with free := s.free + 1 })

/-- A free choice below k, and the state in which it has been made. -/
def State.choose (s : State) (k : Nat) : Nat × State :=
  if k ≤ 1 then (0, s) else (Config.pick s.free k, { s with free := s.free + 1 })

/-- Something leaves the device. -/
def State.emit (s : State) (o : Output) : State := { s with out := o :: s.out }

/-- Bytes go to host memory in a write request of a function (R44). -/
def State.hostStore (s : State) (fn addr : Nat) (b : List Byte) : State :=
  ({ s with host := memWrite s.host addr b }).emit (.hostWrite fn addr b)

/-- A report on its way to Bark (R28, R455). -/
def State.report (s : State) (r : Report) : State := { s with reports := s.reports ++ [r] }

/-! Functions and partitions. -/

/-- An enabled function. -/
def State.fn? (s : State) (n : Nat) : Option Fn := s.pcie.fns.find? (fun f => f.num == n)

/-- Whether a function is enabled (R558): a virtual function that is being reset after VF Enable has cleared is not. -/
def State.fnOn (s : State) (n : Nat) : Bool := (s.fn? n).isSome && (n == 0 || s.pcie.vfEnable)

/-- A change to an enabled function. -/
def State.updFn (s : State) (n : Nat) (f : Fn → Fn) : State :=
  { s with pcie := { s.pcie with fns := updWhere s.pcie.fns (fun x => x.num == n) f } }

/-- The partition of a function (R559). -/
def State.partOf (s : State) (fn : Nat) : Nat := s.rdN Fld.pciFnPart_partition fn

/-- The owning function of a partition: the lowest-numbered enabled one, else the physical function (R559). -/
def State.ownerFn (s : State) (p : Nat) : Nat :=
  ((List.range 64).find? (fun f => s.fnOn f && s.partOf f == p)).getD 0

/-- The highest criticality class of a partition (R477). -/
def State.maxCrit (s : State) (p : Nat) : Nat := s.rdN Fld.brkPartCfg_max_crit p

/-- This chip's ID (R40). -/
def State.chipId (s : State) : Nat := s.rdN Fld.crnChipId_chip_id

/-- Whether the device set-up lock is set (R566). -/
def State.locked (s : State) : Bool := s.rdB Fld.pciSetupLock_lock

/-- Whether a function is no requester, and the writes owed to it are held (R560, R595). -/
def State.holds (s : State) (fn : Nat) : Bool :=
  match s.fn? fn with
  | some f => !f.busMaster || f.dstate == .d3hot || f.resetting
  | none => true

/-- Whether an access to the host memory window for a partition leaves the device (R44, R595). -/
def State.hostReach (s : State) (part : Nat) : Bool := !s.holds (s.ownerFn part)

/-- The device's mode (R453). -/
def State.mode (s : State) : Nat := s.rdN Fld.brkStatus_mode

/-- The start-up stage as it reads in SEC_BOOT_STATUS (R487). -/
def State.stage (s : State) : Nat := s.rdN Fld.secBootStatus_stage

/-- The link of role 2, where there is one (R403). -/
def State.twinLink (s : State) : Option Nat := (List.range 6).find? (fun l => s.rdN Fld.wblLinkCfg_role l == 2)

/-- A packet enters the fabric at this chip. -/
def State.inject (s : State) (p : Packet) : State :=
  { s with fabric := { s.fabric with inbox := s.fabric.inbox ++ [({ link := 6, packet := p } : InPacket)] } }

/-! Rings history and trace (R520 to R525). -/

/-- A unit's ID (R512). -/
def unitId (kind stem num : Nat) : Nat := kind * 4096 + stem * 1024 + num

/-- An event in a unit's Rings: its last 64 events are kept (R525). -/
def State.ring (s : State) (unit event source place opId : Nat) (param : List Byte) : State :=
  let rec0 : RingsRecord :=
    { time := getBits (s.leaf (unitIsland unit)).toNat 0 48, event := event, source := source, place := place, opId := opId,
      param := slice param 0 6 }
  let old := ((s.observe.rings.find? (fun r => r.1 == unit)).map (·.2)).getD []
  let rest := s.observe.rings.filter (fun r => r.1 != unit)
  { s with observe := { s.observe with rings := rest ++ [(unit, (rec0 :: old).take 64)] } }

/-- A trace record's 32 bytes (R521). -/
def traceBytes (r : TraceRecord) : List Byte :=
  natToBytes 8 r.time.toNat ++ natToBytes 2 r.unit ++ natToBytes 1 r.type ++ natToBytes 1 (if r.trigger then 1 else 0)
    ++ natToBytes 2 r.layerId ++ natToBytes 2 r.opId ++ natToBytes 2 r.ring ++ natToBytes 1 r.part ++ [0]
    ++ slice r.payload 0 12

/-- An internal queue of a unit has been reset: the unit's Rings and Bark hear of it (R480, R525). -/
def State.queueReset (s : State) (unit : Nat) (r : Report) : State := (s.ring unit 0x11 0 0 0 []).report r

/-- Records that the trace region holds (R520). -/
def State.traceSlots (s : State) : Nat := s.rdN Fld.trcSize_size_mib * 32768

/-- A trace record is written to its slot, or tracing stops or discards it (R522). TRC_STATUS.state: 0 off, 1 running,
2 triggered, 3 stopped. -/
def State.putTrace (s : State) (r : TraceRecord) : State :=
  let n := s.observe.traceCount
  let slots := s.traceSlots
  let mode := s.rdN Fld.trcCtrl_mode
  let st := s.rdN Fld.trcStatus_state
  if st == 0 ∨ slots == 0 then s
  else if st == 3 then (if mode == 0 then s.count Fld.trcDropped_dropped 1 else s)
  else if mode == 0 ∧ n ≥ slots then
    ((s.wrN Fld.trcStatus_state 3).ring (unitId 0 0 0) 0x12 0 0 0 []).count Fld.trcDropped_dropped 1
  else
    let slot := n % slots
    let a := s.rdN Fld.trcBase_base * 4096 + 32 * slot
    let s := { s with hbm := memWrite s.hbm a (traceBytes r), observe := { s.observe with traceCount := n + 1 } }
    let s := s.wrN Fld.trcStatus_next_slot ((n + 1) % slots)
    let s := if n ≥ slots then s.wrB Fld.trcStatus_wrapped true else s
    if r.trigger then
      let left := min (s.rdN Fld.trcPost_post_records) (slots - 1)
      let s := { s with observe := { s.observe with postLeft := left } }
      (s.wrN Fld.trcStatus_trigger_slot slot).wrN Fld.trcStatus_state (if left == 0 then 3 else 2)
    else if st == 2 then
      let left := s.observe.postLeft - 1
      let s := { s with observe := { s.observe with postLeft := left } }
      if left == 0 then s.wrN Fld.trcStatus_state 3 else s
    else s

/-- Whether a trigger condition may still fire (R523). -/
def State.armedTrigger (s : State) : Bool :=
  s.rdB Fld.trcCtrl_enable && s.rdN Fld.trcCtrl_mode == 2 && s.rdN Fld.trcStatus_state == 1

/-- What a trace or Rings event says of the command it concerns. -/
structure EventOf where
  layerId : Nat := 0
  opId : Nat := 0
  ring : Nat := 0
  /-- The command's partition; none where no command is concerned. -/
  part : Option Nat := none
  /-- The command's trace bit; error reports, grafts and orders are traced whatever it is (R520). -/
  traced : Bool := true

/-- An event of a unit: it goes to the unit's Rings, to trace where the unit's kind, the command and its partition are
traced, and becomes the trigger where `trig` holds and the trigger is still armed (R520 to R525). The code of a trigger's reason, in a record
that no unit emits, is a free value. -/
def State.event (s : State) (unit type : Nat) (e : EventOf) (payload : List Byte) (trig : Bool := false)
    (source place : Nat := 0) : State :=
  let s := s.ring unit type source place e.opId payload
  let emits := s.rdB Fld.trcCtrl_enable && (s.rdN Fld.trcCtrl_unit_mask).testBit (unit / 4096)
    && (e.traced || s.rdB Fld.trcCtrl_all_commands)
    && (match e.part with | some p => (s.rdN Fld.trcPartMask_part_mask).testBit p | none => true)
  let isTrig := trig && s.armedTrigger
  let r : TraceRecord :=
    { time := s.leaf (unitIsland unit), unit := unit, type := type, trigger := isTrig, layerId := e.layerId, opId := e.opId, ring := e.ring,
      part := e.part.getD 0, payload := payload }
  if emits then s.putTrace r
  else if isTrig then
    let (w, s) := s.draw
    s.putTrace { r with type := 0x0C, payload := natToBytes 8 w.toNat }
  else s

/-- Orders that a unit's Rings hold of this instant: the next one's place in the serialisation (R103, R525). -/
def State.orderPlace (s : State) (unit : Nat) : Nat :=
  let now := getBits (s.leaf (unitIsland unit)).toNat 0 48
  ((((s.observe.rings.find? (fun r => r.1 == unit)).map (·.2)).getD []).filter (fun r => r.event == 0x0A && r.time == now)).length

/-- An order reaches its target: it is written to the target's Rings with its precedence and its place, and traced (R103, R521). DESIGN
CHOICE: four bytes name the order, and its precedence follows them. -/
def State.order (s : State) (unit source : Nat) (e : EventOf) (what : List Byte) : State :=
  s.event unit 0x0A { e with traced := true } (slice what 0 4 ++ natToBytes 1 source) false source (s.orderPlace unit)

/-! Counters (R513 to R519). -/

/-- A counter in a list of (unit, code, value) goes up, wrapping at 2^64. -/
def bumpCounter : List (Nat × Nat × DWord) → Nat → Nat → Nat → List (Nat × Nat × DWord)
  | [], u, c, n => [(u, c, BitVec.ofNat 64 n)]
  | (u', c', v) :: r, u, c, n =>
    if u' = u ∧ c' = c then (u, c, v + BitVec.ofNat 64 n) :: r else (u', c', v) :: bumpCounter r u c n

/-- Whether a counter code is a maximum over the command (R518). -/
def codeIsMax (code : Nat) : Bool := code == 0x0208

/-- The counters that a unit kind writes for a command it served (R518), but for busy_cycles, which per_unit alone has. -/
def kindCodes (kind : Nat) : List Nat :=
  let own (owner n : Nat) := (List.range n).map (fun i => owner * 256 + i)
  [0] ++ (match kind with
    | 0 => [2]
    | 1 => [0x0101, 0x0102, 0x0103, 0x0104, 0x0105, 0x0106]
    | 2 => [0x0100, 0x0107, 0x0108, 0x0109, 0x010A, 0x010B]
    | 3 => own 2 9
    | 4 => own 3 9
    | 5 => own 4 6
    | 6 => own 5 4
    | 7 => own 6 7
    | 8 => own 7 10
    | 10 => own 9 3
    | _ => [])

/-- A command's totals with one count added (a maximum where the code is one). -/
def addCount (l : List CountEntry) (unit code n : Nat) : List CountEntry :=
  if l.any (fun e => e.unit == unit && e.code == code) then
    updWhere l (fun e => e.unit == unit && e.code == code)
      (fun e => { e with value := if codeIsMax code then BitVec.ofNat 64 (max e.value.toNat n)
                                  else BitVec.ofNat 64 (satTo 64 (e.value.toNat + n)) })
  else l ++ [{ unit := unit, code := code, value := BitVec.ofNat 64 n }]

/-- A command in flight. -/
def State.cmd? (s : State) (id : Nat) : Option Cmd := s.queues.cmds.find? (fun c => c.id == id)

/-- A change to a command in flight. -/
def State.updCmd (s : State) (id : Nat) (f : Cmd → Cmd) : State :=
  { s with queues := { s.queues with cmds := updWhere s.queues.cmds (fun c => c.id == id) f } }

/-- A unit counts n events of a code, for the command it serves where there is one. -/
def State.tally (s : State) (cmd : Option Nat) (unit code n : Nat) : State :=
  let o := s.observe
  let s := { s with observe := { o with counters := bumpCounter o.counters unit code n,
                                        deltas := bumpCounter o.deltas unit code n } }
  match cmd with
  | some id => s.updCmd id (fun c => { c with counts := addCount c.counts unit code n })
  | none => s

/-- A unit's watchdog starts again: it has committed work, taken work up, or hung (R526, R527). -/
def State.noteWork (s : State) (unit : Nat) : State :=
  { s with observe := { s.observe with workAt := (unit, s.time.uptime) :: s.observe.workAt.filter (fun x => x.1 != unit) } }

/-- A unit commits a unit of work (R526): one that hung has come back to life. -/
def State.worked (s : State) (unit : Nat) : State :=
  ({ s with observe := { s.observe with hung := s.observe.hung.filter (fun u => u != unit) } }).noteWork unit

/-- A unit begins a service interval of a command, where it was serving another: its delta registers start again, and
every counter of its kind stands in the command's totals from then on (R513, R514, R518). -/
def State.serve (s : State) (cmd unit : Nat) : State :=
  if s.observe.serving.contains (unit, cmd) then s
  else
    let o := s.observe
    let s := ({ s with observe := { o with serving := (unit, cmd) :: o.serving.filter (fun x => x.1 != unit),
                                           deltas := o.deltas.filter (fun d => d.1 != unit) } }).noteWork unit
    s.updCmd cmd (fun c => { c with counts := (kindCodes (unit / 4096)).foldl (fun l k => addCount l unit k 0) c.counts })

/-- What trace and Rings say of a command. -/
def Cmd.eventOf (c : Cmd) : EventOf :=
  let d := (c.descs.headD 0).toNat
  { layerId := getBits d 32 16, opId := getBits d 48 16, ring := c.sq, part := some c.part, traced := getBits d 21 1 == 1 }

/-- A unit commits a unit of work for a command, with an event that says so (R521, R526). -/
def State.committed (s : State) (cmd : Option Nat) (unit number : Nat) : State :=
  let e : EventOf := match cmd.bind s.cmd? with | some c => c.eventOf | none => { traced := false }
  (s.worked unit).event unit 0x03 e (natToBytes 4 number)

/-! MSI-X (R565). -/

/-- Whether a message for a vector can be sent now. -/
def Fn.sends (f : Fn) (v : Nat) : Bool :=
  f.msixEnable && !f.fnMask && f.unmasked.contains v && f.busMaster && f.dstate == .d0 && !f.resetting

/-- Whether a vector of a function is masked (R565): its message sets the pending bit in place of being sent. -/
def Fn.masks (f : Fn) (v : Nat) : Bool := !f.msixEnable || f.fnMask || !f.unmasked.contains v

/-- A vector of a function is raised (R565): its message is sent, or its pending bit is set where it is masked. Of a function that
is no requester nothing is sent (R44). -/
def State.raise (s : State) (fn v : Nat) : State :=
  match s.fn? fn with
  | none => s
  | some f =>
    if f.sends v then s.emit (.msix fn v)
    else if !f.masks v || f.pendingVecs.contains v then s
    else s.updFn fn (fun f => { f with pendingVecs := f.pendingVecs ++ [v] })

/-- Pending messages of a function that can be sent now are sent. -/
def State.flushVectors (s : State) (fn : Nat) : State :=
  match s.fn? fn with
  | none => s
  | some f =>
    let go := f.pendingVecs.filter (fun v => f.sends v)
    let s := go.foldl (fun s v => s.emit (.msix fn v)) s
    s.updFn fn (fun f => { f with pendingVecs := f.pendingVecs.filter (fun v => !go.contains v) })

/-! Completion rings and events (R91 to R98). -/

/-- A completion ring that is ON. -/
def State.cq? (s : State) (n : Nat) : Option Cq := s.queues.cqs.find? (fun c => c.num == n)

/-- A change to a completion ring. -/
def State.updCq (s : State) (n : Nat) (f : Cq → Cq) : State :=
  { s with queues := { s.queues with cqs := updWhere s.queues.cqs (fun c => c.num == n) f } }

/-- A submission ring that exists. -/
def State.sq? (s : State) (n : Nat) : Option Sq := s.queues.sqs.find? (fun q => q.num == n)

/-- A change to a submission ring. -/
def State.updSq (s : State) (n : Nat) (f : Sq → Sq) : State :=
  { s with queues := { s.queues with sqs := updWhere s.queues.sqs (fun q => q.num == n) f } }

/-- The free space of a completion ring (R92). -/
def Cq.free (q : Cq) : Nat := 2 ^ q.log2 - (q.posted - q.head).toNat - q.reserved

/-- The administrative rings' number of a function (R72). -/
def adminRing (fn : Nat) : Nat := 16 * fn

/-- An occurrence of an event: it is merged into one of the same code and ring that waits or whose record is held, or
waits itself (R97, R595). -/
def Queues.noteEvent (q : Queues) (now : DWord) (fn code ring : Nat) (detail : Word) : Queues :=
  let same (e : QEvent) := e.fn == fn && e.code == code && e.ring == ring
  let more (e : QEvent) : QEvent := { e with count := satTo 16 (e.count + 1), lastNs := now, detail := detail }
  if q.held.any (fun h => match h with | .event e => same e | _ => false) then
    { q with held := q.held.map (fun h => match h with | .event e => if same e then .event (more e) else h | _ => h) }
  else
    { q with events := if q.events.any same then updWhere q.events same more
                       else q.events ++ [{ fn := fn, code := code, ring := ring, detail := detail, firstNs := now, lastNs := now }] }

/-- An occurrence of an event at this moment (R97). -/
def State.noteEvent (s : State) (fn code ring : Nat) (detail : Word) : State :=
  { s with queues := s.queues.noteEvent s.now fn code ring detail }

/-- A completion ring's two copies of its counts disagree: it becomes faulted, its reserved slots are released, and Bark
and the function hear of it (R98). -/
def State.faultCq (s : State) (n : Nat) : State :=
  match s.cq? n with
  | none => s
  | some q =>
    let s := s.updCq n (fun q => { q with fault := true, reserved := 0 })
    let s := { s with queues := { s.queues with
        cmds := updWhere s.queues.cmds (fun c => c.slot == some n) (fun c => { c with slot := none }) } }
    (s.noteEvent q.fn 0x0006 n 1).report { source := 0x15, logical := n }

/-- The phase bit of the record at a posted count (R91). -/
def phaseBit (q : Cq) : Nat := 1 - getBits q.posted.toNat q.log2 1

/-- Whether no record of a function is written any more: its administrative completion ring is faulted (R98). -/
def State.recordsStop (s : State) (fn : Nat) : Bool := match s.cq? (adminRing fn) with | some q => q.fault | none => false

/-- The submission ring that a completion record names, and whether it is its command's last (R91). -/
def recordSq (b : List Byte) : Nat := leAt b 4 2 % 4096
def recordFinal (b : List Byte) : Bool := (leAt b 4 2).testBit 13

/-- A ring's fetched count, as records carry it (R91). -/
def State.fetchedOf (s : State) (sq : Nat) : Nat := match s.sq? sq with | some q => q.fetched.toNat % 65536 | none => 0

/-- The head line of a completion ring: its group's. -/
def State.headLineOf (s : State) (q : Cq) : Nat :=
  ((s.queues.groups.find? (fun g => g.num == q.num / 16)).map (·.headLine)).getD 0

/-- A completion ring without a free slot has its head line read again, until it has one; a faulted one has it read no more (R92, R98).
While the function is no requester the read is issued to nobody and fails (R44, R595). -/
def State.seekHead (s : State) (n : Nat) : State :=
  match s.cq? n with
  | none => s
  | some q =>
    if q.fault || q.free != 0 || q.headReading then s
    else
      let s := s.updCq n (fun q => { q with headReading := true })
      if s.holds q.fn then s else s.emit (.hostRead q.fn (s.headLineOf q) 64)

/-- A record goes to its slot of a completion ring, and the ring's vector is raised where R96 says so. A function whose
administrative completion ring is faulted gets no records (R98): the slot is released. -/
def State.issueRecord (s : State) (n : Nat) (bytes : List Byte) (irq event : Bool) : State :=
  match s.cq? n with
  | none => s
  | some q =>
    if q.posted != q.postedCopy then s.faultCq n
    else if q.fault then s
    else if s.recordsStop q.fn then s.updCq n (fun q => { q with reserved := if event then q.reserved else q.reserved - 1 })
    else
      let ctl := leAt bytes 4 2 + 32768 * phaseBit q
      let bytes := bytes.take 4 ++ natToBytes 2 ctl ++ bytes.drop 6
      let s := s.hostStore q.fn (q.base + 32 * (q.posted.toNat % 2 ^ q.log2)) bytes
      let c := if irq then q.coalesced + 1 else q.coalesced
      let fire := event || (irq && ((q.coalesceCount == 0 && q.coalesceUs == 0) || (q.coalesceCount != 0 && c ≥ q.coalesceCount)))
      let s := s.updCq n (fun q => { q with posted := q.posted + 1, postedCopy := q.postedCopy + 1,
                                            reserved := if event then q.reserved else q.reserved - 1,
                                            coalesced := if fire then 0 else c
                                            coalescedAt := if irq && q.coalesced == 0 then s.time.uptime else q.coalescedAt })
      if fire then s.raise q.fn q.vector else s

/-- An event record's bytes (R91, R97), with the fetched count of the submission ring of its number; its phase is added when it is
issued. -/
def State.eventBytes (s : State) (e : QEvent) : List Byte :=
  natToBytes 2 0 ++ natToBytes 2 e.code ++ natToBytes 2 (e.ring + 4096 + 8192) ++ natToBytes 2 (s.fetchedOf e.ring)
    ++ natToBytes 8 e.firstNs.toNat ++ natToBytes 8 e.lastNs.toNat ++ natToBytes 4 e.detail.toNat
    ++ natToBytes 2 e.count ++ natToBytes 2 0

/-- An event record of a function is written. -/
def State.issueEvent (s : State) (e : QEvent) : State := s.issueRecord (adminRing e.fn) (s.eventBytes e) false true

/-- Held event records take slots of their function's administrative completion ring that their issue will use up. -/
def State.heldFor (s : State) (n : Nat) : Nat :=
  (s.queues.held.filter (fun h => match h with | .event e => adminRing e.fn == n | _ => false)).length

/-- The events of a function that wait are written, oldest first, as far as its administrative completion ring has free
slots (R97); those of a function that is no requester join what is held, in their order (R595). -/
def State.flushEventsN (s : State) (fn : Nat) : Nat → State
  | 0 => s
  | k + 1 =>
    match s.queues.events.find? (fun e => e.fn == fn), s.cq? (adminRing fn) with
    | some e, some q =>
      if q.fault || q.free ≤ s.heldFor q.num then s
      else
        let s := { s with queues := { s.queues with events := s.queues.events.erase e } }
        let s := if s.holds fn then { s with queues := { s.queues with held := s.queues.held ++ [.event e] } } else s.issueEvent e
        (s.seekHead q.num).flushEventsN fn k
    | _, _ => s

/-- As many of the waiting events of a function as can be written are written. -/
def State.flushEvents (s : State) (fn : Nat) : State := s.flushEventsN fn s.queues.events.length

/-- An event is posted for a function (R97). -/
def State.postEvent (s : State) (fn code ring : Nat) (detail : Word) : State :=
  (s.noteEvent fn code ring detail).flushEvents fn

/-- A submission ring's two copies of its counts disagree: it enters ERROR, and Bark and the function hear of it (R98). -/
def State.faultSq (s : State) (n : Nat) : State :=
  match s.sq? n with
  | none => s
  | some q =>
    let s := s.updSq n (fun q => { q with state := .error, reading := 0 })
    (s.postEvent q.fn 0x0006 n 0).report { source := 0x15, part := some q.part, logical := n }

/-- The two copies of a completion ring's counts are compared (R98): where they disagree the ring becomes faulted, and the event is
written wherever the administrative completion ring can take it. -/
def State.checkCq (s : State) (n : Nat) : State :=
  match s.cq? n with
  | none => s
  | some q => if !q.fault && q.posted != q.postedCopy then (s.faultCq n).flushEvents q.fn else s

/-- Whether a slot of a completion ring can be reserved now (R92): events that wait go first (R97). -/
def State.slotFree (s : State) (n : Nat) : Bool :=
  match s.cq? n with
  | none => false
  | some q =>
    let first := if n == adminRing q.fn then (s.queues.events.filter (fun e => e.fn == q.fn)).length else 0
    !q.fault && decide (s.heldFor n + first < q.free)

/-- A slot of a completion ring is reserved, where one is free (R92). Events that wait go first (R97). -/
def State.reserve (s : State) (n : Nat) : State × Bool :=
  match s.cq? n with
  | none => (s, false)
  | some q =>
    let s := if n == adminRing q.fn then s.flushEvents q.fn else s
    match s.cq? n with
    | none => (s, false)
    | some q =>
      if q.fault || q.free ≤ s.heldFor n then (s.seekHead n, false)
      else ((s.updCq n (fun q => { q with reserved := q.reserved + 1 })).seekHead n, true)

/-- A reserved slot is released. -/
def State.unreserve (s : State) (n : Nat) : State := s.updCq n (fun q => { q with reserved := q.reserved - 1 })

/-- A completion ring of a function that takes records (check 5 of R84, R98). -/
def State.cqUsable (s : State) (fn n : Nat) : Bool :=
  match s.cq? n with
  | some q => q.fn == fn && !q.fault
  | none => false

/-- A completion record due to a ring, where its slot stands, is issued, or held under R595 in its order. One due to a faulted ring
takes a slot of the function's administrative ring instead (R98): without a free slot there it waits among what is held, and
where that ring takes no records it is not written. -/
def State.dueRecord (s : State) (fn n : Nat) (bytes : List Byte) (irq : Bool) : State :=
  let keep (s : State) : State := { s with queues := { s.queues with held := s.queues.held ++ [.record fn n bytes irq] } }
  if s.holds fn then keep s
  else
    let s := s.checkCq n
    if s.cqUsable fn n then s.issueRecord n bytes irq false
    else match s.reserve (adminRing fn) with
      | (s, true) => s.issueRecord (adminRing fn) bytes irq false
      | (s, false) => if s.cqUsable fn (adminRing fn) then keep s else s

/-- Commands in flight whose last record has not been written yet, of the rings that `sel` selects (R86). -/
def State.owed (s : State) (sel : Sq → Bool) : Nat :=
  (s.queues.held.filter (fun h => match h with
    | .record _ _ b _ => recordFinal b && (match s.sq? (recordSq b) with | some q => sel q | none => false)
    | _ => false)).length

/-- Commands in flight in the device (R86). -/
def State.inFlight (s : State) : Nat := s.queues.cmds.length + s.owed (fun _ => true)

/-! Knots (R99 to R102). -/

/-- A Knot's value. -/
def State.knot (s : State) (n : Nat) : DWord := ((s.queues.knots.find? (fun k => k.1 == n)).map (·.2)).getD 0

/-- A sorted list of the Knots that do not read 0, with one replaced. -/
def knotPut : List (Nat × DWord) → Nat → DWord → List (Nat × DWord)
  | [], n, v => if v = 0 then [] else [(n, v)]
  | (k, w) :: r, n, v =>
    if n < k then (if v = 0 then (k, w) :: r else (n, v) :: (k, w) :: r)
    else if n = k then (if v = 0 then r else (n, v) :: r)
    else (k, w) :: knotPut r n v

/-- The partition that owns a Knot's block: none for block 0 and for a block without an owner (R99). -/
def State.knotOwner (s : State) (n : Nat) : Option Nat :=
  let b := n / 256
  let k := b / 8
  let j := b % 8
  let vf := nth Fld.crnKnotOwner_valid0 [Fld.crnKnotOwner_valid0, Fld.crnKnotOwner_valid1, Fld.crnKnotOwner_valid2,
    Fld.crnKnotOwner_valid3, Fld.crnKnotOwner_valid4, Fld.crnKnotOwner_valid5, Fld.crnKnotOwner_valid6,
    Fld.crnKnotOwner_valid7] j
  let pf := nth Fld.crnKnotOwner_partition0 [Fld.crnKnotOwner_partition0, Fld.crnKnotOwner_partition1,
    Fld.crnKnotOwner_partition2, Fld.crnKnotOwner_partition3, Fld.crnKnotOwner_partition4,
    Fld.crnKnotOwner_partition5, Fld.crnKnotOwner_partition6, Fld.crnKnotOwner_partition7] j
  if b = 0 then none else if s.rdB vf k then some (s.rdN pf k) else none

/-- Whether a partition may use a Knot (R99). -/
def State.ownsKnot (s : State) (part n : Nat) : Bool := n < 65536 && s.knotOwner n == some part

/-- The wait of a command: the Knot and the threshold, where its header asks for one (R80). -/
def Cmd.wait (c : Cmd) : Option (Nat × Nat) :=
  match c.descs with
  | [] => none
  | d :: _ => if getBits d.toNat 80 4 = 1 then some (getBits d.toNat 64 16, getBits d.toNat 84 44) else none

/-- The Knot unit's ID (R512). -/
def knotUnit : Nat := unitId 11 0 0

/-- Every wait of a command and of a thread and every armed threshold on a Knot is tested against its value (R100). -/
def State.testKnot (s : State) (n : Nat) : State :=
  let v := s.knot n
  let meets (c : Cmd) := c.phase == .waiting && (match c.wait with | some (k, t) => k == n && decide (t ≤ v.toNat) | none => false)
  let thr (t : Thread) := t.state == .waiting && (match t.knotWait with | some (_, k, h) => k == n && decide (h.toNat ≤ v.toNat) | none => false)
  let fired := s.queues.arms.filter (fun a => a.knot == n && decide (a.threshold.toNat ≤ v.toNat))
  let met := s.queues.cmds.filter (fun c => meets c && !c.waitMet)
  let s := { s with
    queues := { s.queues with
      cmds := updWhere s.queues.cmds meets (fun c => { c with waitMet := true })
      arms := s.queues.arms.filter (fun a => !(a.knot == n && decide (a.threshold.toNat ≤ v.toNat))) }
    compute := { s.compute with
      threads := updWhere s.compute.threads thr (fun t =>
        { t with state := .ready, regs := (match t.knotWait with
            | some (rd, _, _) => if rd = 0 then t.regs else t.regs.set rd v
            | none => t.regs), knotWait := none })
      rcache := s.compute.rcache.filter (fun l =>
        !(s.compute.threads.any (fun t => thr t && t.stem == l.stem && t.tile == l.tile))) } }
  let s := met.foldl (fun s c => s.event knotUnit 0x07 c.eventOf (natToBytes 2 n ++ natToBytes 8 v.toNat)) s
  fired.foldl (fun s a => s.raise a.fn a.vector) s

/-- A Knot takes a value, and its waits and arms are tested (R100). -/
def State.setKnot (s : State) (n : Nat) (v : DWord) : State :=
  ({ s with queues := { s.queues with knots := knotPut s.queues.knots n v } }).testKnot n

/-- A signal: the increment is added, wrapping; whether the sum wrapped (R100, R102). -/
def State.signalKnot (s : State) (n : Nat) (inc : DWord) (e : EventOf) : State × Bool :=
  let v := s.knot n + inc
  let wrapped := decide (2 ^ 64 ≤ (s.knot n).toNat + inc.toNat)
  let s := s.setKnot n v
  let s := s.event knotUnit 0x06 e (natToBytes 2 n ++ natToBytes 8 v.toNat)
  (if wrapped then s.ring knotUnit 0x13 0 0 e.opId (natToBytes 2 n) else s, wrapped)

/-! Commands in flight. -/

/-- A field of a command's descriptor chain: descriptor, byte, lowest bit from that byte, width (R11). -/
def Cmd.f (c : Cmd) (ext byte lo w : Nat) : Nat :=
  match c.descs[ext]? with
  | some d => getBits d.toNat (8 * byte + lo) w
  | none => 0

/-- A field of whole bytes of the base descriptor. -/
def Cmd.b (c : Cmd) (byte n : Nat) : Nat := c.f 0 byte 0 (8 * n)

/-- A field of whole bytes of extension 1. -/
def Cmd.e (c : Cmd) (byte n : Nat) : Nat := c.f 1 byte 0 (8 * n)

/-- The opcode and the engine class (R80). -/
def Cmd.opcode (c : Cmd) : Nat := c.f 0 0 0 8
def Cmd.engineClass (c : Cmd) : Nat := c.f 0 0 8 4
def Cmd.priority (c : Cmd) : Nat := c.f 0 0 12 2
def Cmd.fence (c : Cmd) : Bool := c.f 0 0 17 1 == 1
def Cmd.irq (c : Cmd) : Bool := c.f 0 0 18 1 == 1
def Cmd.onFailureOnly (c : Cmd) : Bool := c.f 0 0 19 1 == 1
def Cmd.signalOnFailure (c : Cmd) : Bool := c.f 0 0 20 1 == 1
def Cmd.trace (c : Cmd) : Bool := c.f 0 0 21 1 == 1
def Cmd.layerId (c : Cmd) : Nat := c.b 4 2
def Cmd.opId (c : Cmd) : Nat := c.b 6 2
/-- The common tail (R81). -/
def Cmd.cq (c : Cmd) : Nat := c.f 0 48 0 12
def Cmd.tag (c : Cmd) : Nat := c.b 50 2
def Cmd.signalKnot (c : Cmd) : Nat := c.b 52 2
def Cmd.signalInc (c : Cmd) : Nat := c.b 54 2
def Cmd.counterPtr (c : Cmd) : Nat := c.f 0 56 0 48

/-- Four 64-bit tile masks in bytes 32 to 63 of extension 1 (R284). -/
def Cmd.tileMasks (c : Cmd) : List Nat := (List.range 4).map (fun j => c.e (32 + 8 * j) 8)

/-- What trace and Rings say of a command. -/
def Cmd.ev (c : Cmd) : EventOf := c.eventOf

/-- The command that an engine is running, if it is the one of that class and opcode. -/
def State.running (s : State) (id cls op : Nat) : Option Cmd :=
  match s.cmd? id with
  | some c => if c.phase == .running && c.engineClass == cls && c.opcode == op then some c else none
  | none => none

/-- A command's engine work ends with a status and a detail, stamped; it retires next (R90). -/
def State.finish (s : State) (id : Nat) (st : Half) (detail : Word := 0) : State :=
  s.updCmd id (fun c => { c with phase := .finished, status := st, detail := detail, endNs := s.now })

/-- The meaning of a row that a command in flight runs: nothing where no such command is running. -/
def State.onCmd (s : State) (id cls op : Nat) (f : Cmd → State) : State :=
  match s.running id cls op with
  | some c => f c
  | none => s

/-- The meaning of a row that takes a command to its engine: it happens once. -/
def State.onStart (s : State) (id cls op : Nat) (f : State → Cmd → State) : State :=
  match s.running id cls op with
  | some c => if c.started then s else f (s.updCmd id (fun c => { c with started := true })) c
  | none => s

end Sys2Proof.Machine
end

