-- ==== Sys2Proof/Machine/BarkLog.lean ====
section
/-! DEFINITION. Bark's log (R471), the safety pins and the modes (R453), and the device's step from WAIT_LOCK to READY
(R487). -/
namespace Sys2Proof.Machine

/-- Capacity of the two sections of the log (R471). -/
def graftCapacity : Nat := 32768
def faultCapacity : Nat := 229376

/-- A record goes to the fault ring, which overwrites its oldest record when full and counts it (R471). -/
def State.logFault (s : State) (r : LogRecord) : State :=
  let b := s.bark
  let r := { r with seq := b.faultSeq }
  let full := decide (b.faultLog.length ≥ faultCapacity)
  let log := (if full then b.faultLog.drop 1 else b.faultLog) ++ [r]
  let s := { s with bark := { b with faultLog := log, faultSeq := b.faultSeq + 1 } }
  if full then s.count Fld.brkLogStatus_fault_lost 1 else s

/-- A graft-section record is never overwritten; when the section is full it goes to the fault ring and graft_full is set
(R471). -/
def State.logGraft (s : State) (r : LogRecord) : State :=
  let b := s.bark
  if b.graftLog.length ≥ graftCapacity then
    (s.logFault r).wrB Fld.brkLogStatus_graft_full true
  else
    { s with bark := { b with graftLog := b.graftLog ++ [{ r with seq := b.graftSeq }], graftSeq := b.graftSeq + 1 } }

/-- A record of the graft section: kind 1 graft, 2 retirement, 3 unit lost, 7 HBM row repair (R471). -/
def State.logUnit (s : State) (kind source stem logical physical : Nat) (detail : DWord := 0) : State :=
  s.logGraft { seq := 0, time := s.leaf barkIsland, source := source, cls := sourceClass source,
               reaction := s.rdN Fld.brkSrcCfg_reaction source, kind := kind, stem := stem, logical := logical,
               physical := physical, detail := detail }

/-- A log record's 32 bytes (R471). -/
def logBytes (r : LogRecord) : List Byte :=
  natToBytes 4 r.seq.toNat ++ natToBytes 8 r.time.toNat ++ natToBytes 1 r.source
    ++ natToBytes 1 (r.cls + 4 * r.reaction + 16 * r.kind) ++ natToBytes 1 r.stem
    ++ natToBytes 1 (match r.part with | some p => p + 128 | none => 0)
    ++ natToBytes 2 r.logical ++ natToBytes 2 r.physical ++ natToBytes 4 r.count ++ natToBytes 8 r.detail.toNat

/-- FAULT_N is driven to a level (R453): true is low. -/
def State.driveFault (s : State) (low : Bool) : State :=
  { s.wrB Fld.brkStatus_fault_n_low low with bark := { s.bark with faultLow := low } }

/-- TWIN_FAULT_N is driven to a level (R445): true is low. -/
def State.driveTwinFault (s : State) (low : Bool) : State :=
  { s with bark := { s.bark with twinFaultLow := low } }

/-- Modes of the device (R453). -/
def modeBoot : Nat := 0
def modeOperational : Nat := 1
def modeSafe : Nat := 2
def modeMaint : Nat := 3

/-- The stage reaches READY (R487): the mode leaves BOOT for OPERATIONAL, or for MAINT in lifecycle MANUFACTURE; a device
that is SAFE stays so (R457). -/
def State.becomeReady (s : State) : State :=
  let s := s.wrN Fld.secBootStatus_stage 7
  if s.mode == modeBoot then
    if s.security.otp.lifecycle == .manufacture then s.wrN Fld.brkStatus_mode modeMaint
    else ((s.wrN Fld.brkStatus_mode modeOperational).driveFault false).driveTwinFault false
  else s

/-- Whether BAR0's set-up registers are served: from stage FIRMWARE on (R489). -/
def State.served (s : State) : Bool :=
  let g := s.stage
  !s.security.perst && (g == 2 || g == 3 || g == 4 || g == 5 || g == 7)

/-- Whether a function takes memory requests: it is enabled and in D0 (R548, R550, R558). -/
def State.answers (s : State) (fn : Nat) : Bool :=
  s.fnOn fn && (match s.fn? fn with | some f => f.dstate == .d0 | none => false)

/-- Whether a function's accesses to the set-up registers are served. -/
def State.takesRegs (s : State) (fn : Nat) : Bool := s.served && s.answers fn

end Sys2Proof.Machine
end

