-- ==== Sys2Proof/Machine/Capability.lean ====
section
/-! DEFINITION. The capability list at BAR0 offset 0x0100 (R569 to R572) with every capability of R571: R70, R121, R138,
R187, R223, R259, R289, R313, R345, R370, R395, R428, R451, R486, R511, R534, R553 and R572. The order after the first
entry is the one the manual's example begins with; the rest is a DESIGN CHOICE, since the device promises none. -/
namespace Sys2Proof.Machine

/-- A capability without its header: ID, version, length in 16-byte units, and fields as (bytes, value). -/
structure CapEntry where
  id : Nat
  units : Nat
  fields : List (Nat × Nat)

/-- The body bytes of a capability after its 16-byte header, padded with reserved zeros. -/
def CapEntry.body (c : CapEntry) : List Byte :=
  slice (c.fields.flatMap (fun f => natToBytes f.1 f.2)) 0 (16 * c.units - 16)

/-- The bytes of a list of capabilities laid out from an offset, each linked to the next (R569, R570). -/
def capLayout : Nat → List CapEntry → List Byte
  | _, [] => []
  | off, c :: r =>
    let next := if r.isEmpty then 0 else off + 16 * c.units
    natToBytes 2 c.id ++ [1, 0] ++ natToBytes 2 c.units ++ [0, 0] ++ natToBytes 4 next ++ natToBytes 4 0 ++ c.body
      ++ capLayout (off + 16 * c.units) r

/-- Installed bytes of an HBM stack (R1). -/
def stackBytes : Config.Variant → Nat
  | .ovm9416 => 0x600000000
  | .ovm9412 => 0x400000000

/-- Sapwood banks of a slice (R1). -/
def sliceBanks : Config.Variant → Nat
  | .ovm9416 => 12
  | .ovm9412 => 8

/-- The capabilities that a function sees (R570, R571). -/
def State.caps (s : State) (fn : Nat) : List CapEntry :=
  let v := s.variant
  let flags := (if s.rdB Fld.pciSetupLock_lock then 1 else 0) + (if s.rdB Fld.pciFnLock_lock 0 fn then 2 else 0)
  [ -- Device Identity (R572)
    ⟨0x0001, 4, [(2, match v with | .ovm9416 => 0x9416 | .ovm9412 => 0x9412),
      (1, match s.revision with | .a0 => 0 | .b0 => 1), (1, 4), (1, 64), (1, 4), (1, sliceBanks v), (1, 0),
      (4, sliceBanks v * 128), (4, sliceBanks v * 128 * 256), (8, stackBytes v), (8, 4 * stackBytes v),
      (8, s.security.otp.serial.toNat), (1, fn), (1, s.rdN Fld.pciFnPart_partition fn), (1, flags), (1, 0), (4, 0x8000)]⟩,
    -- Command Queues (R121)
    ⟨0x0002, 3, [(2, 4096), (2, 4096), (4, 65536), (4, 65536), (2, 256), (2, 250), (2, 16000), (2, 32), (4, 0x20000),
      (2, 16 * fn)]⟩,
    -- Memory Layout (R70)
    ⟨0x0D01, 4, [(2, 4), (1, s.rdN Fld.hbmMapCtrl_map_mode), (1, sliceBanks v), (4, 128), (8, stackBytes v),
      (4, 0x400000), (4, 0x440000), (4, 0x10000)]⟩,
    -- Sweep Ingest (R187)
    ⟨0x0101, 3, [(4, 0x100000), (4, 131072), (2, 8192), (1, 16), (1, 8), (2, 256), (1, 16), (1, 16), (2, 1024), (2, 512),
      (2, 8192), (2, 9216), (4, 67108864)]⟩,
    -- Voxel Hash (R223)
    ⟨0x0201, 3, [(4, 0x140000), (1, 64), (1, 10), (1, 22), (1, 64), (8, 0x9E3779B97F4A7C15), (4, 4000), (4, 1000), (1, 4)]⟩,
    -- Sparse Convolution (R259)
    ⟨0x0301, 3, [(4, 0x180000), (1, 4), (1, 7), (1, 4), (1, 4), (2, 1024), (2, 512), (4, 131072), (4, 1048576), (4, 16384)]⟩,
    -- Tile Arithmetic (R289)
    ⟨0x0401, 3, [(4, 0x1C0000), (1, 32), (1, 14), (2, 512), (2, 0x3FFF), (1, 64), (1, 32), (4, 16384), (2, 1024)]⟩,
    -- Twig (R313)
    ⟨0x0402, 2, [(4, 0x1C4000), (1, 16), (1, 32), (1, 16), (1, 64), (2, 512), (1, 1)]⟩,
    -- Canopy (R345)
    ⟨0x0501, 2, [(4, 0x200000), (2, 256), (2, 4096), (2, 1024), (1, 16), (1, 16), (1, 1), (1, 7)]⟩,
    -- Sort (R370)
    ⟨0x0601, 2, [(4, 0x240000), (1, 20), (1, 1), (2, 4096), (1, 16), (1, 16), (4, 65536)]⟩,
    -- Gather (R395)
    ⟨0x0701, 2, [(4, 0x280000), (2, 256), (1, 16), (1, 2), (2, 4096), (2, 8192), (2, 8192), (1, 20), (1, 40)]⟩,
    -- Wober Fabric (R428)
    ⟨0x0801, 3, [(4, 0x2C0000), (1, 6), (1, 8), (1, 1), (1, 112), (1, 32), (1, 8), (2, 512), (2, 256), (2, 224), (2, 1024),
      (1, 64), (1, 63), (2, 4096)]⟩,
    -- Twin (R451)
    ⟨0x0901, 2, [(4, 0x300000), (2, 512), (1, 64), (1, 8), (2, 10560)]⟩,
    -- Safety (R486)
    ⟨0x0A01, 3, [(4, 0x340000), (1, 64), (1, 11), (1, 64), (1, 4), (2, 359), (2, 20), (4, 32768), (4, 229376), (1, 8), (1, 64)]⟩,
    -- Security (R511)
    ⟨0x0B01, 3, [(4, 0x380000), (4, 0x381000), (1, 4), (1, 16), (1, 128), (1, 8), (2, 2592), (2, 4627), (2, 7315), (2, 5755)]⟩,
    -- Time Reference (R138)
    ⟨0x0C01, 2, [(4, 0x80000), (1, 16), (1, 1), (1, 2), (1, 7)]⟩,
    -- Observability (R534)
    ⟨0x0E01, 2, [(4, 0x3C0000), (2, 4096), (1, 64), (1, 16), (1, 32), (1, 2), (2, 4), (2, 256)]⟩,
    -- Power (R553)
    ⟨0x0F01, 2, [(4, 0x480000), (2, 120), (2, 480), (2, 100), (1, 25), (1, 105), (2, 1400), (2, 1000)]⟩ ]

/-- The bytes of the capability list of a function, from BAR0 offset 0x0100. -/
def State.capBytes (s : State) (fn : Nat) : List Byte := capLayout 0x100 (s.caps fn)

end Sys2Proof.Machine
end

