-- ==== Sys2Proof/Machine/Banks.lean ====
section
/-! DEFINITION. Sapwood bank power (R57 to R60), scrubs and hand-overs (R65 to R68), HBM repair and retirement (R46 to
R52) and their commands (02_memory_and_addresses.md). -/
namespace Sys2Proof.Machine

/-- Bank states (R59). -/
def bankOff : Nat := 0
def bankStarting : Nat := 1
def bankOn : Nat := 2
def bankDraining : Nat := 3

/-- Whether a Stem is ON (R545). -/
def State.stemOn (s : State) (stem : Nat) : Bool := s.rdN Fld.pwrStemStatus_state stem == 2

/-- Whether a stack answers accesses: on a Stem that is OFF it is in self-refresh, which ends as the Stem reaches ON (R546, R547). -/
def State.stackAwake (s : State) (n : Nat) : Bool :=
  let st := s.rdN Fld.pwrStemStatus_state n
  st == 2 || st == 3

/-- Where SAP_TILE_PWR_REQ and SAP_TILE_PWR_STATE of a tile stand. -/
def tileIdx (stem tile : Nat) : Nat := stem * 64 + tile

/-- A bank's state (R59). -/
def State.bankState (s : State) (b : BankId) : Nat :=
  getBits (s.rdN Fld.sapTilePwrState_bank_state (tileIdx b.stem b.tile)) (2 * b.bank) 2

/-- Whether a power-up is pending for a DRAINING bank (R60). -/
def State.bankReenable (s : State) (b : BankId) : Bool :=
  (s.rdN Fld.sapTilePwrState_reenable_pending (tileIdx b.stem b.tile)).testBit b.bank

/-- A bank enters a state. -/
def State.setBank (s : State) (b : BankId) (st : Nat) : State :=
  let i := tileIdx b.stem b.tile
  s.wrN Fld.sapTilePwrState_bank_state (putBits (s.rdN Fld.sapTilePwrState_bank_state i) (2 * b.bank) 2 st) i

/-- A bank's reenable_pending bit. -/
def State.setReenable (s : State) (b : BankId) (v : Bool) : State :=
  let i := tileIdx b.stem b.tile
  s.wrN Fld.sapTilePwrState_reenable_pending (putBit (s.rdN Fld.sapTilePwrState_reenable_pending i) b.bank v) i

/-- The window address of a slice (R43). -/
def sliceBase (stem tile : Nat) : Nat := 0x100000000000 + stem * 0x100000000 + tile * 0x1000000

/-- The window address of a bank (R43). -/
def bankBase (b : BankId) : Nat := sliceBase b.stem b.tile + b.bank * 0x20000

/-- A range of Sapwood reads zero with valid check bits. -/
def State.zeroSap (s : State) (lo hi : Nat) : State :=
  { s with sap := memClear s.sap lo hi
           mem := { s.mem with errs := s.mem.errs.filter (fun e => e.1 < lo || hi ≤ e.1) } }

/-- A range of HBM reads zero with valid check bits. -/
def State.zeroHbm (s : State) (lo hi : Nat) : State :=
  { s with hbm := memClear s.hbm lo hi
           mem := { s.mem with errs := s.mem.errs.filter (fun e => e.1 < lo || hi ≤ e.1) } }

/-- The stack of an HBM local address and the address within it (R45): none beyond the installed range. -/
def State.hbmPlace (s : State) (a : Nat) : Option (Nat × Nat) :=
  let sz := stackBytes s.variant
  if a ≥ 4 * sz then none
  else if s.rdB Fld.hbmMapCtrl_map_mode then some ((a >>> 12) % 4, ((a >>> 14) <<< 12) + a % 4096)
  else some (a / sz, a % sz)

/-- What a range of local addresses holds of one stack reads zero with valid check bits. -/
def State.zeroStack (s : State) (stack lo hi : Nat) : State :=
  let inside (a : Nat) : Bool := decide (lo ≤ a) && decide (a < hi) && (s.hbmPlace a).map (·.1) == some stack
  { s with hbm := s.hbm.filter (fun c => !inside c.1)
           mem := { s.mem with errs := s.mem.errs.filter (fun e => !inside e.1) } }

/-- A bank's final target: the pending target where one is set, else that of its state (R60): true is on. -/
def State.bankTarget (s : State) (b : BankId) : Bool :=
  let st := s.bankState b
  if st == bankStarting then !s.mem.downPending.contains b
  else if st == bankDraining then s.bankReenable b
  else st == bankOn

/-- A power request for a bank (R59, R60). A retired bank stays down for good (R57). -/
def State.bankRequest (s : State) (b : BankId) (on : Bool) : State :=
  if s.mem.retired.contains b ∨ b.bank ≥ sliceBanks s.variant ∨ s.bankTarget b = on then s
  else
    let st := s.bankState b
    if st == bankOff then s.setBank b bankStarting
    else if st == bankStarting then
      if on then { s with mem := { s.mem with downPending := s.mem.downPending.erase b } }
      else { s with mem := { s.mem with downPending := s.mem.downPending ++ [b] } }
    else if st == bankOn then s.setBank b bankDraining
    else s.setReenable b on

/-- The banks that a BANK_POWER command names (R117). -/
def Cmd.bankList (c : Cmd) : List BankId :=
  (bitList 12 (c.f 0 18 0 12)).map (fun i => ⟨c.f 0 16 0 2, c.f 0 17 0 6, i⟩)

/-- BANK_POWER commands end when every named bank has reached the state asked for, or has had that target replaced
(R117). -/
def State.settleBanks (s : State) : State :=
  let ready (c : Cmd) := c.phase == .running && c.started && c.engineClass == 0 && c.opcode == 0x09 &&
    c.bankList.all (fun b =>
      let on := c.b 20 1 == 1
      s.bankState b == (if on then bankOn else bankOff) || s.bankTarget b != on)
  { s with queues := { s.queues with
      cmds := updWhere s.queues.cmds ready (fun c => { c with phase := .finished, status := stSuccess }) } }

/-- SAP_TILE_PWR_REQ is written before the lock: each bank whose bit is given is requested on or off (R59, R69). -/
def State.powerReqWritten (s : State) (stem tile v : Nat) : State :=
  let n := sliceBanks s.variant
  let s := s.wrN Fld.sapTilePwrReq_bank_on (v % 2 ^ n) (tileIdx stem tile)
  ((List.range n).foldl (fun s i => s.bankRequest ⟨stem, tile, i⟩ (v.testBit i)) s).settleBanks

/-- SAP_TILE_PWR_REQ_WRITE: a write of the register before the set-up lock; after it the field is read-only (R12, R59). -/
def execSapTilePwrReqWrite (stem tile : Nat) (value : Word) (s : State) : Host.Outcome State Fault Refusal :=
  answer s (isStem stem && isTile tile)
    (if s.locked || !s.takesRegs 0 then s else s.powerReqWritten stem tile value.toNat)

/-- BANK_POWER_UP_DONE: a STARTING bank is zero and ON; a pending power-down takes effect (R58, R60). -/
def execBankPowerUpDone (stem tile bank : Nat) (s : State) : Host.Outcome State Fault Refusal :=
  let b : BankId := ⟨stem, tile, bank⟩
  answer s (isStem stem && isTile tile && isBank bank) (
    if s.bankState b != bankStarting then s
    else
      let s := (s.zeroSap (bankBase b) (bankBase b + 0x20000)).setBank b bankOn
      let s := if s.mem.downPending.contains b then
          { s.setBank b bankDraining with mem := { s.mem with downPending := s.mem.downPending.erase b } }
        else s
      s.settleBanks)

/-- BANK_DRAIN_DONE: a DRAINING bank is OFF, its contents lost; with reenable_pending it passes to STARTING (R58 to
R60). -/
def execBankDrainDone (stem tile bank : Nat) (s : State) : Host.Outcome State Fault Refusal :=
  let b : BankId := ⟨stem, tile, bank⟩
  answer s (isStem stem && isTile tile && isBank bank) (
    if s.bankState b != bankDraining then s
    else
      let s := s.zeroSap (bankBase b) (bankBase b + 0x20000)
      let s := if s.bankReenable b then (s.setReenable b false).setBank b bankStarting else s.setBank b bankOff
      s.settleBanks)

/-- BANK_RETIRE: with no spare position left, Bark retires the bank in place; it behaves as powered down for good, and
source 0x0F is reported (R57, R456, R471). DESIGN CHOICE: retired_banks stays at 255 once more banks of the Stem have been retired. -/
def execBankRetire (stem tile bank : Nat) (s : State) : Host.Outcome State Fault Refusal :=
  let b : BankId := ⟨stem, tile, bank⟩
  answer s (isStem stem && isTile tile && isBank bank) (
    if s.mem.retired.contains b ∨ s.rdN Fld.sapStemStatus_spare_positions stem ≠ 0 ∨ bank ≥ sliceBanks s.variant then s
    else
      let s := ((s.setReenable b false).setBank b bankOff).zeroSap (bankBase b) (bankBase b + 0x20000)
      let s := { s with mem := { s.mem with retired := s.mem.retired ++ [b], downPending := s.mem.downPending.erase b } }
      let s := s.countSat Fld.sapStemStatus_retired_banks 1 stem
      let d := BitVec.ofNat 64 (bankBase b)
      let s := s.logUnit 2 0x0F stem (tile * 16 + bank) (tile * 16 + bank) d
      (s.report { source := 0x0F, stem := stem, logical := tile * 16 + bank, physical := tile * 16 + bank, detail := d }).settleBanks)

/-! Scrubs and hand-overs. -/

/-- Firewall window bounds (R475). -/
def State.winBase (s : State) (i : Nat) : Nat := s.rdN Fld.brkFwBase_base i * 4096
def State.winLimit (s : State) (i : Nat) : Nat := s.rdN Fld.brkFwLimit_limit i * 4096

/-- The partition that a window gives its range to: none where it admits every partition. -/
def State.winPart (s : State) (i : Nat) : Option Nat :=
  if s.rdB Fld.brkFwCtl_any_partition i then none else some (s.rdN Fld.brkFwCtl_partition i)

/-- Whether a window waits for the zeroing of what it hands over: until then it gives nothing (R66, R67). -/
def State.winHeld (s : State) (i : Nat) : Bool := s.mem.handOvers.any (fun h => h.windows.contains i)

/-- The Stem that a zeroing runs on: none for HBM. -/
def Region.stem? : Region → Option Nat
  | .bank b => some b.stem
  | .burl st _ _ => some st
  | .hbm _ _ _ => none

/-- SAP_SCRUB_STATUS.scrub_active follows the scrubs that run (R69). -/
def State.noteScrubs (s : State) : State :=
  s.wrN Fld.sapScrubStatus_scrub_active
    ((List.range 4).foldl (fun m j => putBit m j (s.mem.handOvers.any (fun h => h.region.stem? == some j))) 0)

/-- The firewall target and the address range of a region. -/
def Region.range : Region → Nat × Nat × Nat
  | .bank b => (4 + b.stem, bankBase b, bankBase b + 0x20000)
  | .burl st lo hi => (4 + st, lo, hi)
  | .hbm st lo hi => (st, lo, hi)

/-- Whether a region holds all of another. -/
def Region.holds (r q : Region) : Bool :=
  r.range.1 == q.range.1 && decide (r.range.2.1 ≤ q.range.2.1) && decide (q.range.2.2 ≤ r.range.2.2)

/-- The bank that a piece of Sapwood lies in: none for HBM. -/
def Region.bank? : Region → Option BankId
  | .bank b => some b
  | .burl st lo _ => some ⟨st, getBits lo 24 6, getBits lo 0 24 / 0x20000⟩
  | .hbm _ _ _ => none

/-- The banks of a Stem, and the parts of banks, that a range of its window addresses covers. -/
def sapPieces (stem lo hi : Nat) : List Region :=
  (List.range 64).flatMap (fun t => (List.range 12).filterMap (fun k =>
    let b : BankId := ⟨stem, t, k⟩
    let x := bankBase b
    let l := max lo x
    let h := min hi (x + 0x20000)
    if h ≤ l then none else if l = x ∧ h = x + 0x20000 then some (.bank b) else some (.burl stem l h)))

/-- The zeroing of a range of HBM, a bank or a part of a bank starts. A bank that is not ON needs none, and where one is running that
covers the region it runs once (R68): one that is covered is part of the new one. -/
def State.startZeroing (s : State) (toPart : Option Nat) (windows : List Nat) (r : Region) : State :=
  let needed := match r.bank? with | some b => s.bankState b == bankOn && !s.mem.retired.contains b | none => true
  let hs := s.mem.handOvers
  if !needed then s
  else if hs.any (fun h => h.region.holds r) then
    { s with mem := { s.mem with handOvers := updWhere hs (fun (h : HandOver) => h.region.holds r) (fun h => { h with
        toPart := toPart.or h.toPart, windows := h.windows ++ windows }) } }
  else
    let part := hs.filter (fun (h : HandOver) => r.holds h.region)
    let new : HandOver := { region := r, toPart := toPart.or (part.findSome? (·.toPart)), windows := windows ++ part.flatMap (·.windows) }
    ({ s with mem := { s.mem with handOvers := hs.filter (fun h => !r.holds (HandOver.region h)) ++ [new] } }).noteScrubs

/-- The zeroing of a region starts, bank by bank (R65, R68). -/
def State.startScrub (s : State) (r : Region) (toPart : Option Nat) (windows : List Nat := []) : State :=
  (match r with | .burl st lo hi => sapPieces st lo hi | r => [r]).foldl (fun s r => s.startZeroing toPart windows r) s

/-- What was given, without a range of a target. -/
def cutGiven (l : List Given) (t lo hi : Nat) : List Given :=
  l.flatMap (fun g =>
    if g.target ≠ t ∨ g.hi ≤ lo ∨ hi ≤ g.lo then [g]
    else (if g.lo < lo then [{ g with hi := lo }] else []) ++ (if hi < g.hi then [{ g with lo := hi }] else []))

/-- What of a range of a target was last given to others. -/
def othersOf (l : List Given) (t lo hi : Nat) (part : Option Nat) : List (Nat × Nat) :=
  (l.filter (fun g => g.target == t && g.part != part && decide (g.lo < hi) && decide (lo < g.hi))).map
    (fun g => (max g.lo lo, min g.hi hi))

/-- A window takes effect: its range is given to its partition. -/
def State.giveWindow (s : State) (i : Nat) : State :=
  let t := i / 64
  if t ≥ 8 ∨ s.rdB Fld.brkFwCtl_enable i = false ∨ s.winLimit i ≤ s.winBase i then s
  else { s with mem := { s.mem with
    given := cutGiven s.mem.given t (s.winBase i) (s.winLimit i) ++ [⟨t, s.winBase i, s.winLimit i, s.winPart i⟩] } }

/-- A window of HBM or Sapwood has changed. What it hands over from another partition reads zero before it takes effect; until then it
gives nothing to anybody (R66, R67). -/
def State.winChanged (s : State) (i : Nat) : State :=
  let s := { s with mem := { s.mem with
    handOvers := updWhere s.mem.handOvers (fun h => h.windows.contains i) (fun h => { h with windows := h.windows.filter (fun j => j != i) }) } }
  let t := i / 64
  if t ≥ 8 ∨ s.rdB Fld.brkFwCtl_enable i = false ∨ s.winLimit i ≤ s.winBase i then s
  else
    let others := othersOf s.mem.given t (s.winBase i) (s.winLimit i) (s.winPart i)
    let s := others.foldl (fun s r =>
      s.startScrub (if t < 4 then .hbm t r.1 r.2 else .burl (t - 4) r.1 r.2) (s.winPart i) [i]) s
    if s.winHeld i then s else s.giveWindow i

/-- A zeroing ends: the region reads zero, and the windows that waited for nothing else take effect (R66, R67). -/
def State.endHandOver (s : State) (h : HandOver) : State :=
  let (_, lo, hi) := h.region.range
  let s := { s with mem := { s.mem with handOvers := s.mem.handOvers.erase h } }
  let s := match h.region with
    | .hbm st _ _ => s.zeroStack st lo hi
    | r => if r.bank?.any (fun b => s.bankState b == bankOn) then s.zeroSap lo hi else s
  h.windows.foldl (fun s i => if s.winHeld i then s else s.giveWindow i) s.noteScrubs

/-- SAPWOOD_SCRUB_DONE: the zeroing at a place of the list of zeroings ends, where it is one of Sapwood (R66). -/
def execSapwoodScrubDone (index : Nat) (s : State) : Host.Outcome State Fault Refusal :=
  answer s true (match s.mem.handOvers[index]? with
    | some h => if h.region.stem?.isSome then s.endHandOver h else s
    | none => s)

/-- HBM_ZERO_DONE: the zeroing at a place of the list of zeroings ends, where it is one of HBM (R67). -/
def execHbmZeroDone (index : Nat) (s : State) : Host.Outcome State Fault Refusal :=
  answer s true (match s.mem.handOvers[index]? with
    | some h => if h.region.stem?.isNone then s.endHandOver h else s
    | none => s)

/-! HBM: the map, errors, repair and retirement. -/

/-- The usable top of a stack (R52). -/
def State.stackTop (s : State) (n : Nat) : Nat := s.rdN Fld.hbmStackStatus_usable_slices n * (stackBytes s.variant / 32)

/-- Whether an HBM local address is usable (R51, R52, R546). -/
def State.hbmUsable (s : State) (a : Nat) : Bool :=
  match s.hbmPlace a with
  | none => false
  | some (st, w) =>
    s.stackAwake st &&
    if s.rdB Fld.hbmMapCtrl_map_mode then
      decide (a < 4 * (min (min (s.stackTop 0) (s.stackTop 1)) (min (s.stackTop 2) (s.stackTop 3))))
    else decide (w < s.stackTop st)

/-- An aligned 8-byte word's error, if it has one. -/
def State.errAt (s : State) (w : Nat) : Option EccKind := (s.mem.errs.find? (fun e => e.1 == w)).map (·.2)

/-- A corrected HBM error: the corrected word is written back (R47). -/
def State.hbmCorrected (s : State) (w st : Nat) : State :=
  let s := { s with mem := { s.mem with errs := s.mem.errs.filter (fun e => e.1 != w) } }
  (s.count Fld.hbmStackEccCe_ce_count 1 st).report { source := 0x08, stem := st, logical := st, detail := BitVec.ofNat 64 w }

/-- An uncorrectable HBM error is counted, its address kept, and the given source reported (R47). -/
def State.hbmUncorrectable (s : State) (w st source : Nat) (part : Option Nat) : State :=
  let s := (s.count Fld.hbmStackEccUe_ue_count 1 st).wrN Fld.hbmStackErrAddr_ue_addr w st
  s.report { source := source, stem := st, part := part, logical := st, detail := BitVec.ofNat 64 w }

/-- A word has an error. -/
def State.setErr (s : State) (w : Nat) (k : EccKind) : State :=
  { s with mem := { s.mem with errs := (w, k) :: s.mem.errs.filter (fun e => e.1 != w) } }

/-- PATROL_SCRUB: patrol reads the word at an address of HBM; `found` is an error that the read meets beyond those the state
holds (R47, R48). DESIGN CHOICE: at an address of Sapwood, which patrol does not read, `found` is an error that the word has from then
on, and nothing is read or counted (R53). -/
def execPatrolScrub (addr : Nat) (found : Option EccKind) (s : State) : Host.Outcome State Fault Refusal :=
  answer s true (
    let w := addr / 8 * 8
    match s.hbmPlace w with
    | none => if 0x100000000000 ≤ w ∧ w < 0x200000000000 then (match found with | some k => s.setErr w k | none => s) else s
    | some (st, _) =>
      if !s.rdB Fld.hbmPatrolCtrl_enable then s
      else
        let s := match found with | some k => s.setErr w k | none => s
        match s.errAt w with
        | some .corrected => s.hbmCorrected w st
        | some .uncorrectable => s.hbmUncorrectable w st 0x0A none
        | none => s)

/-- Step 1 of a retirement: retire_pending and pending_pc are set and usable_slices falls by one (R51). -/
def State.startRetire (s : State) (stack pc : Nat) : State :=
  ((s.wrB Fld.hbmStackStatus_retire_pending true stack).wrN Fld.hbmStackStatus_pending_pc pc stack).wrN
    Fld.hbmStackStatus_usable_slices (s.rdN Fld.hbmStackStatus_usable_slices stack - 1) stack

/-- A need to retire a pseudo-channel (R50): the same need is not counted again, beyond four in a stack source 0x0C is
reported, and one that meets a pending retirement is queued. -/
def State.needRetire (s : State) (stack pc : Nat) : State :=
  let retired := s.rdN Fld.hbmStackStatus_retired_pc_mask stack
  let pend := s.rdB Fld.hbmStackStatus_retire_pending stack
  let queued := s.mem.retireQueue.filter (fun q => q.1 == stack)
  let known := retired.testBit pc || (pend && s.rdN Fld.hbmStackStatus_pending_pc stack == pc) || queued.contains (stack, pc)
  if known then s
  else if popCount 32 retired + (if pend then 1 else 0) + queued.length ≥ 4 then
    s.report { source := 0x0C, stem := stack, logical := pc, physical := pc }
  else if pend then { s with mem := { s.mem with retireQueue := s.mem.retireQueue ++ [(stack, pc)] } }
  else s.startRetire stack pc

/-- Software says that the pending slice is vacated: migration starts; without a pending retirement the write is ignored
(R51, R69). -/
def State.vacated (s : State) (stack : Nat) : State :=
  if s.rdB Fld.hbmStackStatus_retire_pending stack && !s.mem.migrating.contains stack then
    { s with mem := { s.mem with migrating := s.mem.migrating ++ [stack] } }
  else s

/-- VACATED_ACK (R51). -/
def execVacatedAck (stack : Nat) (s : State) : Host.Outcome State Fault Refusal :=
  answer s (isStem stack) (if s.takesRegs 0 then s.vacated stack else s)

/-- A repair has finished: the reports that started it are handled (R594). -/
def State.handled (s : State) (isRow : Bool) (stack num : Nat) : State :=
  { s with bark := { s.bark with
      handling := s.bark.handling.filter (fun h => !(h.isRow == isRow && h.stack == stack && h.num == num)) } }

/-- RETIRE_MIGRATION_DONE: the pseudo-channel is retired, Bark hears of it, and a queued retirement of the stack starts
(R50, R51, R469, R471). -/
def execRetireMigrationDone (stack : Nat) (s : State) : Host.Outcome State Fault Refusal :=
  answer s (isStem stack) (
    if !s.mem.migrating.contains stack then s
    else
      let pc := s.rdN Fld.hbmStackStatus_pending_pc stack
      let s := { s with mem := { s.mem with migrating := s.mem.migrating.erase stack } }
      let s := s.handled false stack pc
      let s := s.wrN Fld.hbmStackStatus_retired_pc_mask
        (setBit (s.rdN Fld.hbmStackStatus_retired_pc_mask stack) pc) stack
      let s := s.wrB Fld.hbmStackStatus_retire_pending false stack
      let s := s.logUnit 2 0x0B stack pc pc
      let s := s.report { source := 0x0B, stem := stack, logical := pc, physical := pc }
      match s.mem.retireQueue.find? (fun q => q.1 == stack) with
      | some q => ({ s with mem := { s.mem with retireQueue := s.mem.retireQueue.erase q } }).startRetire stack q.2
      | none => s)

/-- What the detail of a row repair holds: the stack in bits 63:32 and the row in bits 31:0. -/
def rowDetail (stack row : Nat) : DWord := BitVec.ofNat 64 (stack * 4294967296 + row)

/-- SOFT_PPR_COMPLETE: the row's contents are back and accesses resume; a record of kind 7 is written (R49). -/
def execSoftPprComplete (stack row : Nat) (s : State) : Host.Outcome State Fault Refusal :=
  answer s (isStem stack) (
    if !s.mem.softPpr.contains (stack, row) then s
    else
      let s := ({ s with mem := { s.mem with softPpr := s.mem.softPpr.erase (stack, row) } }).handled true stack row
      let s := s.countSat Fld.hbmStackStatus_soft_ppr_count 1 stack
      let s := s.logUnit 7 0x0B stack stack row (rowDetail stack row)
      s.report { source := 0x0B, stem := stack, logical := stack, detail := rowDetail stack row })

end Sys2Proof.Machine
end

