-- ==== Sys2Proof/Machine/TimeUnit.lean ====
section
/-! DEFINITION. The time unit and the PTP messages of the sensor ports (04_time_reference.md). -/
namespace Sys2Proof.Machine

/-- States of the time unit (R125). -/
def tsFreerun : Nat := 0
def tsLocking : Nat := 1
def tsLocked : Nat := 2
def tsHoldover : Nat := 3
def tsFollower : Nat := 4

/-- The state of the time unit as TIM_STATUS reports it. -/
def State.timeState (s : State) : Nat := s.rdN Fld.timStatus_state

/-- Whether the chip has a link of role 2 (R403, R430). -/
def State.hasTwinLink (s : State) : Bool := (List.range 6).any (fun l => s.rdN Fld.wblLinkCfg_role l == 2)

/-- The effective time role: 0 standalone, 1 root, 2 follower. On a chip with a twin link the twin unit sets it: the lead
and a SOLO chip are root, the shadow is follower (R134, R430). -/
def State.timeRole (s : State) : Nat :=
  if s.hasTwinLink then s.rdN Fld.twnStatus_role else s.rdN Fld.timCtrl_fabric_role

/-- The time unit enters a state with a clock class; LOCKED clears holdover_expired (R125, R137). In FREERUN no phase error is left to
remove: there is no source to be off from. -/
def State.enterTime (s : State) (st cls : Nat) : State :=
  let s := (s.wrN Fld.timStatus_state st).wrN Fld.timStatus_clock_class cls
  let s := if st == tsLocked then s.wrB Fld.timStatus_holdover_expired false else s
  { s with time := { s.time with goodEdges := 0, badEdges := 0,
                                 reachedLocked := s.time.reachedLocked || st == tsLocked
                                 holdoverAt := if st == tsHoldover then s.time.uptime else s.time.holdoverAt
                                 phaseErr := if st == tsFreerun then 0 else s.time.phaseErr } }

/-- The state that source_sel and the inputs call for on a chip that is no follower (R125). DESIGN CHOICE: the reserved values 2 and 3 of
source_sel act as 0. -/
def State.sourceTime (s : State) : State :=
  s.enterTime (if s.rdN Fld.timCtrl_source_sel == 1 && s.time.inputsPresent then tsLocking else tsFreerun) 248

/-- The effective role was another one before (R125, R134, R135): a chip that becomes a follower enters FOLLOWER; one that ceases to be one
takes its source up again, unless its upstream path is lost, for then its HOLDOVER goes on. DESIGN CHOICE: the reserved role 3 acts as no
follower. -/
def State.roleChanged (s : State) (old : Nat) : State :=
  if s.timeRole == 2 then
    if old == 2 then s else s.enterTime tsFollower (s.rdN Fld.timStatus_clock_class)
  else if old == 2 && s.timeState == tsFollower then s.sourceTime
  else s

/-- What a write of TIM_CTRL does beyond its fields: a change of source_sel or of the effective role moves the unit (R125, R134). -/
def State.timCtrlWritten (s : State) (oldSel oldRole : Nat) : State :=
  let sel := s.rdN Fld.timCtrl_source_sel
  if sel != oldSel && s.timeRole != 2 then ({ s with time := { s.time with reachedLocked := false } }).sourceTime
  else s.roleChanged oldRole

/-- An applied time of day before the ports are up: the count becomes next_sec seconds; a running count that disagrees is stepped (R126). No
phase error is left, and a PPS output that is high stays high as long as it would have. -/
def State.stepTime (s : State) (sec : Nat) : State :=
  let now := BitVec.ofNat 64 (sec * 1000000000)
  let by_ := now - s.now
  { s with time := { s.time with
      now := now, epoch := s.time.epoch + 1, nextSecPending := false, phaseErr := 0, slewAcc := 0
      ppsRise0 := s.time.ppsRise0 + by_, ppsRise1 := s.time.ppsRise1 + by_ } }

/-- The whole second of the count that is nearest to now. -/
def State.nearestSec (s : State) : Nat := (s.now.toNat + 500000000) / 1000000000

/-- A waiting TIM_NEXT_SEC write meets its edge or boundary (R126). -/
def State.applyNextSec (s : State) : State :=
  if s.time.nextSecPending then
    let sec := s.rdN Fld.timNextSec_next_sec
    if !s.time.portsUp then s.stepTime sec
    else
      let s := { s with time := { s.time with nextSecPending := false } }
      if s.nearestSec == sec then s else s.wrB Fld.timStatus_tod_conflict true
  else s

/-- A write of TIM_NEXT_SEC (R126): after the ports are up, a second that disagrees with the running count is ignored. -/
def State.nextSecWritten (s : State) (sec : Nat) : State :=
  if s.time.portsUp then
    if sec == s.now.toNat / 1000000000 + 1 then s.wrN Fld.timNextSec_next_sec sec
    else s.wrB Fld.timStatus_tod_conflict true
  else
    { s.wrN Fld.timNextSec_next_sec sec with time := { s.time with nextSecPending := true } }

/-- The clock class of a hold-over: the given one, until holdover_expired (R125, R135). -/
def State.holdClass (s : State) (cls : Nat) : Nat := if s.rdB Fld.timStatus_holdover_expired then 248 else cls

/-- PPS_IN or the 10 MHz input has been missing for 2 s (R125). DESIGN CHOICE: in LOCKING after LOCKED was reached the unit enters
HOLDOVER. -/
def State.inputsLost (s : State) : State :=
  let s := { s with time := { s.time with inputsPresent := false, goodEdges := 0, badEdges := 0 } }
  if s.timeRole == 2 then s
  else if s.timeState == tsLocked then s.enterTime tsHoldover 7
  else if s.timeState == tsLocking then
    if s.time.reachedLocked then s.enterTime tsHoldover (s.holdClass 7) else s.enterTime tsFreerun 248
  else s

/-- TIM_PHASE_ERR holds a phase error, saturating at ±(2^31 − 1) (R127). -/
def satPhase (e : Int) : Int := max (-2147483647) (min 2147483647 e)

/-- A PPS_IN edge more than 1 µs from its place is rejected and counted; the third one running is a missing PPS_IN (R125). DESIGN CHOICE: the
2 s of its absence are not waited for again. -/
def State.rejectEdge (s : State) : State :=
  let s := s.count Fld.timPpsInStat_rejected 1
  let bad := s.time.badEdges + 1
  let s := { s with time := { s.time with badEdges := bad, goodEdges := 0 } }
  if bad ≥ 3 then s.inputsLost else s

/-- A PPS_IN edge that is not rejected, and the phase error that it shows. A unit that the inputs discipline takes the error up to remove
it, and is LOCKED after 16 edges running within 20 ns (R125, R127). -/
def State.takeEdge (s : State) (err : Int) : State :=
  let s := { s with time := { s.time with badEdges := 0 } }
  if s.timeState != tsLocking && s.timeState != tsLocked then s
  else
    let s := { s with time := { s.time with phaseErr := satPhase err } }
    if s.timeState == tsLocked then s
    else
      let good := if err < 20 ∧ err > -20 then s.time.goodEdges + 1 else 0
      if good ≥ 16 then s.enterTime tsLocked 6
      else { s with time := { s.time with goodEdges := good } }

/-- PPS_IN_EDGE: the edge lies `err` ns after its expected place in the count (R125 to R127). A time of day that waits is applied at it, but
in FREERUN, where a boundary of the count applies it (R126): before the ports are up the count is set, so that the edge is at its place. -/
def execPpsInEdge (err : Int) (s : State) : Host.Outcome State Fault Refusal :=
  answer s true (
    if s.timeRole == 2 then s
    else if s.time.nextSecPending && s.timeState != tsFreerun && !s.time.portsUp then s.applyNextSec.takeEdge 0
    else if err > 1000 ∨ err < -1000 then s.rejectEdge
    else (if s.timeState == tsFreerun then s else s.applyNextSec).takeEdge err)

/-- TIME_INPUT_LOSS (R125). -/
def execTimeInputLoss (s : State) : Host.Outcome State Fault Refusal := answer s true s.inputsLost

/-- HOLDOVER_EXPIRED: holdover_max_s has passed in HOLDOVER (R125); Bark hears source 0x1D (R456). Nothing before that. -/
def execHoldoverExpired (s : State) : Host.Outcome State Fault Refusal :=
  answer s true (
    if s.timeState == tsHoldover && !s.rdB Fld.timStatus_holdover_expired
        && s.passed s.time.holdoverAt (1000000000 * s.rdN Fld.timCtrl_holdover_max_s) then
      ((s.wrB Fld.timStatus_holdover_expired true).wrN Fld.timStatus_clock_class 248).report { source := 0x1D }
    else s)

/-- TIME_INPUTS_RETURN: both inputs are present again (R125). A follower ignores them (R134). -/
def execTimeInputsReturn (s : State) : Host.Outcome State Fault Refusal :=
  answer s true (
    let s := { s with time := { s.time with inputsPresent := true, badEdges := 0 } }
    if s.timeRole == 2 then s
    else if s.rdN Fld.timCtrl_source_sel == 1 ∧ (s.timeState == tsHoldover ∨ s.timeState == tsFreerun) then
      s.enterTime tsLocking 248
    else s)

/-- TOD_CONFLICT_CLEAR: a write of 1 clears the flag (R12, R137). -/
def execTodConflictClear (s : State) : Host.Outcome State Fault Refusal :=
  answer s true (s.wrB Fld.timStatus_tod_conflict false)

/-- TIM_NOW_LOW_READ: the low half is read and the high half latched for the next read of it (R137). The completion goes
to the reader. -/
def execTimNowLowRead (s : State) : Host.Outcome State Fault Refusal :=
  answer s true (
    let s := { s with time := { s.time with latchedHigh := some (BitVec.ofNat 32 (s.now.toNat / 4294967296)) } }
    s.emit (.completion 0 0 (natToBytes 4 s.now.toNat)))

/-- Within 5 ns of a whole second (R131). -/
def atWholeSecond (t : Nat) : Bool := decide (t % 1000000000 ≤ 5) || decide (999999995 ≤ t % 1000000000)

/-- PPS_OUT_EDGE: a whole second of time-tree time at output `out`. In FREERUN a waiting time of day is applied at this
boundary (R126, R131); one second gives one edge. -/
def execPpsOutEdge (out : Nat) (s : State) : Host.Outcome State Fault Refusal :=
  answer s (isPpsOut out) (
    if !atWholeSecond s.now.toNat then s
    else
      let s := if s.timeState == tsFreerun then s.applyNextSec else s
      let sec := s.nearestSec
      let last := if out == 0 then s.time.lastEdge0 else s.time.lastEdge1
      if s.rdB Fld.timPpsOut_enable out ∧ last ≠ some sec then
        if out == 0 then { s with time := { s.time with ppsOut0 := true, lastEdge0 := some sec, ppsRise0 := s.now } }
        else { s with time := { s.time with ppsOut1 := true, lastEdge1 := some sec, ppsRise1 := s.now } }
      else s)

/-- How long a PPS output stays high, in ns: a width of 0, or of 1,000,000 µs or more, is treated as 100 (R131). -/
def State.ppsWidth (s : State) (out : Nat) : Nat :=
  let w := s.rdN Fld.timPpsOut_width_us out
  1000 * (if w = 0 ∨ 1000000 ≤ w then 100 else w)

/-- PPS_OUT_FALL: width_us after the rising edge (R131); nothing before that. -/
def execPpsOutFall (out : Nat) (s : State) : Host.Outcome State Fault Refusal :=
  answer s (isPpsOut out) (
    if (s.now - (if out == 0 then s.time.ppsRise0 else s.time.ppsRise1)).toNat < s.ppsWidth out then s
    else if out == 0 then { s with time := { s.time with ppsOut0 := false } }
    else { s with time := { s.time with ppsOut1 := false } })

/-- A port acts as grandmaster: PTP is on, its profile is supported, and its link is up (R27, R128). -/
def State.ptpOn (s : State) (p : Nat) : Bool :=
  s.rdB Fld.timPortCfg_enable p && s.rdN Fld.timPortCfg_profile p != 3 && s.rdB Fld.siuPortCfg_link_up p

/-- The priority2 that the chip announces (R136, R430): 2 on a chip that was last shadow, else 1. -/
def State.priority2 (s : State) : Nat := if s.twin.wasShadow then 2 else 1

/-- A PTP message leaves on a port, in the profile of the port and its transport (R128): UDP over IPv4 in profile 0, layer 2 with Ethertype
0x88F7 in profiles 1 and 2. -/
def State.sendPtp (s : State) (port kind : Nat) (time : DWord) (info : List Nat := []) : State :=
  let profile := s.rdN Fld.timPortCfg_profile port
  s.emit (.ptp port profile (profile != 0) kind time info)

/-- When a message that a port sends now leaves it: the stamp of the SIU's island, plus tx_latency_ns (R130). -/
def State.txStamp (s : State) (port : Nat) : DWord :=
  s.leaf siuIsland + BitVec.ofNat 64 (s.rdN Fld.timPortCfg_tx_latency_ns port)

/-- The interval of a port's Sync messages, 2^sync_rate a second, and of Announces, one a second, in ns (R128). -/
def State.syncNs (s : State) (port : Nat) : Nat := 1000000000 / 2 ^ s.rdN Fld.timPortCfg_sync_rate port
def announceNs : Nat := 1000000000

/-- PTP_SYNC_TX: a two-step Sync and its Follow_Up, which carries the Sync's stamp (R128, R130), once an interval. -/
def execPtpSyncTx (port : Nat) (s : State) : Host.Outcome State Fault Refusal :=
  answer s (isPort port) (
    if s.ptpOn port && !s.rdB Fld.timPortStat_passive port && s.duePeriod (nth none s.time.syncSent port) (s.syncNs port) then
      let s := { s with time := { s.time with syncSent := s.time.syncSent.set port (some s.time.uptime) } }
      (s.sendPtp port 0x0 0).sendPtp port 0x8 (s.txStamp port)
    else s)

/-- PTP_ANNOUNCE_TX (R128, R136): once a second. -/
def execPtpAnnounceTx (port : Nat) (s : State) : Host.Outcome State Fault Refusal :=
  answer s (isPort port) (
    if s.ptpOn port && !s.rdB Fld.timPortStat_passive port && s.duePeriod (nth none s.time.announced port) announceNs then
      let s := { s with time := { s.time with announced := s.time.announced.set port (some s.time.uptime) } }
      s.sendPtp port 0xB s.now [s.rdN Fld.timStatus_clock_class, s.priority2]
    else s)

/-- A port answers a delay request of its profile's mechanism with the request's stamp (R128, R130). -/
def State.ptpAnswer (s : State) (port : Nat) (peer : Bool) (stamp : DWord) : State :=
  if s.ptpOn port && (peer == (s.rdN Fld.timPortCfg_profile port == 2)) then
    let t := stamp - BitVec.ofNat 64 (s.rdN Fld.timPortCfg_rx_latency_ns port)
    if peer then (s.sendPtp port 0x3 t).sendPtp port 0xA (s.txStamp port) else s.sendPtp port 0x9 t
  else s

/-- PTP_DELAY_REQ: a Delay_Req, or a Pdelay_Req where `peer` holds, that arrived at `stamp` is answered (R128). -/
def execPtpDelayReq (port : Nat) (peer : Bool) (stamp : DWord) (s : State) : Host.Outcome State Fault Refusal :=
  answer s (isPort port) (s.ptpAnswer port peer stamp)

/-- A received Announce (R129). -/
def State.ptpAnnounced (s : State) (port : Nat) (fromPartner : Bool) : State :=
  if fromPartner then
    let s := { s with time := { s.time with partnerHeard := s.time.partnerHeard.set port s.time.uptime } }
    s.wrB Fld.timPortStat_passive true port
  else s.countSat Fld.timPortStat_foreign_announce 1 port

/-- PTP_ANNOUNCE_RX (R129). -/
def execPtpAnnounceRx (port : Nat) (fromPartner : Bool) (s : State) : Host.Outcome State Fault Refusal :=
  answer s (isPort port) (s.ptpAnnounced port fromPartner)

/-- PTP_PASSIVE_TIMEOUT (R129): three Announce intervals after the partner's last Announce. -/
def execPtpPassiveTimeout (port : Nat) (s : State) : Host.Outcome State Fault Refusal :=
  answer s (isPort port) (
    if s.passed (nth 0 s.time.partnerHeard port) (3 * announceNs) then s.wrB Fld.timPortStat_passive false port else s)

/-- TREE_CALIBRATED (R132). -/
def execTreeCalibrated (s : State) : Host.Outcome State Fault Refusal :=
  answer s true (s.wrB Fld.timStatus_tree_calibrated true)

/-- The signed difference of two stamps. -/
def stampDiff (a b : DWord) : Int := (a - b).toInt

/-- FOLLOWER_DELAY_MEASURE: the request left here at t1, reached the upstream neighbour at t2, and the answer left it at
t3 and arrived at t4. The follower corrects for half the round trip, by slewing; a path that returns ends HOLDOVER
(R134, R135). -/
def execFollowerDelayMeasure (t1 t2 t3 t4 : DWord) (rootClass : Nat) (s : State) : Host.Outcome State Fault Refusal :=
  answer s true (
    if s.timeRole == 2 then
      let trip := stampDiff t4 t1 - stampDiff t3 t2
      let ahead := floorDiv (stampDiff t1 t2 + stampDiff t4 t3) 2
      let s := s.enterTime tsFollower rootClass
      { s with time := { s.time with delayMeasures := s.time.delayMeasures + 1, linkDelayNs := (floorDiv trip 2).toNat,
                                     phaseErr := satPhase ahead, upstreamLost := false } }
    else s)

/-- A follower has lost its upstream path: HOLDOVER, with the root's clock class until holdover_expired (R135). -/
def State.upstreamLost (s : State) : State :=
  if s.timeRole == 2 && s.timeState == tsFollower then
    let s := s.enterTime tsHoldover (s.holdClass (s.rdN Fld.timStatus_clock_class))
    { s with time := { s.time with upstreamLost := true } }
  else s

end Sys2Proof.Machine
end

