-- ==== Sys2Proof/Machine/Registers.lean ====
section
/-! DEFINITION. BAR0: reading a register, writing it under the access codes of R12, and what a write does beyond its fields
(R12 to R14, R69, R72, R120, R137, R186, R427, R455, R464, R485, R489, R501, R510, R530, R533, R562, R566 to R568, R574). -/
namespace Sys2Proof.Machine

/-! Finding a register. -/

/-- The index of a register among its repetitions and the byte within it, for an offset from its first instance. -/
def dimIndex : List (Nat × Nat) → Nat → Nat → Option (Nat × Nat)
  | [], idx, rel => some (idx, rel)
  | (n, stride) :: r, idx, rel =>
    if rel / stride < n then dimIndex r (idx * n + rel / stride) (rel % stride) else none

/-- The register at a BAR0 offset, its index, and the byte of it that the offset names. -/
def locate (off : Nat) : Option (Reg × Nat × Nat) :=
  Reg.all.findSome? (fun r =>
    let i := r.info
    if off < i.offset then none
    else match dimIndex i.dims 0 (off - i.offset) with
      | some (idx, rel) => if rel < i.bytes then some (r, idx, rel) else none
      | none => none)

/-- Whether a function's BAR0 holds a register: a virtual function's holds those marked per function (R562). -/
def visible (fn : Nat) (r : Reg) : Bool := fn == 0 || r.info.perFn

/-- An offset of the SEC_ block or of the capability list, which are served in every stage (R489). -/
def alwaysServed (off : Nat) : Bool :=
  (decide (0x100 ≤ off) && decide (off < 0x8000)) || (decide (0x380000 ≤ off) && decide (off < 0x3C0000))

/-! Reading. -/

/-- Encodings that CRN_RING_STATEn and VHE_TABLEt_STATUS report (R106, R204). -/
def sqCode : SqState → Nat
  | .off => 0 | .starting => 1 | .on => 2 | .draining => 3 | .error => 4
def tableCode : TableState → Nat
  | .empty => 1 | .filling => 2 | .final => 3 | .clearing => 4 | .failed => 5
def versionCode : VersionState → Nat
  | .building => 1 | .current => 2 | .retiring => 3
def lifecycleCode : Lifecycle → Nat
  | .manufacture => 0 | .production => 1 | .decommissioned => 2

/-- A number from a truth value. -/
def b2n (b : Bool) : Nat := if b then 1 else 0

/-- The value of CRN_RING_STATEn (R106, R109, R120): 0 for a ring that the function does not own. -/
def State.ringStateReg (s : State) (fn n : Nat) : Nat :=
  let sq := match s.sq? n with
    | some q => if q.fn == fn then sqCode q.state + 64 * b2n q.reenable else 0
    | none => 0
  let cq := match s.cq? n with
    | some q => if q.fn == fn then 128 + 256 * b2n q.fault else 0
    | none => 0
  sq + cq

/-- A voxel table. -/
def State.table? (s : State) (t : Nat) : Option Table := s.compute.tables.find? (fun x => x.id == t)

/-- A map. -/
def State.map? (s : State) (m : Nat) : Option CMap := s.canopy.maps.find? (fun x => x.id == m)

/-- A prior table. -/
def State.prior? (s : State) (t : Nat) : Option Prior := s.gather.tables.find? (fun x => x.id == t)

/-- GTH_TABLEt_STATUS (R394). -/
def priorStatus (p : Prior) : Nat :=
  let cur := p.versions.find? (fun v => v.state == .current)
  let live := p.versions.foldl (fun m v => setBit m v.slot) 0
  1 + 2 * b2n p.home + 4 * b2n p.index + 16 * ((cur.map (·.slot)).getD 0) + 256 * p.part + 65536 * live
    + 4294967296 * ((cur.map (·.gen)).getD 0)

/-- GTH_TABLEt_PINS (R394): commands that pin each slot, saturating at 15. -/
def State.pinsReg (s : State) (t : Nat) : Nat :=
  (List.range 16).foldl (fun a k =>
    a + (min 15 (s.gather.pins.filter (fun p => p.table == t && p.slot == k)).length <<< (4 * k))) 0

/-- The list of counter codes that TRC_DELTAi reads for a unit kind (R533): the kind's own list, or the generic one. -/
def deltaCodes (kind : Nat) : List Nat :=
  match kind with
  | 1 | 2 => (List.range 13).map (fun i => 0x0100 + i)
  | 3 => (List.range 9).map (fun i => 0x0200 + i)
  | 4 => (List.range 9).map (fun i => 0x0300 + i)
  | 5 => (List.range 6).map (fun i => 0x0400 + i)
  | 6 => (List.range 4).map (fun i => 0x0500 + i)
  | 7 => (List.range 7).map (fun i => 0x0600 + i)
  | 8 => (List.range 10).map (fun i => 0x0700 + i)
  | 10 => (List.range 3).map (fun i => 0x0900 + i)
  | _ => [0, 1, 2]

/-- A delta register (R514, R533): aggregate IDs read 0. -/
def State.deltaReg (s : State) (i : Nat) : Nat :=
  let u := s.rdN Fld.trcDeltaSel_unit
  if u % 1024 == 0x3FF then 0
  else match (deltaCodes (u / 4096))[i]? with
    | some code => ((s.observe.deltas.find? (fun d => d.1 == u && d.2.1 == code)).map (fun d => d.2.2.toNat)).getD 0
    | none => 0

/-- Registers whose value the rest of the state gives; none for the others, whose fields are kept. -/
def State.view (s : State) (fn : Nat) (r : Reg) (idx : Nat) : Option Nat :=
  match r with
  | .timNow => some s.now.toNat
  | .timPhaseErr => some (ofSigned 32 s.time.phaseErr)
  | .crnRingState => some (s.ringStateReg fn idx)
  | .crnInflight => some (min s.inFlight 0x1FFFF)
  | .secSerial => some s.security.otp.serial.toNat
  | .secOtpStatus =>
    let o := s.security.otp
    some (o.revoked % 16 + 256 * b2n o.debugDisable + 512 * b2n o.bootModeLock + 65536 * o.rollback)
  | .secRootDigest => some (leAt (nth [] s.security.otp.rootDigests (idx / 8)) (8 * (idx % 8)) 8)
  | .secMeasure => some (leAt (nth [] s.security.measure (idx / 8)) (8 * (idx % 8)) 8)
  | .vheTableStatus => match s.table? idx with
    | some t => some (tableCode t.state + 16 * b2n t.haloIncomplete + 32 * b2n t.overflowed + 64 * b2n t.finalSeen
        + 128 * t.epoch + 16384 * t.part)
    | none => some 0
  | .vheTableFrame => match s.table? idx with
    | some t => some (ofSigned 64 (t.frameTag.getD 0))
    | none => some 0
  | .vheTableCells => match s.table? (idx / 4) with
    | some t => some (nth 0 t.cells (idx % 4))
    | none => some 0
  | .vheTableRefused => match s.table? idx with
    | some t => some t.counts.pointsRefused
    | none => some 0
  | .cnpMapStatus => match s.map? idx with
    | some m => some (1 + 256 * m.part + 65536 * satTo 8 (m.holds.map (·.cmd)).eraseDups.length
        + 16777216 * satTo 8 (m.pins.map (·.cmd)).eraseDups.length + 4294967296 * m.valid)
    | none => some 0
  | .gthTableStatus => match s.prior? idx with
    | some p => some (priorStatus p)
    | none => some 0
  | .gthTablePins => some (s.pinsReg idx)
  | .gthStemBurl => some (((s.gather.allocs.filter (fun a => a.stem == idx)).map (·.units)).sum)
  | .trcDelta => some (s.deltaReg idx)
  | _ => none

/-- The age in ms of the oldest last sample of a Stem's tiles in service (R462, R485): 0 before the first samples. -/
def State.oldestSampleMs (s : State) (stem : Nat) : Nat :=
  let ages := (s.bark.lastSample.filter (fun x => x.stem == stem && !s.bark.lostTiles.contains (stem, x.tile))).map
    (fun x => (s.now - x.last).toNat / 1000000)
  satTo 12 (ages.foldl max 0)

/-- Whether boost applies to a Stem (R541). -/
def State.boosts (s : State) (stem : Nat) : Bool :=
  s.rdB Fld.pwrCtrl_pollard_enable && s.rdB Fld.pwrCtrl_boost_enable && s.power.headroom && s.stemOn stem
    && decide (s.rdN Fld.pwrStemStatus_max_temp_c stem < s.rdN Fld.pwrCtrl_boost_c)

/-- What the clamp and the thermal ceiling leave of a ceiling in units of 25 MHz (R536, R543, R544). -/
def State.coolCeiling (s : State) (stem n : Nat) : Nat :=
  let n := min n (s.rdN Fld.pwrStemStatus_thermal_ceiling stem)
  if s.rdB Fld.pwrStemStatus_clamp stem then min n 14 else n

/-- The effective ceilings of a Stem's tiles and engines (R536): without Pollard its own ceilings do not count (R552). -/
def State.tileCeiling (s : State) (stem : Nat) : Nat :=
  let top := if s.boosts stem then 56 else 48
  s.coolCeiling stem (if s.rdB Fld.pwrCtrl_pollard_enable then min top (nth 48 s.power.tileCeil stem) else top)
def State.engineCeiling (s : State) (stem : Nat) : Nat :=
  s.coolCeiling stem (if s.rdB Fld.pwrCtrl_pollard_enable then min 40 (nth 40 s.power.engineCeil stem) else 40)

/-- Whether a thermal ceiling or a clamp holds on a Stem (R552). -/
def State.hot (s : State) (stem : Nat) : Bool :=
  s.rdB Fld.pwrStemStatus_clamp stem || decide (s.rdN Fld.pwrStemStatus_thermal_ceiling stem < 56)

/-- The cap in force in watts (R538, R552). -/
def State.capWatts (s : State) : Nat := max 120 (min 480 (s.rdN Fld.pwrCap_cap_w))

/-- The value of a field as a read returns it: write-only fields read 0 (R12). -/
def State.fieldReads (s : State) (fn : Nat) (f : Field) (idx : Nat) : Nat :=
  if f.access = .wo then 0
  else if f = Fld.secBootStatus_lifecycle then lifecycleCode s.security.otp.lifecycle
  else if f = Fld.secBootStatus_boot_mode then s.security.bootMode
  else if f = Fld.brkLogStatus_graft_records then satTo 16 s.bark.graftLog.length
  else if f = Fld.brkCsStem_oldest_age_ms then s.oldestSampleMs idx
  else if f = Fld.pwrCap_cap_w then s.capWatts
  else if f = Fld.pwrStemStatus_tile_ceiling then s.tileCeiling idx
  else if f = Fld.pwrStemStatus_engine_ceiling then s.engineCeiling idx
  else if f = Fld.pwrStatus_boost_active then b2n ((List.range 4).any (fun j => s.boosts j))
  else if f = Fld.pwrStatus_thermal_active then b2n ((List.range 4).any (fun j => s.hot j))
  else s.rdN f idx (if f.reg.info.perFn then fn else 0)

/-- The value of a register as a read returns it (R12, R14). -/
def State.regValue (s : State) (fn : Nat) (r : Reg) (idx : Nat) : Nat :=
  match s.view fn r idx with
  | some v => v
  | none => (r.info.fields.map (fun f => s.fieldReads fn f idx <<< f.lo)).sum

/-- One byte of a function's BAR0. -/
def State.bar0Byte (s : State) (fn off : Nat) : Byte :=
  if 0x100 ≤ off ∧ off < 0x8000 then nth 0 (s.capBytes fn) (off - 0x100)
  else if !(s.served || (alwaysServed off && !s.security.perst)) then 0
  else match locate off with
    | some (r, idx, byte) => if visible fn r then BitVec.ofNat 8 (s.regValue fn r idx >>> (8 * byte)) else 0
    | none => 0

/-- A read that reaches a field with access code RC clears it (R12). -/
def State.readClears (s : State) (off n : Nat) : State :=
  (List.range n).foldl (fun s i =>
    match locate (off + i) with
    | some (r, idx, byte) =>
      r.info.fields.foldl (fun s f =>
        if f.access = .rc ∧ f.lo ≤ 8 * byte + 7 ∧ 8 * byte < f.lo + f.width then s.wr f 0 idx else s) s
    | none => s) s

/-- A read of a function's BAR0, of 1 to 8 bytes within one aligned 8-byte word (R562). TIM_NOW's low half latches its
high half for the next read of that (R137). -/
def State.regRead (s : State) (fn off n : Nat) : State × List Byte :=
  let live := (List.range n).map (fun i => s.bar0Byte fn (off + i))
  let upper := off == 0x8000C && n == 4 && fn == 0 && s.served
  let data := if upper then (s.time.latchedHigh.map (fun h => natToBytes 4 h.toNat)).getD live else live
  let s := if off == 0x80008 ∧ n == 4 ∧ fn == 0 then
      { s with time := { s.time with latchedHigh := some (BitVec.ofNat 32 (s.now.toNat / 4294967296)) } }
    else if upper then { s with time := { s.time with latchedHigh := none } }
    else s
  (if s.served && fn == 0 then s.readClears off n else s, data)

/-- What a read of a set-up register that is not served returns: zeros (R489), or Unsupported Request from a function that takes no
requests. -/
def State.noRegs (s : State) (n : Nat) : Output := if s.answers 0 then .completion 0 0 (natToBytes n 0) else .completion 0 3 []

/-- MAXPROBE_READ: VHE_STEMn_MAXPROBE is read and clears (R222). -/
def execMaxprobeRead (stem : Nat) (s : State) : Host.Outcome State Fault Refusal :=
  answer s (isStem stem)
    (if s.takesRegs 0 then (s.wrN Fld.vheStemMaxprobe_max_probe 0 stem).emit
      (.completion 0 0 (natToBytes 8 (s.rdN Fld.vheStemMaxprobe_max_probe stem)))
     else s.emit (s.noRegs 8))

/-- SPILL_USE_READ: KME_STEMn_SPILL_USE is read, and high_water clears (R258). -/
def execSpillUseRead (stem : Nat) (s : State) : Host.Outcome State Fault Refusal :=
  answer s (isStem stem)
    (if s.takesRegs 0 then (s.wrN Fld.kmeStemSpillUse_high_water 0 stem).emit
      (.completion 0 0 (natToBytes 4 (s.rdN Fld.kmeStemSpillUse_in_use stem
        + 65536 * s.rdN Fld.kmeStemSpillUse_high_water stem)))
     else s.emit (s.noRegs 4))

/-! Writing. -/

/-- Whether the lock that governs a register's RWL fields is set: the function's own for a register marked per function,
else the device set-up lock (R566, R568). -/
def State.lockedFor (s : State) (fn : Nat) (r : Reg) : Bool :=
  if r.info.perFn then s.rdB Fld.pciFnLock_lock 0 fn else s.locked

/-- Bits of a field under a mask replaced by those of a value. -/
def mergeBits (w old mask v : Nat) : Nat := (old &&& (2 ^ w - 1 - (mask &&& (2 ^ w - 1)))) ||| (v &&& mask &&& (2 ^ w - 1))

/-- One field of a register takes a write (R12). -/
def State.writeField (s : State) (fn : Nat) (idx mask v : Nat) (f : Field) : State :=
  let k := if f.reg.info.perFn then fn else 0
  let m := getBits mask f.lo f.width
  let x := getBits v f.lo f.width
  if m = 0 then s
  else match f.access with
    | .rw => s.wrN f (mergeBits f.width (s.rdN f idx k) m x) idx k
    | .rwl => if s.lockedFor fn f.reg then s else s.wrN f (mergeBits f.width (s.rdN f idx k) m x) idx k
    | .w1c => s.wrN f (mergeBits f.width (s.rdN f idx k) (m &&& x) 0) idx k
    | .w1s => s.wrN f (mergeBits f.width (s.rdN f idx k) (m &&& x) (2 ^ f.width - 1)) idx k
    | .ro | .wo | .rc => s

/-- Every field of a register takes a write by its access code. -/
def State.writeFields (s : State) (fn : Nat) (r : Reg) (idx mask v : Nat) : State :=
  r.info.fields.foldl (fun s f => s.writeField fn idx mask v f) s

/-- CRN_ADMIN_CFG is written (R72, R120). With enable it turns the function's administrative rings ON, their counts 0, or
is refused, and changes nothing but cfg_error; while enable reads 1, and once the function lock is set, it is ignored. -/
def State.adminCfgWritten (s : State) (fn v : Nat) : State :=
  if s.rdB Fld.crnAdminCfg_enable 0 fn || s.rdB Fld.pciFnLock_lock 0 fn then s
  else
    let set (s : State) : State := ((s.wrN Fld.crnAdminCfg_vector (getBits v 16 11) 0 fn).wrN Fld.crnAdminCfg_cq_log2 (getBits v 8 5) 0 fn).wrN
      Fld.crnAdminCfg_sq_log2 (getBits v 0 5) 0 fn
    if getBits v 31 1 = 0 then set s
    else
      let sqb := s.rdN Fld.crnAdminSqBase_base 0 fn * 4096
      let cqb := s.rdN Fld.crnAdminCqBase_base 0 fn * 4096
      let sl := getBits v 0 5
      let cl := getBits v 8 5
      if sqb = 0 ∨ cqb = 0 ∨ sl < 4 ∨ sl > 16 ∨ cl < 4 ∨ cl > 16 then s.wrB Fld.crnAdminCfg_cfg_error true 0 fn
      else
        let s := ((set s).wrB Fld.crnAdminCfg_enable true 0 fn).wrB Fld.crnAdminCfg_cfg_error false 0 fn
        let n := adminRing fn
        let p := s.partOf fn
        let sq : Sq := { num := n, fn := fn, part := p, crit := s.maxCrit p, log2 := sl, base := sqb, state := .on }
        let cq : Cq := { num := n, fn := fn, log2 := cl, base := cqb, vector := getBits v 16 11 }
        let g : Group := { num := fn, fn := fn, dbLine := s.rdN Fld.crnAdminDbLine_line 0 fn * 64,
                           headLine := s.rdN Fld.crnAdminHeadLine_line 0 fn * 64 }
        let q := s.queues
        let s := { s with queues := { q with sqs := q.sqs ++ [sq], cqs := q.cqs ++ [cq],
                                             groups := q.groups ++ [g], lines := q.lines ++ [({ group := fn } : Line)] } }
        s.flushEvents fn

/-- BRK_SRCs_CFG is written (R455, R485): the field of a fatal source is read-only, and a 3 stores 2. -/
def State.srcCfgWritten (s : State) (source v : Nat) : State :=
  if s.locked || sourceClass source == 2 then s
  else s.wrN Fld.brkSrcCfg_reaction (if v % 4 = 3 then 2 else v % 4) source

/-- The check of R464 on a value written to BRK_CS_CFG. -/
def csCfgOk (v : Nat) : Bool :=
  let lanes := getBits v 28 2 + 1
  let ftti := getBits v 16 12
  let lag := getBits v 0 16
  decide (20 ≤ ftti) && decide (ceilDiv 64 lanes * (359 + lag) ≤ 1000 * ftti)

/-- BRK_CS_CFG is written: it is accepted, or refused with cfg_error set (R464). -/
def State.csCfgWritten (s : State) (v : Nat) : State :=
  if s.locked then s
  else if csCfgOk v then
    ((((s.wrN Fld.brkCsCfg_enable (getBits v 31 1)).wrN Fld.brkCsCfg_lanes_m1 (getBits v 28 2)).wrN
      Fld.brkCsCfg_ftti_ms (getBits v 16 12)).wrN Fld.brkCsCfg_lag_us (getBits v 0 16)).wrB Fld.brkCsCfg_cfg_error false
  else s.wrB Fld.brkCsCfg_cfg_error true

/-- The request at the front of the mailbox queue is finished with a status (R501). -/
def State.mboxDone (s : State) (fn : Nat) (st : Half) : State :=
  let s := (s.wrB Fld.secMboxCmd_go false 0 fn).wrB Fld.secMboxCmd_done true 0 fn
  let s := s.wrN Fld.secMboxCmd_status st.toNat 0 fn
  { s with pcie := { s.pcie with mailboxQueue := s.pcie.mailboxQueue.erase fn } }

/-- Why a function's request ends at once: an unknown opcode, or one that the function may not use, or not now (R501). -/
def State.mboxRefusal (s : State) (fn : Nat) : Option Half :=
  let op := s.rdN Fld.secMboxCmd_opcode 0 fn
  if op = 0 ∨ op > 5 then some stBadOpcode
  else if (fn ≠ 0 ∧ op ≥ 3) ∨ (op = 5 ∧ s.stage ≠ 14) then some stOwnership
  else none

/-- Requests that are refused end as they come to the front. -/
def State.settleMailbox (s : State) : Nat → State
  | 0 => s
  | k + 1 =>
    match s.pcie.mailboxQueue with
    | [] => s
    | fn :: _ =>
      match s.mboxRefusal fn with
      | some st => (s.mboxDone fn st).settleMailbox k
      | none => s

/-- SEC_MBOX_CMD is written: a 1 to go starts a request, clears done and queues the function; while a request runs it is
ignored (R501). -/
def State.mboxWritten (s : State) (fn mask v : Nat) : State :=
  let running := s.rdB Fld.secMboxCmd_go 0 fn
  let s := if running then s else s.writeField fn 0 mask v Fld.secMboxCmd_opcode
  if getBits (v &&& mask) 31 1 = 1 ∧ !running then
    let s := (s.wrB Fld.secMboxCmd_go true 0 fn).wrB Fld.secMboxCmd_done false 0 fn
    ({ s with pcie := { s.pcie with mailboxQueue := s.pcie.mailboxQueue ++ [fn] } }).settleMailbox 64
  else s

/-- Whether the perturbation registers take writes (R530). -/
def State.pertUnlocked (s : State) : Bool := (s.rdN Fld.secDebugStatus_unlocked).testBit 1

/-- A perturbation register is written (R530, R533); switching the unit on or off goes to Bark's Rings, and the generator
starts from a written seed. -/
def State.pertWritten (s : State) (r : Reg) (mask v : Nat) : State :=
  if !s.pertUnlocked then s
  else
    let was := s.rdB Fld.trcPertCtrl_enable
    let s := s.writeFields 0 r 0 mask v
    let s := if r = .trcPertSeed then
        let seed := s.rd Fld.trcPertSeed_seed
        { s with observe := { s.observe with pertState := if seed = 0 then 1 else seed } }
      else s
    if s.rdB Fld.trcPertCtrl_enable != was then s.ring (unitId 13 0 0) 0x15 0 0 0 [] else s

/-- A link's role is written (R400, R429): a link with role 1 or 2 trains, one without is OFF; with a role 2 link the twin
unit waits for it. -/
def State.roleWritten (s : State) (l : Nat) : State :=
  let role := s.rdN Fld.wblLinkCfg_role l
  let s := if role == 1 || role == 2 then
      (if s.rdN Fld.wblLinkStatus_state l == 0 then s.wrN Fld.wblLinkStatus_state 1 l else s)
    else s.wrN Fld.wblLinkStatus_state 0 l
  if s.hasTwinLink then (if s.rdN Fld.twnStatus_state == 0 then s.wrN Fld.twnStatus_state 1 else s)
  else if s.rdN Fld.twnStatus_state == 1 then s.wrN Fld.twnStatus_state 0 else s

/-- The windows that have a bit of their control word set, by index target × 64 + window, rising. -/
def State.windowsWith (s : State) (f : Field) : List Nat := (List.range 704).filter (fun i => s.rdB f i)

/-- The first check of R567 that fails: error_code and error_index. -/
def State.lockError (s : State) : Option (Nat × Nat) :=
  let bad1 := (s.windowsWith Fld.brkFwCtl_enable).find? (fun i => decide (s.winLimit i ≤ s.winBase i))
  let tb := s.rdN Fld.trcBase_base * 4096
  let te := tb + s.rdN Fld.trcSize_size_mib * 1048576
  let db := s.rdN Fld.trcDumpBase_base * 4096
  let bad2 := decide (tb < te) && decide (db ≠ 0) && decide (tb < db + 8388608) && decide (db < te)
  let lw := s.windowsWith Fld.brkFwCtl_lock
  let bad4 := lw.find? (fun i => lw.any (fun j => decide (j < i) && decide (j / 64 = i / 64)
    && decide (s.winBase i < s.winLimit j) && decide (s.winBase j < s.winLimit i) && s.winPart i != s.winPart j))
  match bad1 with
  | some i => some (1, i)
  | none =>
    if bad2 then some (2, 0)
    -- check 3: PCI_BAR2_BASEf holds bits 47:30 alone, so every base is aligned to 1 GiB
    else match bad4 with
      | some i => some (4, i)
      | none => none

/-- Whether the fabric configuration breaks R420. -/
def State.fabricCfgBad (s : State) : Bool :=
  let dx := s.rdN Fld.wblFabricCfg_dx_m1 + 1
  let n := dx * (s.rdN Fld.wblFabricCfg_dy_m1 + 1) * (s.rdN Fld.wblFabricCfg_dz_m1 + 1)
  let st := s.rdB Fld.wblFabricCfg_standby
  (decide (n > 512) && !st) || (decide (n ≤ 512) && st) || (st && decide (s.rdN Fld.wblFabricCfg_standby_x ≥ dx))

/-- PCI_SETUP_LOCK is written (R566, R567): from the physical function and from stage FIRMWARE on, a 1 runs the checks and
sets the lock or lock_error; a set lock lets start-up pass WAIT_LOCK (R487), and the fabric configuration is judged
(R420). -/
def State.setupLockWritten (s : State) (fn v : Nat) : State :=
  if fn ≠ 0 ∨ getBits v 31 1 = 0 ∨ !s.takesRegs 0 ∨ s.locked then s
  else match s.lockError with
    | some (code, idx) =>
      ((s.wrB Fld.pciSetupLock_lock_error true).wrN Fld.pciSetupLock_error_code code).wrN Fld.pciSetupLock_error_index idx
    | none =>
      let s := ((s.wrB Fld.pciSetupLock_lock true).wrB Fld.pciSetupLock_lock_error false).wrN Fld.pciSetupLock_error_code 0
      let s := s.wrN Fld.pciSetupLock_error_index 0
      let s := if s.fabricCfgBad then s.wrB Fld.wblFabricStatus_cfg_error true else s
      if s.stage == 5 then s.becomeReady else s

/-- PCI_FN_LOCK is written by its function (R568). -/
def State.fnLockWritten (s : State) (fn v : Nat) : State :=
  if getBits v 0 1 = 1 then s.wrB Fld.pciFnLock_lock true 0 fn else s

/-- Tracing starts: the record count starts at 0 (R520, R522). -/
def State.traceStart (s : State) : State :=
  let s := (s.wrB Fld.trcCtrl_enable true).wrN Fld.trcStatus_state 1
  let s := ((s.wrB Fld.trcStatus_wrapped false).wrN Fld.trcStatus_trigger_slot 0).wrN Fld.trcStatus_next_slot 0
  let s := s.wr Fld.trcDropped_dropped 0
  { s with observe := { s.observe with traceCount := 0, postLeft := 0 } }

/-- Tracing stops. -/
def State.traceStop (s : State) : State :=
  let s := s.wrB Fld.trcCtrl_enable false
  if s.rdN Fld.trcStatus_state == 0 then s else s.wrN Fld.trcStatus_state 3

/-- TRC_CTRL is written: trace starts and stops with its enable bit (R520). -/
def State.traceCtrlWritten (s : State) (mask v : Nat) : State :=
  let was := s.rdB Fld.trcCtrl_enable
  let s := s.writeFields 0 .trcCtrl 0 mask v
  let now := s.rdB Fld.trcCtrl_enable
  if was == now then s else if now then s.traceStart else s.traceStop

/-- A register takes the bits of a value under a mask. Registers whose write does more than R12 says are listed. -/
def State.writeReg (s : State) (fn : Nat) (r : Reg) (idx mask v : Nat) : State :=
  match r with
  | .crnChipId => if v % 65536 ≥ 0x8000 then s else s.writeFields fn r idx mask v
  | .hbmStackRetireAck => if (v &&& mask).testBit 0 then s.vacated idx else s
  | .sapTilePwrReq => if s.locked then s else s.powerReqWritten (idx / 64) (idx % 64) (v % 4096)
  | .crnAdminSqBase | .crnAdminCqBase | .crnAdminDbLine | .crnAdminHeadLine =>
    if s.rdB Fld.crnAdminCfg_enable 0 fn then s else s.writeFields fn r idx mask v
  | .crnAdminCfg => s.adminCfgWritten fn v
  | .crnKnotOwner => s.writeFields fn r idx (if idx = 0 then (mask >>> 8) <<< 8 else mask) v
  | .timCtrl =>
    (s.writeFields fn r idx mask v).timCtrlWritten (s.rdN Fld.timCtrl_source_sel) s.timeRole
  | .timNextSec => s.nextSecWritten (mergeBits 48 (s.rdN Fld.timNextSec_next_sec) mask v)
  | .siuPortCfg =>
    let s := s.writeFields fn r idx mask v
    if s.rdB Fld.siuPortCfg_enable idx then s else s.wrB Fld.siuPortCfg_link_up false idx
  | .wblLinkCfg => if s.locked then s else ((s.writeFields fn r idx mask v).roleWritten idx).roleChanged s.timeRole
  | .brkFwBase | .brkFwLimit | .brkFwCtl => if s.locked then s else (s.writeFields fn r idx mask v).winChanged idx
  | .brkSrcCfg => s.srcCfgWritten idx v
  | .brkCsCfg => s.csCfgWritten v
  | .secMboxCmd => s.mboxWritten fn mask v
  | .trcCtrl => s.traceCtrlWritten mask v
  | .trcPertCtrl | .trcPertSeed | .trcPertScope => s.pertWritten r mask v
  | .pciSetupLock => s.setupLockWritten fn v
  | .pciFnLock => s.fnLockWritten fn v
  | _ => s.writeFields fn r idx mask v

/-- The part of a write that falls on the register at one 4-byte half: the register, its index, and the mask and value
placed in it. -/
def writePart (off : Nat) (v : Nat) : Option (Reg × Nat × Nat × Nat) :=
  match locate off with
  | some (r, idx, byte) => some (r, idx, 0xFFFFFFFF <<< (8 * byte), (v % 4294967296) <<< (8 * byte))
  | none => none

/-- A BAR0 write of 4 or 8 bytes, aligned to its size; any other write is ignored (R13, R562). A virtual function reaches
the registers marked per function alone, and before stage FIRMWARE only the SEC_ block takes writes (R489). -/
def State.regWrite (s : State) (fn off n : Nat) (v : DWord) : State :=
  if !((n == 4 || n == 8) && off % n == 0 && s.answers fn) then s
  else if !(s.served || (alwaysServed off && !s.security.perst)) then s
  else
    let ok (r : Reg) := visible fn r
    if n == 4 then
      match writePart off v.toNat with
      | some (r, idx, m, x) => if ok r then s.writeReg fn r idx m x else s
      | none => s
    else
      match locate off with
      | some (r, idx, _) =>
        if r.info.bytes == 8 then (if ok r then s.writeReg fn r idx (2 ^ 64 - 1) v.toNat else s)
        else
          let s := if ok r then s.writeReg fn r idx 0xFFFFFFFF (v.toNat % 4294967296) else s
          match writePart (off + 4) (v.toNat / 4294967296) with
          | some (r, idx, m, x) => if ok r then s.writeReg fn r idx m x else s
          | none => s
      | none =>
        match writePart (off + 4) (v.toNat / 4294967296) with
        | some (r, idx, m, x) => if ok r then s.writeReg fn r idx m x else s
        | none => s

/-- REGISTER_WRITE: a write of function `fn` at a BAR0 offset (R12 to R14, R562). -/
def execRegisterWrite (fn off bytes : Nat) (value : DWord) (s : State) : Host.Outcome State Fault Refusal :=
  answer s (isFn fn && isBar0 off) (s.regWrite fn off bytes value)

/-- ADMIN_CFG_ENABLE: a write of CRN_ADMIN_CFG by its function (R72, R120). -/
def execAdminCfgEnable (fn : Nat) (value : Word) (s : State) : Host.Outcome State Fault Refusal :=
  answer s (isFn fn) (if s.takesRegs fn then s.adminCfgWritten fn value.toNat else s)

/-- TIM_NEXT_SEC_WRITE: a write of the whole register (R126, R137). -/
def execTimNextSecWrite (value : DWord) (s : State) : Host.Outcome State Fault Refusal :=
  answer s true (if s.takesRegs 0 then s.nextSecWritten (value.toNat % 2 ^ 48) else s)

/-- CS_CFG_WRITE (R464). -/
def execCsCfgWrite (value : Word) (s : State) : Host.Outcome State Fault Refusal :=
  answer s true (if s.takesRegs 0 then s.csCfgWritten value.toNat else s)

/-- SRC_CFG_WRITE (R455). -/
def execSrcCfgWrite (source : Nat) (value : Word) (s : State) : Host.Outcome State Fault Refusal :=
  answer s (isSource source) (if s.takesRegs 0 then s.srcCfgWritten source value.toNat else s)

/-- PERT_REGISTER_WRITE: a write at an offset of the perturbation registers (R530). -/
def execPertRegisterWrite (fn off bytes : Nat) (value : DWord) (s : State) : Host.Outcome State Fault Refusal :=
  answer s (isFn fn && isBar0 off)
    (if 0x3C0100 ≤ off ∧ off < 0x3C0118 then s.regWrite fn off bytes value else s)

/-- DUMP_SLOT_FREE: a 1 written to a bit of TRC_DUMP_STATUS.slot_full frees the slot (R528). -/
def execDumpSlotFree (slot : Nat) (s : State) : Host.Outcome State Fault Refusal :=
  answer s (isDumpSlot slot)
    (if s.takesRegs 0 then s.wrN Fld.trcDumpStatus_slot_full (clearBit (s.rdN Fld.trcDumpStatus_slot_full) slot) else s)

/-- SETUP_LOCK_WRITE (R566, R567). -/
def execSetupLockWrite (fn : Nat) (value : Word) (s : State) : Host.Outcome State Fault Refusal :=
  answer s (isFn fn) (s.setupLockWritten fn value.toNat)

/-- FN_LOCK_WRITE (R568). -/
def execFnLockWrite (fn : Nat) (value : Word) (s : State) : Host.Outcome State Fault Refusal :=
  answer s (isFn fn) (if s.takesRegs fn then s.fnLockWritten fn value.toNat else s)

end Sys2Proof.Machine
end

