-- ==== Sys2Proof/Machine/Access.lean ====
section
/-! DEFINITION. Accesses to the chip's local address space: the map (R42 to R45), the firewalls (R473 to R476), error
correction (R46, R47, R53, R54), atomics (R63, R64) and the host memory window (R44). -/
namespace Sys2Proof.Machine

/-- What every transaction carries (R473), and the thread it comes from, where it comes from one: Stem, tile, and whether
its command holds the array (R306). -/
structure Origin where
  part : Nat
  crit : Nat
  stream : Nat
  thread : Option (Nat × Nat × Bool) := none
  deriving DecidableEq, Repr, Inhabited

/-- Kinds of access that a window allows (R475). -/
inductive AccKind where
  | read | write | atomic | exec
  deriving DecidableEq, Repr, Inhabited

/-- Why an access fails: a completion status and its detail. -/
structure AccErr where
  status : Half
  detail : Word
  deriving DecidableEq, Repr, Inhabited

/-- The origin of a command (R473): kind 0, its submission ring. -/
def Cmd.origin (c : Cmd) : Origin := { part := c.part, crit := c.crit, stream := c.sq }

/-- The origin of SIU ingest (R473): kind 1, the stream set, in the set's partition. -/
def State.ingestOrigin (s : State) (part set : Nat) : Origin :=
  { part := part, crit := s.maxCrit part, stream := 0x1000 + set }

/-- The origin of a host access through BAR2 (R473, R563): kind 2. -/
def State.bar2Origin (s : State) (fn : Nat) : Origin :=
  { part := s.partOf fn, crit := s.maxCrit (s.partOf fn), stream := 0x2000 + fn }

/-- Where a local address lies (R42). -/
inductive Place where
  | hbm (stack : Nat)
  | sap (stem : Nat)
  | ctl (stem : Nat)
  | regs
  | hostWin
  | reserved
  deriving DecidableEq, Repr, Inhabited

/-- The region of a local address. HBM addresses beyond the installed stacks belong to no stack, and no target guards
them. -/
def State.place (s : State) (a : Nat) : Place :=
  if a < 0x100000000000 then
    match s.hbmPlace a with
    | some (st, _) => .hbm st
    | none => .reserved
  else if a < 0x200000000000 then .sap (getBits a 32 2)
  else if a < 0x300000000000 then .ctl (getBits a 32 2)
  else if a < 0x400000000000 then .regs
  else if 0x800000000000 ≤ a ∧ a < 0x1000000000000 then .hostWin
  else .reserved

/-- The firewall target that guards a region (R474). -/
def Place.target : Place → Option Nat
  | .hbm st => some st
  | .sap st => some (4 + st)
  | .ctl _ => some 8
  | .regs => some 9
  | .hostWin => some 10
  | .reserved => none

/-- Whether a window allows a kind of access. -/
def State.windowAllows (s : State) (i : Nat) : AccKind → Bool
  | .read => s.rdB Fld.brkFwCtl_read i
  | .write => s.rdB Fld.brkFwCtl_write i
  | .atomic => s.rdB Fld.brkFwCtl_atomic i
  | .exec => s.rdB Fld.brkFwCtl_exec i

/-- Whether one window admits an access (R476). -/
def State.windowAdmits (s : State) (i : Nat) (o : Origin) (k : AccKind) (a n : Nat) : Bool :=
  s.rdB Fld.brkFwCtl_enable i && !s.winHeld i && decide (s.winBase i ≤ a) && decide (a + n ≤ s.winLimit i)
    && (s.rdB Fld.brkFwCtl_any_partition i || s.rdN Fld.brkFwCtl_partition i == o.part)
    && decide (s.rdN Fld.brkFwCtl_crit_min i ≤ o.crit)
    && (o.stream &&& s.rdN Fld.brkFwCtl_stream_mask i) == s.rdN Fld.brkFwCtl_stream_value i
    && s.windowAllows i k

/-- Whether an access passes the firewall of a target (R476). -/
def State.fwPasses (s : State) (t : Nat) (o : Origin) (k : AccKind) (a n : Nat) : Bool :=
  (List.range 64).any (fun w => s.windowAdmits (t * 64 + w) o k a n)

/-- The low 32 bits of an address, as a detail. -/
def addrDetail (a : Nat) : Word := BitVec.ofNat 32 a

/-- Whether a Sapwood window address names a usable byte (R43, R57, R58). -/
def State.sapUsable (s : State) (a : Nat) : Bool :=
  getBits a 34 10 == 0 && getBits a 30 2 == 0 &&
    (let bank := getBits a 0 24 / 0x20000
     let b : BankId := ⟨getBits a 32 2, getBits a 24 6, bank⟩
     decide (bank < sliceBanks s.variant) && s.bankState b == bankOn && !s.mem.retired.contains b)

/-- The base of a tile's control space (R299). -/
def ctlBase (stem tile : Nat) : Nat := 0x200000000000 + stem * 0x100000000 + tile * 0x1000000

/-- Whether the origin may make an access of a kind to a byte of tile control space (R299): the accumulator file for
threads of the same tile that hold the array, the thread status for threads and for the host through BAR2; loads only. -/
def ctlUsable (o : Origin) (k : AccKind) (a : Nat) : Bool :=
  let off := getBits a 0 24
  let named := getBits a 34 10 == 0 && getBits a 30 2 == 0
  k == .read && named &&
    (if off < 0x10000 then o.thread == some (getBits a 32 2, getBits a 24 6, true)
     else decide (0x100000 ≤ off) && decide (off < 0x100100) && (o.thread.isSome || o.stream / 4096 == 2))

/-- Whether an access passes R42, R43, R44 and R58, given its region. -/
def State.valid (s : State) (o : Origin) (k : AccKind) (a n : Nat) : Place → Bool
  | .hbm _ => s.hbmUsable a && s.hbmUsable (a + n - 1)
  | .sap _ => s.sapUsable a && s.sapUsable (a + n - 1)
  | .ctl _ => ctlUsable o k a && ctlUsable o k (a + n - 1)
  | .regs => k != .atomic && decide (a + n ≤ 0x300004000000)
  | .hostWin => s.hostReach o.part
  | .reserved => false

/-- A refusal at a firewall is counted and reported (R476). -/
def State.fwDeny (s : State) (t : Nat) (o : Origin) (a : Nat) : State :=
  (s.count Fld.brkFwDeny_denied 1 t).report
    { source := 0x1E, part := some o.part, logical := t, detail := BitVec.ofNat 64 a }

/-- The check of an access to n bytes that lie in one aligned 64-byte block (DESIGN CHOICE: engines access memory in such blocks, R54):
the firewall first, then the map (R42, R476). -/
def State.check (s : State) (o : Origin) (k : AccKind) (a n : Nat) : State × Option AccErr :=
  let p := s.place a
  match p.target with
  | some t =>
    if s.fwPasses t o k a n then
      if s.valid o k a n p then (s, none) else (s, some ⟨stAddress, addrDetail a⟩)
    else (s.fwDeny t o a, some ⟨stFirewall, addrDetail a⟩)
  | none => (s, some ⟨stAddress, addrDetail a⟩)

/-- The parts of a range that lie each in one aligned 64-byte block: address and length. -/
def blocksOf (a n : Nat) : List (Nat × Nat) :=
  if n = 0 then [] else
  (List.range ((a + n + 63) / 64 - a / 64)).map (fun i =>
    let lo := max a ((a / 64 + i) * 64)
    let hi := min (a + n) ((a / 64 + i + 1) * 64)
    (lo, hi - lo))

/-- The aligned 8-byte words that a range touches. -/
def wordsOf (a n : Nat) : List Nat :=
  if n = 0 then [] else (List.range ((a + n + 7) / 8 - a / 8)).map (fun i => (a / 8 + i) * 8)

/-- A corrected Sapwood error (R53). -/
def State.sapCorrected (s : State) (w : Nat) : State :=
  let st := getBits w 32 2
  (s.count Fld.sapStemEccCe_ce_count 1 st).report { source := 0x0D, stem := st, detail := BitVec.ofNat 64 w }

/-- An uncorrectable Sapwood error (R53). -/
def State.sapUncorrectable (s : State) (w : Nat) (part : Option Nat) : State :=
  let st := getBits w 32 2
  ((s.count Fld.sapStemEccUe_ue_count 1 st).wrN Fld.sapStemErrAddr_ue_addr w st).report
    { source := 0x0E, stem := st, part := part, detail := BitVec.ofNat 64 w }

/-- One word of HBM or Sapwood is read through its error correction (R47, R53). -/
def State.eccWord (s : State) (o : Origin) (w : Nat) : State × Option AccErr :=
  match s.errAt w with
  | none => (s, none)
  | some k =>
    let st := ((s.hbmPlace w).map (·.1)).getD 0
    let inHbm := w < 0x100000000000
    match k with
    | .corrected => (if inHbm then s.hbmCorrected w st else s.sapCorrected w, none)
    | .uncorrectable =>
      (if inHbm then s.hbmUncorrectable w st 0x09 (some o.part) else s.sapUncorrectable w (some o.part),
       some ⟨stUncorrectable, addrDetail w⟩)

/-- Words are read through error correction up to the first uncorrectable one. -/
def State.eccWords (s : State) (o : Origin) : List Nat → State × Option AccErr
  | [] => (s, none)
  | w :: r =>
    match s.eccWord o w with
    | (s, none) => s.eccWords o r
    | (s, some e) => (s, some e)

/-- A thread's entry in the thread status array of a tile: pc, state and op_id (R299). -/
def State.threadStatus (s : State) (stem tile slot : Nat) : List Byte :=
  let here (t : Thread) : Bool := t.stem == stem && t.tile == tile && t.slot == slot
  match (s.compute.threads.find? (fun t => here t && t.state != .suspended)).or (s.compute.threads.find? here) with
  | none => List.replicate 16 0
  | some t =>
    let code : Nat := match t.state with
      | .ready => 1 | .stalled => 2 | .waiting => 3 | .suspended => 4 | .exited => 5
    natToBytes 8 t.pc.toNat ++ natToBytes 2 code ++ natToBytes 2 (((s.cmd? t.cmd).map (·.opId)).getD 0) ++ natToBytes 4 0

/-- The bytes that a read of tile control space returns (R299). -/
def State.ctlBytes (s : State) (st a n : Nat) : List Byte :=
  if getBits a 0 24 < 0x10000 then memRead s.acc a n
  else
    let off := getBits a 0 24 - 0x100000
    (List.range n).map (fun i => nth 0 (s.threadStatus st (getBits a 24 6) ((off + i) / 16)) ((off + i) % 16))

/-- The host address of an access to the host memory window: where its requester has ATS enabled, that of the translated page (R44). -/
def State.hostAddr (s : State) (part a : Nat) : Nat :=
  let h := a - 0x800000000000
  let fn := s.ownerFn part
  if (s.fn? fn).any (·.ats) then Config.atsPage fn (h / 4096) * 4096 + h % 4096 else h

/-- A read of engine and register space goes to BAR0 of the physical function (R42). -/
def State.regBlock (s : State) : List (Nat × Nat) → State × List Byte
  | [] => (s, [])
  | (a, n) :: r =>
    let (s, d) := s.regRead 0 (a - 0x300000000000) n
    let (s, e) := s.regBlock r
    (s, d ++ e)

/-- The parts of a range that lie each in one aligned 8-byte word. -/
def wordPieces (a n : Nat) : List (Nat × Nat) :=
  (wordsOf a n).map (fun w => (max a w, min (a + n) (w + 8) - max a w))

/-- A read of one block. -/
def State.readBlock (s : State) (o : Origin) (a n : Nat) (k : AccKind := .read) : State × Except AccErr (List Byte) :=
  match s.check o k a n with
  | (s, some e) => (s, .error e)
  | (s, none) =>
    match s.place a with
    | .regs =>
      let (s, d) := s.regBlock (wordPieces a n)
      (s, .ok d)
    | .hbm _ => match s.eccWords o (wordsOf a n) with
      | (s, some e) => (s, .error e)
      | (s, none) => (s, .ok (memRead s.hbm a n))
    | .sap _ => match s.eccWords o (wordsOf a n) with
      | (s, some e) => (s, .error e)
      | (s, none) => (s, .ok (memRead s.sap a n))
    | .ctl st => (s, .ok (s.ctlBytes st a n))
    | .hostWin => let h := s.hostAddr o.part a; (s.emit (.hostRead (s.ownerFn o.part) h n), .ok (memRead s.host h n))
    | .reserved => (s, .ok [])

/-- A read of blocks one after the other, up to the first that fails. -/
def State.readBlocks (s : State) (o : Origin) : List (Nat × Nat) → State × Except AccErr (List Byte)
  | [] => (s, .ok [])
  | (a, n) :: r =>
    match s.readBlock o a n with
    | (s, .error e) => (s, .error e)
    | (s, .ok d) =>
      match s.readBlocks o r with
      | (s, .error e) => (s, .error e)
      | (s, .ok t) => (s, .ok (d ++ t))

/-- A read of n bytes at a local address. -/
def State.load (s : State) (o : Origin) (a n : Nat) : State × Except AccErr (List Byte) := s.readBlocks o (blocksOf a n)

/-- Errors of words that a write covers whole are gone. -/
def State.clearErrs (s : State) (lo hi : Nat) : State :=
  { s with mem := { s.mem with errs := s.mem.errs.filter (fun e => e.1 < lo || hi ≤ e.1) } }

/-- The granules of g bytes that a range touches. -/
def granulesOf (g a n : Nat) : List Nat :=
  if n = 0 then [] else (List.range ((a + n + g - 1) / g - a / g)).map (fun i => (a / g + i) * g)

/-- The words that a write must read first: those of the granules that it covers in part (R46, R54). -/
def State.partWords (s : State) (lo hi : Nat) : List Nat :=
  let part (g : Nat) : List Nat :=
    (granulesOf g lo (hi - lo)).flatMap (fun b => if lo ≤ b ∧ b + g ≤ hi then [] else wordsOf b g)
  match s.place lo with
  | .hbm _ => part 32
  | .sap _ => part 8
  | _ => []

/-- A write of a range of engine and register space. -/
def State.regStores (s : State) (a : Nat) (data : List Byte) : List (Nat × Nat) → State
  | [] => s
  | (b, n) :: r =>
    (s.regWrite 0 (b - 0x300000000000) n (BitVec.ofNat 64 (leAt data (b - a) n))).regStores a data r

/-- The bytes of a block whose checks have been made are stored; a write to the host memory window leaves the device (R44). -/
def State.putBlock (s : State) (o : Origin) (a : Nat) (data : List Byte) : State :=
  let n := data.length
  match s.place a with
  | .hbm _ => ({ s with hbm := memWrite s.hbm a data }).clearErrs (a / 32 * 32) ((a + n + 31) / 32 * 32)
  | .sap _ => ({ s with sap := memWrite s.sap a data }).clearErrs (a / 8 * 8) ((a + n + 7) / 8 * 8)
  | .hostWin => s.hostStore (s.ownerFn o.part) (s.hostAddr o.part a) data
  | .regs => s.regStores a data (wordPieces a n)
  | .ctl _ | .reserved => s

/-- A write within one block: whole granules replace their words; where it covers a granule in part, that is read first, and nothing of
the write is stored where the read meets an uncorrectable error (R46, R47, R53, R54). -/
def State.writeBlock (s : State) (o : Origin) (a : Nat) (data : List Byte) : State × Option AccErr :=
  match s.check o .write a data.length with
  | (s, some e) => (s, some e)
  | (s, none) =>
    match s.eccWords o (s.partWords a (a + data.length)) with
    | (s, some e) => (s, some e)
    | (s, none) => (s.putBlock o a data, none)

/-- A write of blocks one after the other, up to the first that fails. -/
def State.writeBlocks (s : State) (o : Origin) (a : Nat) (data : List Byte) : List (Nat × Nat) → State × Option AccErr
  | [] => (s, none)
  | (b, n) :: r =>
    match s.writeBlock o b ((data.drop (b - a)).take n) with
    | (s, some e) => (s, some e)
    | (s, none) => s.writeBlocks o a data r

/-- A write of bytes at a local address. -/
def State.store (s : State) (o : Origin) (a : Nat) (data : List Byte) : State × Option AccErr :=
  s.writeBlocks o a data (blocksOf a data.length)

/-! Whole transactions. A request through BAR2 and the access of a packet are each one access, however long: one window covers every
byte of it at each target (R476), and nothing of one that fails is written (R42, R46). -/

/-- The runs of a range that one target guards, given its blocks: target, address and length. -/
def State.targetRuns (s : State) : List (Nat × Nat) → List (Option Nat × Nat × Nat)
  | [] => []
  | (a, n) :: r =>
    let t := (s.place a).target
    match s.targetRuns r with
    | (u, b, m) :: q => if u = t then (t, a, n + m) :: q else (t, a, n) :: (u, b, m) :: q
    | [] => [(t, a, n)]

/-- The firewalls of the targets of a transaction, one after the other, up to the first that refuses it (R476). -/
def State.admitRuns (s : State) (o : Origin) (k : AccKind) : List (Option Nat × Nat × Nat) → State × Option AccErr
  | [] => (s, none)
  | (none, a, _) :: _ => (s, some ⟨stAddress, addrDetail a⟩)
  | (some t, a, n) :: r =>
    if s.fwPasses t o k a n then s.admitRuns o k r else (s.fwDeny t o a, some ⟨stFirewall, addrDetail a⟩)

/-- The check of a whole transaction: a range that no target guards fails with no firewall check; the firewalls come next, and the
map last (R42, R476). -/
def State.checkWhole (s : State) (o : Origin) (k : AccKind) (a n : Nat) : State × Option AccErr :=
  let bs := blocksOf a n
  match bs.find? (fun b => (s.place b.1).target == none) with
  | some b => (s, some ⟨stAddress, addrDetail b.1⟩)
  | none =>
    match s.admitRuns o k (s.targetRuns bs) with
    | (s, some e) => (s, some e)
    | (s, none) =>
      match bs.find? (fun b => !s.valid o k b.1 b.2 (s.place b.1)) with
      | some b => (s, some ⟨stAddress, addrDetail b.1⟩)
      | none => (s, none)

/-- A read that is one transaction. -/
def State.loadWhole (s : State) (o : Origin) (a n : Nat) : State × Except AccErr (List Byte) :=
  match s.checkWhole o .read a n with
  | (s, some e) => (s, .error e)
  | (s, none) => s.load o a n

/-- A write that is one transaction: its checks and the reads of its read-modify-writes come first, and then all of it is stored. -/
def State.storeWhole (s : State) (o : Origin) (a : Nat) (data : List Byte) : State × Option AccErr :=
  match s.checkWhole o .write a data.length with
  | (s, some e) => (s, some e)
  | (s, none) =>
    let bs := blocksOf a data.length
    match s.eccWords o (bs.flatMap (fun b => s.partWords b.1 (b.1 + b.2))) with
    | (s, some e) => (s, some e)
    | (s, none) => (bs.foldl (fun s b => s.putBlock o b.1 (slice data (b.1 - a) b.2)) s, none)

/-- Memory-side atomics (R63). -/
inductive AtomicOp where
  | add | minS | minU | maxS | maxU | swap | cas
  deriving DecidableEq, Repr, Inhabited

/-- What an atomic leaves in the word (R63): `old` was there, `x` is the operand, and for compare-and-swap `y` is the
value to compare with. -/
def AtomicOp.apply : AtomicOp → DWord → DWord → DWord → DWord
  | .add, old, x, _ => old + x
  | .minS, old, x, _ => if old.toInt ≤ x.toInt then old else x
  | .minU, old, x, _ => if old.toNat ≤ x.toNat then old else x
  | .maxS, old, x, _ => if old.toInt ≥ x.toInt then old else x
  | .maxU, old, x, _ => if old.toNat ≥ x.toNat then old else x
  | .swap, _, x, _ => x
  | .cas, old, x, y => if old = y then x else old

/-- The code of an operation in an ATOMIC (R405). -/
def AtomicOp.code : AtomicOp → Nat
  | .add => 0 | .minS => 1 | .minU => 2 | .maxS => 3 | .maxU => 4 | .swap => 5 | .cas => 6

/-- Whether the host memory window takes an atomic (R64). -/
def AtomicOp.onHost : AtomicOp → Bool
  | .add | .swap | .cas => true
  | _ => false

/-- A memory-side atomic on a word: the firewall first, then the refusals of R64, then the read through error correction
and the write (R47, R63). On the host memory window it travels as a PCIe AtomicOp, which the host may answer with Unsupported Request (R64). -/
def State.atomic (s : State) (o : Origin) (op : AtomicOp) (a : Nat) (x y : DWord) : State × Except AccErr DWord :=
  let p := s.place a
  match p.target with
  | none => (s, .error ⟨stAddress, addrDetail a⟩)
  | some t =>
    if !s.fwPasses t o .atomic a 8 then (s.fwDeny t o a, .error ⟨stFirewall, addrDetail a⟩)
    else if a % 8 ≠ 0 ∨ !s.valid o .atomic a 8 p then (s, .error ⟨stAddress, addrDetail a⟩)
    else match p with
      | .hbm _ =>
        match s.eccWords o (wordsOf (a / 32 * 32) 32) with
        | (s, some e) => (s, .error e)
        | (s, none) =>
          let old := BitVec.ofNat 64 (bytesToNat (memRead s.hbm a 8))
          ({ s with hbm := memWrite s.hbm a (natToBytes 8 (op.apply old x y).toNat) }, .ok old)
      | .sap _ =>
        match s.eccWord o a with
        | (s, some e) => (s, .error e)
        | (s, none) =>
          let old := BitVec.ofNat 64 (bytesToNat (memRead s.sap a 8))
          (({ s with sap := memWrite s.sap a (natToBytes 8 (op.apply old x y).toNat) }).clearErrs a (a + 8), .ok old)
      | .hostWin =>
        if !op.onHost then (s, .error ⟨stAddress, addrDetail a⟩)
        else
          let h := s.hostAddr o.part a
          let s := s.emit (.hostAtomic (s.ownerFn o.part) h op.code)
          let (k, s) := s.choose 2
          if k = 1 then (s, .error ⟨stAddress, addrDetail a⟩)
          else
            let old := BitVec.ofNat 64 (bytesToNat (memRead s.host h 8))
            ({ s with host := memWrite s.host h (natToBytes 8 (op.apply old x y).toNat) }, .ok old)
      | _ => (s, .error ⟨stAddress, addrDetail a⟩)

/-! Ownership of memory. A partition owns what windows give it. -/

/-- Whether one enabled window of a target gives a range to a partition. -/
def State.windowGives (s : State) (t part lo hi : Nat) : Bool :=
  (List.range 64).any (fun w =>
    let i := t * 64 + w
    s.rdB Fld.brkFwCtl_enable i && !s.winHeld i && decide (s.winBase i ≤ lo) && decide (hi ≤ s.winLimit i)
      && (s.rdB Fld.brkFwCtl_any_partition i || s.rdN Fld.brkFwCtl_partition i == part))

/-- Whether a partition owns every byte of [lo, hi). In contiguous mode an HBM range is judged stack by stack, and in
interleaved mode by all four stacks. -/
def State.owns (s : State) (part lo hi : Nat) : Bool :=
  if lo ≥ hi then false
  else if hi ≤ 0x100000000000 then
    if s.rdB Fld.hbmMapCtrl_map_mode then (List.range 4).all (fun t => s.windowGives t part lo hi)
    else
      let sz := stackBytes s.variant
      decide (hi ≤ 4 * sz) && (List.range 4).all (fun t =>
        let l := max lo (t * sz)
        let h := min hi ((t + 1) * sz)
        decide (l ≥ h) || s.windowGives t part l h)
  else if 0x100000000000 ≤ lo ∧ hi ≤ 0x200000000000 then
    decide (lo / 0x100000000 = (hi - 1) / 0x100000000) && s.windowGives (4 + getBits lo 32 2) part lo hi
  else if 0x800000000000 ≤ lo ∧ hi ≤ 0x1000000000000 then s.windowGives 10 part lo hi
  else false

/-- Whether every byte of an HBM range is usable. -/
def State.hbmRangeUsable (s : State) (lo hi : Nat) : Bool :=
  if lo ≥ hi then false
  else if s.rdB Fld.hbmMapCtrl_map_mode then
    s.hbmUsable (hi - 1) && (List.range (min 4 ((hi - 1) / 4096 - lo / 4096 + 1))).all (fun i => s.stackAwake ((lo / 4096 + i) % 4))
  else
    let sz := stackBytes s.variant
    decide (hi ≤ 4 * sz) && (List.range 4).all (fun t =>
      let l := max lo (t * sz)
      let h := min hi ((t + 1) * sz)
      decide (l ≥ h) || (s.stackAwake t && decide (h - t * sz ≤ s.stackTop t)))

/-- An HBM range that is usable and owned by a partition. -/
def State.hbmOk (s : State) (part lo n : Nat) : Bool := s.hbmRangeUsable lo (lo + n) && s.owns part lo (lo + n)

/-- Whole granules of HBM are written by a unit of the Crown for itself: no firewall stands before it, and nothing is read first (R46). -/
def State.putHbm (s : State) (a : Nat) (b : List Byte) : State :=
  if s.hbmUsable a && s.hbmUsable (a + b.length - 1) then ({ s with hbm := memWrite s.hbm a b }).clearErrs a (a + b.length) else s

/-- HBM is read by such a unit, through error correction: none where a word has an uncorrectable error (R46, R47). -/
def State.getHbm (s : State) (o : Origin) (a n : Nat) : State × Option (List Byte) :=
  match s.eccWords o (wordsOf a n) with
  | (s, some _) => (s, none)
  | (s, none) => (s, some (memRead s.hbm a n))

/-- Whether every byte of [off, off + n) of a tile's slice is usable. -/
def State.sliceUsable (s : State) (stem tile off n : Nat) : Bool :=
  decide (off + n ≤ sliceBanks s.variant * 0x20000) &&
    (List.range 12).all (fun b =>
      decide ((b + 1) * 0x20000 ≤ off) || decide (off + n ≤ b * 0x20000) ||
        s.bankState ⟨stem, tile, b⟩ == bankOn)

/-- A command that meets an access error ends with it. -/
def State.failAcc (s : State) (id : Nat) (e : AccErr) : State := s.finish id e.status e.detail

end Sys2Proof.Machine
end

