-- ==== Sys2Proof/Machine/Descriptor.lean ====
section
/-! DEFINITION. What a descriptor chain must look like (R15, R80 to R84): the form of a command, and the checks that any
form gives rise to. Each chapter's forms stand in a file of their own; Machine/Forms.lean puts them together. -/
namespace Sys2Proof.Machine

/-- Where a field stands: extension index, first byte, lowest bit from that byte, width (R11). -/
abbrev FieldAt := Nat × Nat × Nat × Nat

/-- The form of a command's descriptor chain. `bad` and `own` list conditions with the chain offset of the field that they
concern (R119): an illegal value, and a resource that is owned elsewhere. -/
structure Form where
  admin : Bool := false
  /-- Number of extension descriptors. -/
  exts : Cmd → Nat := fun _ => 0
  /-- Fields of the bodies that are in use; every other body bit is reserved. -/
  used : Cmd → List FieldAt := fun _ => []
  bad : State → Cmd → List (Bool × Nat) := fun _ _ => []
  own : State → Cmd → List (Bool × Nat) := fun _ _ => []

/-- A field of whole bytes. -/
def bytesAt (ext byte n : Nat) : FieldAt := (ext, byte, 0, 8 * n)

/-- Whole-byte fields of the base descriptor: (byte, count). -/
def baseBytes (l : List (Nat × Nat)) : List FieldAt := l.map (fun p => (0, p.1, 0, 8 * p.2))

/-- The four tile masks of R284. -/
def maskBytes (ext : Nat) : FieldAt := (ext, 32, 0, 256)

/-- A mask of w ones from bit lo. -/
def onesAt (lo w : Nat) : Nat := (2 ^ w - 1) <<< lo

/-- The used bits of the header and the tail (R80, R81). -/
def headTailMask : Nat := onesAt 0 22 ||| onesAt 32 96 ||| onesAt 384 12 ||| onesAt 400 96

/-- The used bits of an extension's first four bytes (R83). -/
def extHeadMask : Nat := onesAt 0 12 ||| onesAt 16 8

/-- The used bits of descriptor `ext` under a form. -/
def Form.mask (f : Form) (c : Cmd) (ext : Nat) : Nat :=
  (f.used c).foldl (fun m u => if u.1 = ext then m ||| onesAt (8 * u.2.1 + u.2.2.1) u.2.2.2 else m)
    (if ext = 0 then headTailMask else extHeadMask)

/-- The lowest byte of a descriptor that holds a set bit outside a mask. -/
def lowestStray (d mask : Nat) : Option Nat :=
  (List.range 64).find? (fun i => getBits (d &&& (2 ^ 512 - 1 - mask)) (8 * i) 8 != 0)

/-- Check 3 of R84: the chain offset of the first reserved bit that is set. -/
def Form.reservedAt (f : Form) (c : Cmd) : Option Nat :=
  (List.range c.descs.length).findSome? (fun i =>
    match c.descs[i]? with
    | some d => (lowestStray d.toNat (f.mask c i)).map (fun b => 64 * i + b)
    | none => none)

/-- The least offset among conditions that hold. -/
def leastBad (l : List (Bool × Nat)) : Option Nat :=
  l.foldl (fun a p => if p.1 then (match a with | some x => some (min x p.2) | none => some p.2) else a) none

/-- Check 2 of R84: the index of the first extension that is missing, out of order, of the wrong class or not expected. -/
def chainFault (c : Cmd) (want : Nat) : Option Nat :=
  let have_ := c.descs.length - 1
  let bad := (List.range (min want have_)).find? (fun k =>
    match c.descs[k + 1]? with
    | some d => getBits d.toNat 0 8 != 0xFE || getBits d.toNat 8 4 != c.engineClass || getBits d.toNat 16 8 != k + 1
    | none => true)
  match bad with
  | some k => some (k + 1)
  | none => if have_ = want then none else some (min have_ want + 1)

/-- The function that a ring group belongs to. -/
def State.groupFn (s : State) (g : Nat) : Option Nat :=
  (s.queues.groups.find? (fun x => x.num == g)).map (·.fn)

/-- The function that owns a group: groups 0 to 63 belong to functions 0 to 63 from reset (R72). -/
def State.groupOwner (s : State) (g : Nat) : Option Nat := if g < 64 then some g else s.groupFn g

/-- The checks of R84 in order, under a form: the first that fails decides status and detail. -/
def State.checkChain (s : State) (f : Form) (c : Cmd) : Option (Half × Word) :=
  match chainFault c (f.exts c) with
  | some i => some (stChain, BitVec.ofNat 32 i)
  | none =>
  match f.reservedAt c with
  | some off => some (stReservedField, BitVec.ofNat 32 off)
  | none =>
  let wc := c.f 0 10 0 4
  let headBad : List (Bool × Nat) := [(decide (wc > 1), 10), (wc == 1 && c.b 8 2 == 0, 8), (c.counterPtr % 64 != 0, 56)]
  match leastBad (headBad ++ f.bad s c) with
  | some off => some (stBadValue, BitVec.ofNat 32 off)
  | none =>
  if !s.cqUsable c.fn c.cq then some (stCqInvalid, BitVec.ofNat 32 c.cq)
  else if f.admin && c.sq != adminRing c.fn then some (stNotAdmin, 0)
  else
  let knotBad := [(wc == 1 && !s.ownsKnot c.part (c.b 8 2), 8),
                  (c.signalKnot != 0 && !s.ownsKnot c.part c.signalKnot, 52)]
  match leastBad (knotBad ++ f.own s c) with
  | some off => some (stOwnership, BitVec.ofNat 32 off)
  | none => none

/-! Forms of the commands of 03_command_queues.md (R110 to R118). -/

/-- A ring that is ring 16f of a function f. -/
def isAdminRing (n : Nat) : Bool := n % 16 == 0 && decide (n < 1024)

/-- A package that a partition has loaded. -/
def State.package? (s : State) (part h : Nat) : Option Package :=
  s.queues.packages.find? (fun p => p.part == part && p.handle == h)

/-- A chip value that R118 forbids: reserved IDs. -/
def badChip (n : Nat) : Bool := decide (0x8000 ≤ n) && n != 0xFFFF

/-- Whether a chip value names this chip. -/
def State.isLocalChip (s : State) (n : Nat) : Bool := n == 0xFFFF || n == s.chipId

/-- Forms of class 0x0, opcodes 0x01 to 0x09. -/
def formGeneric : Nat → Option Form
  | 0x01 => some
    { admin := true
      used := fun _ => [(0, 16, 0, 12), (0, 18, 0, 7), (0, 19, 0, 2), (0, 20, 0, 5), bytesAt 0 24 8]
      bad := fun _ c => [(isAdminRing (c.f 0 16 0 12), 16), (c.f 0 20 0 5 < 4 || c.f 0 20 0 5 > 16, 20),
                         (c.b 24 8 % 4096 != 0, 24)]
      own := fun s c => [(s.groupOwner (c.f 0 16 0 12 / 16) != some c.fn, 16), (c.f 0 18 6 1 == 1 && c.fn != 0, 18)] }
  | 0x02 => some
    { admin := true
      used := fun _ => [(0, 16, 0, 12), (0, 18, 0, 11), (0, 20, 0, 5)] ++ baseBytes [(21, 1), (22, 2), (24, 8), (32, 2)]
      bad := fun _ c => [(isAdminRing (c.f 0 16 0 12), 16), (c.f 0 20 0 5 < 4 || c.f 0 20 0 5 > 16, 20),
                         (c.b 24 8 % 4096 != 0, 24)]
      own := fun s c => [(s.groupOwner (c.f 0 16 0 12 / 16) != some c.fn, 16)] }
  | 0x03 => some
    { admin := true
      used := fun _ => [(0, 16, 0, 12), bytesAt 0 18 1]
      bad := fun _ c => [(c.b 18 1 > 4, 18)]
      own := fun s c => [(c.fn != 0 && s.groupOwner (c.f 0 16 0 12 / 16) != some c.fn, 16)] }
  | 0x04 => some
    { admin := true
      used := fun _ => baseBytes [(16, 1), (24, 8), (32, 8)]
      bad := fun _ c => [(c.b 16 1 != 0 && c.b 16 1 < 64, 16), (c.b 24 8 % 64 != 0, 24), (c.b 32 8 % 64 != 0, 32)] }
  | 0x05 => some
    { admin := true
      used := fun _ => baseBytes [(16, 1)]
      bad := fun _ c => [(c.b 16 1 < 64, 16)]
      own := fun s c => [(s.groupOwner (c.b 16 1) != some c.fn, 16)] }
  | 0x06 => some { used := fun _ => baseBytes [(24, 8), (32, 4)] }
  | 0x07 => some
    { used := fun _ => baseBytes [(16, 2)]
      own := fun s c => [((s.package? c.part (c.b 16 2)).isNone, 16)] }
  | 0x08 => some
    { used := fun _ => baseBytes [(16, 2), (18, 2), (20, 4), (24, 8), (32, 4)]
      bad := fun _ c => [(c.b 24 8 % 64 != 0, 24), (c.b 18 2 > 255, 18)]
      own := fun s c => [((s.package? c.part (c.b 16 2)).isNone, 16),
        (!(s.ingest.sets.any (fun x => x.num == c.b 18 2 && x.part == c.part)), 18)] }
  | 0x09 => some
    { used := fun _ => [(0, 16, 0, 2), (0, 17, 0, 6), (0, 18, 0, 12), bytesAt 0 20 1]
      bad := fun s c => [(c.f 0 18 0 12 ≥ 2 ^ sliceBanks s.variant, 18), (c.b 20 1 > 1, 20)]
      own := fun s c => [(!((bitList 12 (c.f 0 18 0 12)).all (fun b =>
        let lo := bankBase ⟨c.f 0 16 0 2, c.f 0 17 0 6, b⟩
        s.owns c.part lo (lo + 0x20000))), 18)] }
  | _ => none

/-- Forms of class 0xC (R110, R118). -/
def formKnot : Nat → Option Form
  | 0x00 => some {}
  | 0x01 => some
    { used := fun _ => baseBytes [(16, 2), (18, 2), (20, 8)]
      bad := fun _ c => [(badChip (c.b 16 2), 16), (c.b 18 2 == 0, 18)]
      own := fun s c => [(s.isLocalChip (c.b 16 2) && !s.ownsKnot c.part (c.b 18 2), 18)] }
  | 0x02 => some
    { used := fun _ => baseBytes [(16, 2), (18, 2), (20, 8)]
      bad := fun s c => [(!s.isLocalChip (c.b 16 2), 16), (c.b 18 2 == 0, 18)]
      own := fun s c => [(!s.ownsKnot c.part (c.b 18 2), 18)] }
  | 0x03 => some
    { used := fun _ => baseBytes [(16, 2), (18, 2), (20, 8)] ++ [(0, 28, 0, 11)]
      bad := fun s c => [(!s.isLocalChip (c.b 16 2), 16), (c.b 18 2 == 0, 18)]
      own := fun s c => [(!s.ownsKnot c.part (c.b 18 2), 18)] }
  | _ => none

end Sys2Proof.Machine
end

