-- ==== Sys2Proof/Machine/Work.lean ====
section
/-! DEFINITION. What a command in flight leaves when it is terminated or retires (R65, R90, R107, R232, R249, R279, R317,
R318, R360, R378, R386), the states of a submission ring (R104 to R108), and orders. -/
namespace Sys2Proof.Machine

/-! Work of a terminated command. -/

/-- A change to a voxel table. -/
def State.updTable (s : State) (t : Nat) (f : Table → Table) : State :=
  { s with compute := { s.compute with tables := updWhere s.compute.tables (fun x => x.id == t) f } }

/-- A VHE's unit ID (R512). -/
def vheUnit (stem engine : Nat) : Nat := unitId 3 stem engine

/-- A counter of a VHE goes up: for a command, or for the frame whose points a table takes (R210). -/
def State.tallyFor (s : State) (cmd : Option Nat) (table unit code n : Nat) : State :=
  let s := s.tally cmd unit code n
  if cmd.isSome then s else s.updTable table (fun t => { t with frameCounts := addCount t.frameCounts unit code n })

/-- Points that a table counts as failed (R206). -/
def State.failPoints (s : State) (t : Table) (cmd : Option Nat) (n : Nat) : State :=
  if n = 0 then s
  else (s.tallyFor cmd t.id (vheUnit t.cfg.firstStem 0) 0x0206 n).updTable t.id (fun t => { t with
    counts := { t.counts with failedPoints := t.counts.failedPoints + n } })

/-- A convolution fails after dispatch, or is killed: the output table that it holds is FAILED (R232). -/
def State.failOutTable (s : State) (id : Nat) : State :=
  { s with compute := { s.compute with
      tables := updWhere s.compute.tables (fun t => t.heldBy == some id) (fun t => { t with state := .failed }) } }

/-- Passes of a command that had begun are discarded and counted (R279, R288). -/
def State.discardPasses (s : State) (id : Nat) : State :=
  (s.compute.items.filter (fun w => w.cmd == id && !w.done && !w.suspended)).foldl (fun s w =>
    match w.tile with
    | some t => (s.count Fld.tileStemDiscarded_passes_discarded 1 w.stem).tally (some id) (unitId 5 w.stem t) 0x0402 1
    | none => s) s

/-- Spill chunks in use on a Stem go down by some (R258). -/
def State.freeSpill (s : State) (stem n : Nat) : State :=
  s.wrN Fld.kmeStemSpillUse_in_use (s.rdN Fld.kmeStemSpillUse_in_use stem - n) stem

/-- Spill chunks that a convolution holds are given back (R240). -/
def State.returnChunks (s : State) (id : Nat) : State :=
  match s.compute.convs.find? (fun v => v.cmd == id) with
  | some v => if v.mapOnly then s else v.groups.foldl (fun s g => s.freeSpill g.stem g.chunks.length) s
  | none => s

/-- Whether the answer to a request is awaited by a command, or by a thread of it. -/
def ReqOwner.of (id : Nat) : ReqOwner → Bool
  | .command x => x == id
  | .thread x _ _ _ => x == id
  | .firmware => false

/-- A thread of a command that has ended: it issues no more, and holds its slot until the command retires (R293, R310). -/
def Thread.stopped (t : Thread) : Thread :=
  { t with state := .exited, pendingResult := none, knotWait := none, yielded := false, acquire := false }

/-- Every engine drops the work of a command. Outputs already written stay in memory and are invalid. A program that has started keeps its
slots and its arrays until the command retires (R293, R306). -/
def State.dropWork (s : State) (id : Nat) : State :=
  let s := ((s.failOutTable id).discardPasses id).returnChunks id
  let c := s.compute
  let s := { s with
    compute := { c with
      convs := c.convs.filter (fun v => v.cmd != id),
      items := c.items.filter (fun w => w.cmd != id),
      generators := c.generators.filter (fun g => g.1 != id),
      programs := updWhere (c.programs.filter (fun (p : Program) => p.cmd != id || p.started)) (fun p => p.cmd == id)
        (fun p => { p with suspending := [] }),
      threads := updWhere c.threads (fun t => t.cmd == id && t.state != ThreadState.suspended) Thread.stopped,
      tables := updWhere c.tables (fun _ => true) (fun t => { t with
        queue := t.queue.filter (fun (b : QBatch) => b.cmd != some id),
        done := t.done + (t.queue.filter (fun (b : QBatch) => b.cmd == some id)).length,
        inserts := t.inserts.filter (fun (i : Nat × Nat) => i.1 != id),
        orders := t.orders.filter (fun (o : TableOrder) => o.cmd != id) }) },
    canopy := { s.canopy with runs := s.canopy.runs.filter (fun r => r.cmd != id) },
    sort := { s.sort with runs := s.sort.runs.filter (fun r => r.cmd != id) } }
  let g := s.gather
  let s := { s with
    gather := { g with
      runs := g.runs.filter (fun r => r.cmd != id),
      tables := updWhere g.tables (fun p => p.destroyCmd == some id) (fun p => { p with destroyCmd := none }),
      fetches := g.fetches.filter (fun f => f.cmd != id),
      puts := g.puts.filter (fun p => p.cmd != id),
      putRuns := g.putRuns.filter (fun p => p.cmd != id),
      orders := g.orders.filter (fun o => o.cmd != id) } }
  let b := s.bark
  { s with
    queues := { s.queues with runs := s.queues.runs.filter (fun r => r.cmd != id) },
    fabric := { s.fabric with
      requests := s.fabric.requests.filter (fun r => !r.owner.of id),
      waiting := s.fabric.waiting.filter (fun r => !r.1.owner.of id),
      reads := s.fabric.reads.filter (fun r => r.cmd != id) },
    security := { s.security with staging := if s.security.staging == some id then none else s.security.staging },
    bark := { b with sampleSets := b.sampleSets.filter (fun x => x.cmd != some id) },
    twin := { s.twin with
      own := s.twin.own.filter (fun w => w.cmd != some id),
      frames := s.twin.frames.filter (fun w => w.cmd != id) },
    power := { s.power with
      offCmds := s.power.offCmds.filter (fun x => x.2 != id),
      onCmds := s.power.onCmds.filter (fun x => x.2 != id) } }

/-- What firmware allocated for a command goes when it retires: its voxel tables, whose routed points still on their way have failed, its
maps and their history (R8, R329). -/
def State.freeUnits (s : State) (id : Nat) : State :=
  let ts := s.compute.tables.filter (fun t => t.firmware == some id)
  let s := ts.foldl (fun s t => s.failPoints t none ((t.queue.filter (fun b => b.cmd.isNone)).map (fun b => b.points.length)).sum) s
  { s with
    compute := { s.compute with tables := s.compute.tables.filter (fun t => t.firmware != some id) },
    canopy := { s.canopy with
      maps := s.canopy.maps.filter (fun m => m.firmware != some id), history := s.canopy.history.filter (fun h => h.cmd != id) } }

/-- A unit that a command named is free again once the command retires (R8, R233, R318, R378): pins and holds end, and
blocks that a successful command wrote become valid (R317). -/
def State.releaseUnits (s : State) (id : Nat) (ok : Bool) : State :=
  let s := s.freeUnits id
  let c := s.compute
  { s with
    compute := { c with
      tables := updWhere c.tables (fun _ => true) (fun t => { t with
        pins := t.pins.filter (fun x => x != id),
        heldBy := if t.heldBy == some id then none else t.heldBy }),
      threads := c.threads.filter (fun t => t.cmd != id),
      programs := c.programs.filter (fun p => p.cmd != id) },
    canopy := { s.canopy with
      maps := updWhere s.canopy.maps (fun _ => true) (fun m => { m with
        valid := if ok then (m.holds.filter (fun h => h.cmd == id)).foldl (fun v h => v ||| h.mask) m.valid else m.valid,
        pins := m.pins.filter (fun p => p.cmd != id),
        holds := m.holds.filter (fun p => p.cmd != id) }) },
    gather := { s.gather with
      tables := updWhere s.gather.tables (fun _ => true) (fun t => { t with firmware := if t.firmware == some id then none else t.firmware }) } }

/-- A live version of a prior table. -/
def State.version? (s : State) (t slot gen : Nat) : Option Version :=
  (s.prior? t).bind (fun p => p.versions.find? (fun v => v.slot == slot && v.gen == gen))

/-- A change to a prior table. -/
def State.updPrior (s : State) (t : Nat) (f : Prior → Prior) : State :=
  { s with gather := { s.gather with tables := updWhere s.gather.tables (fun p => p.id == t) f } }

/-- The members of an HBM region of a version, its directory and its rows, that cached copies serve: a version that is
freed leaves no Burl row (R383). -/
def State.dropBurlOf (s : State) (t gen : Nat) : State :=
  { s with gather := { s.gather with
      rows := s.gather.rows.filter (fun r => r.table != t || r.gen != gen),
      filter := s.gather.filter.filter (fun r => r.table != t || r.gen != gen) } }

/-- A member that no longer pins a RETIRING version reports it to the home chip: here when this chip is home, else by a
report on its way (R378). -/
def State.reportUnpinned (s : State) (t slot gen : Nat) : State :=
  match s.prior? t, s.version? t slot gen with
  | some p, some v =>
    let pinned := s.gather.pins.any (fun x => x.table == t && x.slot == slot && x.gen == gen)
    let r : UnpinReport := { table := t, slot := slot, gen := gen, member := s.chipId }
    if v.state == .retiring && !pinned && !s.gather.reports.contains r && !s.gather.reported.contains r && !p.members.isEmpty then
      { s with gather := { s.gather with reports := s.gather.reports ++ [r] } }
    else s
  | _, _ => s

/-- The pins of a lookup command end at its retirement (R378, R386). -/
def State.unpin (s : State) (id : Nat) : State :=
  let ps := s.gather.pins.filter (fun p => p.cmd == id)
  let s := { s with gather := { s.gather with pins := s.gather.pins.filter (fun p => p.cmd != id) } }
  ps.foldl (fun s p => s.reportUnpinned p.table p.slot p.gen) s

/-! Orders. -/

/-- The precedence of a function's orders (R103). -/
def orderSource (fn : Nat) : Nat := if fn = 0 then 4 else 5

/-! Submission rings. -/

/-- Whether a command of a ring is in flight: one whose last record is held still is (R86). -/
def State.ringBusy (s : State) (n : Nat) : Bool :=
  s.queues.cmds.any (fun c => c.sq == n) || s.owed (fun q => q.num == n) != 0

/-- A ring enters OFF or ON: the state changes and a ring-state event is posted (R107). -/
def State.ringEnters (s : State) (n : Nat) (st : SqState) : State :=
  match s.sq? n with
  | none => s
  | some q =>
    (s.updSq n (fun q => { q with state := st })).postEvent q.fn 0x0004 n (match st with | .off => 0 | _ => 2)

/-- The read of a ring's doorbell line for STARTING is issued. -/
def State.startRing (s : State) (n : Nat) : State :=
  match s.sq? n with
  | none => s
  | some q =>
    let s := s.updSq n (fun q => { q with state := .starting, reenable := false, drainPending := false, killed := false })
    let line := ((s.queues.groups.find? (fun g => g.num == n / 16)).map (·.dbLine)).getD 0
    if s.holds q.fn then s else s.emit (.hostRead q.fn (line + 4 * (n % 16)) 4)

/-- A draining ring reaches OFF when everything up to the drain point has been fetched and has retired; a pending enable
takes it on through STARTING (R107, R108). -/
def State.settleRing (s : State) (n : Nat) : State :=
  match s.sq? n with
  | none => s
  | some q =>
    if q.state == .draining && (q.killed || q.fetched == q.drainPoint) && !s.ringBusy n then
      let re := q.reenable
      let s := s.ringEnters n .off
      let s := s.updSq n (fun q => { q with killed := false, reading := 0 })
      if re then s.startRing n else s
    else s

/-- The Sapwood banks that were taken for a package are released: the partition keeps them, and where it asks for it they are zeroed
(R65). -/
def State.releaseBanks (s : State) (p : Package) : State :=
  if !(s.rdN Fld.sapScrubOnRelease_scrub_on_release).testBit p.part then s
  else (p.banks.filter (fun b => s.owns p.part (bankBase b) (bankBase b + 0x20000))).foldl (fun s b => s.startScrub (.bank b) none) s

/-- The Sapwood banks taken for the package of a killed RUN are released (R65). -/
def State.scrubKilled (s : State) (id : Nat) : State :=
  match s.queues.runs.find? (fun r => r.cmd == id) with
  | none => s
  | some r =>
    match s.queues.packages.find? (fun p => p.part == r.part && p.handle == r.handle) with
    | none => s
    | some p => s.releaseBanks p

/-- A command is terminated with a status (R107, R458): its engine work stops and is dropped. One whose engine work has failed before
keeps its status; a failure of the same stamp gives way to the kill (R280, R311, R361, R387). -/
def State.killCmd (s : State) (id : Nat) (st : Half) (detail : Word) : State :=
  match s.cmd? id with
  | none => s
  | some c =>
    if c.failedCheck || c.recorded then s
    else if c.phase == .finished && isFailure c.status && (c.killed || c.endNs != s.now) then s
    else
      let s := (s.scrubKilled id).dropWork id
      s.updCmd id (fun c => { c with phase := .finished, status := st, detail := detail, killed := true, endNs := s.now,
                                     startNs := if c.phase == .waiting then s.now else c.startNs })

/-- Every command of a ring is terminated. -/
def State.killCmdsOf (s : State) (n : Nat) (st : Half) (detail : Word) : State :=
  (s.queues.cmds.filter (fun c => c.sq == n)).foldl (fun s c => s.killCmd c.id st detail) s

/-- A ring is killed (R107): fetching stops at once, its commands are terminated, and it reaches OFF when the last of them
has retired. -/
def State.killRing (s : State) (n : Nat) : State :=
  match s.sq? n with
  | none => s
  | some q =>
    if q.state == .off then s
    else
      let s := s.updSq n (fun q => { q with
        state := .draining, killed := true, drainPoint := q.fetched, drainPending := false, reading := 0,
        reenable := if q.state == .draining then q.reenable else false })
      (s.killCmdsOf n stKilled 0).settleRing n

end Sys2Proof.Machine
end

