-- ==== Sys2Proof/Machine/Retire.lean ====
section
/-! DEFINITION. The end of a command: the counter record (R513 to R519), the completion record (R91, R95, R98), the signal
(R90, R102) and the order of these (R90, R519, R595). -/
namespace Sys2Proof.Machine

/-- The Queue Manager's unit ID (R512). -/
def qmUnit : Nat := unitId 0 0 0

/-! The counter record. -/

/-- Places an entry in a list in ascending unit and code. -/
def insertEntry (e : CountEntry) : List CountEntry → List CountEntry
  | [] => [e]
  | x :: r => if e.unit * 65536 + e.code < x.unit * 65536 + x.code then e :: x :: r else x :: insertEntry e r

/-- Entries in ascending unit ID, and within a unit in ascending code (R519). -/
def sortEntries (l : List CountEntry) : List CountEntry := l.foldl (fun acc e => insertEntry e acc) []

/-- The unit ID that an entry is written under: its own, or the aggregate of its kind and Stem (R512, R516). -/
def entryUnit (perUnit : Bool) (u : Nat) : Nat := if perUnit then u else u / 1024 * 1024 + 0x3FF

/-- The island code of an entry (R517): nanoseconds, cycles of the unit's island, or a plain count. -/
def entryIsland (unit code : Nat) : Nat :=
  if code = 0 ∨ code = 2 ∨ code = 0x0902 then 6
  else if code = 1 then
    (match unit / 4096 with
     | 5 => 0
     | 0 | 9 | 10 | 11 | 12 => 3
     | 13 => 5
     | 14 => 2
     | _ => 1)
  else 7

/-- The 16 bytes of an entry (R517). -/
def entryBytes (e : CountEntry) : List Byte :=
  let sat := if e.value.toNat = 2 ^ 64 - 1 then 2 else 0
  natToBytes 2 e.code ++ natToBytes 2 e.unit ++ natToBytes 1 (entryIsland e.unit e.code)
    ++ natToBytes 1 ((if codeIsMax e.code then 1 else 0) + sat) ++ natToBytes 2 0 ++ natToBytes 8 e.value.toNat

/-- Time that a unit other than the Queue Manager was busy, and its busy cycles: the model keeps no clock per unit, so
each is a free value. -/
def State.drawBusy (s : State) (perUnit : Bool) (l : List CountEntry) : State × List CountEntry :=
  l.foldl (fun (s, acc) e =>
    if e.code = 0 ∧ e.unit ≠ qmUnit then
      let (v, s) := s.draw
      let (w, s) := if perUnit then s.draw else (0, s)
      (s, acc ++ [{ e with value := v }] ++ (if perUnit then [({ unit := e.unit, code := 1, value := w } : CountEntry)] else []))
    else (s, acc ++ [e])) (s, [])

/-- The entries of a command's counter record (R517 to R519). -/
def State.recordEntries (s : State) (c : Cmd) (perUnit : Bool) : State × List CountEntry :=
  let (s, l) := s.drawBusy perUnit c.counts
  let (s, l) := if perUnit then
      let (w, s) := s.draw
      (s, l ++ [({ unit := qmUnit, code := 1, value := w } : CountEntry)])
    else (s, l)
  let l := l.foldl (fun acc e => addCount acc (entryUnit perUnit e.unit) e.code e.value.toNat) []
  (s, sortEntries l)

/-- The bytes of a counter record from byte 4 on (R516): the header's rest and the entries that fit. -/
def counterBytes (c : Cmd) (status : Half) (seq : Nat) (windowEnd issue stop : DWord) (cap : Nat)
    (es : List CountEntry) : List Byte :=
  let put := es.take cap
  natToBytes 4 0x4E434E54 ++ natToBytes 4 seq ++ natToBytes 2 put.length ++ natToBytes 2 (satTo 16 (es.length - put.length))
    ++ natToBytes 2 c.layerId ++ natToBytes 2 c.opId ++ natToBytes 2 status.toNat ++ natToBytes 2 0
    ++ natToBytes 8 c.startNs.toNat ++ natToBytes 8 stop.toNat ++ natToBytes 8 windowEnd.toNat ++ natToBytes 8 issue.toNat
    ++ natToBytes 8 0 ++ put.flatMap entryBytes

/-- A counter record is written: whether every write of it was made or is held for the function (R519, R595). -/
def State.writeCounter (s : State) (c : Cmd) (status : Half) (seq : Nat) (windowEnd stop : DWord) : State × Bool :=
  match c.counterHdr with
  | none => (s, false)
  | some h =>
    let blocks := getBits h 0 8
    let slots := 2 ^ min 8 (getBits h 8 4)
    let perUnit := getBits h 16 1 == 1
    let at_ := c.counterPtr + (seq % slots) * (blocks + 1) * 64
    let (s, es) := s.recordEntries c perUnit
    let bytes := counterBytes c status seq windowEnd s.now stop (4 * blocks) es
    if 0x800000000000 ≤ at_ ∧ s.holds c.fn then
      ({ s with queues := { s.queues with held := s.queues.held ++ [.counter c.fn (at_ + 4) bytes] } }, true)
    else
      match s.store c.origin (at_ + 4) bytes with
      | (s, none) => (s, true)
      | (s, some _) => (s, false)

/-! The completion record. -/

/-- The 32 bytes of a completion record (R91); its phase is added when it is issued. -/
def recordBytes (c : Cmd) (status : Half) (detail : Word) (stop : DWord) (fetched : Word) (final written : Bool) :
    List Byte :=
  natToBytes 2 status.toNat ++ natToBytes 2 c.tag ++ natToBytes 2 (c.sq + 8192 * (if final then 1 else 0))
    ++ natToBytes 2 (fetched.toNat % 65536) ++ natToBytes 8 c.startNs.toNat ++ natToBytes 8 stop.toNat
    ++ natToBytes 4 detail.toNat ++ natToBytes 2 c.opId
    ++ natToBytes 2 (c.twinOutcome % 8 + 8 * (if written then 1 else 0))

/-- The ring that a command's record goes to: its own, or the administrative one of its function where its own is not
usable (R84, R98). -/
def State.recordRing (s : State) (c : Cmd) : Nat := if s.cqUsable c.fn c.cq then c.cq else adminRing c.fn

/-- A command finds no completion slot: from now on it waits for one (R94). -/
def State.lacksSlot (s : State) (id : Nat) : State :=
  s.updCmd id (fun c => { c with slotSince := c.slotSince.or (some s.time.uptime) })

/-- A slot for a command's record: the one it holds, or one reserved now. none: it must wait. some none: the function has
no completion ring that takes records, so none is written. -/
def State.slotFor (s : State) (c : Cmd) : State × Option (Option Nat) :=
  match c.slot with
  | some n => (s, some (some n))
  | none =>
    let n := s.recordRing c
    if !s.cqUsable c.fn n then (s, some none)
    else match s.reserve n with
      | (s, true) => (s.updCmd c.id (fun c => { c with slotSince := none, stalled := false }), some (some n))
      | (s, false) => (s.lacksSlot c.id, none)

/-- Whether the safe state's output policy applies to a partition (R457, R458). -/
def State.safeApplies (s : State) (part : Nat) : Bool :=
  s.mode == 2 && decide (s.rdN Fld.brkSafeCfg_safe_crit ≤ s.maxCrit part)

/-- The status that a completion carries while the safe state holds with FLAG (R458): SAFE_STATE, but for the commands
that the administrative ring of the physical function may dispatch, and for a chain that failed its checks. -/
def State.flagged (s : State) (c : Cmd) (st : Half × Word) : Half × Word :=
  if s.safeApplies c.part && !s.rdB Fld.brkSafeCfg_stop_mode && !c.safeOwn && !c.failedCheck then
    (stSafeState, BitVec.ofNat 32 (s.rdN Fld.brkStatus_safe_source))
  else st

/-- Whether a completion is that of a RUN which a drain ended between two frames: it belongs to no frame (R116). -/
def Cmd.betweenFrames (c : Cmd) (st : Half) : Bool :=
  c.engineClass == 0 && c.opcode == 0x08 && c.phase == .finished && !isFailure st

/-- The signal of a completion (R90, R102): its status after a possible wrap. -/
def State.signalFor (s : State) (c : Cmd) (st : Half × Word) : State × (Half × Word) :=
  if c.signalKnot = 0 ∨ c.betweenFrames st.1 ∨ (isFailure st.1 && !c.signalOnFailure) ∨ (c.failedCheck && !s.ownsKnot c.part c.signalKnot) then
    (s, st)
  else
    let (s, wrapped) := s.signalKnot c.signalKnot (BitVec.ofNat 64 c.signalInc) c.ev
    (s, if wrapped then combine st (stKnotWrap, BitVec.ofNat 32 c.signalKnot) else st)

/-- The counter record of a completion and the status after it (R84, R519): COUNTER_RECORD_FAILED yields to every other code. -/
def State.counterFor (s : State) (c : Cmd) (st : Half × Word) (seq : Nat) (windowEnd stop : DWord) :
    State × (Half × Word) × Bool :=
  if c.counterPtr = 0 ∨ c.failedCheck ∨ c.silent then (s, st, false)
  else
    let (s, ok) := s.writeCounter c st.1 seq windowEnd stop
    (s, if !ok && st.1 == stSuccess then (stCounterFailed, 0) else st, ok)

/-- Whether a completion writes a record (R95). -/
def writesRecord (c : Cmd) (st : Half) : Bool := !c.silent && (!c.onFailureOnly || isFailure st)

/-- A completion's trigger conditions (R523). -/
def State.retireTrigger (s : State) (st : Half) : Bool :=
  (s.rdB Fld.trcTrigger_on_failure && isFailure st)
    || (s.rdB Fld.trcTrigger_on_status && s.rdN Fld.trcTrigger_status == st.toNat)

/-- One completion of a command: signal, counter record, completion record and trace, in the order of R90 and R519. -/
def State.complete (s : State) (c : Cmd) (slot : Option Nat) (st : Half × Word) (seq : Nat) (windowEnd : DWord)
    (final : Bool) : State :=
  let stop := s.now
  let (s, st) := s.signalFor c st
  let (s, st, written) := s.counterFor c st seq windowEnd stop
  let s := s.event qmUnit 0x02 c.ev (natToBytes 2 st.1.toNat ++ natToBytes 4 st.2.toNat) (s.retireTrigger st.1)
  match slot with
  | none => s
  | some n =>
    if writesRecord c st.1 then
      let fetched := ((s.sq? c.sq).map (·.fetched)).getD 0
      s.dueRecord c.fn n (recordBytes c st.1 st.2 stop fetched final written) c.irq
    else s.unreserve n

/-- The time that the Queue Manager counts for a command (R518). -/
def State.qmCounts (s : State) (c : Cmd) : State :=
  if c.failedCheck then s
  else
    let busy := (s.now - c.startNs).toNat
    let wait := (c.startNs - c.fetchNs).toNat
    (s.tally (some c.id) qmUnit 0 busy).tally (some c.id) qmUnit 2 wait

/-- Whether requests of a command to other chips have not been answered yet. -/
def State.awaited (s : State) (id : Nat) : Bool :=
  s.fabric.requests.any (fun r => r.owner.of id) || s.fabric.waiting.any (fun r => r.1.owner.of id)

/-- The counts of the ring that a command's record is due to are compared (R98): the command as it stands after that. -/
def State.checkRingOf (s : State) (c : Cmd) : State × Cmd :=
  let s := s.checkCq (c.slot.getD (s.recordRing c))
  (s, (s.cmd? c.id).getD c)

/-- A finished command retires (R90). Where its record has no slot yet and none is free, or where another chip has not
answered it, it waits. -/
def State.retire (s : State) (id : Nat) : State :=
  match s.cmd? id with
  | none => s
  | some c =>
    if c.phase != .finished || s.awaited id then s
    else
      let (s, c) := if c.silent || c.recorded then (s, c) else s.checkRingOf c
      match (if c.silent || c.recorded then (s, some c.slot) else s.slotFor c) with
      | (s, none) => s
      | (s, some slot) =>
        let s := s.qmCounts c
        let c := (s.cmd? id).getD c
        let st0 : Half × Word := (c.status, c.detail)
        let st := if c.waitSlow then combine st0 (stWaitSlow, BitVec.ofNat 32 (c.b 8 2)) else st0
        let st := if c.silent then st else s.flagged c st
        let s := (s.releaseUnits id (!isFailure st.1)).unpin id
        let s :=
          if c.recorded then s
          else if c.silent then
            (match slot with | some n => s.unreserve n | none => s)
          else s.complete (if c.failedCheck then { c with startNs := s.now } else c) slot st c.frames 0 true
        let s := { s with queues := { s.queues with cmds := s.queues.cmds.filter (fun x => x.id != id) } }
        s.settleRing c.sq

end Sys2Proof.Machine
end

