-- ==== Sys2Proof/Machine/Frames.lean ====
section
/-! DEFINITION. The frames of a RUN (R116): how one starts and how its completion record is written. -/
namespace Sys2Proof.Machine

/-- A RUN in progress. -/
def State.run? (s : State) (cmd : Nat) : Option Run := s.queues.runs.find? (fun r => r.cmd == cmd)

/-- A change to a RUN in progress. -/
def State.updRun (s : State) (cmd : Nat) (f : Run → Run) : State :=
  { s with queues := { s.queues with runs := updWhere s.queues.runs (fun r => r.cmd == cmd) f } }

/-- The oldest frame that waits starts, where no other frame of the RUN is running and its record's slot can be reserved (R116); what
HISTORY_RESET, HISTORY_LIMIT and NMS_OVERRIDE have asked for takes effect (R334, R362). -/
def State.startFrame (s : State) (cmd : Nat) : State :=
  match s.run? cmd, s.cmd? cmd with
  | some r, some c =>
    match r.waiting with
    | [] => s
    | w :: rest =>
      if r.frameActive || r.draining || c.phase != .running then s
      else match s.slotFor c with
        | (s, none) => s
        | (s, some slot) =>
          let s := s.updCmd cmd (fun c => { c with slot := slot, counts := [], twinOutcome := 0 })
          let s := s.updRun cmd (fun r => { r with
            frameActive := true, window := w, waiting := rest, historyReset := s.canopy.resets.contains r.set
            nms := s.sort.overrides.find? (fun o => o.set == r.set)
            historyLimit := (s.canopy.limits.find? (fun x => x.1 == r.set)).map (·.2) })
          { s with canopy := { s.canopy with resets := s.canopy.resets.filter (fun n => n != r.set) } }
  | _, _ => s

/-- Whether a frame is the last of its RUN (R116). -/
def Run.lastFrame (r : Run) : Bool := r.draining || (r.frameCount != 0 && decide (r.seq + 1 ≥ r.frameCount))

/-- A frame ends with a status and a twin outcome: its record is written, its sequence number in the detail of a success, and the last
one ends the RUN; after any other the next frame starts (R90, R116). -/
def State.frameDone (s : State) (cmd : Nat) (st : Half × Word) (outcome : Nat) : State :=
  match s.run? cmd, s.cmd? cmd with
  | some r, some c =>
    if !r.frameActive then s
    else
      let s := s.qmCounts c
      let c := { (s.cmd? cmd).getD c with twinOutcome := outcome }
      let last := r.lastFrame
      let st := if c.waitSlow && last then combine st (stWaitSlow, BitVec.ofNat 32 (c.b 8 2)) else st
      let st : Half × Word := if st.1 = stSuccess then (st.1, BitVec.ofNat 32 r.seq) else st
      let st := s.flagged c st
      let s := s.complete c (some (c.slot.getD c.cq)) st r.seq (BitVec.ofInt 64 r.window.stop) last
      let s := s.updCmd cmd (fun c => { c with
        slot := none, counts := [], frames := c.frames + 1, twinOutcome := outcome, recorded := last })
      if last then
        let s := { s with queues := { s.queues with runs := s.queues.runs.filter (fun r => r.cmd != cmd) } }
        s.finish cmd st.1 st.2
      else (s.updRun cmd (fun r => { r with frameActive := false, seq := r.seq + 1 })).startFrame cmd
  | _, _ => s

end Sys2Proof.Machine
end

