-- ==== Sys2Proof/Machine/Bark.lean ====
section
/-! DEFINITION. Bark: a report's processing (R455, R471), the safe state (R457, R458), the dumps that a fatal report asks for
(R527, R528), the vector limit, and the commands BARK_REPORT and BARK_VECTOR_HOLD_EXPIRE. -/
namespace Sys2Proof.Machine

/-- Bark's unit ID (R512). -/
def barkUnit : Nat := unitId 13 0 0

/-- The physical function's vector for Bark (R455): raised at most once a millisecond; a raise that falls within a
millisecond of the last message is held and merged. -/
def State.barkVector (s : State) : State :=
  match s.bark.lastVectorNs with
  | some t =>
    if !s.passed t 1000000 then { s with bark := { s.bark with vectorHeld := true } }
    else ({ s with bark := { s.bark with lastVectorNs := some s.time.uptime } }).raise 0 (s.rdN Fld.brkSafeCfg_vector)
  | none => ({ s with bark := { s.bark with lastVectorNs := some s.time.uptime } }).raise 0 (s.rdN Fld.brkSafeCfg_vector)

/-- BARK_VECTOR_HOLD_EXPIRE: the millisecond after the last message has ended, and one message is sent for the held
raises (R455). -/
def execBarkVectorHoldExpire (s : State) : Host.Outcome State Fault Refusal :=
  answer s true (if s.bark.vectorHeld && s.duePeriod s.bark.lastVectorNs 1000000 then
      ({ s with bark := { s.bark with vectorHeld := false, lastVectorNs := some s.time.uptime } }).raise 0
        (s.rdN Fld.brkSafeCfg_vector)
    else s)

/-- A dump slot that holds no unfreed dump and is not being written (R528). -/
def State.freeDumpSlot (s : State) : Option Nat :=
  (List.range 2).find? (fun i => !(s.rdN Fld.trcDumpStatus_slot_full).testBit i && !s.observe.dumps.any (fun d => d.slot == i))

/-- Bark captures a dump: into the next free slot, or it is lost and counted (R527, R528). -/
def State.captureDump (s : State) (reason unit : Nat) : State :=
  if s.rdN Fld.trcDumpBase_base == 0 then s.countSat Fld.trcDumpStatus_dumps_lost 1
  else match s.freeDumpSlot with
    | none => s.countSat Fld.trcDumpStatus_dumps_lost 1
    | some i =>
      let o := s.observe
      { s with observe := { o with
          dumps := o.dumps ++ [({ seq := o.dumpSeq, reason := reason, unit := unit, time := s.leaf barkIsland, slot := i } : Dump)],
          dumpSeq := o.dumpSeq + 1 } }

/-- The payloads of the MGMT packets that carry a twin message (R432): byte 0 is its subtype, and one of more than 512 bytes travels in
fragments with their offsets and the total length. -/
def twinPayloads (bytes : List Byte) : List (List Byte) :=
  if bytes.length ≤ 512 then [bytes]
  else (List.range (ceilDiv bytes.length 512)).map (fun i =>
    bytes.take 1 ++ [0] ++ natToBytes 4 (512 * i) ++ natToBytes 4 bytes.length ++ List.replicate 6 0 ++ (bytes.drop (512 * i)).take 512)

/-- A message is sent to the twin partner while the twin link is UP (R403, R432). -/
def State.sendTwin (s : State) (bytes : List Byte) : State :=
  match s.twinLink with
  | none => s
  | some l =>
    if s.rdN Fld.wblLinkStatus_state l != 2 then s
    else (twinPayloads bytes).foldl (fun s p =>
      s.inject { dst := 1 - s.chipId, src := s.chipId, cls := 3, type := 0x18, payload := p }) s

/-- Every submission ring of a partition but ring 0 enters ERROR under Bark's latched order (R103, R458). -/
def State.latchRings (s : State) (parts : Nat → Bool) : State :=
  let hit (q : Sq) := parts q.part && q.num != 0
  let nums := (s.queues.sqs.filter hit).map (·.num)
  let s := { s with queues := { s.queues with
    sqs := updWhere s.queues.sqs hit (fun q => { q with state := .error, reenable := false, drainPending := false,
                                                        killed := false, reading := 0 }),
    latched := s.queues.latched ++ nums.filter (fun n => !s.queues.latched.contains n) } }
  let s := nums.foldl (fun s n => s.order qmUnit 1 {} (natToBytes 2 0x0003 ++ natToBytes 2 n)) s
  s.wrB Fld.brkStatus_latched true

/-- The output policy STOP: every command of the affected partitions is terminated with SAFE_STATE (R458). -/
def State.stopPartitions (s : State) (source : Nat) : State :=
  let hit := s.queues.cmds.filter (fun c => s.safeApplies c.part)
  let s' := hit.foldl (fun s c => s.killCmd c.id stSafeState (BitVec.ofNat 32 source)) s
  s'.latchRings (fun p => s.safeApplies p)

/-- The twin unit takes a role, and the time role follows it (R429, R430). -/
def State.setTwinRole (s : State) (role : Nat) : State :=
  if s.rdN Fld.twnStatus_role == role then s
  else
    (s.wrN Fld.twnStatus_role role).roleChanged s.timeRole

/-- Frames that wait for the partner's signature complete with an outcome, each with a status that `st` gives it; a signature exchange
that waits ends with the same. -/
def State.releaseFrames (s : State) (outcome : Nat) (st : Half × Word → Half × Word) : State :=
  let fs := s.twin.frames
  let ws := s.twin.own.filterMap (fun w => w.cmd)
  let s := { s with twin := { s.twin with own := [], peer := [], frames := [] } }
  let s := fs.foldl (fun s f => s.frameDone f.cmd (st (f.status, f.detail)) outcome) s
  ws.foldl (fun s id =>
    let (a, d) := st (stSuccess, 0)
    (s.updCmd id (fun c => { c with twinOutcome := outcome })).finish id a d) s

/-- TWIN_STATE (R449). -/
def stTwinState : Half := 0x0943

/-- TWIN_PAIR and TWIN_DETACH commands that wait end with a status. -/
def State.endTwinCmds (s : State) (st : Half) (detail : Word) : State :=
  let ids := s.twin.pairCmd.toList ++ s.twin.detachCmd.toList ++ (s.twin.nextPair.map (·.1)).toList
  let s := { s with twin := { s.twin with pairCmd := none, detachCmd := none, nextPair := none } }
  ids.foldl (fun s id => s.finish id st detail) (s.wrB Fld.twnStatus_reenable_pending false)

/-- What a handshake and a synchronisation have gathered is dropped. -/
def State.forgetPartner (s : State) : State :=
  { s with twin := { s.twin with
      wasSolo := false, ownHello := [], peerHello := [], peerCert := [], peerProof := [], peerKey := [], proofSent := false,
      checked := false, ownRole := 0, peerRole := 0, syncKeys := [], syncGens := [], syncContexts := false,
      syncVersions := false, syncTime := false, syncDone := false, copied := [], rx := [], arrived := [] } }

/-- A chip that enters the safe state leaves the pairing: the partner hears of it, and the twin unit waits for its link; it will pair again
once the safe state has been released (R445). -/
def State.leaveTwin (s : State) : State :=
  let st := s.rdN Fld.twnStatus_state
  if st < 2 then s
  else
    let s := s.sendTwin [0x48, 3]
    let s := (s.wrN Fld.twnStatus_state 1).setTwinRole 0
    let s := s.forgetPartner
    let s := { s with twin := { s.twin with returning := decide (st ≠ 2) && s.twin.lastList != [] } }
    (s.releaseFrames 0 id).endTwinCmds stTwinState (BitVec.ofNat 32 st)

/-- A log record about a mode change: kind 4 safe entry, kind 5 release (R471). -/
def State.logMode (s : State) (kind source : Nat) : State :=
  s.logFault { seq := 0, time := s.leaf barkIsland, source := source, cls := sourceClass source,
               reaction := s.rdN Fld.brkSrcCfg_reaction source, kind := kind }

/-- The pins go low, and the mode becomes SAFE with its source. A device that is SAFE stays as it is, and so does one in MAINT,
which only a reset leaves (R453, R457). -/
def State.markSafe (s : State) (source : Nat) : State :=
  let s := (s.driveFault true).driveTwinFault true
  if s.mode == modeSafe ∨ s.mode == modeMaint then s
  else (s.wrN Fld.brkStatus_safe_source source).wrN Fld.brkStatus_mode modeSafe

/-- The rest of an entry into the safe state: the partner, the log and the output policy (R457, R458). -/
def State.applySafe (s : State) (source : Nat) : State :=
  let s := s.leaveTwin.logMode 4 source
  if s.rdB Fld.brkSafeCfg_stop_mode then s.stopPartitions source else s

/-- The safe state is entered (R457), by Bark's order (R103). -/
def State.enterSafe (s : State) (source : Nat) : State :=
  if s.mode == modeSafe ∨ s.mode == modeMaint then s.markSafe source
  else ((s.order barkUnit 1 {} (natToBytes 2 0x0100 ++ natToBytes 2 source)).markSafe source).applySafe source

/-- A report's fault record: a corrected report within a millisecond of the same source's latest record is merged into
it (R455). -/
def State.logReport (s : State) (r : Report) (reaction : Nat) : State :=
  let cls := sourceClass r.source
  let fresh : LogRecord :=
    { seq := 0, time := s.leaf barkIsland, source := r.source, cls := cls, reaction := reaction, kind := 0, stem := r.stem,
      part := r.part, logical := r.logical, physical := r.physical, detail := r.detail }
  match s.bark.faultLog.reverse.find? (fun l => l.source == r.source && l.kind == 0) with
  | some l =>
    if cls == 0 && decide ((s.leaf barkIsland - l.time).toNat < 1000000) then
      { s with bark := { s.bark with
          faultLog := updWhere s.bark.faultLog (fun x => x.seq == l.seq) (fun x => { x with count := x.count + 1 }) } }
    else s.logFault fresh
  | none => s.logFault fresh

/-- Whether a report is a trace trigger (R523). -/
def State.reportTrigger (s : State) (source : Nat) : Bool :=
  s.rdB Fld.trcTrigger_on_bark && s.rdN Fld.trcTrigger_source == source

/-- Whether the retirement of a pseudo-channel is under way or queued (R50, R51). -/
def State.retiring (s : State) (stack pc : Nat) : Bool :=
  (s.rdB Fld.hbmStackStatus_retire_pending stack && s.rdN Fld.hbmStackStatus_pending_pc stack == pc)
    || s.mem.retireQueue.contains (stack, pc)

/-- The repair that Bark decides on a report of an HBM error: a soft repair starts at the controller (R49), or a
retirement is needed (R50, R51). The report is handled once it has finished (R594). -/
def State.startRepair (s : State) (source : Nat) : Repair → State
  | .none => s
  | .row stack row =>
    if stack ≥ 4 ∨ s.mem.softPpr.contains (stack, row) then s
    else
      let h : Handling := { source := source, isRow := true, stack := stack, num := row }
      { s with
        mem := { s.mem with softPpr := s.mem.softPpr ++ [(stack, row)] }
        bark := { s.bark with handling := s.bark.handling ++ [h] } }
  | .pseudoChannel stack pc =>
    if stack < 4 ∧ pc < 32 then
      let was := s.retiring stack pc
      let s := s.needRetire stack pc
      let h : Handling := { source := source, isRow := false, stack := stack, num := pc }
      if s.retiring stack pc && !was then { s with bark := { s.bark with handling := s.bark.handling ++ [h] } } else s
    else s

/-- A report reaches Bark: it is stamped, logged, counted and traced, a fatal one is dumped, and the source's reaction is
applied (R455, R457, R527). -/
def State.barkReport (s : State) (r : Report) : State :=
  let reaction := if sourceClass r.source == 2 then 2 else s.rdN Fld.brkSrcCfg_reaction r.source
  let s := s.logReport r reaction
  let s := s.count Fld.brkSrcCnt_reports 1 r.source
  let s := s.event barkUnit 0x08 {} (natToBytes 1 r.source ++ natToBytes 1 (sourceClass r.source)) (s.reportTrigger r.source)
  let s := if sourceClass r.source == 2 then
      { s with bark := { s.bark with fatalSeen := s.bark.fatalSeen ++ [r.source] } }.captureDump 1 0
    else s
  let s := s.startRepair r.source r.repair
  let s := if reaction == 2 then
      { s with bark := { s.bark with lastReaction2 := some (r.source, s.time.uptime) } }
    else s
  let s := if reaction ≥ 1 then s.barkVector else s
  if reaction == 2 then s.enterSafe r.source else s

/-- Whether a source ID is one of the table of R456. -/
def knownSource (n : Nat) : Bool := n ≤ 0x1E && n != 0x07

/-- Whether Bark runs (R452). -/
def State.barkRuns (s : State) : Bool := s.bark.stopped.isNone

/-- BARK_REPORT: an error report reaches Bark (R455). A report that the device itself has on its way arrives once; while Bark is being
reset, a report waits for it. -/
def execBarkReport (report : Report) (s : State) : Host.Outcome State Fault Refusal :=
  answer s true (if !knownSource report.source then s
    else if !s.barkRuns then (if s.reports.contains report then s else s.report report)
    else ({ s with reports := s.reports.erase report }).barkReport report)

end Sys2Proof.Machine
end

