-- ==== Sys2Proof/Machine/FormsIngest.lean ====
section
/-! DEFINITION. The forms of the ingest commands (R182 to R184). -/
namespace Sys2Proof.Machine

/-- A value outside the bounds of its field. -/
def outside (lo hi x : Nat) : Bool := decide (x < lo) || decide (hi < x)

/-- Whether a stream set belongs to another partition. -/
def State.setElsewhere (s : State) (part n : Nat) : Bool := s.ingest.sets.any (fun x => x.num == n && x.part != part)

/-- Whether a pose source belongs to another partition. -/
def State.poseElsewhere (s : State) (part n : Nat) : Bool := s.ingest.poses.any (fun x => x.num == n && x.part != part)

/-- Whether a stream context belongs to another partition. -/
def State.ctxElsewhere (s : State) (part n : Nat) : Bool := s.ingest.ctxs.any (fun x => x.id == n && x.part != part)

/-- Whether a RUN uses a stream set. -/
def State.setInUse (s : State) (n : Nat) : Bool := s.queues.runs.any (fun r => r.set == n)

/-- Whether a stream context that firmware allocated belongs to a RUN on its stream set, so that no expert-level descriptor may name it
(R8). -/
def State.ctxHeld (s : State) (n : Nat) : Bool := s.ingest.ctxs.any (fun x => x.id == n && x.basic && s.setInUse x.set)

/-- Owners of the stream context that an expert-level descriptor names. -/
def ctxOwn (s : State) (c : Cmd) : List (Bool × Nat) := [(s.ctxElsewhere c.part (c.b 16 4) || s.ctxHeld (c.b 16 4), 16)]

/-- Whether a table is another partition's, or is held by firmware for a basic-level command (R8, R188). -/
def State.tableElsewhere (s : State) (part t : Nat) : Bool :=
  s.compute.tables.any (fun x => x.id == t && (x.part != part || x.firmware.isSome))

/-- The tables that a route names (R203). -/
def routeTables (route : Nat) : List Nat := getBits route 0 6 :: (if route.testBit 12 then [getBits route 6 6] else [])

/-- Illegal values of the stream-set body (R183). -/
def setBad (c : Cmd) : List (Bool × Nat) :=
  [(decide (c.b 16 2 > 255), 16), (outside 1 16 (c.f 0 18 0 5), 18), (outside 10000 1000000 (c.b 20 4), 20),
   (decide (c.b 24 4 ≥ c.b 20 4), 24), (decide (c.b 28 2 > 10000), 28), (outside 1 67108864 (c.b 32 4), 32)]

/-- Fields of the stream-set body that both levels use (R183). -/
def setUsed : List FieldAt :=
  [bytesAt 0 16 2, (0, 18, 0, 5), (0, 19, 0, 4), bytesAt 0 20 4, bytesAt 0 24 4, bytesAt 0 28 2, bytesAt 0 30 1,
   bytesAt 0 32 4]

/-- Owners of what the stream-set body names. -/
def setOwn (s : State) (c : Cmd) : List (Bool × Nat) :=
  [(s.setElsewhere c.part (c.b 16 2), 16), (s.poseElsewhere c.part (c.f 0 19 0 4), 19)]

/-- A command that a virtual function may not send fails with OWNERSHIP (R182); the detail names its opcode. -/
def pfOnly (c : Cmd) : List (Bool × Nat) := [(c.fn != 0, 0)]

/-- Forms of class 0x0, opcodes 0x10 to 0x18. -/
def formIngestBasic : Nat → Option Form
  | 0x10 => some { used := fun _ => setUsed, bad := fun _ c => setBad c, own := setOwn }
  | 0x11 => some { used := fun _ => baseBytes [(24, 8)] }
  | 0x12 => some
    { used := fun _ => [(0, 16, 0, 17)]
      own := fun s c => [(s.ctxElsewhere c.part (c.f 0 16 0 17), 16)] }
  | 0x13 => some { used := fun _ => baseBytes [(24, 8)], own := fun _ c => pfOnly c }
  | 0x14 => some
    { used := fun _ => baseBytes [(16, 2), (24, 8), (32, 4)]
      bad := fun _ c => [(decide (c.b 16 2 > 1023), 16)] }
  | 0x15 => some
    { used := fun _ => [(0, 16, 0, 4), bytesAt 0 17 1, bytesAt 0 18 2, bytesAt 0 20 4, (0, 24, 0, 1)]
      bad := fun _ c => [(decide (c.b 17 1 > 1), 17), (outside 1 1000 (c.b 18 2), 18)]
      own := fun s c => [(s.poseElsewhere c.part (c.f 0 16 0 4), 16),
                         (c.b 17 1 == 1 && s.ctxElsewhere c.part (c.b 20 4), 20)] }
  | 0x16 => some
    { used := fun _ => baseBytes [(16, 1), (17, 1), (24, 8)]
      bad := fun _ c => [(decide (c.b 16 1 > 15), 16), (outside 1 64 (c.b 17 1), 17)]
      own := fun s c => [(!s.ingest.poses.any (fun x => x.num == c.b 16 1 && x.part == c.part), 16)] }
  | 0x17 => some
    { used := fun _ => baseBytes [(16, 1), (17, 1), (18, 2), (24, 8), (32, 8), (40, 8)]
      bad := fun _ c => [(outside 4 12 (c.b 16 1), 16), (outside 4 12 (c.b 17 1), 17), (decide (c.b 18 2 > 2047), 18)]
      own := fun _ c => pfOnly c }
  | 0x18 => some
    { used := fun _ => baseBytes [(16, 4), (24, 8)]
      own := fun s c => [(s.ctxElsewhere c.part (c.b 16 4), 16)] }
  | _ => none

/-- Forms of class 0x1. -/
def formIngest : Nat → Option Form
  | 0x01 => some
    { used := fun _ => [bytesAt 0 16 4, (0, 20, 0, 1), bytesAt 0 24 8], own := ctxOwn }
  | 0x02 => some { used := fun _ => baseBytes [(16, 4), (24, 8)], own := ctxOwn }
  | 0x03 => some { used := fun _ => baseBytes [(16, 2), (18, 2), (24, 8)] }
  | 0x04 => some
    { used := fun _ => setUsed ++ [bytesAt 0 36 6, bytesAt 0 42 2, (0, 44, 0, 13)]
      bad := fun _ c => setBad c ++ [(c.b 36 6 % 64 != 0 || decide (c.b 36 6 ≥ 0x100000000000), 36)]
      own := fun s c => setOwn s c ++
        [(!s.owns c.part (c.b 36 6) (c.b 36 6 + 96 * c.b 32 4), 36),
         (c.b 42 2 != 0 && !s.ownsKnot c.part (c.b 42 2), 42),
         ((routeTables (c.b 44 2)).any (s.tableElsewhere c.part), 44)] }
  | _ => none

end Sys2Proof.Machine
end

