-- ==== Sys2Proof/Machine/FormsVoxel.lean ====
section
/-! DEFINITION. The forms of the voxel commands (R212 to R220). -/
namespace Sys2Proof.Machine

/-- A signed field of whole bytes of descriptor `ext`. -/
def Cmd.int (c : Cmd) (ext byte n : Nat) : Int := toSigned (8 * n) (c.f ext byte 0 (8 * n))

/-- Bounds of a crop box that break the ranges of the key's fields (R189), by the byte of extension `ext` where x_min
begins. -/
def cropBad (c : Cmd) (ext byte : Nat) : List (Bool × Nat) :=
  let at_ (i : Nat) : Nat := 64 * ext + byte + 4 * i
  let v (i : Nat) : Int := c.int ext (byte + 4 * i) 4
  [(decide (v 0 < -2097152), at_ 0), (decide (v 1 > 2097152), at_ 1), (decide (v 2 < -2097152), at_ 2),
   (decide (v 3 > 2097152), at_ 3), (decide (v 4 < -8192), at_ 4), (decide (v 5 > 8192), at_ 5)]

/-- Forms of class 0x0, opcodes 0x20 and 0x21. -/
def formVoxelBasic : Nat → Option Form
  | 0x20 => some
    { exts := fun _ => 1
      used := fun _ => baseBytes [(16, 2), (18, 2), (20, 2), (22, 2), (24, 4), (28, 4), (32, 4)] ++ [bytesAt 1 4 24]
      bad := fun _ c => [(decide (c.b 16 2 > 255), 16), (c.b 18 2 == 0, 18), (c.b 20 2 == 0, 20), (c.b 22 2 == 0, 22)]
        ++ cropBad c 1 4
      own := fun s c => [(s.setElsewhere c.part (c.b 16 2), 16)] }
  | 0x21 => some
    { used := fun _ => baseBytes [(16, 2), (18, 2)]
      bad := fun _ c => [(decide (c.b 16 2 > 255), 16)]
      own := fun s c => [(s.setElsewhere c.part (c.b 16 2), 16), ((s.package? c.part (c.b 18 2)).isNone, 18)] }
  | _ => none

/-- Number of Stems that VHE_CREATE asks for, 0 for the illegal code (R215). -/
def Cmd.vheStems (c : Cmd) : Nat := match c.f 0 17 5 2 with | 0 => 1 | 1 => 2 | 2 => 4 | _ => 0

/-- Illegal values of VHE_CREATE (R188, R215, R216). -/
def vheCreateBad (c : Cmd) : List (Bool × Nat) :=
  let log2 := c.f 0 17 0 5
  let n := c.vheStems
  let hbm := c.f 0 17 7 1 == 1
  let strip := c.f 0 18 0 1 == 1
  let halo := c.f 0 18 1 4
  let red := c.f 0 19 0 3
  let sub := 2 ^ log2 / max 1 n
  let cin := c.f 0 31 0 4 + 1
  let src (k : Nat) : Nat := c.f 0 44 (4 * k) 4
  let srcBad := (List.range 8).map (fun k =>
    (decide (src k ≥ 0xD) || (decide (k ≥ cin) && src k != 0), 44 + k / 2))
  let nz (b n : Nat) : Bool × Nat := (c.e b n != 0, 64 + b)
  let place := if hbm then [nz 16 1, nz 17 1, nz 18 3, nz 21 1, nz 22 1, nz 23 3]
    else [nz 4 6, nz 10 6, (decide (c.e 17 1 > 6), 81), (c.e 18 3 % 128 != 0, 82), (decide (c.e 22 1 > 6), 86),
          (c.e 23 3 % 128 != 0, 87)]
  let width := c.f 2 32 0 32
  [(outside 10 22 log2, 17), (n == 0, 17), (hbm && n != 1, 17), (halo != 0 && (!strip || n == 1), 18), (decide (red > 4), 19),
   (c.f 0 19 3 2 != 0 && red != 4, 19), (decide (8 * c.f 0 20 0 22 > 7 * sub), 20), (c.b 24 2 == 0, 24), (c.b 26 2 == 0, 26),
   (c.b 28 2 == 0, 28), (decide (cin > 8), 31), (c.f 0 31 4 4 != 0 && red != 4, 31)] ++ srcBad ++ place ++ cropBad c 2 4
    ++ [(!strip && c.f 2 28 0 32 != 0, 156), (if strip then decide (width ≤ 2 * halo) else width != 0, 160)]

/-- The six bits that name a table. -/
def tableField : FieldAt := (0, 16, 0, 6)
def tableOwn (s : State) (c : Cmd) : List (Bool × Nat) := [(s.tableElsewhere c.part (c.f 0 16 0 6), 16)]

/-- Forms of class 0x2. -/
def formVoxel : Nat → Option Form
  | 0x01 => some
    { exts := fun _ => 2
      used := fun _ => [tableField, (0, 17, 0, 8), (0, 18, 0, 7), (0, 19, 0, 5), (0, 20, 0, 22), bytesAt 0 24 6, (0, 30, 0, 6),
        bytesAt 0 31 1, bytesAt 0 32 16, bytesAt 1 4 12, (1, 16, 0, 6), (1, 17, 0, 3), bytesAt 1 18 3, (1, 21, 0, 6), (1, 22, 0, 3),
        bytesAt 1 23 3, bytesAt 2 4 32]
      bad := fun _ c => vheCreateBad c
      own := tableOwn }
  | 0x02 => some { used := fun _ => [tableField], own := tableOwn }
  | 0x03 => some
    { used := fun _ => [tableField, (0, 17, 0, 6), (0, 17, 7, 1), bytesAt 0 20 4, bytesAt 0 24 8]
      bad := fun _ c => [(outside 1 67108864 (c.b 20 4), 20)]
      own := tableOwn }
  | 0x04 => some
    { used := fun _ => [(0, 16, 0, 7), (0, 17, 0, 3), (0, 18, 0, 6), (0, 19, 0, 3), bytesAt 0 20 3, bytesAt 0 24 6]
      bad := fun _ c => [(c.f 0 17 0 2 == 3, 17), (c.f 0 19 0 3 == 7, 19), (c.b 20 3 % 128 != 0, 20)]
      own := tableOwn }
  | 0x05 => some
    { used := fun _ => [tableField, bytesAt 0 17 1, bytesAt 0 20 4, bytesAt 0 24 8, bytesAt 0 32 8]
      bad := fun _ c => [(outside 1 67108864 (c.b 20 4), 20)]
      own := tableOwn }
  | 0x06 => some { used := fun _ => [tableField], own := tableOwn }
  | _ => none

end Sys2Proof.Machine
end

