-- ==== Sys2Proof/Machine/Float.lean ====
section
/-! DEFINITION. Exact binary floating point: a value is a NaN, an infinity or m × 2^e; operations are exact and one rounding,
to nearest even, takes a value to a format. R157, R165 to R172, R199 to R202, R268 to R273, R327, R331 and R346 rest on
it. -/
namespace Sys2Proof.Machine

/-- A floating-point value: `fin neg m e` is (−1)^neg × m × 2^e, with its sign kept for zero. -/
inductive FVal where
  | nan
  | inf (neg : Bool)
  | fin (neg : Bool) (m : Nat) (e : Int)
  deriving DecidableEq, Repr, Inhabited

/-- An IEEE-style format: exponent bits, mantissa bits. -/
structure Fmt where
  eb : Nat
  mb : Nat
  deriving DecidableEq, Repr, Inhabited

/-- The formats that follow IEEE 754. -/
def fp32 : Fmt := ⟨8, 23⟩
def fp64 : Fmt := ⟨11, 52⟩
def fp16 : Fmt := ⟨5, 10⟩
def bf16 : Fmt := ⟨8, 7⟩

/-- The exponent bias. -/
def Fmt.bias (f : Fmt) : Nat := 2 ^ (f.eb - 1) - 1

/-- Bits of a format. -/
def Fmt.width (f : Fmt) : Nat := 1 + f.eb + f.mb

/-- The value of a bit pattern. -/
def Fmt.dec (f : Fmt) (x : Nat) : FVal :=
  let neg := getBits x (f.eb + f.mb) 1 == 1
  let e := getBits x f.mb f.eb
  let m := getBits x 0 f.mb
  if e = 2 ^ f.eb - 1 then (if m = 0 then .inf neg else .nan)
  else if e = 0 then .fin neg m (1 - (f.bias : Int) - f.mb)
  else .fin neg (2 ^ f.mb + m) ((e : Int) - f.bias - f.mb)

/-- The number of bits of a number. -/
def bitLen (m : Nat) : Nat := if m = 0 then 0 else Nat.log2 m + 1

/-- m shifted right by s, rounded to nearest even. -/
def shiftRne (m s : Nat) : Nat :=
  let q := m >>> s
  let r := m % 2 ^ s
  if s = 0 then q
  else if r > 2 ^ (s - 1) then q + 1
  else if r = 2 ^ (s - 1) then q + q % 2
  else q

/-- A dyadic magnitude rounded to a format's precision: mantissa and exponent of its last place. -/
def Fmt.roundMag (f : Fmt) (m : Nat) (e : Int) : Nat × Int :=
  let q := max (e + bitLen m - 1 - f.mb) (1 - (f.bias : Int) - f.mb)
  if q ≤ e then (m <<< (e - q).toNat, q) else (shiftRne m (q - e).toNat, q)

/-- The canonical quiet NaN of a format (R270). -/
def Fmt.qnan (f : Fmt) : Nat := (2 ^ f.eb - 1) * 2 ^ f.mb + 2 ^ (f.mb - 1)

/-- The bit pattern of a value, rounded to nearest even; a value too large becomes infinity of its sign. -/
def Fmt.enc (f : Fmt) : FVal → Nat
  | .nan => f.qnan
  | .inf neg => (if neg then 2 ^ (f.eb + f.mb) else 0) + (2 ^ f.eb - 1) * 2 ^ f.mb
  | .fin neg m e =>
    let s := if neg then 2 ^ (f.eb + f.mb) else 0
    if m = 0 then s
    else
      let (r, q) := f.roundMag m e
      let (r, q) := if r = 2 ^ (f.mb + 1) then (2 ^ f.mb, q + 1) else (r, q)
      if r < 2 ^ f.mb then s + r
      else
        let field := (q + f.mb + f.bias).toNat
        if field ≥ 2 ^ f.eb - 1 then s + (2 ^ f.eb - 1) * 2 ^ f.mb
        else s + field * 2 ^ f.mb + (r - 2 ^ f.mb)

/-- A value rounded to a format. -/
def Fmt.round (f : Fmt) (v : FVal) : FVal := f.dec (f.enc v)

/-- The value with its sign changed. -/
def FVal.neg : FVal → FVal
  | .nan => .nan
  | .inf n => .inf (!n)
  | .fin n m e => .fin (!n) m e

/-- The magnitude. -/
def FVal.abs : FVal → FVal
  | .nan => .nan
  | .inf _ => .inf false
  | .fin _ m e => .fin false m e

/-- An integer. -/
def FVal.ofInt (x : Int) : FVal := .fin (decide (x < 0)) x.natAbs 0

/-- A dyadic x × 2^e. -/
def FVal.dyad (x : Int) (e : Int) : FVal := .fin (decide (x < 0)) x.natAbs e

/-- The signed mantissa at a lower exponent. -/
def alignInt (neg : Bool) (m : Nat) (e q : Int) : Int :=
  let a : Int := ((m <<< (e - q).toNat : Nat) : Int)
  if neg then -a else a

/-- The exact sum. -/
def FVal.add : FVal → FVal → FVal
  | .nan, _ => .nan
  | _, .nan => .nan
  | .inf a, .inf b => if a = b then .inf a else .nan
  | .inf a, .fin _ _ _ => .inf a
  | .fin _ _ _, .inf b => .inf b
  | .fin n1 m1 e1, .fin n2 m2 e2 =>
    let q := min e1 e2
    let x := alignInt n1 m1 e1 q + alignInt n2 m2 e2 q
    if x = 0 then .fin (n1 && n2) 0 0 else .dyad x q

/-- The exact difference. -/
def FVal.sub (a b : FVal) : FVal := a.add b.neg

/-- The exact product. -/
def FVal.mul : FVal → FVal → FVal
  | .nan, _ => .nan
  | _, .nan => .nan
  | .inf a, .inf b => .inf (a != b)
  | .inf a, .fin n m _ => if m = 0 then .nan else .inf (a != n)
  | .fin n m _, .inf b => if m = 0 then .nan else .inf (n != b)
  | .fin n1 m1 e1, .fin n2 m2 e2 => .fin (n1 != n2) (m1 * m2) (e1 + e2)

/-- Whether a value is NaN; whether it is finite; whether it is zero. -/
def FVal.isNan : FVal → Bool
  | .nan => true
  | _ => false
def FVal.isFinite : FVal → Bool
  | .fin _ _ _ => true
  | _ => false
def FVal.isZero : FVal → Bool
  | .fin _ 0 _ => true
  | _ => false

/-- The quotient, with enough bits below a format's last place that one rounding to the format is right. -/
def Fmt.div (f : Fmt) : FVal → FVal → FVal
  | .nan, _ => .nan
  | _, .nan => .nan
  | .inf _, .inf _ => .nan
  | .inf a, .fin n _ _ => .inf (a != n)
  | .fin n _ _, .inf b => .fin (n != b) 0 0
  | .fin n1 m1 e1, .fin n2 m2 e2 =>
    if m2 = 0 then (if m1 = 0 then .nan else .inf (n1 != n2))
    else if m1 = 0 then .fin (n1 != n2) 0 0
    else
      let k := bitLen m2 + f.mb + 4
      let q := (m1 <<< k) / m2
      let sticky := if (m1 <<< k) % m2 = 0 then 0 else 1
      .fin (n1 != n2) (2 * q + sticky) (e1 - e2 - k - 1)

/-- The integer square root, bit by bit from bit k - 1 down. -/
def isqrtFrom (n : Nat) : Nat → Nat → Nat
  | 0, r => r
  | k + 1, r => if (r + 2 ^ k) * (r + 2 ^ k) ≤ n then isqrtFrom n k (r + 2 ^ k) else isqrtFrom n k r

/-- The integer square root. -/
def isqrt (n : Nat) : Nat := isqrtFrom n (bitLen n / 2 + 1) 0

/-- The square root, with enough bits below a format's last place that one rounding to the format is right. -/
def Fmt.sqrt (f : Fmt) : FVal → FVal
  | .nan => .nan
  | .inf n => if n then .nan else .inf false
  | .fin n m e =>
    if m = 0 then .fin n 0 0
    else if n then .nan
    else
      let odd := (e % 2).toNat
      let m := m <<< (odd + 2 * (f.mb + 4))
      let e := e - odd - 2 * (f.mb + 4)
      let r := isqrt m
      .fin false (2 * r + (if r * r = m then 0 else 1)) (e / 2 - 1)

/-- The order of two values that are not NaN: whether a < b. -/
def FVal.lt : FVal → FVal → Bool
  | .nan, _ => false
  | _, .nan => false
  | .inf a, .inf b => a && !b
  | .inf a, .fin _ _ _ => a
  | .fin _ _ _, .inf b => !b
  | .fin n1 m1 e1, .fin n2 m2 e2 =>
    let q := min e1 e2
    decide (alignInt n1 m1 e1 q < alignInt n2 m2 e2 q)

/-- Whether a ≤ b. -/
def FVal.le (a b : FVal) : Bool := !a.isNan && !b.isNan && !b.lt a

/-- The nearest integer, half to even; none for a value that is not finite. -/
def FVal.toIntRne : FVal → Option Int
  | .fin n m e =>
    let r := if 0 ≤ e then m <<< e.toNat else shiftRne m (-e).toNat
    some (if n then -(r : Int) else r)
  | _ => none

/-- The integer below or at a value. -/
def FVal.floor : FVal → Option Int
  | .fin n m e =>
    if 0 ≤ e then some (if n then -((m <<< e.toNat : Nat) : Int) else ((m <<< e.toNat : Nat) : Int))
    else some (floorDiv (if n then -(m : Int) else m) ((2 ^ (-e).toNat : Nat) : Int))
  | _ => none

/-- An integer rounded half-even to a quotient by a positive divisor. -/
def divRne (a : Int) (b : Nat) : Int :=
  let q := floorDiv a b
  let r := (a - q * b).toNat
  if 2 * r > b then q + 1 else if 2 * r = b then q + q % 2 else q

/-- An integer held within bounds. -/
def clampInt (lo hi x : Int) : Int := max lo (min hi x)

/-! FP32 and FP64 arithmetic on bit patterns, each operation rounded once. -/

def f32 (x : Nat) : FVal := fp32.dec x
def add32 (a b : FVal) : FVal := fp32.round (a.add b)
def sub32 (a b : FVal) : FVal := fp32.round (a.sub b)
def mul32 (a b : FVal) : FVal := fp32.round (a.mul b)
def div32 (a b : FVal) : FVal := fp32.round (fp32.div a b)
def add64 (a b : FVal) : FVal := fp64.round (a.add b)
def sub64 (a b : FVal) : FVal := fp64.round (a.sub b)
def mul64 (a b : FVal) : FVal := fp64.round (a.mul b)
def div64 (a b : FVal) : FVal := fp64.round (fp64.div a b)
def sqrt64 (a : FVal) : FVal := fp64.round (fp64.sqrt a)

/-- A function whose rounding the spec leaves open, of FP32 operands. -/
def real32 (fn : Nat) (args : List FVal) : FVal :=
  fp32.dec ((Config.realFn fn (args.map (fun a => BitVec.ofNat 64 (fp32.enc a)))).toNat % 2 ^ 32)

/-- Numbers of the functions that `Config.realFn` stands for. -/
def fnCos32 : Nat := 1
def fnSin32 : Nat := 2
def fnSin64 : Nat := 3
def fnAcos64 : Nat := 4
def fnCos64 : Nat := 5
def fnIou32 : Nat := 6
def fnSig32 : Nat := 7
def fnAtan64 : Nat := 8

end Sys2Proof.Machine
end

