-- ==== Sys2Proof/Machine/Numerics.lean ====
section
/-! DEFINITION. The numerics of the tile array: formats (R261 to R263), rows and weight blocks (R264 to R267), the arithmetic of
one step (R268 to R270) and conversion to outputs (R271 to R273, R596). -/
namespace Sys2Proof.Machine

/-! Formats (R261, R263). -/

/-- How the elements of a format are read: integers in two's complement, IEEE-style floats, E4M3 (one NaN, no infinity), or
floats of which every pattern is finite. -/
inductive ElemKind where
  | int | ieee | e4m3 | fin
  deriving DecidableEq, Repr

/-- A format: element bits, kind, exponent bits, mantissa bits and bias. -/
structure TileFmt where
  bits : Nat
  kind : ElemKind
  eb : Nat := 0
  mb : Nat := 0
  bias : Nat := 0

/-- The format of a code. -/
def tileFmt : Nat → TileFmt
  | 0x0 => { bits := 8, kind := .int }
  | 0x1 => { bits := 4, kind := .int }
  | 0x2 => { bits := 8, kind := .e4m3, eb := 4, mb := 3, bias := 7 }
  | 0x3 => { bits := 8, kind := .ieee, eb := 5, mb := 2, bias := 15 }
  | 0x4 => { bits := 8, kind := .e4m3, eb := 4, mb := 3, bias := 7 }
  | 0x5 => { bits := 8, kind := .ieee, eb := 5, mb := 2, bias := 15 }
  | 0x6 => { bits := 6, kind := .fin, eb := 2, mb := 3, bias := 1 }
  | 0x7 => { bits := 6, kind := .fin, eb := 3, mb := 2, bias := 3 }
  | 0x8 => { bits := 4, kind := .fin, eb := 2, mb := 1, bias := 1 }
  | 0x9 => { bits := 8, kind := .int }
  | 0xA => { bits := 16, kind := .ieee, eb := 8, mb := 7, bias := 127 }
  | 0xB => { bits := 16, kind := .ieee, eb := 5, mb := 10, bias := 15 }
  | 0xC => { bits := 32, kind := .ieee, eb := 8, mb := 23, bias := 127 }
  | _ => { bits := 32, kind := .int }

/-- MX formats; formats of the integer class; legal array operands and outputs. -/
def isMx (f : Nat) : Bool := decide (0x4 ≤ f) && decide (f ≤ 0x9)
def isIntFmt (f : Nat) : Bool := f == 0x0 || f == 0x1 || f == 0xD
def operandFmt (f : Nat) : Bool := decide (f ≤ 0xC)
def outputFmt (f : Nat) : Bool := decide (f ≤ 0xD)

/-- Whether a pair of operand formats and an output format go together (R262). -/
def formatPairOk (x w out : Nat) : Bool := isIntFmt x == isIntFmt w && (out != 0xD || isIntFmt x)

/-- The detail of FORMAT_PAIR (R287). -/
def formatDetail (x w out : Nat) : Word := BitVec.ofNat 32 (x * 256 + w * 16 + out)

/-- A value times a power of two. -/
def FVal.shift : FVal → Int → FVal
  | .fin n m e, k => .fin n m (e + k)
  | v, _ => v

/-- The exact value of an element; `scale` is the E8M0 byte of its block (R261, R263). -/
def elemVal (f raw scale : Nat) : FVal :=
  let t := tileFmt f
  let mx := isMx f
  let raw := raw % 2 ^ t.bits
  if mx && scale == 0xFF then .nan
  else
    let k : Int := if mx then (scale : Int) - 127 else 0
    match t.kind with
    | .int => (FVal.ofInt (toSigned t.bits raw)).shift (k - (if f = 0x9 then 6 else 0))
    | kind =>
      let neg := getBits raw (t.bits - 1) 1 == 1
      let e := getBits raw t.mb t.eb
      let m := getBits raw 0 t.mb
      let top := e == 2 ^ t.eb - 1
      if kind == .ieee && top then (if mx || m != 0 then .nan else .inf neg)
      else if kind == .e4m3 && top && m == 2 ^ t.mb - 1 then .nan
      else
        let v : FVal := if e = 0 then .fin neg m (1 - (t.bias : Int) - t.mb) else .fin neg (2 ^ t.mb + m) ((e : Int) - t.bias - t.mb)
        v.shift k

/-! Rows (R264). -/

/-- The size of a row of C channels. -/
def rowSize (f c : Nat) : Nat := 16 * ceilDiv (c * (tileFmt f).bits / 8 + (if isMx f then c / 32 else 0)) 16

/-- The elements of channel block j of a row of C channels. -/
def rowBlock (f c : Nat) (row : List Byte) (j : Nat) : List FVal :=
  let b := (tileFmt f).bits
  let w := leAt row (4 * b * j) (4 * b)
  let scale := if isMx f then leAt row (c * b / 8 + j) 1 else 127
  (List.range 32).map (fun i => elemVal f (getBits w (b * i) b) scale)

/-! Weight blocks (R265, R266). -/

/-- The size of a weight block. -/
def blockSize (f : Nat) (sparse : Bool) : Nat :=
  let b := (tileFmt f).bits
  64 * ceilDiv ((if sparse then 64 * b + 128 else 128 * b) + (if isMx f then 32 else 0)) 64

/-- The metadata word of a row of a 2:4 block. -/
def metaWord (f : Nat) (d : List Byte) (o : Nat) : Nat := leAt d (64 * (tileFmt f).bits + 4 * o) 4

/-- The weights of row o of a block (R265, R266): a channel that a 2:4 block does not hold has the weight zero. -/
def weightRow (f : Nat) (sparse : Bool) (d : List Byte) (o : Nat) : List (Option FVal) :=
  let b := (tileFmt f).bits
  if sparse then
    let w := leAt d (2 * b * o) (2 * b)
    let md := metaWord f d o
    let scale := if isMx f then leAt d (64 * b + 128 + o) 1 else 127
    (List.range 32).map (fun c =>
      if md.testBit c then
        let rank := popCount (c % 4) (getBits md (c / 4 * 4) 4)
        some (elemVal f (getBits w (b * (2 * (c / 4) + rank)) b) scale)
      else some (.fin false 0 0))
  else
    let w := leAt d (4 * b * o) (4 * b)
    let scale := if isMx f then leAt d (128 * b + o) 1 else 127
    (List.range 32).map (fun c => some (elemVal f (getBits w (b * c) b) scale))

/-- The first metadata fault of a 2:4 block whose operand has `valid` channels (R267): kind (0 three or more present, 1 beyond
the operand), group and row. -/
def metaFault (f : Nat) (d : List Byte) (valid : Nat) : Option (Nat × Nat × Nat) :=
  (List.range 32).findSome? (fun o =>
    let md := metaWord f d o
    (List.range 8).findSome? (fun g =>
      let n := getBits md (4 * g) 4
      if popCount 4 n ≥ 3 then some (0, g, o)
      else if (List.range 4).any (fun j => n.testBit j && decide (4 * g + j ≥ valid)) then some (1, g, o)
      else none))

/-- The detail of METADATA (R287). -/
def metaDetail (x : Nat × Nat × Nat) (block : Nat) : Word :=
  BitVec.ofNat 32 (x.1 * 2 ^ 30 + x.2.1 * 2 ^ 27 + x.2.2 * 2 ^ 22 + block % 2 ^ 22)

/-! The step (R260, R268 to R270). -/

/-- Input blocks that one broadcast carries and the tile cycles that it takes (R260). -/
def cadence (x w : Nat) (sparse : Bool) : Nat × Nat :=
  let b := max (tileFmt x).bits (tileFmt w).bits
  let blocks := if b = 4 then 2 else 1
  (if sparse then 2 * blocks else blocks, if b = 32 then 16 else if b = 16 then 2 else 1)

/-- The exact sum of the products of a column: an element without a weight adds nothing. -/
def columnSum (xs : List FVal) (ws : List (Option FVal)) : FVal :=
  (xs.zip ws).foldl (fun s p => match p.2 with | some w => s.add (p.1.mul w) | none => s) (.fin true 0 0)

/-- An FP32 value of which a subnormal becomes zero of its sign, on A0 parts (R270). -/
def flushed (a0 : Bool) (x : Nat) : Nat := if a0 && getBits x 23 8 == 0 then getBits x 31 1 * 2 ^ 31 else x

/-- A float accumulate (R268): the column sum is rounded once, then added. -/
def accFloat (a0 : Bool) (acc : Nat) (s : FVal) : Nat :=
  flushed a0 (fp32.enc (add32 (f32 acc) (fp32.round s)))

/-- The INT32 limits. -/
def int32Lo : Int := -2147483648
def int32Hi : Int := 2147483647

/-- An integer accumulate (R269) and whether it saturated. -/
def accInt (acc : Nat) (s : FVal) : Nat × Bool :=
  let v := toSigned 32 acc + (s.toIntRne).getD 0
  let c := clampInt int32Lo int32Hi v
  (ofSigned 32 c, c != v)

/-! Conversion (R271 to R273). -/

/-- A magnitude m × 2^e in units of 2^q: nearest even, or truncated after a random part of a unit (R273). -/
def toGrid (m : Nat) (e q : Int) (draw : Option Nat) : Nat :=
  if q ≤ e then m <<< (e - q).toNat
  else
    let sh := (q - e).toNat
    match draw with
    | none => shiftRne m sh
    | some r => (m * 65536 + r <<< sh) >>> (sh + 16)

/-- A value converted to an element of a format, and whether the conversion met an overflow or turned NaN into 0. -/
def toElem (f : Nat) (v : FVal) (draw : Option Nat) : Nat × Bool :=
  let t := tileFmt f
  match t.kind with
  | .int =>
    let hi : Int := ((2 ^ (t.bits - 1) : Nat) : Int) - 1
    let lo : Int := -hi - 1
    (match v with
     | .nan => (0, true)
     | .inf n => (ofSigned t.bits (if n then lo else hi), true)
     | .fin n m e =>
       let k : Int := toGrid m e (if f = 0x9 then -6 else 0) draw
       let x := if n then -k else k
       (ofSigned t.bits (clampInt lo hi x), clampInt lo hi x != x))
  | kind =>
    let sign (n : Bool) : Nat := if n then 2 ^ (t.bits - 1) else 0
    let inf := kind == .ieee && !isMx f
    let most := match kind with
      | .ieee => (2 ^ t.eb - 1) * 2 ^ t.mb - 1
      | .e4m3 => 2 ^ (t.eb + t.mb) - 2
      | _ => 2 ^ (t.eb + t.mb) - 1
    let excess := if inf then most + 1 else most
    match v with
    | .nan => (if kind == .e4m3 then 2 ^ (t.eb + t.mb) - 1 else (2 ^ t.eb - 1) * 2 ^ t.mb + 2 ^ (t.mb - 1), false)
    | .inf n => (sign n + excess, !inf)
    | .fin n m e =>
      if m = 0 then (sign n, false)
      else
        let q := max (e + bitLen m - 1 - t.mb) (1 - (t.bias : Int) - t.mb)
        let p := (q + t.mb + t.bias - 1).toNat * 2 ^ t.mb + toGrid m e q draw
        if p > most then (sign n + excess, true) else (sign n + p, false)

/-- What 32 converted channels write: elements, the scale of an MX block, and the counts of R270 and R271. -/
structure OutBlock where
  elems : List Nat
  scale : Nat := 127
  saturated : Nat
  nonfinite : Nat

/-- 32 values converted to a format that is not MX. -/
def convertPlain (f : Nat) (vs : List FVal) (draws : List (Option Nat)) : OutBlock :=
  let es := (vs.zip draws).map (fun p => toElem f p.1 p.2)
  { elems := es.map (·.1), saturated := (es.filter (·.2)).length
    nonfinite := (es.filter (fun e => !(elemVal f e.1 127).isFinite)).length }

/-- emax of an MX format (R272). -/
def mxEmax : Nat → Nat
  | 0x4 => 8 | 0x5 => 15 | 0x6 => 2 | 0x7 => 4 | 0x8 => 2 | _ => 0

/-- floor(log2 |v|) of a finite value that is not zero. -/
def FVal.log2 : FVal → Int
  | .fin _ m e => e + bitLen m - 1
  | _ => 0

/-- 32 values converted to an MX block (R272). -/
def convertMx (f : Nat) (vs : List FVal) (draws : List (Option Nat)) : OutBlock :=
  if vs.any (fun v => !v.isFinite) then { elems := vs.map (fun _ => 0), scale := 0xFF, saturated := 0, nonfinite := 32 }
  else
    let nz := vs.filter (fun v => !v.isZero)
    let x : Int := match nz with
      | [] => -127
      | v :: r => clampInt (-127) 127 (r.foldl (fun a b => max a b.log2) v.log2 - mxEmax f)
    let es := (vs.zip draws).map (fun p => toElem f (p.1.shift (-x)) p.2)
    { elems := es.map (·.1), scale := (x + 127).toNat, saturated := (es.filter (·.2)).length, nonfinite := 0 }

/-- 32 values converted to a format (R271 to R273). -/
def convertBlock (f : Nat) (vs : List FVal) (draws : List (Option Nat)) : OutBlock :=
  if isMx f then convertMx f vs draws else convertPlain f vs draws

/-- Elements as bytes: a little-endian bit stream (R264). -/
def elemBytes (f : Nat) (es : List Nat) : List Byte :=
  let b := (tileFmt f).bits
  natToBytes (4 * b) (es.foldr (fun e w => w * 2 ^ b + e) 0)

/-- ReLU on a value (R596). -/
def reluVal (v : FVal) : FVal := match v with
  | .nan => .nan
  | .inf n => if n then .fin false 0 0 else .inf false
  | .fin n m e => if n then .fin false 0 0 else .fin false m e

/-- The generator's next state (R273): a xorshift with shifts 13, 7 and 17. -/
def xorshift (x : DWord) : DWord :=
  let x := x ^^^ (x <<< 13)
  let x := x ^^^ (x >>> 7)
  x ^^^ (x <<< 17)

/-- Sixteen bits that the generator gives in a state: which, the spec leaves open. -/
def srBits (x : DWord) : Nat := (Config.nextRandom x).toNat % 65536

/-- n draws of the generator, and its state after them. -/
def srDraws : Nat → DWord → List (Option Nat) × DWord
  | 0, x => ([], x)
  | n + 1, x =>
    let x := xorshift x
    let (l, y) := srDraws n x
    (some (srBits x) :: l, y)

/-- Whether stochastic rounding applies to an output format (R273). -/
def stochFmt (f : Nat) : Bool := decide (0x2 ≤ f) && decide (f ≤ 0x9)

end Sys2Proof.Machine
end

