-- ==== Sys2Proof/Machine/FormsCanopy.lean ====
section
/-! DEFINITION. The forms of the Canopy commands (R334 to R342). -/
namespace Sys2Proof.Machine

/-- Whether a map is another partition's, or is held by firmware for a basic-level command (R8, R314). -/
def State.mapElsewhere (s : State) (part m : Nat) : Bool :=
  s.canopy.maps.any (fun x => x.id == m && (x.part != part || x.firmware.isSome))

/-- Forms of class 0x0, opcodes 0x50 and 0x51. -/
def formCanopyBasic : Nat → Option Form
  | 0x50 => some
    { used := fun _ => baseBytes [(16, 2)]
      bad := fun _ c => [(decide (c.b 16 2 > 255), 16)]
      own := fun s c => [(s.setElsewhere c.part (c.b 16 2), 16)] }
  | 0x51 => some
    { used := fun _ => baseBytes [(16, 2), (20, 4)]
      bad := fun _ c => [(decide (c.b 16 2 > 255), 16), (decide (c.b 20 4 > 10000), 20)]
      own := fun s c => [(s.setElsewhere c.part (c.b 16 2), 16)] }
  | _ => none

/-- Bands that CNP_MAP_DEFINE asks for, 0 for the illegal code (R336). -/
def Cmd.mapBands (c : Cmd) : Nat := match c.f 0 17 5 2 with | 0 => 1 | 1 => 2 | 2 => 4 | _ => 0

/-- Illegal values of CNP_MAP_DEFINE (R314, R336). -/
def mapDefineBad (c : Cmd) : List (Bool × Nat) :=
  let w := c.f 0 18 0 12 + 1
  let h := c.f 0 20 0 12 + 1
  [(!operandFmt (c.f 0 17 0 4) || c.mapBands == 0 || h % max 1 c.mapBands != 0, 17), (decide (w > 256), 18), (decide (h > 256), 20),
   (c.b 32 2 == 0, 32), (c.b 34 2 == 0, 34)]

/-- Whether the place that CNP_MAP_DEFINE gives breaks R316 or R337: the alignment of base, 2^m tiles, the offset, and the fields of the
memory that is not used. -/
def Cmd.mapPlaceBad (c : Cmd) : Bool :=
  if c.f 0 17 4 1 == 1 then c.e 4 6 % 4096 != 0 || c.e 10 1 != 0 || c.e 11 1 != 0 || c.e 12 3 != 0
  else c.e 4 6 != 0 || c.f 1 11 0 3 == 7 || c.e 12 3 % 128 != 0

/-- Whether a number is a finite FP32 pattern. -/
def finite32 (x : Nat) : Bool := (f32 x).isFinite

/-- Illegal values of a feature region in the layout of R338, at some bytes of a descriptor. -/
def featBad (hbm : Bool) (base offset : Nat) (baseAt offAt : Nat) : List (Bool × Nat) :=
  [(!hbm && base != 0, baseAt), (offset % 128 != 0, offAt)]

/-- Forms of class 0x5. -/
def formCanopy : Nat → Option Form
  | 0x01 => some
    { exts := fun _ => 1
      used := fun _ => baseBytes [(16, 1), (17, 1), (24, 8), (32, 4), (36, 8)]
        ++ [(0, 18, 0, 12), (0, 20, 0, 12), (0, 22, 0, 5), (0, 23, 0, 2), bytesAt 1 4 6, (1, 10, 0, 6), (1, 11, 0, 3), bytesAt 1 12 3]
      bad := fun _ c => mapDefineBad c
      own := fun s c => [(s.mapElsewhere c.part (c.b 16 1), 16)] }
  | 0x02 => some
    { used := fun _ => [bytesAt 0 16 1]
      own := fun s c => [(s.mapElsewhere c.part (c.b 16 1), 16)] }
  | 0x03 => some
    { used := fun _ => baseBytes [(16, 1), (17, 1), (19, 1)]
        ++ [(0, 18, 0, 6), (0, 20, 0, 14), (0, 22, 0, 14), (0, 24, 0, 6), (0, 25, 0, 5), bytesAt 0 26 6, (0, 32, 0, 7), (0, 33, 0, 3),
          bytesAt 0 34 3]
      bad := fun _ c =>
        let cat := c.f 0 16 6 2 == 3
        [(!operandFmt (c.f 0 18 0 4) || c.f 0 18 4 2 == 3 || (!cat && c.f 0 18 4 2 != 0), 18), (!cat && c.b 19 1 != 0, 19),
         (outside 1 8192 (c.f 0 22 0 14), 22)] ++ featBad (c.f 0 32 6 1 == 1) (c.b 26 6) (c.b 34 3) 26 34
      own := fun s c => [(s.tableElsewhere c.part (c.f 0 16 0 6), 16), (s.mapElsewhere c.part (c.b 17 1), 17)] }
  | 0x04 => some
    { exts := fun _ => 1
      used := fun _ => baseBytes [(16, 1), (17, 1), (36, 1)]
        ++ [(0, 18, 0, 7), (0, 19, 0, 7), (0, 20, 0, 5), (0, 21, 0, 5), (0, 22, 0, 5), (0, 23, 0, 4), bytesAt 0 24 6, bytesAt 0 30 6,
          bytesAt 1 4 3, maskBytes 1]
      bad := fun _ c =>
        [(c.f 0 18 0 3 == 7, 18), (c.f 0 19 0 3 == 7, 19), (c.f 0 20 3 1 == 1 && c.f 0 23 0 4 == 0xC, 20),
         (!operandFmt (c.f 0 23 0 4), 23), (c.b 24 6 % 64 != 0, 24), (c.f 0 20 1 1 == 0 && c.b 30 6 != 0, 30),
         (c.f 0 20 4 1 == 0 && c.b 36 1 != 0, 36), (c.e 4 3 % 128 != 0, 68)]
      own := fun s c => [(s.mapElsewhere c.part (c.b 16 1), 16), (s.mapElsewhere c.part (c.b 17 1), 17),
        (c.f 0 20 4 1 == 1 && s.mapElsewhere c.part (c.b 36 1), 36)] }
  | 0x05 => some
    { used := fun _ => [bytesAt 0 16 2, (0, 18, 0, 2), (0, 19, 0, 5), bytesAt 0 20 24]
      bad := fun _ c => [(decide (c.f 0 18 0 2 > 1), 18)]
        ++ (List.range 6).map (fun i => (!finite32 (c.b (20 + 4 * i) 4), 20 + 4 * i))
      own := fun s c => [(s.mapElsewhere c.part (c.b 16 1), 16), (s.mapElsewhere c.part (c.b 17 1), 17)] }
  | 0x06 => some
    { exts := fun c => if c.f 0 16 0 2 = 0 then 1 else 0
      used := fun _ => [(0, 16, 0, 3), bytesAt 0 17 2, (0, 19, 0, 5), bytesAt 0 20 16, bytesAt 1 4 6, (1, 10, 0, 6), (1, 11, 0, 7),
        (1, 12, 0, 3), bytesAt 1 13 3]
      bad := fun _ c =>
        let src := c.f 0 16 0 2
        let arg := c.f 0 16 2 1 == 1
        [(decide (src > 1), 16), (src == 0 && c.b 17 1 != 0, 17),
         ((if src = 0 then !operandFmt (c.f 0 18 0 4) else c.f 0 18 0 4 != 0) || (if arg then c.f 0 18 4 4 != 0 else !outputFmt (c.f 0 18 4 4)),
          18),
         (outside 1 67108864 (c.b 20 4), 20)]
          ++ (if src = 0 then featBad (c.f 1 11 6 1 == 1) (c.e 4 6) (c.e 13 3) 68 77 else [])
      own := fun s c => if c.f 0 16 0 2 = 0 then [(s.tableElsewhere c.part (c.f 1 10 0 6), 74)]
        else [(s.mapElsewhere c.part (c.b 17 1), 17)] }
  | _ => none

end Sys2Proof.Machine
end

