-- ==== Sys2Proof/Machine/FormsFabric.lean ====
section
/-! DEFINITION. The forms of the fabric commands (R425) and of the twin commands (R447, R448). -/
namespace Sys2Proof.Machine

/-- Forms of class 0x0, opcodes 0x80 and 0x81. -/
def formFabricBasic : Nat → Option Form
  | 0x80 => some
    { used := fun _ => [(0, 16, 0, 3), bytesAt 0 17 1]
      bad := fun _ c => [(decide (c.f 0 16 0 3 > 5), 16), (decide (c.b 17 1 > 1), 17)]
      own := fun _ c => pfOnly c }
  | 0x81 => some { own := fun _ c => pfOnly c }
  | _ => none

/-- Forms of class 0x8. -/
def formFabric : Nat → Option Form
  | 0x01 => some { used := fun _ => [bytesAt 0 24 6], own := fun _ c => pfOnly c }
  | 0x02 => some { own := fun _ c => pfOnly c }
  | 0x03 => some
    { used := fun _ => [bytesAt 0 16 2, bytesAt 0 18 2]
      bad := fun _ c => [(decide (c.b 16 2 ≥ 0x8000), 16), (badChip (c.b 18 2), 18)]
      own := fun _ c => pfOnly c }
  | 0x04 => some
    { used := fun _ => [(0, 16, 0, 3), bytesAt 0 17 1]
      bad := fun _ c => [(decide (c.f 0 16 0 3 > 5), 16), (decide (c.b 17 1 > 2), 17)]
      own := fun _ c => pfOnly c }
  | _ => none

/-- Forms of class 0x0, opcodes 0x90 and 0x91. -/
def formTwinBasic : Nat → Option Form
  | 0x90 => some
    { used := fun _ => baseBytes [(16, 1), (24, 8)]
      bad := fun _ c => [(outside 1 8 (c.b 16 1), 16)]
      own := fun _ c => pfOnly c }
  | 0x91 => some { own := fun _ c => pfOnly c }
  | _ => none

/-- Forms of class 0x9. -/
def formTwin : Nat → Option Form
  | 0x01 => some { exts := fun _ => 1, used := fun _ => baseBytes [(24, 6), (30, 6)] ++ [maskBytes 1] }
  | 0x02 => some
    { used := fun _ => baseBytes [(24, 6), (30, 6), (36, 4)]
      bad := fun _ c => [(outside 1 268435456 (c.b 36 4), 36)] }
  | _ => none

end Sys2Proof.Machine
end

