-- ==== Sys2Proof/Machine/Alloc.lean ====
section
/-! DEFINITION. Where firmware places what it allocates in a partition's HBM at the basic level: directories and rows of prior tables
(R388), the point buffers of stream sets (R174, R184) and the scratch areas of sorts (R362). -/
namespace Sys2Proof.Machine

/-- A run of bytes: from, to. -/
abbrev Extent := Nat × Nat

/-- Whether two runs share a byte. -/
def extentsMeet (a b : Extent) : Bool := decide (a.1 < b.2) && decide (b.1 < a.2)

/-- Bytes of a version's directory, and of its rows with the default row after them (R374). -/
def dirBytes (d : Nat) : Nat := 2 ^ d * 16
def rowsBytes (cap rowBytes : Nat) : Nat := (cap + 1) * rowBytes

/-- Bytes of a stream set's point buffer (R174). -/
def SetCfg.bufferBytes (c : SetCfg) : Nat := 96 * c.maxPoints

/-- What is allocated in HBM: directories and rows of live versions, point buffers, and scratch areas. -/
def State.hbmTaken (s : State) : List Extent :=
  s.gather.tables.flatMap (fun q => q.versions.flatMap (fun w =>
      [(w.dirBase, w.dirBase + dirBytes w.d), (w.rowBase, w.rowBase + rowsBytes w.rowsCap q.rowBytes)]))
    ++ s.ingest.sets.flatMap (fun x => (x.cfg :: x.next.toList).map (fun c => (c.buffer, c.buffer + c.bufferBytes)))
    ++ s.sort.runs.flatMap (fun r => r.scratch.map (fun x => (x.base, x.base + x.bytes)))

/-- Where an allocation could begin, if there is room for one at all: at the lowest place of a free range. -/
def State.hbmStarts (s : State) (taken : List Extent) (align : Nat) : List Nat :=
  let edges := (List.range 256).filterMap (fun i => if s.rdB Fld.brkFwCtl_enable i then some (s.winBase i) else none)
    ++ (List.range 4).map (fun t => t * stackBytes s.variant) ++ taken.map (·.2)
  (edges.map (fun a => (a + align - 1) / align * align)).eraseDups

/-- The free ranges of a partition's HBM, clear of some others, where n bytes have room. -/
def State.hbmPlaces (s : State) (part n align : Nat) (others : List Extent) : List Nat :=
  let taken := others ++ s.hbmTaken
  (s.hbmStarts taken align).filter (fun a => s.hbmOk part a n && !taken.any (extentsMeet (a, a + n)))

/-- A free range of a partition's HBM: which one is a free choice, and none where no range is free (R388). -/
def State.placeHbm (s : State) (part n align : Nat) (others : List Extent) : State × Option Nat :=
  let ok := s.hbmPlaces part n align others
  let (k, s) := s.choose ok.length
  (s, ok[k]?)

end Sys2Proof.Machine
end

