-- ==== Sys2Proof/Machine/FormsSort.lean ====
section
/-! DEFINITION. The forms of the sort commands (R346, R362 to R367). -/
namespace Sys2Proof.Machine

/-- Whether a key type and a width code go together (R346). -/
def keyPairOk (type width : Nat) : Bool := decide (type < 2) || (type == 2 && width != 0) || (type == 3 && width == 1)

/-- The key fields of byte 16 are illegal. -/
def keyBad (c : Cmd) : Bool := !keyPairOk (c.f 0 16 2 2) (c.f 0 16 0 2)

/-- A field that must be 0 unless a flag is set. -/
def zeroUnless (flag : Bool) (v at_ : Nat) : Bool × Nat := (!flag && v != 0, at_)

/-- Illegal values of SRT_SORT and SRT_TOPK (R346, R364, R365). -/
def sortBad (topk : Bool) (c : Cmd) : List (Bool × Nat) :=
  let pay := c.f 0 16 5 1 == 1
  let keys := c.f 0 16 6 1 == 1
  let thr := c.f 0 17 4 1 == 1
  [(keyBad c, 16), (c.b 20 4 == 0, 20), zeroUnless pay (c.b 30 6) 30, zeroUnless keys (c.b 36 6) 36, zeroUnless pay (c.e 14 4) 78,
   zeroUnless keys (c.e 18 4) 82]
    ++ (if topk then [(c.e 26 6 == 0, 90), (if thr then decide (c.e 40 8 ≥ 2 ^ (8 * 2 ^ c.f 0 16 0 2)) else c.e 40 8 != 0, 104)]
        else [(c.e 40 8 != 0, 104)])

/-- The form of a sort or top-k; a basic-level one reserves the stem mask and the scratch fields (R362). -/
def formSortRows (basic topk : Bool) : Form :=
  { exts := fun _ => 1
    used := fun _ => [(0, 16, 0, 7), bytesAt 0 18 30, bytesAt 1 4 22, bytesAt 1 40 8] ++ (if basic then [] else [(0, 17, 0, 4)])
      ++ (if topk then [(0, 17, 4, 1), bytesAt 1 26 6, (1, 32, 0, 12)] else if basic then [] else [bytesAt 1 26 10])
    bad := fun _ c => sortBad topk c }

/-- The form of a merge (R366). -/
def formMerge (basic : Bool) : Form :=
  { used := fun _ => [bytesAt 0 16 1, (0, 17, 4, 4), (0, 18, 0, 12), bytesAt 0 24 24] ++ (if basic then [] else [(0, 17, 0, 2)])
    bad := fun _ c =>
      [(keyBad c, 16), (c.f 0 17 4 4 == 0, 17), zeroUnless (c.f 0 16 7 1 == 1) (c.f 0 18 0 12) 18, (c.b 24 6 % 64 != 0, 24),
       zeroUnless (c.f 0 16 6 1 == 1) (c.b 30 6) 30] }

/-- Whether an FP32 pattern lies in [0.0, 1.0]. -/
def unitInterval (x : Nat) : Bool := (FVal.fin false 0 0).le (f32 x) && (f32 x).le (.fin false 1 0)

/-- The form of an NMS (R367). -/
def formNms (basic : Bool) : Form :=
  { exts := fun _ => 1
    used := fun _ => [(0, 16, 0, 2), bytesAt 0 18 24, (0, 42, 0, 12), (0, 44, 0, 12), bytesAt 1 4 22]
      ++ (if basic then [] else [(0, 17, 0, 4)])
    bad := fun _ c =>
      [(decide (c.f 0 44 0 12 > c.f 0 42 0 12), 44), (!unitInterval (c.e 4 4), 68),
       zeroUnless (c.f 0 16 1 1 == 1) (c.e 8 4) 72] }

/-- Forms of class 0x0, opcodes 0x60 to 0x64. -/
def formSortBasic : Nat → Option Form
  | 0x60 => some (formSortRows true false)
  | 0x61 => some (formSortRows true true)
  | 0x62 => some (formMerge true)
  | 0x63 => some (formNms true)
  | 0x64 => some
    { used := fun _ => baseBytes [(16, 2), (20, 4), (24, 4), (28, 2)] ++ [(0, 30, 0, 1)]
      bad := fun _ c => [(decide (c.b 16 2 > 255), 16), (decide (c.b 28 2 > 4096), 28)]
      own := fun s c => [(s.setElsewhere c.part (c.b 16 2), 16)] }
  | _ => none

/-- Forms of class 0x6. -/
def formSort : Nat → Option Form
  | 0x01 => some (formSortRows false false)
  | 0x02 => some (formSortRows false true)
  | 0x03 => some (formMerge false)
  | 0x04 => some (formNms false)
  | _ => none

end Sys2Proof.Machine
end

