-- ==== Sys2Proof/Machine/FormsGather.lean ====
section
/-! DEFINITION. The forms of the commands of prior tables and Burl caches (R384, R388, R390 to R392). -/
namespace Sys2Proof.Machine

/-- Whether a prior table is another partition's (R371). -/
def State.priorOther (s : State) (part t : Nat) : Bool := s.gather.tables.any (fun x => x.id == t && x.part != part)

/-- Whether a prior table is another partition's, or is held by firmware for a basic-level command (R8, R371). -/
def State.priorElsewhere (s : State) (part t : Nat) : Bool :=
  s.priorOther part t || s.gather.tables.any (fun x => x.id == t && x.firmware.isSome)

/-- The table that byte 16 of an expert-level descriptor names is owned elsewhere. -/
def priorOwn (s : State) (c : Cmd) : List (Bool × Nat) := [(s.priorElsewhere c.part (c.b 16 1), 16)]

/-- Whether the Burl allocation of a partition on a Stem is one that firmware has placed for a BURL_SIZE that has not retired (R8, R388). -/
def State.burlHeld (s : State) (part stem : Nat) : Bool :=
  s.queues.cmds.any (fun c => c.part == part && c.engineClass == 0 && c.opcode == 0x72 && c.phase == .finished && c.status == stSuccess
    && (c.f 0 16 0 4).testBit stem)

/-- Forms of class 0x0, opcodes 0x70 to 0x72. -/
def formGatherBasic : Nat → Option Form
  | 0x70 => some
    { used := fun _ => baseBytes [(16, 1), (20, 4), (24, 8), (32, 4), (36, 6)]
      bad := fun _ c => [(c.b 20 4 == 0 || decide (c.b 20 4 > 32768) || (c.b 36 6 == 0 && c.b 20 4 != 1), 20)]
      own := fun s c => [(s.priorOther c.part (c.b 16 1), 16)] }
  | 0x71 => some
    { used := fun _ => baseBytes [(16, 2), (18, 1), (19, 1)]
      own := fun s c => [((s.package? c.part (c.b 16 2)).isNone, 16), (s.priorOther c.part (c.b 19 1), 19)] }
  | 0x72 => some
    { used := fun _ => [(0, 16, 0, 4), bytesAt 0 17 1]
      bad := fun _ c => [(decide (c.b 17 1 > 64), 17)] }
  | _ => none

/-- The row size of a table, or 16 bytes where it is not defined. -/
def State.rowBytesOf (s : State) (t : Nat) : Nat := ((s.prior? t).map (·.rowBytes)).getD 16

/-- The batch size of GTH_GATHER (R391). -/
def Cmd.batchLog2 (c : Cmd) : Nat := if c.f 0 45 0 5 = 0 then 20 else c.f 0 45 0 5

/-- Illegal values of GTH_GATHER (R391). -/
def gatherBad (s : State) (c : Cmd) : List (Bool × Nat) :=
  let p := s.prior? (c.b 16 1)
  let index := (p.map (·.index)).getD false
  let inRow := match p with | some p => decide (16 * (c.b 18 1 + c.b 19 1 + 1) ≤ p.rowBytes) | none => true
  let stride := c.b 42 3
  [(c.f 0 17 0 4 == 0 || (index && c.f 0 17 4 1 == 1), 17), (!inRow, 19), (c.b 20 4 == 0 || decide (c.b 20 4 > 67108864), 20),
   (c.b 24 6 % 8 != 0, 24), (c.b 30 6 % 16 != 0, 30), (stride % 16 != 0 || decide (stride < 16 * (c.b 19 1 + 1)), 42),
   (decide (c.batchLog2 < 12) || decide (c.batchLog2 > 20), 45)]

/-- Forms of class 0x7. -/
def formGather : Nat → Option Form
  | 0x01 => some
    { used := fun _ => baseBytes [(16, 1), (18, 1), (20, 4), (24, 6), (32, 8)] ++ [(0, 17, 0, 2)]
      bad := fun _ c => [(c.b 20 4 == 0 || decide (c.b 20 4 > 32768), 20),
        ((c.f 0 17 0 1 == 0 && c.b 32 8 != 0) || decide (c.b 32 8 > 2 ^ 40), 32)]
      own := priorOwn }
  | 0x02 => some
    { used := fun _ => baseBytes [(16, 1), (18, 1), (20, 4), (24, 6), (30, 6), (36, 4)] ++ [(0, 17, 0, 4)]
      bad := fun _ c => [(decide (c.b 18 1 < 10) || decide (c.b 18 1 > 32), 18),
        (c.b 24 6 % 4096 != 0 || decide (c.b 24 6 ≥ 2 ^ 44), 24), (c.b 30 6 % 4096 != 0 || decide (c.b 30 6 ≥ 2 ^ 44), 30),
        (c.b 36 4 == 0 || decide (c.b 36 4 > 2 ^ 31), 36)]
      own := fun s c => priorOwn s c ++
        [(!s.owns c.part (c.b 24 6) (c.b 24 6 + dirBytes (c.b 18 1)), 24),
         (!s.owns c.part (c.b 30 6) (c.b 30 6 + rowsBytes (c.b 36 4) (s.rowBytesOf (c.b 16 1))), 30)] }
  | 0x03 => some
    { used := fun _ => baseBytes [(16, 1), (20, 4), (24, 6)] ++ [(0, 17, 0, 4), (0, 18, 0, 1)]
      bad := fun _ c => [(c.f 0 18 0 1 == 1 && c.b 20 4 != 1, 20)]
      own := priorOwn }
  | 0x04 => some { used := fun _ => [bytesAt 0 16 1, (0, 17, 0, 4)], own := priorOwn }
  | 0x05 => some
    { used := fun _ => baseBytes [(16, 1), (18, 1), (19, 1), (20, 4), (24, 6), (30, 6), (36, 6), (42, 3)]
        ++ [(0, 17, 0, 6), (0, 45, 0, 5)]
      bad := gatherBad
      own := priorOwn }
  | 0x06 => some
    { used := fun _ => [(0, 16, 0, 2), (0, 17, 0, 6), (0, 18, 0, 3), bytesAt 0 20 3, bytesAt 0 23 1]
      bad := fun _ c => [(c.b 20 3 % 128 != 0, 20), (decide (c.b 23 1 > 64), 23)]
      own := fun s c => [(s.burlHeld c.part (c.f 0 16 0 2), 16)] }
  | 0x07 => some { used := fun _ => [bytesAt 0 16 1], own := priorOwn }
  | _ => none

end Sys2Proof.Machine
end

