-- ==== Sys2Proof/Machine/FormsTile.lean ====
section
/-! DEFINITION. The forms of the tile commands: array arithmetic (R282 to R286) and tile programs (R303, R304, R309). -/
namespace Sys2Proof.Machine

/-- The body fields of TILE_GEMM (R283); GEMM has bytes 22 and 23 reserved (R282). -/
def gemmUsed (basic : Bool) : List FieldAt :=
  [bytesAt 0 16 2, (0, 18, 0, 15), (0, 20, 0, 10)] ++ (if basic then [] else [(0, 22, 0, 9)])
    ++ [bytesAt 0 24 4, bytesAt 0 28 18]

/-- Illegal values of the TILE_GEMM body (R261, R283, R284). -/
def gemmBad (c : Cmd) : List (Bool × Nat) :=
  let inf := c.f 0 16 0 4
  let wf := c.f 0 16 4 4
  [(!operandFmt inf || !operandFmt wf, 16), (!outputFmt (c.f 0 17 0 4) || (c.f 0 17 6 1 == 1 && (wf == 0xC || inf == 0xC)), 17),
   (outside 1 67108864 (c.b 24 4), 24), (c.b 34 6 % 64 != 0, 34)]

/-- Whether a stride is a multiple of 16 that leaves room for a row. -/
def strideBad (stride f channels : Nat) : Bool := stride % 16 != 0 || (outputFmt f && decide (stride < rowSize f channels))

/-- Illegal values of TILE_CONVERT (R286); `basic`: a stride of 0 means packed rows (R282). -/
def convertBad (basic : Bool) (c : Cmd) : List (Bool × Nat) :=
  let inf := c.f 0 16 0 4
  let out := c.f 0 16 4 4
  let ch := 32 * (c.f 0 18 0 10 + 1)
  let bad (stride f : Nat) : Bool := !(basic && stride == 0) && strideBad stride f ch
  [(!outputFmt inf || !outputFmt out, 16), (outside 1 67108864 (c.b 20 4), 20), (c.f 0 17 1 1 == 0 && c.b 36 6 != 0, 36),
   (bad (c.b 42 3) inf, 42), (bad (c.b 45 3) out, 45)]

/-- The body fields of TILE_CONVERT. -/
def convertUsed : List FieldAt := [bytesAt 0 16 1, (0, 17, 0, 3), (0, 18, 0, 10), bytesAt 0 20 28]

/-- Forms of class 0x0, opcodes 0x40 to 0x42. -/
def formTileBasic : Nat → Option Form
  | 0x40 => some
    { exts := fun c => c.f 0 17 4 1
      used := fun _ => gemmUsed true ++ [bytesAt 1 4 6]
      bad := fun _ c => gemmBad c }
  | 0x41 => some { used := fun _ => convertUsed, bad := fun _ c => convertBad true c }
  | 0x42 => some
    { used := fun _ => baseBytes [(16, 2), (18, 2), (20, 4), (24, 8)]
      bad := fun _ c => [(outside 1 4096 (c.b 20 4), 20)]
      own := fun s c => [((s.package? c.part (c.b 16 2)).isNone, 16)] }
  | _ => none

/-- Forms of class 0x4. -/
def formTile : Nat → Option Form
  | 0x01 => some
    { exts := fun _ => 1
      used := fun _ => gemmUsed false ++ [bytesAt 1 4 15, maskBytes 1]
      bad := fun _ c => gemmBad c ++
        [(c.f 0 17 4 1 == 0 && c.e 4 6 != 0, 68), (strideBad (c.e 10 3) (c.f 0 16 0 4) (32 * (c.f 0 18 0 10 + 1)), 74),
         (strideBad (c.e 13 3) (c.f 0 17 0 4) (32 * (c.f 0 20 0 10 + 1)), 77), (c.e 16 3 % 128 != 0, 80)] }
  | 0x02 => some
    { exts := fun _ => 1
      used := fun _ => convertUsed ++ [maskBytes 1]
      bad := fun _ c => convertBad false c }
  | 0x10 => some
    { exts := fun _ => 1
      used := fun _ => [bytesAt 0 16 28, (0, 44, 0, 1), bytesAt 1 4 6, maskBytes 1]
      bad := fun _ c =>
        [(c.b 16 6 % 2 != 0, 16), (c.b 22 2 == 0, 22), (c.b 32 6 % 16 != 0 || (c.b 38 2 == 0 && c.b 32 6 != 0), 32),
         (decide (c.b 38 2 > 1024), 38), (c.e 4 6 % 4096 != 0, 68)] }
  | _ => none

end Sys2Proof.Machine
end

