-- ==== Sys2Proof/Machine/FormsSparse.lean ====
section
/-! DEFINITION. The forms of the sparse convolution commands (R251, R253 to R256). -/
namespace Sys2Proof.Machine

/-- Forms of class 0x0, opcodes 0x30 and 0x31. -/
def formSparseBasic : Nat → Option Form
  | 0x30 => some
    { used := fun _ => baseBytes [(16, 2), (18, 2)]
      bad := fun _ c => [(decide (c.b 16 2 > 255), 16)]
      own := fun s c => [(s.setElsewhere c.part (c.b 16 2), 16), ((s.package? c.part (c.b 18 2)).isNone, 18)] }
  | 0x31 => some
    { used := fun _ => baseBytes [(24, 6), (32, 4)]
      bad := fun _ c => [(c.b 24 6 % 4096 != 0, 24), (c.b 32 4 % 4 != 0, 32)] }
  | _ => none

/-- Body fields that KME_CONV and KME_MAP_WRITE share (R254). -/
def kmeUsed : List FieldAt := [bytesAt 0 16 1, (0, 17, 0, 6), (0, 18, 0, 7), (0, 19, 0, 7), (0, 20, 0, 7), (0, 21, 0, 7), (0, 26, 0, 10)]

/-- Illegal values that they share. -/
def kmeBad (c : Cmd) : List (Bool × Nat) :=
  [(c.f 0 18 0 3 == 7, 18), (c.f 0 19 0 3 == 7, 19), (c.f 0 20 0 3 == 7, 20), (c.f 0 16 6 2 != 3 && c.f 0 21 0 7 != 0, 21),
   (decide (c.f 0 26 0 10 > 512), 26)]

/-- Tables of another partition, or held by firmware. -/
def kmeOwn (s : State) (c : Cmd) : List (Bool × Nat) :=
  [(s.tableElsewhere c.part (c.f 0 16 0 6), 16), (s.tableElsewhere c.part (c.f 0 17 0 6), 17)]

/-- Forms of class 0x3. -/
def formSparse : Nat → Option Form
  | 0x01 => some
    { exts := fun _ => 1
      used := fun _ => kmeUsed ++ [(0, 22, 0, 13), bytesAt 0 24 1, bytesAt 0 28 20, bytesAt 1 4 12, (1, 16, 0, 7), (1, 17, 0, 3),
        bytesAt 1 18 3, (1, 21, 0, 7), (1, 22, 0, 3), bytesAt 1 23 6, maskBytes 1]
      bad := fun _ c =>
        let inf := c.f 0 24 0 4
        kmeBad c ++
        [(c.f 0 22 12 1 == 1 && inf == 0xC, 22), (!operandFmt inf || !outputFmt (c.f 0 24 4 4), 24), (c.b 28 6 % 64 != 0, 28),
         (c.f 0 22 10 1 == 0 && c.b 34 6 != 0, 34), (c.b 40 6 % 4096 != 0, 40),
         (c.b 46 2 % 4 != 0 || (c.b 40 6 == 0 && c.b 46 2 != 0), 46),
         (c.f 1 16 6 1 == 0 && c.e 4 6 != 0, 68), (c.f 1 21 6 1 == 0 && c.e 10 6 != 0, 74), (c.e 18 3 % 128 != 0, 82),
         (c.e 23 3 % 128 != 0, 87)]
      own := kmeOwn }
  | 0x02 => some
    { used := fun _ => kmeUsed ++ [bytesAt 0 28 12]
      bad := fun _ c => kmeBad c ++ [(c.b 28 6 % 4096 != 0, 28), (c.b 34 6 % 0x400000 != 0, 34)]
      own := kmeOwn }
  | _ => none

end Sys2Proof.Machine
end

