-- ==== Sys2Proof/Machine/FormsSystem.lean ====
section
/-! DEFINITION. The forms of the safety commands (R482, R483), the security commands (R506, R508), the observability commands (R532) and
the power commands (R551). -/
namespace Sys2Proof.Machine

/-- Forms of class 0x0, opcodes 0xA0 and 0xA1. -/
def formSafetyBasic : Nat → Option Form
  | 0xA0 => some { own := fun _ c => pfOnly c }
  | 0xA1 => some
    { used := fun _ => baseBytes [(16, 1), (20, 4), (24, 8), (32, 4)]
      bad := fun _ c => [(decide (c.b 16 1 > 1), 16)]
      own := fun _ c => pfOnly c }
  | _ => none

/-- Forms of class 0xA. -/
def formSafety : Nat → Option Form
  | 0x01 => some { exts := fun _ => 1, used := fun _ => [maskBytes 1] }
  | _ => none

/-- Forms of class 0x0, opcodes 0xB0 to 0xB4. -/
def formSecurityBasic : Nat → Option Form
  | 0xB0 => some
    { used := fun _ => baseBytes [(24, 8), (32, 4)]
      bad := fun _ c => [(decide (c.b 32 4 > 67108864), 32)]
      own := fun _ c => pfOnly c }
  | 0xB1 => some
    { used := fun _ => baseBytes [(16, 1)]
      bad := fun _ c => [(decide (c.b 16 1 > 1), 16)]
      own := fun _ c => pfOnly c }
  | 0xB2 => some { used := fun _ => baseBytes [(24, 8), (32, 4)], own := fun _ c => pfOnly c }
  | 0xB3 => some { own := fun _ c => pfOnly c }
  | 0xB4 => some { used := fun _ => baseBytes [(16, 1), (24, 8)], own := fun _ c => pfOnly c }
  | _ => none

/-- Forms of class 0xB. -/
def formSecurity : Nat → Option Form
  | 0x01 => some { used := fun _ => baseBytes [(24, 6), (30, 6), (36, 4)] }
  | 0x02 => some
    { used := fun _ => baseBytes [(24, 6), (30, 6), (36, 4), (40, 6)]
      bad := fun _ c => [(decide (c.b 36 4 > 1048576), 36)] }
  | _ => none

/-- Forms of class 0x0, opcodes 0xE0 to 0xE2. The mode of TRACE_CTRL belongs to action 3 alone. -/
def formObserveBasic : Nat → Option Form
  | 0xE0 => some
    { used := fun c => if c.b 16 1 = 3 then baseBytes [(16, 1), (17, 1)] else baseBytes [(16, 1)]
      bad := fun _ c => [(decide (c.b 16 1 > 3), 16), (c.b 16 1 == 3 && decide (c.b 17 1 > 2), 17)]
      own := fun _ c => pfOnly c }
  | 0xE1 => some { used := fun _ => baseBytes [(20, 12)] }
  | 0xE2 => some { own := fun _ c => pfOnly c }
  | _ => none

/-- Forms of class 0x0, opcodes 0xF0 and 0xF1. -/
def formPowerBasic : Nat → Option Form
  | 0xF0 => some
    { used := fun _ => baseBytes [(16, 2)]
      bad := fun _ c => [(outside 120 480 (c.b 16 2), 16)]
      own := fun _ c => pfOnly c }
  | 0xF1 => some
    { used := fun _ => [(0, 16, 0, 2), bytesAt 0 17 1]
      bad := fun _ c => [(decide (c.b 17 1 > 1), 17)]
      own := fun _ c => pfOnly c }
  | _ => none

end Sys2Proof.Machine
end

