-- ==== Sys2Proof/Machine/Forms.lean ====
section
/-! DEFINITION. The form of every command, by engine class and opcode (R82, R84 check 1). -/
namespace Sys2Proof.Machine

/-- The form of a command of class 0x0. -/
def formBasic (op : Nat) : Option Form :=
  [formGeneric op, formIngestBasic op, formVoxelBasic op, formTileBasic op, formSparseBasic op, formCanopyBasic op, formSortBasic op,
   formGatherBasic op, formFabricBasic op, formTwinBasic op, formSafetyBasic op, formSecurityBasic op,
   formObserveBasic op, formPowerBasic op].findSome? (fun f => f)

/-- The form of a defined class and opcode pair. -/
def formOf (cls op : Nat) : Option Form :=
  match cls with
  | 0x0 => formBasic op
  | 0x1 => formIngest op
  | 0x2 => formVoxel op
  | 0x3 => formSparse op
  | 0x4 => formTile op
  | 0x5 => formCanopy op
  | 0x6 => formSort op
  | 0x7 => formGather op
  | 0x8 => formFabric op
  | 0x9 => formTwin op
  | 0xA => formSafety op
  | 0xB => formSecurity op
  | 0xC => formKnot op
  | _ => none

end Sys2Proof.Machine
end

