-- ==== Sys2Proof/Machine/MapBlocks.lean ====
section
/-! DEFINITION. The channel blocks of maps that a Canopy command reads and writes, and when it may take them (R317 to R319). -/
namespace Sys2Proof.Machine

/-! Statuses that a dispatch gives (R343). -/
def stMapAbsent : Half := 0x0540
def stMapInvalid : Half := 0x0544
def stMapAlias : Half := 0x0545

/-- Blocks lo to lo + n − 1 as a mask. -/
def blockMask (lo n : Nat) : Nat := (2 ^ n - 1) * 2 ^ lo

/-- The mask of every block of a map; 0 for one that is not defined. -/
def State.allBlocks (s : State) (m : Nat) : Nat := match s.map? m with | some x => blockMask 0 x.cBlocks | none => 0

/-- What a command needs of maps: the map, the blocks it reads and the blocks it writes. -/
structure MapNeed where
  map : Nat
  read : Nat := 0
  write : Nat := 0

/-- The needs of a Canopy command (R319, R320, R323, R326, R327, R330). -/
def State.mapNeeds (s : State) (c : Cmd) : List MapNeed :=
  if c.engineClass ≠ 5 then []
  else match c.opcode with
  | 0x02 => [{ map := c.b 16 1, write := s.allBlocks (c.b 16 1) }]
  | 0x03 => [{ map := c.b 17 1, write := s.allBlocks (c.b 17 1) }]
  | 0x04 =>
    let w := blockMask (c.f 0 22 0 5) (c.f 0 21 0 5 + 1)
    [({ map := c.b 16 1, read := s.allBlocks (c.b 16 1) } : MapNeed), { map := c.b 17 1, write := w }]
      ++ (if c.f 0 20 4 1 = 1 then [({ map := c.b 36 1, read := w } : MapNeed)] else [])
  | 0x05 =>
    let n := match s.map? (c.b 16 1) with | some x => x.cBlocks | none => 0
    [{ map := c.b 16 1, read := s.allBlocks (c.b 16 1) }, { map := c.b 17 1, write := blockMask (c.f 0 19 0 5) n }]
  | 0x06 => if c.f 0 16 0 2 = 1 then [{ map := c.b 17 1, read := s.allBlocks (c.b 17 1) }] else []
  | _ => []

/-- Whether two needs of one map cannot hold together: one writes a block that the other reads or writes. -/
def MapNeed.meets (a b : MapNeed) : Bool :=
  a.map == b.map && ((a.write &&& (b.read ||| b.write)) != 0 || (a.read &&& b.write) != 0)

/-- Whether two commands' needs cannot hold together. -/
def needsMeet (a b : List MapNeed) : Bool := a.any (fun x => b.any x.meets)

/-- Whether pins and holds of other commands leave the blocks that a command needs (R318). -/
def State.blocksFree (s : State) (id : Nat) (ns : List MapNeed) : Bool :=
  ns.all (fun n => match s.map? n.map with
    | none => true
    | some m => !(m.holds.any (fun h => h.cmd != id && (h.mask &&& (n.read ||| n.write)) != 0))
      && !(m.pins.any (fun p => p.cmd != id && (p.mask &&& n.write) != 0)))

/-- A command that names one map as both input and output (R318). -/
def mapAlias (ns : List MapNeed) : Option Nat :=
  (ns.find? (fun a => a.write != 0 && ns.any (fun b => b.map == a.map && b.read != 0))).map (·.map)

/-- Whether a Canopy command may leave the wait stage as far as its maps go (R318). -/
def State.mapsReady (s : State) (c : Cmd) : Bool := (mapAlias (s.mapNeeds c)).isSome || s.blocksFree c.id (s.mapNeeds c)

/-- A command takes its pins and holds, and the blocks that it writes are no longer valid (R317, R318). -/
def State.takeBlocks (s : State) (id : Nat) (ns : List MapNeed) : State :=
  ns.foldl (fun s n => { s with canopy := { s.canopy with
    maps := updWhere s.canopy.maps (fun m => m.id == n.map) (fun m => { m with
      valid := m.valid &&& (2 ^ 32 - 1 - n.write)
      pins := if n.read = 0 then m.pins else m.pins ++ [{ cmd := id, mask := n.read }]
      holds := if n.write = 0 then m.holds else m.holds ++ [{ cmd := id, mask := n.write }] }) } }) s

/-- The lowest block that a command reads and that is not valid (R317): the map and the block. -/
def State.invalidBlock (s : State) (ns : List MapNeed) : Option (Nat × Nat) :=
  ns.findSome? (fun n => match s.map? n.map with
    | none => none
    | some m => ((List.range 32).find? (fun b => n.read.testBit b && !m.valid.testBit b)).map (fun b => (n.map, b)))

/-- The byte offset at which a Canopy command names a map or a table that has become another's since its fetch (R314). -/
def State.mapsForeign (s : State) (c : Cmd) : Option Nat :=
  if (s.mapNeeds c).isEmpty then none else leastBad ((formCanopy c.opcode).elim [] (fun f => f.own s c))

/-- The dispatch of a Canopy command (R314, R317 to R319): it fails where a map has become another's since the fetch, is absent, is both
input and output, or has a block that is read and not valid; otherwise it takes its blocks all at once. -/
def State.dispatchMaps (s : State) (c : Cmd) : State :=
  let ns := s.mapNeeds c
  match s.mapsForeign c with
  | some off => s.finish c.id stOwnership (BitVec.ofNat 32 off)
  | none =>
  match ns.find? (fun n => (s.map? n.map).isNone) with
  | some n => s.finish c.id stMapAbsent (BitVec.ofNat 32 n.map)
  | none =>
  match mapAlias ns with
  | some m => s.finish c.id stMapAlias (BitVec.ofNat 32 m)
  | none =>
  match s.invalidBlock ns with
  | some (m, b) => s.finish c.id stMapInvalid (BitVec.ofNat 32 (m * 256 + b))
  | none => s.takeBlocks c.id ns

end Sys2Proof.Machine
end

