-- ==== Sys2Proof/Machine/Compression.lean ====
section
/-! DEFINITION. Compressed transfers (R414): data of packets in bitmap form. -/
namespace Sys2Proof.Machine

/-- COMPRESSION_FORMAT (R426). -/
def stCompression : Half := 0x0844

/-- Bytes of an element of a comp_width code. -/
def compBytes (w : Nat) : Nat := if w = 1 then 1 else if w = 2 then 2 else 4

/-- The groups of 32 elements of some data. -/
def compGroups (w : Nat) (d : List Byte) : List (List (List Byte)) :=
  let n := compBytes w
  (List.range (d.length / (32 * n))).map (fun g => (List.range 32).map (fun i => slice d ((32 * g + i) * n) n))

/-- A group in bitmap form. -/
def bitmapGroup (g : List (List Byte)) : List Byte :=
  let live (e : List Byte) : Bool := e.any (fun b => b != 0)
  let m := (List.range 32).foldl (fun m i => if live (nth [] g i) then setBit m i else m) 0
  natToBytes 4 m ++ (g.filter live).flatMap (fun e => e)

/-- Data in the form that travels under a comp_width: bitmap exactly when that is shorter. -/
def compress (w : Nat) (d : List Byte) : List Byte :=
  let gs := compGroups w d
  let bm := gs.flatMap bitmapGroup
  let form := decide (bm.length < d.length)
  let body := if form then bm else d
  [(if form then 1 else 0), BitVec.ofNat 8 w] ++ natToBytes 2 gs.length ++ natToBytes 2 body.length ++ [0, 0] ++ body

/-- Groups in bitmap form are read one after the other: none where a bitmap asks for more bytes than there are, or some are left. -/
def expandGroups (n : Nat) : Nat → List Byte → Option (List Byte)
  | 0, b => if b.isEmpty then some [] else none
  | k + 1, b =>
    let m := leAt b 0 4
    let need := 4 + n * popCount 32 m
    if b.length < need then none
    else
      let elems := (List.range 32).flatMap (fun i =>
        if m.testBit i then slice b (4 + n * popCount i m) n else List.replicate n 0)
      (expandGroups n k (b.drop need)).map (fun r => elems ++ r)

/-- Data as a receiver reads it: none where header, groups or a bitmap do not fit the packet's length. -/
def expand (w : Nat) (b : List Byte) : Option (List Byte) :=
  let n := compBytes w
  let groups := leAt b 2 2
  let body := b.drop 8
  if b.length < 8 ∨ leAt b 1 1 ≠ w ∨ leAt b 4 2 ≠ body.length ∨ leAt b 0 1 > 1 then none
  else if leAt b 0 1 = 0 then (if body.length = 32 * groups * n then some body else none)
  else expandGroups n groups body

/-- Whether a number of bytes is a whole number of the groups of a comp_width. -/
def wholeGroups (w n : Nat) : Bool := decide (0 < n) && n % (32 * compBytes w) == 0

/-- The comp_width that a unit names for some data of another chip, or none. DESIGN CHOICE: the rules do not say which transfers are
compressed, so it is a free choice among the widths that the data is whole groups of. -/
def State.chooseComp (s : State) (n : Nat) : Nat × State :=
  let ws := [1, 2, 3].filter (fun w => wholeGroups w n)
  let (k, s) := s.choose (ws.length + 1)
  (if k = 0 then 0 else nth 0 ws (k - 1), s)

/-- Data as it travels under a comp_width, which may be none. -/
def packed (w : Nat) (d : List Byte) : List Byte := if w = 0 then d else compress w d

/-- Data that has travelled under a comp_width, which may be none: none where it is inconsistent with itself. -/
def unpacked (w : Nat) (b : List Byte) : Option (List Byte) := if w = 0 then some b else expand w b

end Sys2Proof.Machine
end

