-- ==== Sys2Proof/Machine/Remote.lean ====
section
/-! DEFINITION. Routes and requests to other chips (R38, R401, R403 to R408, R412, R416, R421). -/
namespace Sys2Proof.Machine

/-! Routes. -/

/-- The torus dimensions (R401). -/
def State.dim (s : State) (a : Nat) : Nat :=
  1 + (match a with
    | 0 => s.rdN Fld.wblFabricCfg_dx_m1
    | 1 => s.rdN Fld.wblFabricCfg_dy_m1
    | _ => s.rdN Fld.wblFabricCfg_dz_m1)

/-- A coordinate of a chip ID (R401): 0 for x, 1 for y, 2 for z. -/
def coord (id a : Nat) : Nat := getBits id (5 * a) 5

/-- Whether an ID names a chip of the torus (R401). -/
def State.namesChip (s : State) (id : Nat) : Bool := decide (id < 0x8000) && [0, 1, 2].all (fun a => decide (coord id a < s.dim a))

/-- The chips of the torus, in ascending order (R401). -/
def State.torusChips (s : State) : List Nat :=
  (List.range (s.dim 2)).flatMap (fun z => (List.range (s.dim 1)).flatMap (fun y => (List.range (s.dim 0)).map (fun x =>
    1024 * z + 32 * y + x)))

/-- Where a packet goes next. -/
inductive Hop where
  | here
  | link (l : Nat)
  | unreachable
  deriving DecidableEq, Repr

/-- Dimension order (R406). -/
def State.dimOrder (s : State) (dst : Nat) : Hop :=
  let me := s.chipId
  match [0, 1, 2].find? (fun a => coord dst a != coord me a) with
  | none => .here
  | some a =>
    let d := s.dim a
    let delta := (coord dst a + d - coord me a) % d
    .link (if 2 * delta ≤ d then 2 * a else 2 * a + 1)

/-- The next hop of a packet for a destination, by the override table of its epoch (R403, R406, R408). -/
def State.nextHop (s : State) (epoch dst : Nat) : Hop :=
  if dst = s.chipId then .here
  else match s.twinLink with
  | some l => if dst ≤ 1 then .link l else .unreachable
  | none =>
    if !s.namesChip dst then .unreachable
    else
      let bank := if epoch = 0 then s.fabric.bank0 else s.fabric.bank1
      let e := ((bank.find? (fun r => r.chip == dst)).map (·.entry)).getD 7
      if e.testBit 4 then .unreachable
      else if e % 8 < 6 then .link (e % 8)
      else s.dimOrder dst

/-- The injection epoch (R417). -/
def State.epoch (s : State) : Nat := s.rdN Fld.wblFabricStatus_epoch

/-- A destination at injection: 0xFFFF is this chip (R38), and a lost chip is replaced by its substitute (R421). -/
def State.aliased (s : State) (chip : Nat) : Nat :=
  let c := if chip = 0xFFFF then s.chipId else chip
  match (List.range 64).find? (fun i => s.rdB Fld.wblAlias_valid i && s.rdN Fld.wblAlias_lost i == c) with
  | some i => s.rdN Fld.wblAlias_substitute i
  | none => c

/-- Whether a chip can be reached (R401, R408). -/
def State.reaches (s : State) (chip : Nat) : Bool := s.nextHop s.epoch (s.aliased chip) != .unreachable

/-- The chips of the torus that can be reached from here (R401, R408). -/
def State.reachable (s : State) : List Nat :=
  s.torusChips.filter (fun c => c == s.chipId || s.nextHop s.epoch c != .unreachable)

/-- A management packet of the shared firmware goes to another chip (R405). -/
def State.sendMgmt (s : State) (m : Config.FirmwareMsg) (chip : Nat) : State :=
  s.inject { dst := s.aliased chip, src := s.chipId, cls := 3, type := 0x18, epoch := s.epoch, payload := Config.firmwareBytes m }

/-! Requests. -/

/-- The payload of a READ (R405). -/
def readPayload (a n : Nat) (comp : Nat := 0) : List Byte := natToBytes 6 a ++ natToBytes 2 (n - 1 + 512 * comp)

/-- The payload of a WRITE (R405, R414). -/
def writePayload (a : Nat) (data : List Byte) (comp : Nat := 0) : List Byte :=
  natToBytes 6 a ++ natToBytes 2 (512 * comp) ++ packed comp data

/-- The payload of an ATOMIC: the compare value for compare-and-swap only. -/
def atomicPayload (a : Nat) (op : AtomicOp) (x y : DWord) : List Byte :=
  natToBytes 6 a ++ natToBytes 2 op.code ++ natToBytes 8 x.toNat ++ (if op = .cas then natToBytes 8 y.toNat else [])

/-- The payload of a KNOT_SIGNAL. -/
def knotPayload (knot : Nat) (inc : DWord) : List Byte := natToBytes 2 knot ++ natToBytes 6 0 ++ natToBytes 8 inc.toNat

/-- The class that carries a packet type (R405). -/
def typeClass (type : Nat) : Nat :=
  if type = 0x08 ∨ type = 0x09 then 1 else if type = 0x10 then 2 else if type = 0x18 then 3 else 0

/-- Whether a request to a destination may be issued: below the limit of R412, and with no old-epoch request to it
unanswered (R416). -/
def State.mayIssue (s : State) (dst : Nat) : Bool :=
  decide (s.fabric.requests.length < 4096) && !s.fabric.requests.any (fun r => r.dst == dst && r.epoch != s.epoch)

/-- A request is issued with a tag of its own. -/
def State.issue (s : State) (r : Request) (p : Packet) : State :=
  let f := s.fabric
  let r := { r with tag := f.nextTag, epoch := s.epoch, issued := s.time.uptime }
  let s := { s with fabric := { f with requests := f.requests ++ [r], nextTag := (f.nextTag + 1) % 65536 } }
  s.inject { p with tag := r.tag, epoch := r.epoch }

/-- Requests that wait are issued, oldest first, as far as they may; one that must wait holds back later ones to its
destination. -/
def State.issueWaiting (s : State) (blocked : List Nat) : List (Request × Packet) → State
  | [] => s
  | (r, p) :: rest =>
    if !blocked.contains r.dst && s.mayIssue r.dst then (s.issue r p).issueWaiting blocked rest
    else
      let s := { s with fabric := { s.fabric with waiting := s.fabric.waiting ++ [(r, p)] } }
      s.issueWaiting (r.dst :: blocked) rest

/-- Waiting requests get another chance. -/
def State.pumpRequests (s : State) : State :=
  ({ s with fabric := { s.fabric with waiting := [] } }).issueWaiting [] s.fabric.waiting

/-- A unit of this chip sends a request to another chip (R38, R412, R421). `left` is the number of answers that it draws,
`comp` the comp_width that its payload names. -/
def State.request (s : State) (o : Origin) (owner : ReqOwner) (kind : ReqKind) (chip type : Nat) (payload : List Byte)
    (left : Nat := 1) (comp : Nat := 0) : State :=
  let dst := s.aliased chip
  let r : Request := { tag := 0, dst := dst, owner := owner, kind := kind, left := left, comp := comp,
                       space := if type = 0x01 then 536 else 32 }
  let p : Packet := { dst := dst, src := s.chipId, cls := typeClass type, type := type, part := o.part, crit := o.crit, tag := 0,
                      stream := o.stream, payload := payload }
  if s.fabric.waiting.any (fun w => w.1.dst == dst) || !s.mayIssue dst then
    { s with fabric := { s.fabric with waiting := s.fabric.waiting ++ [(r, p)] } }
  else s.issue r p

end Sys2Proof.Machine
end

