-- ==== Sys2Proof/Machine/Operands.lean ====
section
/-! DEFINITION. The operand forms of the descriptors: host addresses of the basic level, global addresses of the expert
level (R38, R39), Sapwood regions (R197) and tile masks (R284). -/
namespace Sys2Proof.Machine

/-- Stores of the host that are visible when a read of the device is served. -/
def State.hostStores (s : State) (l : List HostStore) : State :=
  l.foldl (fun s x => { s with host := memWrite s.host x.addr x.bytes }) s

/-- A little-endian number in host memory. -/
def State.hostLe (s : State) (a n : Nat) : Nat := bytesToNat (memRead s.host a n)

/-- The local address of a host address: the host memory window (R44). A host address beyond the window's reach has
none. -/
def hostLocal (a : Nat) : Option Nat := if a < 2 ^ 47 then some (0x800000000000 + a) else none

/-- A read at a host address that a basic-level command names. -/
def State.basicLoad (s : State) (c : Cmd) (a n : Nat) : State × Except AccErr (List Byte) :=
  match hostLocal a with
  | some l => s.load c.origin l n
  | none => (s, .error ⟨stAddress, addrDetail a⟩)

/-- A write at a host address that a basic-level command names. -/
def State.basicStore (s : State) (c : Cmd) (a : Nat) (data : List Byte) : State × Option AccErr :=
  match hostLocal a with
  | some l => s.store c.origin l data
  | none => (s, some ⟨stAddress, addrDetail a⟩)

/-- The chip that a global address names and its local address (R38). -/
def gChip (a : Nat) : Nat := getBits a 48 16
def gLocal (a : Nat) : Nat := getBits a 0 48

/-- Whether a global address lies on this chip (R38). -/
def State.isHere (s : State) (a : Nat) : Bool := s.isLocalChip (gChip a)

/-- A read at an image's address: a basic-level command names host memory, an expert descriptor the chip's address space
(R184). -/
def State.imageLoad (s : State) (c : Cmd) (basic : Bool) (a n : Nat) : State × Except AccErr (List Byte) :=
  if basic then s.basicLoad c a n
  else if s.isHere a || gChip a == 0 then s.load c.origin (gLocal a) n
  else (s, .error ⟨stAddress, addrDetail a⟩)

/-- A write at such an address. -/
def State.imageStore (s : State) (c : Cmd) (basic : Bool) (a : Nat) (data : List Byte) : State × Option AccErr :=
  if basic then s.basicStore c a data
  else if s.isHere a || gChip a == 0 then s.store c.origin (gLocal a) data
  else (s, some ⟨stAddress, addrDetail a⟩)

/-! Global addresses: accesses to other chips travel as packets (R38, R39, R401, R405). -/

/-- What a read at a global address gives: bytes, a failure, or nothing yet. -/
inductive GLoad where
  | ok (bytes : List Byte)
  | err (e : AccErr)
  | wait

/-- Why a chip cannot be named at all: a reserved ID (R39) or no route (R401). -/
def State.chipError (s : State) (a : Nat) : Option AccErr :=
  if badChip (gChip a) then some ⟨stAddress, addrDetail (gLocal a)⟩
  else if s.reaches (gChip a) then none
  else some ⟨stUnreachable, BitVec.ofNat 32 (gChip a)⟩

/-- The pieces of at most 512 bytes of an access to another chip: offset and length (R405). -/
def remotePieces (n : Nat) : List (Nat × Nat) := (List.range (ceilDiv n 512)).map (fun i => (512 * i, min 512 (n - 512 * i)))

/-- A read at a global address for a command. One of another chip sends its requests the first time, and gives its bytes
once every piece has arrived. -/
def State.gLoad (s : State) (c : Cmd) (a n : Nat) : State × GLoad :=
  if s.isHere a then
    match s.load c.origin (gLocal a) n with
    | (s, .ok b) => (s, .ok b)
    | (s, .error e) => (s, .err e)
  else match s.chipError a with
  | some e => (s, .err e)
  | none =>
    let mine (r : RemoteRead) := r.cmd == c.id && r.addr == a && r.len == n
    match s.fabric.reads.find? mine with
    | some r =>
      if (r.got.foldl (fun k g => k + g.2.length) 0) < n then (s, .wait)
      else
        let bytes := (remotePieces n).flatMap (fun p => ((r.got.find? (fun g => g.1 == p.1)).map (·.2)).getD [])
        ({ s with fabric := { s.fabric with reads := s.fabric.reads.filter (fun r => !mine r) } }, .ok bytes)
    | none =>
      let s := { s with fabric := { s.fabric with reads := s.fabric.reads ++ [({ cmd := c.id, addr := a, len := n } : RemoteRead)] } }
      ((remotePieces n).foldl (fun s p =>
        let (w, s) := s.chooseComp p.2
        s.request c.origin (.command c.id) (.piece a p.1) (gChip a) 0x01 (readPayload (gLocal a + p.1) p.2 w) 1 w) s, .wait)

/-- A write at a global address for a command. One to another chip is sent, and the command does not retire before it has
been answered. -/
def State.gStore (s : State) (c : Cmd) (a : Nat) (data : List Byte) : State × Option AccErr :=
  if s.isHere a then s.store c.origin (gLocal a) data
  else match s.chipError a with
  | some e => (s, some e)
  | none =>
    ((remotePieces data.length).foldl (fun s p =>
      let (w, s) := s.chooseComp p.2
      s.request c.origin (.command c.id) (.store (gLocal a + p.1)) (gChip a) 0x02 (writePayload (gLocal a + p.1) (slice data p.1 p.2) w)) s,
     none)

/-- The meaning of a row that reads at a global address: it goes on with the bytes, ends with the failure, or waits. -/
def State.withGlobal (s : State) (c : Cmd) (a n : Nat) (f : State → List Byte → State) : State :=
  match s.gLoad c a n with
  | (s, .ok b) => f s b
  | (s, .err e) => s.failAcc c.id e
  | (s, .wait) => s

/-- The end of a command whose last act is a write at a global address. -/
def State.finishStore (s : State) (c : Cmd) (a : Nat) (data : List Byte) (st : Half) (detail : Word := 0) : State :=
  match s.gStore c a data with
  | (s, some e) => s.failAcc c.id e
  | (s, none) => s.finish c.id st detail

/-- The tile of element i of a Sapwood region and its window address in a Stem: elements of `size` bytes are dealt over
the region's tiles (R197). -/
def regionAddr (stem t0 m offset size i : Nat) : Nat := sliceBase stem (t0 + i % 2 ^ m) + offset + (i / 2 ^ m) * size

/-- A region of the slices of a Stem: first tile, log2 of the tiles, offset in each slice, and the elements that are dealt over the slices
in turn: their size and their number (R197, R316). -/
structure Dealt where
  t0 : Nat
  m : Nat
  offset : Nat
  size : Nat
  n : Nat

/-- The bytes that the elements of a region take of slice k. -/
def Dealt.share (d : Dealt) (k : Nat) : Nat := (d.n + 2 ^ d.m - 1 - k) / 2 ^ d.m * d.size

/-- The ranges of a Stem's slices that hold the elements of a region. -/
def Dealt.ranges (d : Dealt) (stem : Nat) : List (Nat × Nat) :=
  ((List.range (2 ^ d.m)).filter (fun k => d.share k != 0)).map (fun k =>
    let a := sliceBase stem (d.t0 + k) + d.offset
    (a, a + d.share k))

/-- Whether a region lies within the slices, in banks that are ON and owned by a partition (R197, R316). -/
def State.regionOk (s : State) (part stem : Nat) (d : Dealt) : Bool :=
  decide (d.t0 + 2 ^ d.m ≤ 64) && (List.range (2 ^ d.m)).all (fun k => d.share k == 0 || s.sliceUsable stem (d.t0 + k) d.offset (d.share k))
    && (d.ranges stem).all (fun r => s.owns part r.1 r.2)

/-- Whether two sets of ranges share a byte. -/
def rangesMeet (a b : List (Nat × Nat)) : Bool := a.any (fun x => b.any (fun y => decide (x.1 < y.2) && decide (y.1 < x.2)))

/-- The logical tiles of a mask of a Stem (R284). -/
def maskTiles (mask : Nat) : List Nat := bitList 64 mask

end Sys2Proof.Machine
end

