-- ==== Sys2Proof/Machine/Queues.lean ====
section
/-! DEFINITION. The Doorbell Watch and the Queue Manager (03_command_queues.md, R71 to R119, R595): doorbells, descriptor
fetch, dispatch, retirement, head lines, and the generic commands. -/
namespace Sys2Proof.Machine

/-- Whether the Queue Manager is stopped: the physical function is in D3hot (R548). -/
def State.qmStopped (s : State) : Bool := match s.fn? 0 with | some f => f.dstate == .d3hot | none => false

/-! Doorbell lines. -/

/-- The submission rings of a group. -/
def State.groupSqs (s : State) (g : Nat) : List Sq := s.queues.sqs.filter (fun q => q.num / 16 == g)

/-- A group that exists. -/
def State.group? (s : State) (g : Nat) : Option Group := s.queues.groups.find? (fun x => x.num == g)

/-- A doorbell line. -/
def State.line? (s : State) (g : Nat) : Option Line := s.queues.lines.find? (fun x => x.group == g)

/-- A change to a doorbell line. -/
def State.updLine (s : State) (g : Nat) (f : Line → Line) : State :=
  { s with queues := { s.queues with lines := updWhere s.queues.lines (fun x => x.group == g) f } }

/-- A ring enters ERROR after a failed or senseless host read, and a descriptor-fetch event is posted (R76, R97). -/
def State.fetchError (s : State) (n : Nat) (detail : Word) : State :=
  match s.sq? n with
  | none => s
  | some q => (s.updSq n (fun q => { q with state := .error, reading := 0 })).postEvent q.fn 0x0003 n detail

/-- A doorbell read that fails puts every ring in ON whose tail it was to deliver into ERROR (R76). -/
def State.doorbellFailed (s : State) (g : Nat) : State :=
  ((s.groupSqs g).filter (fun q => q.state == .on)).foldl (fun s q => s.fetchError q.num 0) (s.updLine g (fun l => { l with reading := false }))

/-- Whether a line is polled: its group holds a ring in ON or DRAINING (R77). -/
def State.polled (s : State) (g : Nat) : Bool := (s.groupSqs g).any (fun q => q.state == .on || q.state == .draining)

/-- The lines that are active. -/
def State.activeLines (s : State) : List Line := s.queues.lines.filter (fun l => l.active && s.polled l.group)

/-- How long a line waits between two reads, in ns: at most 32 active lines share the 250 ns rate (R77, R78). -/
def State.lineInterval (s : State) (l : Line) : Nat :=
  if l.active then 250 * max 1 (ceilDiv s.activeLines.length 32) else l.intervalNs

/-- When a line was last read, one never read before all others. -/
def Line.lastRead (l : Line) : Nat := match l.readAt with | some t => t.toNat + 1 | none => 0

/-- Whether a line's next read is due (R77, R78): its interval has passed and, where more than 32 lines are active, its turn among them has
come: none of them waits longer. -/
def State.lineDue (s : State) (l : Line) : Bool :=
  (match l.readAt with | some t => decide (s.lineInterval l ≤ (s.now - t).toNat) | none => true)
    && (!l.active || decide (s.activeLines.length ≤ 32) || s.activeLines.all (fun m => m.reading || decide (l.lastRead ≤ m.lastRead)))

/-- DOORBELL_POLL: the interval of a line has passed; where a ring of the group is ON or DRAINING, the line is read (R77, R78).
A function that cannot be a requester makes the read fail at once (R44, R595). -/
def execDoorbellPoll (group : Nat) (s : State) : Host.Outcome State Fault Refusal :=
  answer s (isGroup group) (
    match s.group? group, s.line? group with
    | some g, some l =>
      if s.qmStopped || l.reading || !s.polled group || !s.lineDue l then s
      else
        let s := s.updLine group (fun l => { l with reading := true, readAt := some s.now })
        if s.holds g.fn then s.doorbellFailed group else s.emit (.hostRead g.fn g.dbLine 64)
    | _, _ => s)

/-- LINE_IDLE_TIMEOUT: idle_after_us (0 acts as 1) has passed without a change of a tail; the line is idle from now on (R77, R120). -/
def execLineIdleTimeout (group : Nat) (s : State) : Host.Outcome State Fault Refusal :=
  answer s (isGroup group) (
    s.updLine group (fun l =>
      if (s.now - l.changedAt).toNat < 1000 * max 1 (s.rdN Fld.crnDbwCtrl_idle_after_us) then l else { l with active := false }))

/-! Limits and descriptor reads. -/

/-- The cap on commands in flight of a partition (R86, R120). -/
def State.partCap (s : State) (p : Nat) : Nat := min 0x10000 (s.rdN Fld.crnPartCap_cap p)

/-- Whether the limits of R86 let one more command of a ring in. -/
def State.mayFetch (s : State) (q : Sq) : Bool :=
  decide (s.inFlight < 65536)
    && decide ((s.queues.cmds.filter (fun c => c.part == q.part)).length + s.owed (fun x => x.part == q.part) < s.partCap q.part)
    && decide ((s.queues.cmds.filter (fun c => c.sq == q.num && c.phase == .waiting)).length < 64)

/-- How many descriptors of a ring wait: up to the tail, or up to the drain point (R76, R107). -/
def Sq.waiting (q : Sq) : Nat :=
  match q.state with
  | .on => (q.tail - q.fetched).toNat
  | .draining => if q.killed then 0 else (q.drainPoint - q.fetched).toNat
  | _ => 0

/-- A failed descriptor read: a ring in ON enters ERROR (R76); a drain goes no further than what has been fetched, and the
event is posted, as R107 has it for the drain's own read. -/
def State.descriptorsFailed (s : State) (n : Nat) : State :=
  match s.sq? n with
  | none => s
  | some q =>
    if q.state == .on then s.fetchError n 0
    else if q.state == .draining then
      ((s.updSq n (fun q => { q with drainPoint := q.fetched, reading := 0 })).postEvent q.fn 0x0003 n 0).settleRing n
    else s.updSq n (fun q => { q with reading := 0 })

/-- Whether descriptors of a ring can be read now (R76, R79, R86). -/
def State.mayRead (s : State) (q : Sq) : Bool := !s.qmStopped && q.waiting != 0 && q.reading == 0 && s.mayFetch q

/-- Up to eight consecutive descriptors of a ring are read; a run that wraps the end of the ring takes two reads (R79). While its function
is no requester the read fails (R44, R595). -/
def State.issueFetch (s : State) (n : Nat) : State :=
  match s.sq? n with
  | none => s
  | some q =>
    let k := min 8 q.waiting
    if !s.mayRead q then s
    else if s.holds q.fn then s.descriptorsFailed n
    else
      let slot := q.fetched.toNat % 2 ^ q.log2
      let first := min k (2 ^ q.log2 - slot)
      let s := s.updSq n (fun q => { q with reading := k })
      let s := s.emit (.hostRead q.fn (q.base + 64 * slot) (64 * first))
      if first < k then s.emit (.hostRead q.fn q.base (64 * (k - first))) else s

/-- The class that a command of an administrative ring carries is the max_crit of its function's partition as it stands
when the command is fetched; of another ring it is the ring's (R73). -/
def State.fetchCrit (s : State) (q : Sq) : Nat := if q.num == adminRing q.fn then s.maxCrit (s.partOf q.fn) else q.crit

/-- The rings of a class, from the one after the ring whose turn it was last on (R87). -/
def State.ringsOfClass (s : State) (k : Nat) : List Nat :=
  let rs := (s.queues.sqs.filter (fun q => s.fetchCrit q == k)).map (·.num)
  let last := nth 0 s.queues.turns k
  if rs.contains last then (rs.dropWhile (fun n => n != last)).drop 1 ++ rs.takeWhile (fun n => n != last) ++ [last] else rs

/-- Descriptors of every ring that has some waiting are read, the most critical class first and the rings of one class in turn (R87). -/
def State.pumpFetch (s : State) : State :=
  let order := [3, 2, 1, 0].flatMap (fun k => (s.ringsOfClass k).map (fun n => (k, n)))
  order.foldl (fun s x =>
    match s.sq? x.2 with
    | some q =>
      if s.mayRead q then
        ({ s with queues := { s.queues with turns := updAt s.queues.turns x.1 (fun _ => x.2) } }).issueFetch x.2
      else s
    | none => s) s

/-- A tail that the line delivers for a ring in ON (R76, R98): out of range it puts the ring in ERROR. -/
def State.takeTail (s : State) (n : Nat) (tail : Word) : State :=
  match s.sq? n with
  | none => s
  | some q =>
    if q.state != .on then s
    else if q.fetched != q.fetchedCopy then s.faultSq n
    else if (tail - q.fetched).toNat > 2 ^ q.log2 then s.fetchError n 1
    else s.updSq n (fun q => { q with tail := tail })

/-- The line's polling after a read at a time (R77): a change of a tail makes it active, a read without change doubles the interval
of an idle line up to 16 µs. -/
def Line.afterRead (l : Line) (now : DWord) (tails : List Word) : Line :=
  let l := { l with reading := false, tails := tails, changedAt := if tails == l.tails then l.changedAt else now
                    active := l.active || tails != l.tails, intervalNs := if tails == l.tails then l.intervalNs else 250 }
  if l.active then l else { l with intervalNs := min 16000 (2 * l.intervalNs) }

/-- The 16 tail counts of a doorbell line in host memory (R75). -/
def State.tailsAt (s : State) (line : Nat) : List Word := (List.range 16).map (fun k => BitVec.ofNat 32 (s.hostLe (line + 4 * k) 4))

/-- DOORBELL_READ_RETURN: a line's read returns with what the host has stored by then, or fails (R76, R77). Descriptors are then read,
the rings of the most critical class first (R87). -/
def execDoorbellReadReturn (group : Nat) (ok : Bool) (stores : List HostStore) (s : State) :
    Host.Outcome State Fault Refusal :=
  answer s (isGroup group) (
    let s := s.hostStores stores
    match s.group? group, s.line? group with
    | some g, some l =>
      if !l.reading then s
      else if !ok then s.doorbellFailed group
      else
        let tails := s.tailsAt g.dbLine
        let qs := (s.groupSqs group).filter (fun q => q.state == .on)
        let s := (s.updLine group (fun l => l.afterRead s.now tails)).worked (unitId 12 0 0)
        (qs.foldl (fun s q => s.takeTail q.num (nth 0 tails (q.num % 16))) s).pumpFetch
    | _, _ => s)

/-! Fetch and checks. -/

/-- A fetched chain joins the commands in flight. One that fails a check of R84 is finished with that status, and its
record is written at once where a slot is free. A wait takes effect now (R100). -/
def State.acceptChain (s : State) (q : Sq) (descs : List Desc) : State :=
  let id := s.queues.nextCmd
  let c : Cmd := { id := id, sq := q.num, fn := q.fn, part := q.part, crit := s.fetchCrit q, descs := descs,
                   fetchNs := s.now, waitAt := s.time.uptime }
  let verdict : Option (Half × Word) := match formOf c.engineClass c.opcode with
    | none => some (stBadOpcode, BitVec.ofNat 32 (c.engineClass * 256 + c.opcode))
    | some f => s.checkChain f c
  let c := match verdict with
    | some (st, d) => { c with phase := .finished, failedCheck := true, status := st, detail := d }
    | none => { c with waitMet := (match c.wait with | some (k, t) => decide (t ≤ (s.knot k).toNat) | none => true) }
  let s := { s with queues := { s.queues with cmds := s.queues.cmds ++ [c], nextCmd := id + 1 } }
  if verdict.isSome then s.retire id
  else match c.wait with
    | some (k, _) => if c.waitMet then s.event knotUnit 0x07 c.ev (natToBytes 2 k ++ natToBytes 8 (s.knot k).toNat) else s
    | none => s

/-- The number of extensions that a base descriptor announces (R80). -/
def extsOf (d : Desc) : Nat := getBits d.toNat 14 3

/-- The chains at the front of descriptors read from a ring are taken one after the other, as far as the tail covers them,
they have been read whole, and the limits of R86 allow: how many descriptors were taken. DESIGN CHOICE: a chain that the drain point cuts is
left in place, and the drain waits (R76, R107). -/
def State.takeChains (s : State) (n : Nat) : Nat → List Desc → State × Nat
  | 0, _ => (s, 0)
  | _ + 1, [] => (s, 0)
  | k + 1, d :: rest =>
    match s.sq? n with
    | none => (s, 0)
    | some q =>
      let need := extsOf d + 1
      if need > rest.length + 1 ∨ need > q.waiting ∨ !s.mayFetch q then (s, 0)
      else
        let f := q.fetched + BitVec.ofNat 32 need
        let s := s.updSq n (fun q => { q with fetched := f, fetchedCopy := f })
        let s := s.acceptChain q (d :: rest.take (need - 1))
        let (s, m) := s.takeChains n k (rest.drop (need - 1))
        (s, need + m)

/-- The descriptor of a ring at a count. -/
def State.descAt (s : State) (q : Sq) (i : Nat) : Desc :=
  BitVec.ofNat 512 (s.hostLe (q.base + 64 * ((q.fetched.toNat + i) % 2 ^ q.log2)) 64)

/-- DESCRIPTOR_FETCH_RETURN: a ring's descriptor read returns with what the host has stored by then, or fails (R76, R80 to
R86, R98). -/
def execDescriptorFetchReturn (sq : Nat) (ok : Bool) (stores : List HostStore) (s : State) :
    Host.Outcome State Fault Refusal :=
  answer s (isRing sq) (
    let s := s.hostStores stores
    match s.sq? sq with
    | none => s
    | some q =>
      if q.reading == 0 then s
      else if !ok then s.descriptorsFailed sq
      else if q.fetched != q.fetchedCopy then s.faultSq sq
      else
        let ds := (List.range q.reading).map (fun i => s.descAt q i)
        let s := (s.updSq sq (fun q => { q with reading := 0 })).worked qmUnit
        let (s, taken) := s.takeChains sq 8 ds
        let s := if taken ≠ 0 then s.pumpFetch else s
        s.settleRing sq)

/-! Dispatch. -/

/-- Whether a command is the first of its ring in the wait stage (R85). -/
def State.headOfRing (s : State) (c : Cmd) : Bool :=
  !s.queues.cmds.any (fun d => d.sq == c.sq && d.phase == .waiting && decide (d.id < c.id))

/-- Whether the fence of a command lets it go (R85). -/
def State.fencePast (s : State) (c : Cmd) : Bool :=
  !c.fence || !s.queues.cmds.any (fun d => d.sq == c.sq && decide (d.id < c.id))

/-- Whether a command may be dispatched, but for its slot and for arbitration (R85, R100). -/
def State.ready (s : State) (c : Cmd) : Bool :=
  c.phase == .waiting && c.waitMet && s.headOfRing c && s.fencePast c

/-- Whether a Canopy command may take its blocks (R318): they are free, and no other ready command that goes first needs them. -/
def State.mapsAllow (s : State) (c : Cmd) (beats : Cmd → Cmd → Bool) : Bool :=
  s.mapsReady c && !s.queues.cmds.any (fun d => d.id != c.id && s.ready d && needsMeet (s.mapNeeds c) (s.mapNeeds d) && beats d c)

/-- Whether a command has lost to its own class for within_us (R88). -/
def State.starvedOwn (s : State) (c : Cmd) : Bool :=
  match c.lostOwn with
  | some t => decide ((s.now - t).toNat ≥ 1000 * s.rdN Fld.crnStarveLimit_within_us)
  | none => false

/-- Whether a command has lost to higher classes for cross_ms, where no time partitions are configured (R88). -/
def State.starvedCross (s : State) (c : Cmd) : Bool :=
  !(List.range 4).any (fun n => s.rdB Fld.brkTdmaCfg_enable n) &&
    (match c.lostCross with
     | some t => decide ((s.now - t).toNat ≥ 1000000 * s.rdN Fld.crnStarveLimit_cross_ms)
     | none => false)

/-- Whether command c goes before command d in arbitration (R87, R88). -/
def State.beats (s : State) (c d : Cmd) : Bool :=
  let key (x : Cmd) : Nat × Nat × Nat × Nat :=
    (if s.starvedCross x then 4 else x.crit, if s.starvedOwn x then 1 else 0, x.priority, 0)
  let (a1, a2, a3, _) := key c
  let (b1, b2, b3, _) := key d
  if a1 ≠ b1 then decide (a1 > b1)
  else if a2 ≠ b2 then decide (a2 > b2)
  else if a3 ≠ b3 then decide (a3 > b3)
  else decide (c.id < d.id)

/-- What the physical function's administrative ring dispatches while the safe state holds (R458). -/
def safeDispatches (cls op : Nat) : Bool :=
  (cls == 0 && (op == 0xA0 || op == 0xA1 || op == 0x03 || op == 0xE0 || op == 0xE1 || op == 0xE2 || op == 0xF0 || op == 0xF1))
    || (cls == 0xC && op == 0x00)

/-- The software bytes of a counter record are read at dispatch (R516). -/
def State.readCounterHdr (s : State) (c : Cmd) : State :=
  if c.counterPtr = 0 then s
  else match s.load c.origin c.counterPtr 4 with
    | (s, .ok b) => s.updCmd c.id (fun x => { x with counterHdr := some (bytesToNat b) })
    | (s, .error _) => s

/-- Commands that lose an arbitration to c remember since when they have been losing (R88). -/
def State.noteLosers (s : State) (c : Cmd) : State :=
  let loses (d : Cmd) := d.id != c.id && d.engineClass == c.engineClass && s.ready d
  { s with queues := { s.queues with
      cmds := updWhere s.queues.cmds loses (fun d => { d with
        lostOwn := if d.crit == c.crit then d.lostOwn.or (some s.now) else d.lostOwn,
        lostCross := if d.crit < c.crit then d.lostCross.or (some s.now) else d.lostCross }) } }

/-- A command is dispatched: start_ns, the counter record's software bytes, trace and the trigger on its op_id, and the blocks of its maps
(R91, R317, R318, R513, R516, R520, R523). -/
def State.dispatch (s : State) (c : Cmd) : State :=
  let s := s.noteLosers c
  let s := { s with queues := { s.queues with dispatched := s.queues.dispatched + 1 } }
  let s := s.updCmd c.id (fun x => { x with
    phase := .running, startNs := s.now, turn := s.queues.dispatched, srSeed := s.rd Fld.tileSrSeed_seed, lostOwn := none, lostCross := none,
    slotSince := none, stalled := false,
    safeOwn := s.safeApplies c.part && c.sq == 0 && safeDispatches c.engineClass c.opcode })
  let s := s.readCounterHdr c
  let trig := s.rdB Fld.trcTrigger_on_op && s.rdN Fld.trcTrigger_op_id == c.opId
  let s := s.event qmUnit 0x01 c.ev (natToBytes 1 c.opcode ++ natToBytes 1 c.engineClass) trig
  (s.serve c.id qmUnit).dispatchMaps c

/-- Whether a command reserves a slot at its dispatch (R92, R116): not a RUN, and not one whose ring takes no records, for its record goes
elsewhere once it retires (R98). -/
def State.reserves (s : State) (c : Cmd) : Bool := !(c.engineClass == 0 && c.opcode == 0x08) && s.cqUsable c.fn c.cq

/-- Whether a full completion ring keeps a command from being dispatched: it stalls its own submission ring and no other (R94). -/
def State.slotReady (s : State) (c : Cmd) : Bool := !s.reserves c || s.slotFree c.cq

/-- COMMAND_DISPATCH: a command leaves the wait stage (R85 to R88, R92). A RUN reserves its slots frame by frame (R116).
While the safe state holds, ring 0 dispatches the commands of R458 alone. -/
def execCommandDispatch (cmd : Nat) (s : State) : Host.Outcome State Fault Refusal :=
  answer s true (match s.cmd? cmd with
    | none => s
    | some c =>
      let goes (d : Cmd) : Bool := s.ready d && s.mapsAllow d s.beats && s.slotReady d
      if s.qmStopped || !(s.ready c && s.mapsAllow c s.beats) then s
      else if !s.slotReady c then ((s.reserve c.cq).1).lacksSlot cmd
      else if s.queues.cmds.any (fun d => d.id != c.id && d.engineClass == c.engineClass && goes d && s.beats d c) then s
      else
        let (s, ok) := if s.reserves c then s.reserve c.cq else (s, true)
        if !ok then s
        else
          let s := if s.reserves c then s.updCmd cmd (fun x => { x with slot := some c.cq }) else s
          if s.safeApplies c.part && c.sq == 0 && !safeDispatches c.engineClass c.opcode then
            (s.updCmd cmd (fun x => { x with startNs := s.now })).finish cmd stSafeState
              (BitVec.ofNat 32 (s.rdN Fld.brkStatus_safe_source))
          else s.dispatch c)

/-- COMMAND_RETIRE: a command whose engine work has ended retires (R90). -/
def execCommandRetire (cmd : Nat) (s : State) : Host.Outcome State Fault Refusal :=
  answer s true (if s.qmStopped then s else s.retire cmd)

/-! Head lines, timeouts and held writes. -/

/-- The host's head count of a completion ring, as its head line holds it. -/
def State.headAt (s : State) (q : Cq) : Word :=
  match s.group? (q.num / 16) with
  | some g => BitVec.ofNat 32 (s.hostLe (g.headLine + 4 * (q.num % 16)) 4)
  | none => q.head

/-- One held write of a function is sent. A completion record takes the fetched count as it stands now (R91); with a command's last record
the command is in flight no more (R86). -/
def State.sendHeld (s : State) : HeldWrite → State
  | .record fn cq bytes irq =>
    let sq := recordSq bytes
    (s.dueRecord fn cq (bytes.take 6 ++ natToBytes 2 (s.fetchedOf sq) ++ bytes.drop 8) irq).settleRing sq
  | .event e => s.issueEvent e
  | .message fn v => s.raise fn v
  | .counter fn addr bytes =>
    let o : Origin := { part := s.partOf fn, crit := s.maxCrit (s.partOf fn), stream := adminRing fn }
    (s.store o addr bytes).1

/-- Writes that are held for a function are sent in their order once it can be a requester again (R595). -/
def State.releaseHeld (s : State) (fn : Nat) : State :=
  if s.holds fn then s
  else
    let go := s.queues.held.filter (fun h => h.fn == fn)
    let s := { s with queues := { s.queues with held := s.queues.held.filter (fun h => h.fn != fn) } }
    ((go.foldl (fun s h => s.sendHeld h) s).flushVectors fn).flushEvents fn

/-- HEAD_LINE_READ_RETURN: a head line that is read for a full completion ring returns or fails; it is read again while the ring stays
full (R92, R93). -/
def execHeadLineReadReturn (cq : Nat) (ok : Bool) (stores : List HostStore) (s : State) :
    Host.Outcome State Fault Refusal :=
  answer s (isRing cq) (
    let s := (s.hostStores stores).checkCq cq
    match s.cq? cq with
    | none => s
    | some q =>
      if q.fault || !q.headReading then s
      else
        let s := s.updCq cq (fun q => { q with headReading := false })
        if !ok || s.holds q.fn then (s.seekHead cq).postEvent q.fn 0x0008 cq (BitVec.ofNat 32 cq)
        else
          let h := s.headAt q
          if (h - q.head).toNat ≤ (q.posted - q.head).toNat then
            let s := ((s.updCq cq (fun q => { q with head := h })).flushEvents q.fn).seekHead cq
            if cq == adminRing q.fn then s.releaseHeld q.fn else s
          else (s.seekHead cq).postEvent q.fn 0x0007 cq (BitVec.ofNat 32 cq))

/-- Whether a command waits for a slot of its completion ring (R92, R94, R98, R116): to be dispatched, to retire, or to start the next
frame of a RUN. -/
def State.waitsForSlot (s : State) (c : Cmd) : Bool :=
  (s.ready c && s.reserves c) || (c.phase == .finished && c.slot.isNone)
    || (c.phase == .running && s.queues.runs.any (fun r => r.cmd == c.id && !r.frameActive && !r.draining && r.waiting != []))

/-- The stall timeout of a completion ring in ns (R94). -/
def State.stallNs (s : State) (q : Cq) : Nat :=
  1000000 * (if q.stallMs = 0 then max 1 (s.rdN Fld.crnQmTimeouts_cq_stall_ms) else q.stallMs)

/-- Whether a command's wait for a slot of a ring has lasted the ring's stall timeout, and no event has said so yet (R94). -/
def State.stalls (s : State) (c : Cmd) (q : Cq) : Bool :=
  s.waitsForSlot c && !s.slotFree q.num && !c.stalled && c.slotSince.any (fun t => s.passed t (s.stallNs q))

/-- CQ_STALL_TIMEOUT: a command has waited for a slot for the ring's stall timeout (R94). -/
def execCqStallTimeout (cmd : Nat) (s : State) : Host.Outcome State Fault Refusal :=
  answer s true (match s.cmd? cmd with
    | none => s
    | some c =>
      match s.cq? (s.recordRing c) with
      | none => s
      | some q =>
        if s.stalls c q then
          (s.updCmd cmd (fun x => { x with stalled := true })).postEvent c.fn 0x0001 q.num (BitVec.ofNat 32 q.num)
        else s)

/-- CQ_COALESCE_TIMEOUT: coalesce_us has passed since the first record of a batch (R96). The message of a function that is no requester is
held (R595). -/
def execCqCoalesceTimeout (cq : Nat) (s : State) : Host.Outcome State Fault Refusal :=
  answer s (isRing cq) (
    match s.cq? cq with
    | none => s
    | some q =>
      if q.coalesced == 0 || q.coalesceUs == 0 || !s.passed q.coalescedAt (1000 * q.coalesceUs) then s
      else
        let s := s.updCq cq (fun q => { q with coalesced := 0 })
        if s.holds q.fn then { s with queues := { s.queues with held := s.queues.held ++ [.message q.fn q.vector] } }
        else s.raise q.fn q.vector)

/-- KNOT_WAIT_TIMEOUT: a command's wait has lasted knot_wait_ms (R101): the event is posted, and the command goes on
waiting. -/
def execKnotWaitTimeout (cmd : Nat) (s : State) : Host.Outcome State Fault Refusal :=
  answer s true (match s.cmd? cmd with
    | none => s
    | some c =>
      match c.wait with
      | some (k, _) =>
        if c.phase == .waiting && !c.waitMet && !c.waitSlow
            && s.passed c.waitAt (1000000 * max 1 (s.rdN Fld.crnQmTimeouts_knot_wait_ms)) then
          (s.updCmd cmd (fun c => { c with waitSlow := true })).postEvent c.fn 0x0002 c.sq (BitVec.ofNat 32 k)
        else s
      | none => s)

/-- BUS_MASTER_CHANGE: a function's bus mastering is enabled or disabled (R595). -/
def execBusMasterChange (fn : Nat) (on : Bool) (s : State) : Host.Outcome State Fault Refusal :=
  answer s (isFn fn) (
    if s.fnOn fn then
      let s := s.updFn fn (fun f => { f with busMaster := on })
      if on then s.releaseHeld fn else s
    else s)

/-! Generic commands. -/

/-- SQ_CREATE (R73, R111, R477). -/
def execSqCreate (cmd : Nat) (s : State) : Host.Outcome State Fault Refusal :=
  answer s true (s.onCmd cmd 0x0 0x01 (fun c =>
    let n := c.f 0 16 0 12
    let part := if c.f 0 18 6 1 = 1 then c.f 0 18 0 6 else s.partOf c.fn
    let crit := c.f 0 19 0 2
    match s.sq? n with
    | some q => s.finish cmd stRingState (BitVec.ofNat 32 (sqCode q.state))
    | none =>
      if s.groupOwner (n / 16) != some c.fn then s.finish cmd stOwnership 16
      else if crit > s.maxCrit part then s.finish cmd stCritDenied (BitVec.ofNat 32 (s.maxCrit part))
      else
        let q : Sq := { num := n, fn := c.fn, part := part, crit := crit, log2 := c.f 0 20 0 5, base := c.b 24 8 }
        ({ s with queues := { s.queues with sqs := s.queues.sqs ++ [q] } }).finish cmd stSuccess))

/-- CQ_CREATE (R112). -/
def execCqCreate (cmd : Nat) (s : State) : Host.Outcome State Fault Refusal :=
  answer s true (s.onCmd cmd 0x0 0x02 (fun c =>
    let n := c.f 0 16 0 12
    match s.cq? n with
    | some _ => s.finish cmd stRingState 2
    | none =>
      if s.groupOwner (n / 16) != some c.fn then s.finish cmd stOwnership 16
      else
        let q : Cq := { num := n, fn := c.fn, log2 := c.f 0 20 0 5, base := c.b 24 8, vector := c.f 0 18 0 11,
                        coalesceCount := c.b 21 1, coalesceUs := c.b 22 2, stallMs := c.b 32 2 }
        ({ s with queues := { s.queues with cqs := s.queues.cqs ++ [q] } }).finish cmd stSuccess))

/-- A RING_STATE command in flight with its action. -/
def State.onRingState (s : State) (cmd action : Nat) (f : Cmd → Nat → State) : State :=
  s.onCmd cmd 0x0 0x03 (fun c => if c.b 18 1 == action then f c (c.f 0 16 0 12) else s)

/-- An order on a ring that Bark holds latched is rejected (R105). -/
def State.rejectLatched (s : State) (c : Cmd) (n : Nat) : State :=
  let s := s.ring qmUnit 0x14 (orderSource c.fn) 0 c.opId (natToBytes 2 n)
  (s.postEvent c.fn 0x0005 n (BitVec.ofNat 32 c.opcode)).finish c.id stLatched

/-- Whether a function is being reset (R560). -/
def State.fnResets (s : State) (fn : Nat) : Bool := match s.fn? fn with | some f => f.resetting | none => false

/-- An order on a submission ring: on one that does not exist, or whose function is being reset, it fails; on a latched one it is
rejected where it would change the ring's state (R105, R113, R560). Latched rings stand in ERROR, where a delete fails as it does outside OFF. -/
def State.sqOrder (s : State) (c : Cmd) (n : Nat) (f : Sq → State) : State :=
  match s.sq? n with
  | none => s.finish c.id stRingState 0xFF
  | some q =>
    if s.fnResets q.fn then s.finish c.id stRingState (BitVec.ofNat 32 (sqCode q.state))
    else if s.queues.latched.contains n && c.b 18 1 != 3 then s.rejectLatched c n else f q

/-- An accepted order is written to the Queue Manager's Rings with its source (R103). -/
def State.noteOrder (s : State) (c : Cmd) (n : Nat) : State :=
  s.order qmUnit (orderSource c.fn) c.ev (natToBytes 1 c.opcode ++ natToBytes 1 (c.b 18 1) ++ natToBytes 2 n)

/-- RING_ENABLE (R107, R108). -/
def execRingEnable (cmd : Nat) (s : State) : Host.Outcome State Fault Refusal :=
  answer s true (s.onRingState cmd 0 (fun c n => s.sqOrder c n (fun q =>
    let s := (s.noteOrder c n).finish cmd stSuccess
    match q.state with
    | .off | .error => s.startRing n
    | .draining => s.updSq n (fun q => { q with reenable := true })
    | .starting => s.updSq n (fun q => { q with drainPending := false })
    | .on => s)))

/-- A RUN that is drained between frames ends (R116). -/
def State.endIdleRuns (s : State) : State :=
  let idle := s.queues.runs.filter (fun r => r.draining && !r.frameActive)
  let s := { s with queues := { s.queues with runs := s.queues.runs.filter (fun r => !(r.draining && !r.frameActive)) } }
  idle.foldl (fun s r => s.finish r.cmd stSuccess (BitVec.ofNat 32 r.seq)) s

/-- A drain takes effect on a ring in ON or ERROR (R107): the drain point is the tail read now, or the fetched count where
that read fails. DESIGN CHOICE: it ends every RUN of the ring that has started, one with a frame_count too (R116). -/
def State.drainRing (s : State) (n : Nat) (ok : Bool) : State :=
  match s.sq? n with
  | none => s
  | some q =>
    let line := ((s.group? (n / 16)).map (·.dbLine)).getD 0
    let tail : Word := BitVec.ofNat 32 (s.hostLe (line + 4 * (n % 16)) 4)
    let s := if q.state == .error then
        s.updSq n (fun q => { q with state := .draining, drainPoint := q.fetched, killed := false })
      else if !ok || s.holds q.fn then
        (s.updSq n (fun q => { q with state := .draining, drainPoint := q.fetched, killed := false })).postEvent q.fn 0x0003 n 0
      else if (tail - q.fetched).toNat > 2 ^ q.log2 then s.fetchError n 1
      else s.updSq n (fun q => { q with state := .draining, drainPoint := tail, tail := tail, killed := false })
    let s := { s with queues := { s.queues with
      runs := updWhere s.queues.runs (fun r => ((s.cmd? r.cmd).map (fun (c : Cmd) => c.sq)) == some n)
        (fun r => { r with draining := true, waiting := [] }) } }
    (s.endIdleRuns.issueFetch n).settleRing n

/-- RING_DRAIN: the read of the tail returns with what the host has stored, or fails (R107, R108). -/
def execRingDrain (cmd : Nat) (ok : Bool) (stores : List HostStore) (s : State) : Host.Outcome State Fault Refusal :=
  answer s true (s.onRingState cmd 1 (fun c n => s.sqOrder c n (fun q =>
    let s := ((s.hostStores stores).noteOrder c n).finish cmd stSuccess
    match q.state with
    | .off => s
    | .starting => s.updSq n (fun q => { q with drainPending := true })
    | .draining => s.updSq n (fun q => { q with reenable := false })
    | .on | .error => s.drainRing n ok)))

/-- RING_START_READ_RETURN: the doorbell read of a ring in STARTING returns or fails (R107, R108). -/
def execRingStartReadReturn (sq : Nat) (ok : Bool) (stores : List HostStore) (s : State) :
    Host.Outcome State Fault Refusal :=
  answer s (isRing sq) (
    let s := s.hostStores stores
    match s.sq? sq with
    | none => s
    | some q =>
      if q.state != .starting then s
      else if !ok || s.holds q.fn then s.fetchError sq 0
      else
        let line := ((s.group? (sq / 16)).map (·.dbLine)).getD 0
        let tail : Word := BitVec.ofNat 32 (s.hostLe (line + 4 * (sq % 16)) 4)
        let drain := q.drainPending
        let s := s.updSq sq (fun q => { q with fetched := tail, fetchedCopy := tail, tail := tail, drainPending := false })
        let s := s.ringEnters sq .on
        if drain then s.drainRing sq true else s)

/-- RING_KILL (R107, R108). -/
def execRingKill (cmd : Nat) (s : State) : Host.Outcome State Fault Refusal :=
  answer s true (s.onRingState cmd 2 (fun c n => s.sqOrder c n (fun _ =>
    ((s.noteOrder c n).finish cmd stSuccess).killRing n)))

/-- RING_DELETE_SQ (R107, R108, R113): allowed in OFF without a pending enable, and never on ring 16f of a function. -/
def execRingDeleteSq (cmd : Nat) (s : State) : Host.Outcome State Fault Refusal :=
  answer s true (s.onRingState cmd 3 (fun c n => s.sqOrder c n (fun q =>
    if isAdminRing n ∨ q.state != .off ∨ q.reenable then s.finish cmd stRingState (BitVec.ofNat 32 (sqCode q.state))
    else
      let s := s.noteOrder c n
      ({ s with queues := { s.queues with sqs := s.queues.sqs.filter (fun q => q.num != n) } }).finish cmd stSuccess)))

/-- Whether a command in flight names a completion ring or holds a slot in it (R109); one whose record is held still does (R86). -/
def State.cqInUse (s : State) (n : Nat) : Bool :=
  s.queues.cmds.any (fun d => d.cq == n || d.slot == some n)
    || s.queues.held.any (fun h => match h with | .record _ m _ _ => m == n | _ => false)

/-- RING_DELETE_CQ (R109, R113): not while a command in flight names the ring or holds a slot in it, and never on ring 16f
of a function. The command itself is in flight. -/
def execRingDeleteCq (cmd : Nat) (s : State) : Host.Outcome State Fault Refusal :=
  answer s true (s.onRingState cmd 4 (fun c n =>
    match s.cq? n with
    | none => s.finish cmd stRingState 0xFF
    | some q =>
      if isAdminRing n ∨ s.fnResets q.fn ∨ s.cqInUse n then s.finish cmd stRingState 2
      else
        let s := s.noteOrder c n
        ({ s with queues := { s.queues with cqs := s.queues.cqs.filter (fun q => q.num != n) } }).finish cmd stSuccess))

/-- GROUP_ALLOC (R114): of the free groups, the device may give any. -/
def execGroupAlloc (cmd : Nat) (s : State) : Host.Outcome State Fault Refusal :=
  answer s true (s.onCmd cmd 0x0 0x04 (fun c =>
    let want := c.b 16 1
    let free := ((List.range 192).map (· + 64)).filter (fun g => (s.groupFn g).isNone)
    let fit := if want = 0 then free else free.filter (fun g => g == want)
    if fit.isEmpty then s.finish cmd stResource
    else
      let (k, s) := s.choose fit.length
      let g := nth 64 fit k
      let grp : Group := { num := g, fn := c.fn, dbLine := c.b 24 8, headLine := c.b 32 8 }
      let q := s.queues
      ({ s with queues := { q with groups := q.groups ++ [grp], lines := q.lines ++ [({ group := g } : Line)] } }).finish
        cmd stSuccess (BitVec.ofNat 32 g)))

/-- GROUP_FREE (R110). -/
def execGroupFree (cmd : Nat) (s : State) : Host.Outcome State Fault Refusal :=
  answer s true (s.onCmd cmd 0x0 0x05 (fun c =>
    let g := c.b 16 1
    let ex := (List.range 16).findSome? (fun k =>
      let n := 16 * g + k
      match s.sq? n with
      | some q => some (n * 256 + sqCode q.state)
      | none => (s.cq? n).map (fun _ => n * 256 + 2))
    match ex with
    | some d => s.finish cmd stRingState (BitVec.ofNat 32 d)
    | none =>
      if s.groupFn g != some c.fn then s.finish cmd stOwnership 16
      else
        let q := s.queues
        ({ s with queues := { q with groups := q.groups.filter (fun x => x.num != g),
                                     lines := q.lines.filter (fun x => x.group != g) } }).finish cmd stSuccess))

/-- NOP (R110). -/
def execNop (cmd : Nat) (s : State) : Host.Outcome State Fault Refusal :=
  answer s true (s.onCmd cmd 0xC 0x00 (fun _ => s.finish cmd stSuccess))

/-- KNOT_RESET (R100, R118). -/
def execKnotReset (cmd : Nat) (s : State) : Host.Outcome State Fault Refusal :=
  answer s true (s.onCmd cmd 0xC 0x02 (fun c => (s.setKnot (c.b 18 2) (BitVec.ofNat 64 (c.b 20 8))).finish cmd stSuccess))

/-- KNOT_ARM (R100, R118): the arm is tested as it takes effect. -/
def execKnotArm (cmd : Nat) (s : State) : Host.Outcome State Fault Refusal :=
  answer s true (s.onCmd cmd 0xC 0x03 (fun c =>
    let a : KnotArm := { fn := c.fn, vector := c.f 0 28 0 11, knot := c.b 18 2, threshold := BitVec.ofNat 64 (c.b 20 8) }
    let s := { s with queues := { s.queues with arms := s.queues.arms ++ [a] } }
    (s.testKnot (c.b 18 2)).finish cmd stSuccess))

/-- BANK_POWER: the request for each named bank (R59, R60, R117); the command ends when every bank is where it asks. -/
def execBankPower (cmd : Nat) (s : State) : Host.Outcome State Fault Refusal :=
  answer s true (s.onStart cmd 0x0 0x09 (fun s c =>
    let s := s.order qmUnit (orderSource c.fn) c.ev (natToBytes 1 c.opcode ++ natToBytes 1 (c.b 20 1))
    (c.bankList.foldl (fun s b => s.bankRequest b (c.b 20 1 == 1)) s).settleBanks))

end Sys2Proof.Machine
end

