-- ==== Sys2Proof/Machine/IngestFrames.lean ====
section
/-! DEFINITION. A frame on a sensor port (R139 to R143, R146, R148, R150, R178 to R181): its kind, its key and its context;
the host's discovery and event rings; loss accounting. -/
namespace Sys2Proof.Machine

/-! Frames. -/

/-- A UDP datagram of a frame. -/
structure Datagram where
  srcMac : Nat
  srcIp : Nat
  v6 : Bool
  srcPort : Nat
  dstPort : Nat
  payload : List Byte

/-- What a well-formed frame is, for R140. -/
inductive FrameKind where
  | ptp
  /-- An ARP request for the port's address: the asker's MAC and IP address. -/
  | arp (mac ip : Nat)
  /-- A Neighbor Solicitation for the port's address: the asker's MAC and IP address. -/
  | solicit (mac ip : Nat)
  | other
  | udp (d : Datagram)

/-- The one's complement sum of the 16-bit big-endian words of some bytes. -/
def onesSum (b : List Byte) : Nat :=
  let t := (List.range ((b.length + 1) / 2)).foldl (fun a i => a + beAt b (2 * i) 2) 0
  let t := t % 65536 + t / 65536
  t % 65536 + t / 65536

/-- The internet checksum of some bytes. -/
def inetSum (b : List Byte) : Nat := 65535 - onesSum b

/-- An IPv4 address as the IPv4-mapped IPv6 address ::ffff:a.b.c.d (R142). -/
def mappedV4 (a : Nat) : Nat := 0xFFFF * 4294967296 + a

/-- The port's IPv6 address: byte j of the register is byte j of the address in network order (R141, R186). -/
def State.portIpv6 (s : State) (p : Nat) : Nat :=
  bytesToNatBE (natToBytes 8 (s.rdN Fld.siuPortIpv6_addr (2 * p)) ++ natToBytes 8 (s.rdN Fld.siuPortIpv6_addr (2 * p + 1)))

/-- A UDP header and payload: the checksum is good when it is 0 or when the sum with the pseudo header is all ones. -/
def udpKind (mac ip : Nat) (v6 : Bool) (addrs u : List Byte) : FrameKind :=
  let len := beAt u 4 2
  if u.length < 8 ∨ len < 8 ∨ len > u.length then .other
  else
    let u := u.take len
    let pseudo := addrs ++ natToBytesBE 4 17 ++ natToBytesBE 4 len
    if beAt u 6 2 ≠ 0 ∧ onesSum (pseudo ++ u) ≠ 65535 then .other
    else .udp { srcMac := mac, srcIp := ip, v6 := v6, srcPort := beAt u 0 2, dstPort := beAt u 2 2, payload := u.drop 8 }

/-- The kind of an IPv4 packet. -/
def ipv4Kind (mac : Nat) (p : List Byte) : FrameKind :=
  let ihl := 4 * (beAt p 0 1 % 16)
  let total := beAt p 2 2
  if beAt p 0 1 / 16 ≠ 4 ∨ ihl < 20 ∨ total < ihl ∨ total > p.length then .other
  else if beAt p 6 2 % 16384 ≠ 0 ∨ beAt p 9 1 ≠ 17 then .other
  else
    let u := (p.take total).drop ihl
    if beAt u 2 2 = 319 ∨ beAt u 2 2 = 320 then .ptp
    else udpKind mac (mappedV4 (beAt p 12 4)) false (slice p 12 8) u

/-- The kind of an IPv6 packet. -/
def ipv6Kind (mac addr : Nat) (p : List Byte) : FrameKind :=
  let len := beAt p 4 2
  if beAt p 0 1 / 16 ≠ 6 ∨ p.length < 40 + len then .other
  else
    let u := (p.drop 40).take len
    if beAt p 6 1 = 17 then udpKind mac (beAt p 8 16) true (slice p 8 32) u
    else if beAt p 6 1 = 58 ∧ beAt u 0 1 = 135 ∧ addr ≠ 0 ∧ beAt u 8 16 = addr then .solicit mac (beAt p 8 16)
    else .other

/-- The kind of a frame without its FCS (R139, R140). -/
def State.frameKind (s : State) (port : Nat) (f : List Byte) : FrameKind :=
  let mac := beAt f 6 6
  let tagged := beAt f 12 2 == 0x8100
  let ety := if tagged then beAt f 16 2 else beAt f 12 2
  let p := f.drop (if tagged then 18 else 14)
  let v4 := s.rdN Fld.siuPortIpv4_addr port
  if ety = 0x88F7 then .ptp
  else if ety = 0x0806 then
    (if slice p 0 8 = natToBytesBE 8 0x0001080006040001 ∧ v4 ≠ 0 ∧ beAt p 24 4 = v4 then .arp (beAt p 8 6) (beAt p 14 4)
     else .other)
  else if ety = 0x0800 then ipv4Kind mac p
  else if ety = 0x86DD then ipv6Kind mac (s.portIpv6 port) p
  else .other

/-- Whether a port takes a frame by its destination address: a solicited-node group, 33:33:FF and 24 bits more, is received only while it
is that of the port's IPv6 address (R141). -/
def State.takesMac (s : State) (port : Nat) (f : List Byte) : Bool :=
  beAt f 0 3 != 0x3333FF || (s.portIpv6 port != 0 && beAt f 3 3 == s.portIpv6 port % 0x1000000)

/-- The ARP reply of a port. -/
def State.arpReply (s : State) (port mac ip : Nat) : List Byte :=
  let me := natToBytesBE 6 (Config.portMac port)
  natToBytesBE 6 mac ++ me ++ natToBytesBE 2 0x0806 ++ natToBytesBE 8 0x0001080006040002 ++ me
    ++ natToBytesBE 4 (s.rdN Fld.siuPortIpv4_addr port) ++ natToBytesBE 6 mac ++ natToBytesBE 4 ip

/-- The Neighbor Advertisement of a port: Solicited set, Router clear, with the port's MAC address (R141). -/
def State.advertisement (s : State) (port mac ip : Nat) : List Byte :=
  let me := natToBytesBE 6 (Config.portMac port)
  let addr := natToBytesBE 16 (s.portIpv6 port)
  let dst := natToBytesBE 16 ip
  let flags := 0x40 + (if Config.overrideFlag then 0x20 else 0)
  let body (sum : Nat) := natToBytesBE 2 0x8800 ++ natToBytesBE 2 sum ++ natToBytesBE 1 flags ++ natToBytesBE 3 0 ++ addr
    ++ natToBytesBE 2 0x0201 ++ me
  let pseudo := addr ++ dst ++ natToBytesBE 4 32 ++ natToBytesBE 4 58
  natToBytesBE 6 mac ++ me ++ natToBytesBE 2 0x86DD ++ natToBytesBE 4 0x60000000 ++ natToBytesBE 2 32
    ++ natToBytesBE 2 0x3AFF ++ addr ++ dst ++ body (inetSum (pseudo ++ body 0))

/-! Loss accounting (R178, R518). -/

/-- Places of the port counters in SIU_PORTp_CNT (R186). -/
def pcRx : Nat := 0
def pcLost : Nat := 1
def pcFcs : Nat := 2
def pcOther : Nat := 3
def pcUnknown : Nat := 4
def pcFault : Nat := 5
def pcBudget : Nat := 6

/-- A stream set. -/
def State.set? (s : State) (n : Nat) : Option StreamSet := s.ingest.sets.find? (fun x => x.num == n)

/-- A change to a stream set. -/
def State.updSet (s : State) (n : Nat) (f : StreamSet → StreamSet) : State :=
  { s with ingest := { s.ingest with sets := updWhere s.ingest.sets (fun x => x.num == n) f } }

/-- A stream context that is not FREE. -/
def State.ctx? (s : State) (id : Nat) : Option Ctx := s.ingest.ctxs.find? (fun x => x.id == id)

/-- Codes of a context's state and format (R147). -/
def CtxState.code : CtxState → Nat
  | .free => 0 | .active => 1 | .silent => 2 | .disabled => 3
def ctxStateOf (n : Nat) : CtxState := match n with | 0 => .free | 1 => .active | 2 => .silent | _ => .disabled
def Format.code : Format → Nat
  | .pointPacket => 0 | .rangeImage => 1 | .program => 2 | .reserved => 3
def formatOf (n : Nat) : Format := match n with | 0 => .pointPacket | 1 => .rangeImage | 2 => .program | _ => .reserved

/-- The 128 bytes of a context (R147), little-endian throughout (R10). -/
def Ctx.bytes (c : Ctx) : List Byte :=
  let b (x : Bool) : Nat := if x then 1 else 0
  natToBytes 2 (c.key.port + 16 * c.state.code + 64 * c.format.code + 256 * b c.template + 512 * b c.auto + 1024 * b c.timeSource)
    ++ natToBytes 2 c.key.sensorId ++ natToBytes 6 c.key.srcMac ++ natToBytes 2 c.key.udpPort ++ natToBytes 16 c.key.srcIp
    ++ natToBytes 2 c.set ++ natToBytes 2 c.calib ++ natToBytes 2 c.program ++ natToBytes 1 c.part ++ [0]
    ++ natToBytes 4 c.ageMs ++ natToBytes 4 c.lagNs.toNat ++ natToBytes 4 c.maxPoints
    ++ slice (c.extQ.flatMap (fun w => natToBytes 4 w.toNat)) 0 16 ++ slice (c.extT.flatMap (fun w => natToBytes 4 w.toNat)) 0 12
    ++ natToBytes 4 c.maxRangeMm ++ natToBytes 8 c.lastNs.toNat ++ natToBytes 4 c.frames.toNat ++ natToBytes 8 c.points.toNat
    ++ natToBytes 4 c.lostFrames.toNat ++ natToBytes 4 c.parseFaults.toNat ++ natToBytes 4 c.windowDrops.toNat
    ++ natToBytes 4 c.poseDrops.toNat ++ natToBytes 4 c.budgetPoints.toNat ++ natToBytes 4 c.bufferDrops.toNat
    ++ natToBytes 4 c.extrapolated.toNat

/-- Where a context lies in the context table in HBM (R146). -/
def State.ctxAddr (s : State) (id : Nat) : Nat := s.rdN Fld.siuCtxBase_base * 0x1000000 + 128 * id

/-- A context is written to its place in the context table. DESIGN CHOICE: with every change of it, cached or not (R146). -/
def State.saveCtx (s : State) (c : Ctx) : State := s.putHbm (s.ctxAddr c.id) c.bytes

/-- A change to a stream context. -/
def State.updCtx (s : State) (id : Nat) (f : Ctx → Ctx) : State :=
  let s := { s with ingest := { s.ingest with ctxs := updWhere s.ingest.ctxs (fun x => x.id == id) f } }
  match s.ctx? id with | some c => s.saveCtx c | none => s

/-- A context is placed in the table, which is kept by rising ID. -/
def insertCtx (c : Ctx) : List Ctx → List Ctx
  | [] => [c]
  | x :: r => if c.id < x.id then c :: x :: r else if c.id = x.id then c :: r else x :: insertCtx c r

/-- A context enters the table. -/
def State.putCtx (s : State) (c : Ctx) : State :=
  ({ s with ingest := { s.ingest with ctxs := insertCtx c s.ingest.ctxs } }).saveCtx c

/-- A context becomes FREE; the rest of its bytes stay in the table. -/
def State.dropCtx (s : State) (id : Nat) : State :=
  match s.ctx? id with
  | none => s
  | some c => ({ s with ingest := { s.ingest with ctxs := s.ingest.ctxs.filter (fun x => x.id != id) } }).saveCtx { c with state := .free }

/-- A count of the current window of a stream set goes up. -/
def StreamSet.add (x : StreamSet) (unit code n loss : Nat) : StreamSet :=
  { x with acc := (if x.acc.any (fun e => e.1 == unit && e.2.1 == code) then
      updWhere x.acc (fun e => e.1 == unit && e.2.1 == code) (fun e => (e.1, e.2.1, e.2.2 + n))
    else x.acc ++ [(unit, code, n)]), lost := x.lost + loss }

/-- A port counter of R178 goes up: it counts for every stream set with a context on the port. -/
def State.portCount (s : State) (port i n : Nat) : State :=
  if n = 0 then s
  else
    let s := s.count Fld.siuPortCnt_count n (7 * port + i)
    if i = pcRx then s
    else
      let u := unitId 1 0 port
      let s := s.tally none u (0x0100 + i) n
      { s with ingest := { s.ingest with
          sets := updWhere s.ingest.sets (fun x => s.ingest.ctxs.any (fun c => c.key.port == port && c.set == x.num))
            (fun x => x.add u (0x0100 + i) n n) } }

/-- A count of a stream set itself: `loss` says whether its items are lost. -/
def State.setCount (s : State) (set code n : Nat) (loss : Bool) : State :=
  if n = 0 then s
  else
    let u := unitId 2 0 set
    (s.tally none u code n).updSet set (fun x => x.add u code n (if loss then n else 0))

/-! Rings in the physical function's memory (R180, R181). -/

/-- An entry is written to its slot; a write that finds the ring empty by the last head read raises the vector. -/
def State.ringWrite (s : State) (disc : Bool) (r : HostRing) (entry : List Byte) : State × HostRing :=
  let empty := r.written == r.readCount
  let a := r.base + entry.length * (r.written.toNat % 2 ^ r.log2)
  let s := s.hostStore 0 a entry
  let s := if empty then s.raise 0 s.ingest.vector else s
  let _ := disc
  (s, { r with written := r.written + 1 })

/-- An entry that the host can no longer read is counted (R178, R180). -/
def State.queueLost (s : State) (disc : Bool) (n : Nat) : State :=
  if n = 0 then s
  else
    let s := if disc then s.count Fld.siuQueueLost_disc_lost n else s.count Fld.siuQueueLost_event_lost n
    let u := unitId 0 0 0
    let s := s.tally none u 0x010C n
    { s with ingest := { s.ingest with sets := updWhere s.ingest.sets (fun _ => true) (fun x => x.add u 0x010C n n) } }

/-- One of the two rings, and the state with it replaced. -/
def Ingest.ring (i : Ingest) (disc : Bool) : Option HostRing := if disc then i.discovery else i.events
def State.putRing (s : State) (disc : Bool) (r : HostRing) : State :=
  if disc then { s with ingest := { s.ingest with discovery := some r } }
  else { s with ingest := { s.ingest with events := some r } }

/-- Whether a ring has no free slot by the last head read. -/
def HostRing.full (r : HostRing) : Bool := decide ((r.written - r.readCount).toNat ≥ 2 ^ r.log2)

/-- An entry for a ring: it is written, or waits for a new read of the head line. While the physical function cannot be a
requester nothing reaches the host, and the entry is lost. -/
def State.postRing (s : State) (disc : Bool) (entry : List Byte) : State :=
  match s.ingest.ring disc with
  | none => s
  | some r =>
    if s.holds 0 then s.queueLost disc 1
    else if r.full || !r.waiting.isEmpty then s.putRing disc { r with waiting := r.waiting ++ [entry] }
    else
      let (s, r) := s.ringWrite disc r entry
      s.putRing disc r

/-- The entries that wait are written after a head read; one that finds no free slot is written over an unread one and
counted. -/
def State.drainRingEntries (s : State) (disc : Bool) (r : HostRing) : List (List Byte) → State × HostRing
  | [] => (s, r)
  | e :: rest =>
    let s := if r.full then s.queueLost disc 1 else s
    let (s, r) := s.ringWrite disc r e
    s.drainRingEntries disc r rest

/-- A head line read serves one ring: its read count is taken, and its waiting entries are written. -/
def State.headRead (s : State) (disc : Bool) : State :=
  match s.ingest.ring disc with
  | none => s
  | some r =>
    let h : Word := BitVec.ofNat 32 (bytesToNat (memRead s.host (s.ingest.headLine + (if disc then 0 else 4)) 4))
    let es := r.waiting
    let (s, r) := s.drainRingEntries disc { r with readCount := h, waiting := [] } es
    s.putRing disc r

/-- A head line read that failed: what waits is lost. -/
def State.headFailed (s : State) (disc : Bool) : State :=
  match s.ingest.ring disc with
  | none => s
  | some r => (s.putRing disc { r with waiting := [] }).queueLost disc r.waiting.length

/-- INGEST_HEAD_LINE_READ: a new read of the head line returns with what the host has stored, or fails (R180). -/
def execIngestHeadLineRead (ok : Bool) (stores : List HostStore) (s : State) : Host.Outcome State Fault Refusal :=
  answer s true (
    let s := s.hostStores stores
    if ok && !s.holds 0 then (s.headRead true).headRead false
    else (s.headFailed true).headFailed false)

/-- An event entry (R181). -/
def State.ingestEvent (s : State) (code subject : Nat) (param : DWord) : State :=
  let seq := s.ingest.eventSeq
  let entry := natToBytes 4 seq.toNat ++ natToBytes 2 code ++ natToBytes 4 subject ++ natToBytes 8 (s.leaf siuIsland).toNat
    ++ natToBytes 8 param.toNat ++ natToBytes 6 0
  if s.ingest.events.isNone then s
  else ({ s with ingest := { s.ingest with eventSeq := seq + 1 } }).postRing false entry

/-! The classifier. -/

/-- The two built-in magic values (R154, R156). -/
def magicPoint : Nat := 0x4E505031
def magicRange : Nat := 0x4E524931

/-- Which magic value a payload begins with: 0 none, 1 point packet, 2 range image. -/
def magicSeen (p : List Byte) : Nat :=
  if p.length < 4 then 0 else if leAt p 0 4 = magicPoint then 1 else if leAt p 0 4 = magicRange then 2 else 0

/-- The sensor ID of a datagram (R142): a field that reaches beyond the payload reads as 0. -/
def State.sensorId (s : State) (port : Nat) (p : List Byte) : Nat :=
  if magicSeen p ≠ 0 then leAt p 6 2
  else if s.rdB Fld.siuPortCfg_sid_enable port then leAt p (s.rdN Fld.siuPortCfg_sid_offset port) 2
  else 0

/-- A frame's key (R142). -/
def State.frameKey (s : State) (port : Nat) (d : Datagram) : FrameKey :=
  { port := port, srcMac := d.srcMac, srcIp := d.srcIp, udpPort := d.dstPort, sensorId := s.sensorId port d.payload }

/-- The context that a key matches: not a template (R148, R150). -/
def State.matchCtx (s : State) (k : FrameKey) : Option Ctx := s.ingest.ctxs.find? (fun c => !c.template && c.key == k)

/-- A receive FIFO's frames and the bytes that they take (R143). -/
def State.fifo (s : State) (port : Nat) : RxFifo := nth {} s.ingest.fifos port
def fifoBytes (l : List QFrame) : Nat := l.foldl (fun n f => n + f.length) 0

/-- The oldest frames that must go for a frame of a length to fit in 1 MiB. -/
def overflowing : List QFrame → Nat → List QFrame
  | [], _ => []
  | f :: r, n => if fifoBytes (f :: r) + n ≤ 0x100000 then [] else f :: overflowing r n

/-- A frame removed from a FIFO unparsed is counted for its port and for its context (R143). -/
def State.loseFrame (s : State) (port : Nat) (f : QFrame) : State :=
  (s.portCount port pcLost 1).updCtx f.ctx (fun c => if c.key == f.key then { c with lostFrames := c.lostFrames + 1 } else c)

/-- A change to a FIFO. -/
def State.setFifo (s : State) (port : Nat) (f : RxFifo → RxFifo) : State :=
  { s with ingest := { s.ingest with fifos := updAt s.ingest.fifos port f } }

/-- A frame enters its port's FIFO; the oldest frames leave it until it fits (R143). -/
def State.enqueue (s : State) (port : Nat) (f : QFrame) : State :=
  let gone := overflowing (s.fifo port).frames f.length
  let s := gone.foldl (fun s g => s.loseFrame port g) s
  s.setFifo port (fun q => { q with frames := q.frames.drop gone.length ++ [f], wr := q.wr + 1, wrCopy := q.wrCopy + 1 })

/-- A context is used: it becomes the most recently used in the cache, or is fetched after a miss (R146). -/
def State.touchCache (s : State) (id : Nat) : State :=
  let i := s.ingest
  if i.cache.contains id then { s with ingest := { i with cache := id :: i.cache.erase id } }
  else if i.fetching.contains id then s
  else ({ s with ingest := { i with fetching := i.fetching ++ [id] } }).count Fld.siuCacheMiss_misses 1

/-- A context enters the cache, which keeps the 8,192 most recently used. -/
def Ingest.cached (i : Ingest) (id : Nat) : Ingest :=
  { i with cache := (id :: i.cache.erase id).take 8192, fetching := i.fetching.erase id }

/-- CONTEXT_FETCH_DONE: the context's 128 bytes are read from the context table, through error correction, and it is in the cache. DESIGN
CHOICE: the unit goes on with the context as it last wrote it (R146). -/
def execContextFetchDone (ctx : Nat) (s : State) : Host.Outcome State Fault Refusal :=
  answer s true (if s.ingest.fetching.contains ctx then
      let s := (s.getHbm { part := 0, crit := 0, stream := 0 } (s.ctxAddr ctx) 128).1
      { s with ingest := s.ingest.cached ctx }
    else s)

/-- The lowest context ID that is FREE. -/
def State.freeCtx (s : State) : Option Nat :=
  let used := s.ingest.ctxs.map (·.id)
  (List.range (used.length + 1)).find? (fun i => decide (i < 131072) && !used.contains i)

/-- Auto contexts of a stream set that are not FREE (R150). -/
def State.autoCount (s : State) (set : Nat) : Nat := (s.ingest.ctxs.filter (fun c => c.auto && c.set == set)).length

/-- Whether a template admits an unknown frame (R150). -/
def State.admits (s : State) (t : Ctx) (k : FrameKey) (p : List Byte) : Bool :=
  t.template && t.state == .active && t.key.port == k.port && t.key.udpPort == k.udpPort
    && (match t.format with | .pointPacket => magicSeen p == 1 | .rangeImage => magicSeen p == 2 | _ => true)
    && (match s.set? t.set with | some x => decide (s.autoCount t.set < x.cfg.maxAuto) | none => false)

/-- The copy of a template for a frame's key (R150). -/
def Ctx.admitted (t : Ctx) (id : Nat) (k : FrameKey) : Ctx :=
  { t with
    id := id, key := k, template := false, auto := true, state := .active, lastNs := 0, frames := 0, points := 0,
    lostFrames := 0, parseFaults := 0, windowDrops := 0, poseDrops := 0, budgetPoints := 0, bufferDrops := 0,
    extrapolated := 0 }

/-- A discovery entry (R179), its fields in the order in which the rule lists them. -/
def discoveryBytes (seq : Nat) (k : FrameKey) (d : Datagram) (admitted : Option Nat) (stamp : DWord) (len : Nat) :
    List Byte :=
  natToBytes 4 seq ++ natToBytes 1 k.port
    ++ natToBytes 1 ((if admitted.isSome then 1 else 0) + (if d.v6 then 2 else 0) + 4 * magicSeen d.payload)
    ++ natToBytes 2 k.sensorId ++ natToBytes 6 k.srcMac ++ natToBytes 2 k.udpPort ++ natToBytes 2 d.srcPort
    ++ natToBytes 16 k.srcIp ++ natToBytes 8 stamp.toNat ++ natToBytes 4 (admitted.getD 0) ++ natToBytes 2 len
    ++ slice d.payload 0 16

/-- The first frame of an unknown key writes a discovery entry, and the key enters the filter of 256 keys (R179). Which
key a full filter gives up is a free choice. -/
def State.discover (s : State) (k : FrameKey) (d : Datagram) (admitted : Option Nat) (stamp : DWord) (len : Nat) : State :=
  if s.ingest.filter.any (fun x => x.1 == k) then s
  else
    let (s, keep) :=
      if s.ingest.filter.length < 256 then (s, s.ingest.filter)
      else
        let (i, s) := s.choose s.ingest.filter.length
        (s, s.ingest.filter.eraseIdx i)
    let s := { s with ingest := { s.ingest with filter := keep ++ [(k, s.time.uptime)] } }
    if s.ingest.discovery.isNone then s
    else
      let seq := s.ingest.discSeq
      ({ s with ingest := { s.ingest with discSeq := seq + 1 } }).postRing true
        (discoveryBytes seq.toNat k d admitted stamp len)

/-- DISCOVERY_HOLDOFF_EXPIRE: holdoff_ms after its entry a key leaves the filter (R179). -/
def execDiscoveryHoldoffExpire (key : FrameKey) (s : State) : Host.Outcome State Fault Refusal :=
  let stays (x : FrameKey × DWord) : Bool := x.1 != key || !s.passed x.2 (1000000 * s.rdN Fld.siuDiscCtrl_holdoff_ms)
  answer s true { s with ingest := { s.ingest with filter := s.ingest.filter.filter stays } }

/-- A frame that a context delivers: the context becomes ACTIVE and the frame is queued (R143, R148). -/
def State.deliver (s : State) (c : Ctx) (k : FrameKey) (d : Datagram) (stamp : DWord) (len : Nat) : State :=
  let s := s.updCtx c.id (fun c => { c with state := .active, lastNs := stamp, frames := c.frames + 1 })
  (s.touchCache c.id).enqueue k.port
    { stamp := stamp, length := len, key := k, srcUdpPort := d.srcPort, isV6 := d.v6, payload := d.payload, ctx := c.id }

/-- A UDP frame (R140, R148, R150). -/
def State.udpFrame (s : State) (port : Nat) (d : Datagram) (stamp : DWord) (len : Nat) : State :=
  let s := s.portCount port pcRx 1
  let k := s.frameKey port d
  match s.matchCtx k with
  | some c =>
    if c.state == .disabled then s.updCtx c.id (fun c => { c with frames := c.frames + 1 })
    else s.deliver c k d stamp len
  | none =>
    match s.ingest.ctxs.find? (fun t => s.admits t k d.payload), s.freeCtx with
    | some t, some id =>
      let c := t.admitted id k
      let s := s.putCtx c
      let s := { s with ingest := s.ingest.cached id }
      let s := s.ingestEvent 0x0001 id (BitVec.ofNat 64 t.id)
      let s := s.deliver c k d stamp len
      s.discover k d (some id) stamp len
    | _, _ => (s.portCount port pcUnknown 1).discover k d none stamp len

/-- A port receives (R27, R139, R186). -/
def State.portReceives (s : State) (port : Nat) : Bool :=
  s.rdB Fld.siuCtrl_enable && s.rdB Fld.siuPortCfg_enable port && s.rdB Fld.siuPortCfg_link_up port

/-- SENSOR_FRAME_RX: a frame, its FCS included, arrives at a port and is disposed of by the first row of R140 that applies.
A PTP message is passed to the time unit; the rows of 04_time_reference.md say what it does with one. -/
def execSensorFrameRx (port : Nat) (frame : List Byte) (fcsOk : Bool) (s : State) : Host.Outcome State Fault Refusal :=
  answer s (isPort port) (
    if !s.portReceives port then s
    else if !fcsOk ∨ frame.length < 64 ∨ frame.length > 9216 then s.portCount port pcFcs 1
    else if !s.takesMac port frame then s
    else
      let f := frame.take (frame.length - 4)
      let stamp := s.leaf siuIsland - BitVec.ofNat 64 (s.rdN Fld.timPortCfg_rx_latency_ns port)
      match s.frameKind port f with
      | .ptp => s
      | .arp mac ip => s.emit (.frame port (s.arpReply port mac ip))
      | .solicit mac ip => s.emit (.frame port (s.advertisement port mac ip))
      | .other => s.portCount port pcOther 1
      | .udp d => s.udpFrame port d stamp frame.length)

/-- CONTEXT_AGEING_CHECK: the check reaches a context (R149). -/
def execContextAgeingCheck (ctx : Nat) (s : State) : Host.Outcome State Fault Refusal :=
  answer s true (match s.ctx? ctx with
    | none => s
    | some c =>
      if c.template || c.ageMs == 0 || decide ((s.leaf siuIsland).toNat < c.lastNs.toNat + c.ageMs * 1000000) then s
      else if c.auto then
        (s.dropCtx ctx).ingestEvent 0x0003 ctx c.lastNs
      else if c.state == .silent then s
      else (s.updCtx ctx (fun c => { c with state := .silent })).ingestEvent 0x0002 ctx c.lastNs)

/-- SENSOR_PORT_LINK_UP: a port's link comes up, once the time tree is calibrated (R27, R186). -/
def execSensorPortLinkUp (port : Nat) (s : State) : Host.Outcome State Fault Refusal :=
  answer s (isPort port) (
    if s.rdB Fld.timStatus_tree_calibrated && s.rdB Fld.siuCtrl_enable && s.rdB Fld.siuPortCfg_enable port then
      let s := s.wrB Fld.siuPortCfg_link_up true port
      { s with time := { s.time with portsUp := true } }
    else s)

/-- SENSOR_PORT_LINK_DOWN (R186). -/
def execSensorPortLinkDown (port : Nat) (s : State) : Host.Outcome State Fault Refusal :=
  answer s (isPort port) (s.wrB Fld.siuPortCfg_link_up false port)

end Sys2Proof.Machine
end

