-- ==== Sys2Proof/Machine/Trig.lean ====
section
/-! DEFINITION. Trigonometric functions: with 64 bits below the point for the IoU unit (R355), and with 256 bits, and then one of the two
values of a format next to the exact result, for the units whose rounding the spec does not state (R157, R167, R328). -/
namespace Sys2Proof.Machine

/-- A length or an area with 64 bits below the point. -/
abbrev Fix := Int

/-- One. -/
def fixOne : Fix := 18446744073709551616

/-- A finite value, cut below 2^-k. -/
def fixBits (k : Nat) : FVal → Int
  | .fin n m e =>
    let x : Nat := if 0 ≤ e + k then m <<< (e + k).toNat else m >>> (-(e + k)).toNat
    if n then -(x : Int) else x
  | _ => 0

def toFix : FVal → Fix := fixBits 64

/-- Product and quotient. -/
def fmul (a b : Fix) : Fix := floorDiv (a * b) fixOne
def fdiv (a b : Fix) : Fix := if b = 0 then 0 else if b < 0 then floorDiv (-(a * fixOne)) (-b) else floorDiv (a * fixOne) b

/-- 2π with 256 bits below the point. -/
def twoPi256 : Int := 2 * 0x3243f6a8885a308d313198a2e03707344a4093822299f31d0082efa98ec4e6c89

/-- An angle less a whole number of turns. -/
def reduceAngle (yaw : FVal) : Fix := floorDiv (fixBits 256 yaw % twoPi256) (2 ^ 192)

/-- The rest of a Taylor series: `term` is the term of index k, and the next one is −term × x² / ((k+1)(k+2)). -/
def taylorFrom (x2 : Fix) : Nat → Nat → Fix → Fix
  | 0, _, _ => 0
  | n + 1, k, term => term + taylorFrom x2 n (k + 2) (floorDiv (-(fmul term x2)) (((k + 1) * (k + 2) : Nat) : Int))

/-- Cosine and sine of an angle below one turn. -/
def fixCos (x : Fix) : Fix := taylorFrom (fmul x x) 24 0 fixOne
def fixSin (x : Fix) : Fix := taylorFrom (fmul x x) 24 1 x

/-! 256 bits below the point. -/

/-- A number with 256 bits below the point. -/
abbrev Wide := Int

/-- One, product and quotient. -/
def wideOne : Wide := ((2 ^ 256 : Nat) : Int)
def wmul (a b : Wide) : Wide := floorDiv (a * b) wideOne
def wdiv (a b : Wide) : Wide := if b = 0 then 0 else if b < 0 then floorDiv (-(a * wideOne)) (-b) else floorDiv (a * wideOne) b

/-- The square root of a number that is not negative. -/
def wsqrt (a : Wide) : Wide := ((isqrt (a.toNat * 2 ^ 256) : Nat) : Int)

/-- The rest of the series of sine or cosine, as `taylorFrom`. -/
def wideTaylor (x2 : Wide) : Nat → Nat → Wide → Wide
  | 0, _, _ => 0
  | n + 1, k, term => term + wideTaylor x2 n (k + 2) (floorDiv (-(wmul term x2)) (((k + 1) * (k + 2) : Nat) : Int))

/-- An angle less a whole number of turns. -/
def wideAngle (v : FVal) : Wide := fixBits 256 v % twoPi256

/-- Cosine and sine of an angle below one turn. -/
def wideCos (x : Wide) : Wide := wideTaylor (wmul x x) 48 0 wideOne
def wideSin (x : Wide) : Wide := wideTaylor (wmul x x) 48 1 x

/-- The rest of the series of the arc tangent: `pow` is the power of index k with its sign. -/
def atanSeries (x2 : Wide) : Nat → Nat → Wide → Wide
  | 0, _, _ => 0
  | n + 1, k, pow => floorDiv pow (k : Int) + atanSeries x2 n (k + 2) (-(wmul pow x2))

/-- The arc tangent of a number from 0 to 1: four halvings of the angle, and the series. -/
def wideAtan (t : Wide) : Wide :=
  let half (t : Wide) : Wide := wdiv t (wideOne + wsqrt (wideOne + wmul t t))
  let h := half (half (half (half t)))
  16 * atanSeries (wmul h h) 40 1 h

/-- The angle of a point (x, y), from −π to π; 0 at the origin. -/
def wideAtan2 (y x : Wide) : Wide :=
  let a : Wide := (x.natAbs : Int)
  let b : Wide := (y.natAbs : Int)
  let first : Wide := if b ≤ a then wideAtan (wdiv b a) else floorDiv twoPi256 4 - wideAtan (wdiv a b)
  let turned : Wide := if x < 0 then floorDiv twoPi256 2 - first else first
  if y < 0 then -turned else turned

/-- The arc cosine of a number from −1 to 1. -/
def wideAcos (d : Wide) : Wide := wideAtan2 (wsqrt (max 0 (wideOne - wmul d d))) d

/-! Results whose rounding the spec does not state. -/

/-- The value of a number with 256 bits below the point. -/
def ofWide (x : Wide) : FVal := .dyad x (-256)

/-- One of the two values of a format next to an exact result: the result itself where the format has it; which one is a free value of
the function and its operands. -/
def Fmt.near (f : Fmt) (fn : Nat) (args : List FVal) (exact : FVal) : FVal :=
  let r := f.enc exact
  let other := (Config.realFn fn (args.map (fun a => BitVec.ofNat 64 (f.enc a)))).toNat % 2 == 1
  if !other then f.dec r
  else if (f.dec r).abs.lt exact.abs then f.dec (r + 1)
  else if exact.abs.lt (f.dec r).abs then f.dec (r - 1)
  else f.dec r

/-- A function of one finite operand; of any other it is a NaN. -/
def Fmt.trig (f : Fmt) (fn : Nat) (g : FVal → Wide) (a : FVal) : FVal :=
  if !a.isFinite then .nan else if a.isZero && g a == 0 then a else f.near fn [a] (ofWide (g a))

/-- Cosine and sine in FP32 (R157), and cosine, sine and arc cosine in FP64 (R167, R328). -/
def cos32 (a : FVal) : FVal := fp32.trig fnCos32 (fun v => wideCos (wideAngle v)) a
def sin32 (a : FVal) : FVal := fp32.trig fnSin32 (fun v => wideSin (wideAngle v)) a
def cos64 (a : FVal) : FVal := fp64.trig fnCos64 (fun v => wideCos (wideAngle v)) a
def sin64 (a : FVal) : FVal := fp64.trig fnSin64 (fun v => wideSin (wideAngle v)) a
def acos64 (a : FVal) : FVal := fp64.trig fnAcos64 (fun v => wideAcos (fixBits 256 v)) a

/-- The angle of (x, y) in FP64 (R328). -/
def atan64 (y x : FVal) : FVal :=
  if !y.isFinite || !x.isFinite then .nan
  else fp64.near fnAtan64 [y, x] (ofWide (wideAtan2 (fixBits 256 y) (fixBits 256 x)))

end Sys2Proof.Machine
end

