-- ==== Sys2Proof/Machine/IngestParse.lean ====
section
/-! DEFINITION. Parsing a frame (R144, R145, R152 to R162): point packets, pose packets, range images and parse programs, and
the acceptance of pose records (R165, R166). -/
namespace Sys2Proof.Machine

/-- What parsing a frame gives: points in record order, points beyond the budget, pose records, or a fault. -/
structure Parsed where
  fault : Bool := false
  points : List RawPoint := []
  excess : Nat := 0
  poses : List Pose := []

/-- A frame that fails a parse check (R153). -/
def Parsed.bad : Parsed := { fault := true }

/-- Points cut to a frame's budget (R145). -/
def budgeted (len : Nat) (pts : List RawPoint) : Parsed :=
  { points := pts.take (len / 16), excess := pts.length - len / 16 }

/-- What the context of a frame gives to each of its points (R161). -/
def rawOf (c : Ctx) (base : DWord) (offset : Nat) : RawPoint :=
  { ctx := c.id, base := base, offsetNs := BitVec.ofNat 32 offset, metric := false, x := 0, y := 0, z := 0,
    intensity := 0, beam := 0, ret := 0, set := c.set, lagNs := c.lagNs, extQ := c.extQ, extT := c.extT }

/-- The point of a point record at a place of the payload (R155). -/
def pointRecord (c : Ctx) (base : DWord) (p : List Byte) (at_ : Nat) : RawPoint :=
  let w := leAt p (at_ + 14) 2
  { rawOf c base (leAt p (at_ + 10) 4) with
    x := toSigned 24 (leAt p at_ 3), y := toSigned 24 (leAt p (at_ + 3) 3), z := toSigned 24 (leAt p (at_ + 6) 3),
    intensity := leAt p (at_ + 9) 1, beam := getBits w 0 9, ret := getBits w 9 2 }

/-- The pose record at a place of some bytes (R165). -/
def poseRecord (p : List Byte) (at_ : Nat) : Pose :=
  let w (i : Nat) : Word := BitVec.ofNat 32 (leAt p (at_ + i) 4)
  { t := BitVec.ofNat 64 (leAt p at_ 8), px := w 8, py := w 12, pz := w 16, qw := w 20, qx := w 24, qy := w 28, qz := w 32 }

/-- The FP32 constant 0.000001. -/
def micro : FVal := f32 0x358637BD

/-- The x, y and z of a return through a calibration table, in FP32, or none where it is not a point (R157). -/
def returnXyz (k : Calib) (unit range az el : Nat) : Option (FVal × FVal × FVal) :=
  match k.entries[el]? with
  | none => none
  | some (elev, azOff, rOff, oz) =>
    let i32 (n : Nat) : FVal := fp32.round (FVal.ofInt n)
    let r := add32 (mul32 (mul32 (i32 range) (i32 unit)) micro) (f32 rOff.toNat)
    let a := add32 (mul32 (i32 az) (f32 k.azStep.toNat)) (f32 azOff.toNat)
    let e := f32 elev.toNat
    let h := mul32 r (cos32 e)
    if range = 0 ∨ r.le (.fin false 0 0) then none
    else some (mul32 h (cos32 a), mul32 h (sin32 a),
      add32 (mul32 r (sin32 e)) (f32 oz.toNat))

/-- A return as a point: FP32 patterns of metres. -/
def returnPoint (raw : RawPoint) (xyz : FVal × FVal × FVal) : RawPoint :=
  { raw with metric := true, x := fp32.enc xyz.1, y := fp32.enc xyz.2.1, z := fp32.enc xyz.2.2 }

/-- The calibration table of a context, where it is loaded. -/
def State.calib? (s : State) (n : Nat) : Option Calib := s.ingest.calibs.find? (fun k => k.num == n)

/-- Whether a context is named as the port context of a pose source. -/
def State.poseCtx (s : State) (id : Nat) : Bool := s.ingest.poses.any (fun p => p.fromPort && p.ctx == id)

/-- A point packet (R154, R155) or a packet of pose records (R165). -/
def State.parsePoints (s : State) (c : Ctx) (f : QFrame) : Parsed :=
  let p := f.payload
  let n := leAt p 16 2
  let type := leAt p 5 1
  let base : DWord := if c.timeSource then BitVec.ofNat 64 (leAt p 8 8) else f.stamp
  if p.length < 32 ∨ leAt p 0 4 ≠ magicPoint ∨ leAt p 4 1 ≠ 1 then .bad
  else if type = 1 then
    (if p.length < 32 + 16 * n then .bad
     else budgeted f.length ((List.range n).map (fun i => pointRecord c base p (32 + 16 * i))))
  else if type = 2 ∧ s.poseCtx c.id then
    (if p.length < 32 + 40 * n then .bad
     else { poses := (List.range n).map (fun i => poseRecord p (32 + 40 * i)) })
  else .bad

/-- A range image (R156, R157). -/
def State.parseRange (s : State) (c : Ctx) (f : QFrame) : Parsed :=
  let p := f.payload
  let n := leAt p 16 2
  let unit := leAt p 20 4
  let base : DWord := if c.timeSource then BitVec.ofNat 64 (leAt p 8 8) else f.stamp
  if p.length < 32 ∨ leAt p 0 4 ≠ magicRange ∨ leAt p 4 1 ≠ 1 ∨ leAt p 5 1 ≠ 1 ∨ unit = 0 ∨ p.length < 32 + 16 * n then .bad
  else match s.calib? c.calib with
    | none => .bad
    | some k =>
      let ats := (List.range n).map (fun i => 32 + 16 * i)
      if ats.any (fun a => decide (leAt p (a + 6) 2 ≥ k.entries.length)) then .bad
      else
        let one (a : Nat) : Option RawPoint :=
          (returnXyz k unit (leAt p a 4) (leAt p (a + 4) 2) (leAt p (a + 6) 2)).map (fun xyz =>
            returnPoint { rawOf c base (leAt p (a + 12) 4) with
              intensity := leAt p (a + 8) 2, beam := leAt p (a + 6) 2, ret := getBits (leAt p (a + 10) 1) 0 2 } xyz)
        budgeted f.length (ats.filterMap one)

/-! Parse programs. -/

/-- The state of a parse program (R158). `header` is the time that SETT gave. -/
structure Vm where
  pc : Int
  v : List Word := List.replicate 8 0
  c : Nat := 0
  header : Option DWord := none
  /-- Points emitted, newest first. -/
  points : List RawPoint := []
  excess : Nat := 0
  free : Nat

/-- How a program ends. -/
inductive VmEnd where
  | fault (free : Nat)
  | done (vm : Vm)

/-- A value register. -/
def Vm.r (m : Vm) (i : Nat) : Word := nth 0 m.v i

/-- A value register written. -/
def Vm.set (m : Vm) (i : Nat) (x : Word) : Vm := { m with v := m.v.set i x, pc := m.pc + 1 }

/-- The next instruction follows. -/
def Vm.next (m : Vm) : Vm := { m with pc := m.pc + 1 }

/-- A load of 1 to 4 bytes (R159): none beyond the payload (R160). Offsets wrap at 32 bits. -/
def vmLoad (p : List Byte) (at_ sub : Nat) : Option Word :=
  let a := at_ % 4294967296
  let n := getBits sub 0 2 + 1
  if a + n > p.length then none
  else
    let x := if sub.testBit 3 then beAt p a n else leAt p a n
    some (if sub.testBit 2 then BitVec.ofInt 32 (toSigned (8 * n) x) else BitVec.ofNat 32 x)

/-- The operations of ALU (R159). A shift by 32 or more has a result that the spec does not state: a free value. -/
def vmAlu (op : Nat) (a b : Word) (free : Nat) : Option (Word × Nat) :=
  let shift (x : Word) : Word × Nat := if b.toNat < 32 then (x, free) else ((Config.freeWord free).truncate 32, free + 1)
  match op with
  | 0 => some (a + b, free)
  | 1 => some (a - b, free)
  | 2 => some (a * b, free)
  | 3 => some (a &&& b, free)
  | 4 => some (a ||| b, free)
  | 5 => some (a ^^^ b, free)
  | 6 => some (shift (a <<< b.toNat))
  | 7 => some (shift (a >>> b.toNat))
  | 8 => some (shift (a.sshiftRight b.toNat))
  | 9 => some (if a.toInt ≤ b.toInt then a else b, free)
  | 10 => some (if a.toInt ≥ b.toInt then a else b, free)
  | _ => none

/-- The conditions of BR (R159). -/
def vmCond (cond : Nat) (a b : Word) : Option Bool :=
  match cond with
  | 0 => some true
  | 1 => some (a == b)
  | 2 => some (a != b)
  | 3 => some (decide (a.toInt < b.toInt))
  | 4 => some (decide (a.toInt ≥ b.toInt))
  | 5 => some (decide (a.toNat < b.toNat))
  | 6 => some (decide (a.toNat ≥ b.toNat))
  | _ => none

/-- What a program runs on: its context, its frame, and the calibration table where it is loaded. -/
structure VmEnv where
  ctx : Ctx
  frame : QFrame
  calib : Option Calib

/-- The base time of a point that a program emits now (R162). Without a SETT the header time is one that the spec does not
state: a free value. -/
def Vm.base (m : Vm) (e : VmEnv) : DWord × Nat :=
  if e.ctx.timeSource then
    (match m.header with | some h => (h, m.free) | none => (Config.freeWord m.free, m.free + 1))
  else (e.frame.stamp, m.free)

/-- A point is emitted within the budget, or counted and ignored beyond it (R160). -/
def Vm.emit (m : Vm) (e : VmEnv) (p : RawPoint) : Vm :=
  if m.points.length < e.frame.length / 16 then { m with points := p :: m.points } else { m with excess := m.excess + 1 }

/-- The fields that v3 to v5 give to an emitted point (R159). -/
def Vm.raw (m : Vm) (e : VmEnv) : RawPoint × Nat :=
  let (b, free) := m.base e
  ({ rawOf e.ctx b (m.r 4).toNat with
      intensity := getBits (m.r 3).toNat 0 16, beam := getBits (m.r 5).toNat 0 9, ret := getBits (m.r 5).toNat 9 2 }, free)

/-- One instruction: how the program ends, or its next state (R159, R160). -/
def Vm.step (m : Vm) (e : VmEnv) (i : Nat) : VmEnd ⊕ Vm :=
  let rd := getBits i 53 3
  let rs := getBits i 50 3
  let rt := getBits i 47 3
  let useImm := i.testBit 46
  let sub := getBits i 32 14
  let imm := getBits i 0 32
  let b : Word := if useImm then BitVec.ofNat 32 imm else m.r rt
  let p := e.frame.payload
  let flt : VmEnd ⊕ Vm := .inl (.fault m.free)
  match getBits i 56 8 with
  | 0x01 => match vmLoad p (m.c + imm) sub with | some x => .inr (m.set rd x) | none => flt
  | 0x02 => match vmLoad p (m.c + (m.r rs).toNat + imm) sub with | some x => .inr (m.set rd x) | none => flt
  | 0x03 => match vmAlu (getBits sub 0 4) (m.r rs) b m.free with
    | some (x, free) => .inr { m.set rd x with free := free }
    | none => flt
  | 0x04 => .inr (m.set rd (BitVec.ofNat 32 imm))
  | 0x05 => .inr { m.next with c := (m.c + (if useImm then imm else (m.r rs).toNat)) % 4294967296 }
  | 0x06 => match vmCond rd (m.r rs) b with
    | some taken => .inr (if taken then { m with pc := m.pc + toSigned 14 sub } else m.next)
    | none => flt
  | 0x07 => .inr (m.set rd (BitVec.ofNat 32 p.length))
  | 0x08 =>
    let (raw, free) := m.raw e
    .inr { m.next.emit e { raw with x := (m.r 0).toInt, y := (m.r 1).toInt, z := (m.r 2).toInt } with free := free }
  | 0x09 => match e.calib with
    | none => flt
    | some k =>
      let el := (m.r 2).toNat
      if el ≥ k.entries.length then flt
      else
        let (raw, free) := m.raw e
        let m' := { m.next with free := free }
        match returnXyz k k.rangeUnitUm.toNat (m.r 0).toNat (m.r 1).toNat el with
        | some xyz => .inr (m'.emit e (returnPoint raw xyz))
        | none => .inr m'
  | 0x0A => .inr { m.next with header := some (BitVec.ofNat 64 ((m.r 7).toNat * 4294967296 + (m.r 6).toNat)) }
  | 0x0B => .inl (.done m)
  | _ => flt

/-- A program runs until END or a fault, for at most 4,096 instructions (R160). -/
def Vm.run (store : List (Nat × DWord)) (e : VmEnv) : Nat → Vm → VmEnd
  | 0, m => .fault m.free
  | k + 1, m =>
    if m.pc < 0 ∨ m.pc ≥ 8192 then .fault m.free
    else
      let w := ((store.find? (fun x => (x.1 : Int) == m.pc)).map (·.2)).getD 0
      match m.step e w.toNat with
      | .inl r => r
      | .inr m => m.run store e k

/-- A frame read by its context's parse program (R158 to R161), and the free values drawn after it. -/
def State.parseProgram (s : State) (c : Ctx) (f : QFrame) : Parsed × Nat :=
  let e : VmEnv := { ctx := c, frame := f, calib := s.calib? c.calib }
  match ({ pc := (c.program : Int), free := s.free } : Vm).run s.ingest.store e 4096 with
  | .fault n => (.bad, n)
  | .done m => ({ points := m.points.reverse, excess := m.excess }, m.free)

/-- A frame parsed by its context's path (R147, R153). -/
def State.parse (s : State) (c : Ctx) (f : QFrame) : Parsed × State :=
  match c.format with
  | .pointPacket => (s.parsePoints c f, s)
  | .rangeImage => (s.parseRange c f, s)
  | .program =>
    let (p, n) := s.parseProgram c f
    (p, { s with free := n })
  | .reserved => (.bad, s)

/-! Pose records. -/

/-- The FP32 values of a pose record. -/
def Pose.words (p : Pose) : List Word := [p.px, p.py, p.pz, p.qw, p.qx, p.qy, p.qz]

/-- The exact square of the norm of a pose's quaternion. -/
def Pose.norm2 (p : Pose) : FVal :=
  [p.qw, p.qx, p.qy, p.qz].foldl (fun a w => a.add ((f32 w.toNat).mul (f32 w.toNat))) (.fin false 0 0)

/-- Whether a pose record is sound: every value finite and a norm within [0.9, 1.1] (R166). -/
def Pose.sound (p : Pose) : Bool :=
  p.words.all (fun w => (f32 w.toNat).isFinite) &&
    (FVal.ofInt 81).le (p.norm2.mul (FVal.ofInt 100)) && (p.norm2.mul (FVal.ofInt 100)).le (FVal.ofInt 121)

/-- An accepted quaternion is normalised: in FP64, rounded to FP32. -/
def Pose.normalised (p : Pose) : Pose :=
  let n := sqrt64 (fp64.round p.norm2)
  let d (w : Word) : Word := BitVec.ofNat 32 (fp32.enc (div64 (f32 w.toNat) n))
  { p with qw := d p.qw, qx := d p.qx, qy := d p.qy, qz := d p.qz }

/-- A record reaches a pose source (R166): whether it was accepted. A gap over gap_ms between records posts an event
(R181). -/
def State.poseAccept (s : State) (num : Nat) (p : Pose) : State × Bool :=
  match s.ingest.poses.find? (fun x => x.num == num) with
  | none => (s, false)
  | some src =>
    let newest := src.records.getLast?
    let late := match newest with | some n => decide (p.t.toNat ≤ n.t.toNat) | none => false
    if late || !p.sound then
      let s := s.count Fld.siuPoseRej_pose_rejected 1 num
      let sets := s.ingest.sets.filter (fun x => x.cfg.poseSource == num)
      (sets.foldl (fun s x => s.setCount x.num 0x010B 1 true) s, false)
    else
      let rs := src.records ++ [p.normalised]
      let s := { s with ingest := { s.ingest with
        poses := updWhere s.ingest.poses (fun x => x.num == num) (fun x => { x with records := rs.drop (rs.length - 1024) }) } }
      let s := match newest with
        | some n =>
          let gap := p.t.toNat - n.t.toNat
          if gap > src.gapMs * 1000000 then s.ingestEvent 0x0005 num (BitVec.ofNat 64 gap) else s
        | none => s
      (s, true)

/-- Records reach a source one after the other: how many were accepted. -/
def State.poseAcceptAll (s : State) (num : Nat) : List Pose → State × Nat
  | [] => (s, 0)
  | p :: r =>
    let (s, ok) := s.poseAccept num p
    let (s, n) := s.poseAcceptAll num r
    (s, if ok then n + 1 else n)

/-! FRAME_PARSE. -/

/-- The window of a time under a set's settings (R163). -/
def SetCfg.window (c : SetCfg) (t : Int) : Int := floorDiv (t - c.phaseUs * 1000) (c.periodUs * 1000)

/-- A frame fails to parse: it is counted, and the first fault of its context in a window posts an event (R153, R181). -/
def State.parseFault (s : State) (port : Nat) (c : Ctx) (f : QFrame) : State :=
  let s := (s.portCount port pcFault 1).updCtx c.id (fun c => { c with parseFaults := c.parseFaults + 1 })
  match s.set? c.set with
  | none => s
  | some x =>
    let k := x.cfg.window f.stamp.toNat
    if x.faulted.contains (c.id, k) then s
    else (s.updSet c.set (fun x => { x with
      faulted := (c.id, k) :: x.faulted.filter (fun e => e.1 != c.id) })).ingestEvent 0x0006 c.id f.stamp

/-- A parsed frame's points go to de-skew and its pose records to the sources of its context. -/
def State.parsedFrame (s : State) (port : Nat) (c : Ctx) (f : QFrame) (p : Parsed) : State :=
  if p.fault then s.parseFault port c f
  else
    let s := (s.portCount port pcBudget p.excess).updCtx c.id (fun c => { c with
      budgetPoints := c.budgetPoints + BitVec.ofNat 32 p.excess, points := c.points + BitVec.ofNat 64 p.points.length })
    let s := s.setCount c.set 0x0100 p.points.length false
    let s := { s with ingest := { s.ingest with deskew := s.ingest.deskew ++ p.points } }
    (s.ingest.poses.filter (fun x => x.fromPort && x.ctx == c.id)).foldl (fun s x => (s.poseAcceptAll x.num p.poses).1) s

/-- The two copies of a receive FIFO's count disagree: the FIFO is reset and its frames are lost (R480). -/
def State.resetFifo (s : State) (port : Nat) : State :=
  let gone := (s.fifo port).frames
  let s := gone.foldl (fun s f => s.loseFrame port f) s
  (s.setFifo port (fun q => { frames := [], wr := q.wr, wrCopy := q.wr })).queueReset (unitId 1 0 port) { source := 0x16, logical := port }

/-- Whether the head of a port's FIFO may be parsed: it does not wait for its context. -/
def State.headReady (s : State) (port : Nat) : Option QFrame :=
  match (s.fifo port).frames with
  | f :: _ => if s.ingest.fetching.contains f.ctx then none else some f
  | [] => none

/-- Whether a head is the next in the order of R152: no other head is older, and of equals none has a lower port. -/
def State.headFirst (s : State) (port : Nat) (f : QFrame) : Bool :=
  (List.range 16).all (fun p => p == port ||
    (match s.headReady p with
     | some g => decide (f.stamp.toNat < g.stamp.toNat) || (f.stamp == g.stamp && decide (port < p))
     | none => true))

/-- FRAME_PARSE: a parse engine takes the oldest head frame, which is at this port, and parses it whole (R151, R152). -/
def execFrameParse (port : Nat) (s : State) : Host.Outcome State Fault Refusal :=
  answer s (isPort port) (
    if (s.fifo port).wr != (s.fifo port).wrCopy then s.resetFifo port
    else match s.headReady port with
    | none => s
    | some f =>
      if !s.headFirst port f then s
      else
        let s := s.setFifo port (fun q => { q with frames := q.frames.drop 1 })
        match s.ctx? f.ctx with
        | some c =>
          if c.key != f.key ∨ c.template then s.portCount port pcUnknown 1
          else
            let (p, s) := s.parse c f
            s.parsedFrame port c f p
        | none => s.portCount port pcUnknown 1)

end Sys2Proof.Machine
end

