-- ==== Sys2Proof/Machine/IngestWindows.lean ====
section
/-! DEFINITION. From a parsed point to a batch (R162 to R178): point time and window, pose, de-skew, the point buffer,
batches, the start and the close of a window, and re-expression. The order of FP operations within an expression is the
one in which R157, R167 and R168 write them, each operation rounded once. -/
namespace Sys2Proof.Machine

/-! Quaternions and vectors in FP64. -/

/-- An FP64 vector, a quaternion w, x, y, z, and a matrix by rows. -/
structure V3 where
  x : FVal
  y : FVal
  z : FVal
structure Quat where
  w : FVal
  x : FVal
  y : FVal
  z : FVal

/-- A pose in FP64. -/
structure PoseD where
  p : V3
  q : Quat

/-- A sum of FP64 values from the left, each sum rounded. -/
def sum64 (l : List FVal) : FVal := match l with | [] => .fin false 0 0 | a :: r => r.foldl add64 a

/-- The conjugate. -/
def Quat.conj (q : Quat) : Quat := ⟨q.w, q.x.neg, q.y.neg, q.z.neg⟩

/-- The Hamilton product. -/
def Quat.mul (a b : Quat) : Quat :=
  { w := sum64 [mul64 a.w b.w, (mul64 a.x b.x).neg, (mul64 a.y b.y).neg, (mul64 a.z b.z).neg]
    x := sum64 [mul64 a.w b.x, mul64 a.x b.w, mul64 a.y b.z, (mul64 a.z b.y).neg]
    y := sum64 [mul64 a.w b.y, (mul64 a.x b.z).neg, mul64 a.y b.w, mul64 a.z b.x]
    z := sum64 [mul64 a.w b.z, mul64 a.x b.y, (mul64 a.y b.x).neg, mul64 a.z b.w] }

/-- The inner product of two quaternions. -/
def Quat.dot (a b : Quat) : FVal := sum64 [mul64 a.w b.w, mul64 a.x b.x, mul64 a.y b.y, mul64 a.z b.z]

/-- Every component by a function. -/
def Quat.map (q : Quat) (f : FVal → FVal) : Quat := ⟨f q.w, f q.x, f q.y, f q.z⟩

/-- The quaternion at unit norm. -/
def Quat.unit (q : Quat) : Quat :=
  let n := sqrt64 (q.dot q)
  q.map (fun a => div64 a n)

/-- The sum of two quaternions. -/
def Quat.add (a b : Quat) : Quat := ⟨add64 a.w b.w, add64 a.x b.x, add64 a.y b.y, add64 a.z b.z⟩

/-- The rotation matrix of a quaternion, by rows. -/
def Quat.matrix (q : Quat) : List V3 :=
  let two := FVal.ofInt 2
  let one := FVal.ofInt 1
  let d (a b c e : FVal) : FVal := sub64 one (mul64 two (add64 (mul64 a b) (mul64 c e)))
  let p (a b c e : FVal) : FVal := mul64 two (add64 (mul64 a b) (mul64 c e))
  let m (a b c e : FVal) : FVal := mul64 two (sub64 (mul64 a b) (mul64 c e))
  [⟨d q.y q.y q.z q.z, m q.x q.y q.w q.z, p q.x q.z q.w q.y⟩,
   ⟨p q.x q.y q.w q.z, d q.x q.x q.z q.z, m q.y q.z q.w q.x⟩,
   ⟨m q.x q.z q.w q.y, p q.y q.z q.w q.x, d q.x q.x q.y q.y⟩]

/-- A row by a vector. -/
def V3.dot (r v : V3) : FVal := sum64 [mul64 r.x v.x, mul64 r.y v.y, mul64 r.z v.z]

/-- Sums and differences of vectors. -/
def V3.add (a b : V3) : V3 := ⟨add64 a.x b.x, add64 a.y b.y, add64 a.z b.z⟩
def V3.sub (a b : V3) : V3 := ⟨sub64 a.x b.x, sub64 a.y b.y, sub64 a.z b.z⟩

/-- A vector rotated by a quaternion. -/
def Quat.rotate (q : Quat) (v : V3) : V3 :=
  match q.matrix with
  | [a, b, c] => ⟨a.dot v, b.dot v, c.dot v⟩
  | _ => v

/-! The pose at a time (R165, R167). -/

/-- A record's pose. -/
def Pose.d (p : Pose) : PoseD :=
  { p := ⟨f32 p.px.toNat, f32 p.py.toNat, f32 p.pz.toNat⟩
    q := ⟨f32 p.qw.toNat, f32 p.qx.toNat, f32 p.qy.toNat, f32 p.qz.toNat⟩ }

/-- The FP64 patterns of a pose, and a pose from them. -/
def PoseD.bits (p : PoseD) : List DWord :=
  [p.p.x, p.p.y, p.p.z, p.q.w, p.q.x, p.q.y, p.q.z].map (fun v => BitVec.ofNat 64 (fp64.enc v))
def poseOf (l : List DWord) : PoseD :=
  let g (i : Nat) : FVal := fp64.dec (nth 0 l i).toNat
  { p := ⟨g 0, g 1, g 2⟩, q := ⟨g 3, g 4, g 5, g 6⟩ }

/-- The pose on a segment at a place u of it: below 0 or above 1 it is extrapolated (R167). -/
def blend (a b : Pose) (u : FVal) : PoseD :=
  let pa := a.d
  let pb := b.d
  let lin (x y : FVal) : FVal := add64 x (mul64 u (sub64 y x))
  let dot := pa.q.dot pb.q
  let flip := dot.lt (.fin false 0 0)
  let qb := if flip then pb.q.map FVal.neg else pb.q
  let dot := if flip then dot.neg else dot
  let one := FVal.ofInt 1
  let q :=
    if (fp64.dec 0x3FEFFBE76C8B4396).lt dot then
      (Quat.mk (lin pa.q.w qb.w) (lin pa.q.x qb.x) (lin pa.q.y qb.y) (lin pa.q.z qb.z)).unit
    else
      let th := acos64 dot
      let s := sin64 th
      let ka := div64 (sin64 (mul64 (sub64 one u) th)) s
      let kb := div64 (sin64 (mul64 u th)) s
      (pa.q.map (fun v => mul64 ka v)).add (qb.map (fun v => mul64 kb v))
  { p := ⟨lin pa.p.x pb.p.x, lin pa.p.y pb.p.y, lin pa.p.z pb.p.z⟩, q := q }

/-- Adjacent pairs of a list. -/
def adjacent : List Pose → List (Pose × Pose)
  | a :: b :: r => (a, b) :: adjacent (b :: r)
  | _ => []

/-- A record's time as an integer. -/
def Pose.ns (p : Pose) : Int := (p.t.toNat : Int)

/-- The extrapolation bound x of R167. -/
def poseX : Int := 20000000

/-- Which segment P(t) is taken from, and whether it is extrapolated: the cases of R167 in their order. -/
def poseSegment (rs : List Pose) (gapMs : Nat) (t : Int) : Option ((Pose × Pose) × Bool) :=
  let adj := adjacent rs
  let seg := adj.filter (fun s => decide (s.2.ns - s.1.ns ≤ ((gapMs * 1000000 : Nat) : Int)))
  match rs.head?, rs.getLast? with
  | some old, some new =>
    match seg.find? (fun s => decide (s.1.ns ≤ t) && decide (t < s.2.ns)) with
    | some s => some (s, false)
    | none =>
      let endsAt (r : Pose) : Option (Pose × Pose) := seg.find? (fun s => s.2 == r)
      let startsAt (r : Pose) : Option (Pose × Pose) := seg.find? (fun s => s.1 == r)
      let gap := adj.find? (fun s => decide (s.1.ns ≤ t) && decide (t < s.2.ns))
      let c2 := if t ≥ new.ns ∧ t < new.ns + poseX then endsAt new else none
      let c3 := if t < old.ns ∧ t ≥ old.ns - poseX then startsAt old else none
      let c4 := gap.bind (fun g => if t < g.1.ns + poseX then endsAt g.1 else none)
      let c5 := gap.bind (fun g => if t ≥ g.2.ns - poseX then startsAt g.2 else none)
      (((c2.or c3).or c4).or c5).map (fun s => (s, true))
  | _, _ => none

/-- P(t) of a pose source, and whether it is extrapolated; none where the point is dropped (R167). -/
def State.poseAt (s : State) (src : Nat) (t : Int) : Option (PoseD × Bool) :=
  match s.ingest.poses.find? (fun x => x.num == src) with
  | none => none
  | some x => (poseSegment x.records x.gapMs t).map (fun r =>
      let a := r.1.1
      let b := r.1.2
      let u := div64 (fp64.round (FVal.ofInt (t - a.ns))) (fp64.round (FVal.ofInt (b.ns - a.ns)))
      (blend a b u, r.2))

/-! De-skew (R168). -/

/-- Metres in FP32 from millimetres: the factor 0.001, rounded once. -/
def metres (x : Int) : FVal := fp32.round (fp32.div (FVal.ofInt x) (FVal.ofInt 1000))

/-- The FP32 matrix and translation of a move. -/
structure Move where
  m : List V3
  d : V3

/-- An FP64 vector rounded to FP32. -/
def V3.to32 (v : V3) : V3 := ⟨fp32.round v.x, fp32.round v.y, fp32.round v.z⟩

/-- The move from the sensor frame at a pose to the body frame at the reference pose. -/
def moveOf (qe : Quat) (te : V3) (pa pr : PoseD) : Move :=
  let q := (pr.q.conj.mul pa.q).unit
  let d := pr.q.conj.rotate (pa.p.sub pr.p)
  { m := (q.mul qe).matrix.map V3.to32, d := ((q.rotate te).add d).to32 }

/-- The move of an earlier window's frame into the current one: no extrinsic step (R172). -/
def moveBack (pj pk : PoseD) : Move :=
  let q := (pk.q.conj.mul pj.q).unit
  { m := q.matrix.map V3.to32, d := (pk.q.conj.rotate (pj.p.sub pk.p)).to32 }

/-- A value in FP32 millimetres as an int32: half-even, saturating. A NaN gives no value. -/
def toMm (v : FVal) : Option Int :=
  match mul32 (FVal.ofInt 1000) v with
  | .nan => none
  | .inf n => some (if n then -2147483648 else 2147483647)
  | w => (w.toIntRne).map (clampInt (-2147483648) 2147483647)

/-- A point moved, its coordinates in millimetres; a coordinate that has no number is a free value. -/
def Move.apply (mv : Move) (p : V3) (free : Nat) : (Int × Int × Int) × Nat :=
  let row (r : V3) (d : FVal) : FVal := add32 (add32 (add32 (mul32 r.x p.x) (mul32 r.y p.y)) (mul32 r.z p.z)) d
  let pick (v : FVal) (n : Nat) : Int × Nat :=
    match toMm v with | some i => (i, n) | none => (toSigned 32 (Config.freeWord n).toNat, n + 1)
  match mv.m with
  | [a, b, c] =>
    let (x, n) := pick (row a mv.d.x) free
    let (y, n) := pick (row b mv.d.y) n
    let (z, n) := pick (row c mv.d.z) n
    ((x, y, z), n)
  | _ => ((0, 0, 0), free)

/-! Windows (R163, R164). -/

/-- Start and end of window k under a set's settings, in ns. -/
def SetCfg.start (c : SetCfg) (k : Int) : Int := c.phaseUs * 1000 + k * (c.periodUs * 1000)
def SetCfg.stop (c : SetCfg) (k : Int) : Int := c.start (k + 1)

/-- The moment at which window k closes (R164). -/
def SetCfg.closes (c : SetCfg) (k : Int) : Int := c.stop k + c.graceUs * 1000

/-- Whether window k of a set is open now (R164). -/
def State.windowOpen (s : State) (x : StreamSet) (k : Int) : Bool :=
  match x.nextClose with
  | some n => decide (n ≤ k) && decide (x.cfg.start k - x.cfg.periodUs * 1000 ≤ (s.leaf siuIsland).toNat)
      && decide (((s.leaf siuIsland).toNat : Int) < x.cfg.closes k)
  | none => false

/-- A window of a set is in its list from its first point on. -/
def StreamSet.withWindow (x : StreamSet) (k : Int) : StreamSet :=
  if x.windows.any (fun w => w.k == k) then x else { x with windows := x.windows ++ [({ k := k } : Window)] }

/-- A window of a set. -/
def StreamSet.window? (x : StreamSet) (k : Int) : Option Window := x.windows.find? (fun w => w.k == k)

/-- A change to a window of a set. -/
def StreamSet.updWindow (x : StreamSet) (k : Int) (f : Window → Window) : StreamSet :=
  { x with windows := updWhere x.windows (fun w => w.k == k) f }

/-! Batches (R175). -/

/-- A point joins the open batch of its window, which is full at 4,096 records; the first point of a batch comes at `at_`. -/
def addToBatch (set : Nat) (k : Int) (p : Point) (at_ : DWord) : List Batch → List Batch
  | [] => [{ set := set, window := k, reexpressed := false, points := [p], final := false, closed := false, since := at_ }]
  | b :: r =>
    if b.set = set ∧ b.window = k ∧ !b.reexpressed ∧ !b.closed then
      { b with points := b.points ++ [p], closed := decide (b.points.length + 1 ≥ 4096) } :: r
    else b :: addToBatch set k p at_ r

/-- The ingest point record of a point (R173). -/
def Point.bytes (p : Point) : List Byte :=
  natToBytes 4 (ofSigned 32 p.x) ++ natToBytes 4 (ofSigned 32 p.y) ++ natToBytes 4 (ofSigned 32 p.z)
    ++ natToBytes 4 (ofSigned 32 p.dtUs) ++ natToBytes 2 p.intensity
    ++ natToBytes 2 (p.beam % 512 + 512 * (p.ret % 4) + 2048 * (p.sweep % 16) + 32768 * (if p.extrap then 1 else 0))
    ++ natToBytes 4 (p.ctx % 131072) ++ natToBytes 8 0

/-- The point of an ingest point record (R173). -/
def pointOf (b : List Byte) : Point :=
  let w := leAt b 18 2
  { x := toSigned 32 (leAt b 0 4), y := toSigned 32 (leAt b 4 4), z := toSigned 32 (leAt b 8 4),
    dtUs := toSigned 32 (leAt b 12 4), intensity := leAt b 16 2, beam := getBits w 0 9, ret := getBits w 9 2,
    sweep := getBits w 11 4, extrap := w.testBit 15, ctx := getBits (leAt b 20 4) 0 17 }

/-! POINT_DESKEW. -/

/-- The time of a point (R162). -/
def RawPoint.time (p : RawPoint) : Int :=
  (p.base + BitVec.ofNat 64 p.offsetNs.toNat - BitVec.ofInt 64 p.lagNs.toInt).toInt

/-- A point's place in the sensor frame, in FP32 metres (R157, R168). -/
def RawPoint.place (p : RawPoint) : V3 :=
  if p.metric then ⟨f32 p.x.toNat, f32 p.y.toNat, f32 p.z.toNat⟩ else ⟨metres p.x, metres p.y, metres p.z⟩

/-- A point is lost for want of a pose (R167, R170). -/
def State.poseDrop (s : State) (p : RawPoint) : State :=
  (s.setCount p.set 0x0108 1 true).updCtx p.ctx (fun c => { c with poseDrops := c.poseDrops + 1 })

/-- The reference pose of a window is latched when a point finds it (R170). -/
def State.latchRef (s : State) (x : StreamSet) (k : Int) : State × Option (List DWord × Bool) :=
  match (x.window? k).bind (·.refPose) with
  | some r => (s, some r)
  | none =>
    match s.poseAt x.cfg.poseSource (x.cfg.start k) with
    | none => (s, none)
    | some (p, e) => (s.updSet x.num (fun x => (x.withWindow k).updWindow k (fun w => { w with refPose := some (p.bits, e) })),
                      some (p.bits, e))

/-- Points that the newest depth windows of a set hold (R174). -/
def StreamSet.held (x : StreamSet) (k : Int) : Nat :=
  let newest := x.windows.foldl (fun m w => max m w.k) k
  if k ≤ newest - x.cfg.depth then 0
  else x.windows.foldl (fun n w => if w.k > newest - x.cfg.depth then n + w.stored.length else n) 0

/-- A de-skewed point is stored in the point buffer and joins a batch, or is discarded when the buffer is full (R174, R175, R181). DESIGN
CHOICE: the buffer is filled round, a record after the other. -/
def State.storePoint (s : State) (set : Nat) (k : Int) (p : Point) : State :=
  match s.set? set with
  | none => s
  | some x =>
    if x.held k + 1 > x.cfg.maxPoints then
      let s := (s.setCount set 0x0109 1 true).updCtx p.ctx (fun c => { c with bufferDrops := c.bufferDrops + 1 })
      if ((x.window? k).map (·.full)).getD false then s
      else (s.updSet set (fun x => (x.withWindow k).updWindow k (fun w => { w with full := true }))).ingestEvent 0x0007 set
        (BitVec.ofInt 64 k)
    else
      let place := x.written % (3 * x.cfg.maxPoints)
      let s := (s.putHbm (x.cfg.buffer + 32 * place) p.bytes).updSet set (fun x =>
        { (x.withWindow k).updWindow k (fun w => { w with stored := w.stored ++ [place] }) with written := x.written + 1 })
      { s with ingest := { s.ingest with batches := addToBatch set k p s.time.uptime s.ingest.batches } }

/-- A point of a window that is open is moved to its window's frame (R167, R168, R170, R173). -/
def State.deskewPoint (s : State) (x : StreamSet) (p : RawPoint) (t k : Int) : State :=
  match s.latchRef x k with
  | (s, none) => s.poseDrop p
  | (s, some (ref, refExtra)) =>
    match s.poseAt x.cfg.poseSource t with
    | none => s.poseDrop p
    | some (pa, extra) =>
      let g (l : List Word) (i : Nat) : FVal := f32 (nth 0 l i).toNat
      let qe : Quat := ⟨g p.extQ 0, g p.extQ 1, g p.extQ 2, g p.extQ 3⟩
      let mv := moveOf qe ⟨g p.extT 0, g p.extT 1, g p.extT 2⟩ pa (poseOf ref)
      let ((px, py, pz), free) := mv.apply p.place s.free
      let s := { s with free := free }
      let s := if extra then
          (s.setCount p.set 0x010A 1 false).updCtx p.ctx (fun c => { c with extrapolated := c.extrapolated + 1 })
        else s
      s.storePoint x.num k
        { x := px, y := py, z := pz, dtUs := divRne (t - x.cfg.start k) 1000, intensity := p.intensity, beam := p.beam,
          ret := p.ret, sweep := 0, extrap := extra || refExtra, ctx := p.ctx }

/-- POINT_DESKEW: the oldest parsed point enters a de-skew pipeline (R162 to R174). -/
def execPointDeskew (s : State) : Host.Outcome State Fault Refusal :=
  answer s true (match s.ingest.deskew with
    | [] => s
    | p :: rest =>
      let s := { s with ingest := { s.ingest with deskew := rest } }
      let drop := (s.setCount p.set 0x0107 1 true).updCtx p.ctx (fun c => { c with windowDrops := c.windowDrops + 1 })
      match s.set? p.set with
      | none => drop
      | some x =>
        let k := x.cfg.window p.time
        if s.windowOpen x k then s.deskewPoint x p p.time k else drop)

/-! Batch timeouts, the start and the close of a window. -/

/-- Batches of a set changed. -/
def State.updBatches (s : State) (set : Nat) (p : Batch → Bool) (f : Batch → Batch) : State :=
  { s with ingest := { s.ingest with batches := updWhere s.ingest.batches (fun b => b.set == set && p b) f } }

/-- The open batch of a set whose first record came first. -/
def State.oldestOpen (s : State) (set : Nat) : Option Batch := s.ingest.batches.find? (fun b => b.set == set && !b.closed)

/-- batch_timeout_us as it acts (R186). -/
def State.batchUs (s : State) : Nat := min 1000 (max 1 (s.rdN Fld.siuCtrl_batch_timeout_us))

/-- BATCH_TIMEOUT: batch_timeout_us has passed since the first record of an open batch of the set: of the one that has been open
longest (R175). -/
def execBatchTimeout (set : Nat) (s : State) : Host.Outcome State Fault Refusal :=
  answer s true (match s.oldestOpen set with
    | none => s
    | some b =>
      if s.passed b.since (1000 * s.batchUs) then s.updBatches set (fun x => x == b) (fun x => { x with closed := true }) else s)

/-- WINDOW_START: a window of the set starts. New settings take effect, and accumulated sweeps are discarded (R183). -/
def execWindowStart (set : Nat) (s : State) : Host.Outcome State Fault Refusal :=
  answer s true (match s.set? set with
    | none => s
    | some x =>
      match x.next with
      | none => s
      | some cfg =>
        let s := s.updBatches set (fun b => !b.closed) (fun b => { b with closed := true })
        s.updSet set (fun x => { x with
          cfg := cfg, next := none, windows := [], written := 0, nextClose := some (cfg.window (s.leaf siuIsland).toNat) }))

/-- A list cut in pieces of n. -/
def pieces {α : Type} (n : Nat) (l : List α) : List (List α) :=
  (List.range (ceilDiv l.length n)).map (fun i => (l.drop (i * n)).take n)

/-- The records of a window in the point buffer. DESIGN CHOICE: one that has an uncorrectable error is not re-expressed (R174). -/
def State.storedPoints (s : State) (x : StreamSet) (w : Window) : State × List Point :=
  w.stored.foldl (fun (s, l) i =>
    match s.getHbm (s.ingestOrigin x.part x.num) (x.cfg.buffer + 32 * i) 32 with
    | (s, some b) => (s, l ++ [pointOf b])
    | (s, none) => (s, l)) (s, [])

/-- Points of an earlier window in the frame of window k (R172). -/
def State.reexpress (s : State) (x : StreamSet) (k : Int) (ref : List DWord × Bool) (w : Window) : State × List Point :=
  match w.refPose with
  | none => (s, [])
  | some (pj, _) =>
    let mv := moveBack (poseOf pj) (poseOf ref.1)
    let dt := floorDiv (x.cfg.start k - x.cfg.start w.k) 1000
    let (s, pts) := s.storedPoints x w
    pts.foldl (fun (s, acc) p =>
      let ((px, py, pz), n) := mv.apply ⟨metres p.x, metres p.y, metres p.z⟩ s.free
      ({ s with free := n },
        acc ++ [{ p with x := px, y := py, z := pz, dtUs := p.dtUs - dt, sweep := (k - w.k).toNat, extrap := p.extrap || ref.2 }])) (s, [])

/-- The re-expressed batches of a window that closes: the last is marked final (R172, R175). -/
def State.backBatches (s : State) (x : StreamSet) (k : Int) : State × List Batch :=
  match (x.window? k).bind (·.refPose) with
  | none => (s, [])
  | some ref =>
    let old := (List.range (x.cfg.depth - 1)).filterMap (fun (i : Nat) => x.window? (k - 1 - (i : Int)))
    let (s, pts) := old.foldl (fun (s, acc) w =>
      let (s, l) := s.reexpress x k ref w
      (s, acc ++ l)) (s, [])
    let ps := pieces 4096 pts
    let one (q : List Point × Nat) : Batch :=
      { set := x.num, window := k, reexpressed := true, points := q.1, final := decide (q.2 + 1 = ps.length), closed := true }
    (s, ps.zipIdx.map one)

/-- The open batch of a window that closes is marked final; without one an empty final batch is pushed at once (R175). -/
def finalLive (set : Nat) (k : Int) (bs : List Batch) : List Batch :=
  let isOpen (b : Batch) := b.set == set && b.window == k && !b.reexpressed && !b.closed
  if bs.any isOpen then updWhere bs isOpen (fun b => { b with final := true })
  else bs ++ [{ set := set, window := k, reexpressed := false, points := [], final := true, closed := true }]

/-- Window k closes (R164, R172, R175, R178, R181). -/
def State.closeWindow (s : State) (x : StreamSet) (k : Int) : State :=
  let x := x.withWindow k
  let (s, back) := s.backBatches x k
  let n := ((x.window? k).map (fun w => w.stored.length)).getD 0
  let x' := x.updWindow k (fun w => { w with
    isOpen := false, counts := x.acc, lost := x.lost, rePushed := back.isEmpty })
  let keep (w : Window) : Bool := decide (w.k + x.cfg.depth > k + 1)
  let x' := { x' with
    acc := [], lost := 0, nextClose := some (k + 1),
    windows := (updWhere x'.windows (fun w => !keep w) (fun w => { w with stored := [] })).filter (fun w =>
      keep w || !(w.ready && w.taken)) }
  let s := { s with ingest := { s.ingest with batches := finalLive x.num k s.ingest.batches ++ back } }
  (s.updSet x.num (fun _ => x')).ingestEvent 0x0004 x.num (BitVec.ofNat 64 n)

/-- WINDOW_CLOSE: the oldest window of the set that is not closed has reached its end plus the grace (R164). -/
def execWindowClose (set : Nat) (s : State) : Host.Outcome State Fault Refusal :=
  answer s true (match s.set? set with
    | none => s
    | some x =>
      match x.nextClose with
      | none => s
      | some k => if ((s.leaf siuIsland).toNat : Int) < x.cfg.closes k then s else s.closeWindow x k)

end Sys2Proof.Machine
end

