-- ==== Sys2Proof/Machine/Admission.lean ====
section
/-! DEFINITION. Admission control of a stream set's voxel tables (R211): the worst-case cell count, and the rule of each
partition. -/
namespace Sys2Proof.Machine

/-- ADMISSION (R221). -/
def stAdmission : Half := 0x0240

/-- A voxel grid: cell edges and the extent of the crop box in cells along each axis. -/
structure GridSize where
  v : List Nat
  cells : List Nat

/-- The extents of a grid given as twelve numbers (R212). -/
def gridSize (g : List Int) : GridSize :=
  let a (i : Nat) : Int := nth 0 g i
  { v := [(a 0).toNat, (a 1).toNat, (a 2).toNat], cells := [(a 7 - a 6).toNat, (a 9 - a 8).toNat, (a 11 - a 10).toNat] }

/-- What a table takes in: log2 of its slots, its Stems, x-strip partition, and its grid. -/
structure TableShape where
  log2 : Nat
  n : Nat
  xStrip : Bool
  grid : GridSize

/-- The declared contexts of a stream set, each with how often it counts: a template counts max_auto times, and stands for
the contexts it admits (R211). -/
def State.declared (s : State) (set : Nat) (more : List Ctx) : List (Ctx × Nat) :=
  let auto := ((s.set? set).map (fun x => x.cfg.maxAuto)).getD 0
  ((s.ingest.ctxs ++ more).filter (fun c => c.set == set && !c.auto)).map (fun c => (c, if c.template then auto else 1))

/-- The worst-case cell count W (R211). -/
def worstCells (cfg : SetCfg) (cs : List (Ctx × Nat)) (g : GridSize) : Nat :=
  let vx := max 1 (nth 1 g.v 0)
  let vy := max 1 (nth 1 g.v 1)
  let vz := max 1 (nth 1 g.v 2)
  let c1 := min cfg.maxPoints (cs.foldl (fun n c => n + c.1.maxPoints * c.2) 0 * cfg.depth)
  let box (c : Ctx) : Nat :=
    (ceilDiv (2 * c.maxRangeMm) vx + 1) * (ceilDiv (2 * c.maxRangeMm) vy + 1) * (ceilDiv (2 * c.maxRangeMm) vz + 1)
  let c2 := cs.foldl (fun n c => n + box c.1 * c.2) 0
  let c3 := nth 0 g.cells 0 * nth 0 g.cells 1 * nth 0 g.cells 2
  min (min c1 c2) c3

/-- The smallest number whose square is at least x. -/
def ceilSqrt (x : Nat) : Nat := let r := isqrt x; if r * r = x then r else r + 1

/-- Whether W cells fit a table (R211): under hash partition the margin is k times the square root of the mean load. -/
def fits (k : Nat) (t : TableShape) (w : Nat) : Bool :=
  let half := 2 ^ t.log2 / t.n / 2
  if t.xStrip then decide (w ≤ half) else decide (ceilDiv w t.n + ceilSqrt (ceilDiv (k * k * w) t.n) ≤ half)

/-- The geometry of a table as twelve numbers, in the order of a stream set's grid (R212). -/
def TableCfg.grid (c : TableCfg) : List Int := c.voxel.map (fun (v : Nat) => (v : Int)) ++ c.origin ++ c.crop

/-- A table on a stream set's own grid, where the set has one (R213). -/
def TableCfg.onGrid (c : TableCfg) : Option (List Int) → TableCfg
  | none => c
  | some g => { c with voxel := (g.take 3).map Int.toNat, origin := (g.drop 3).take 3, crop := (g.drop 6).take 6 }

/-- What a table takes in, by what fixed it. -/
def TableCfg.shape (c : TableCfg) : TableShape := { log2 := c.log2, n := max 1 c.n, xStrip := c.xStrip, grid := gridSize c.grid }

/-- The shapes of a package's tables on a stream set: the set's own grid, where it has one, takes the place of the
package's (R213). -/
def packageShapes (p : Package) (grid : Option (List Int)) : List TableShape := p.tables.map (fun t => (t.onGrid grid).shape)

/-- The tables that take the points of a RUN: the first ones that firmware allocated for it. -/
def State.inputTables (s : State) (r : Run) : List Nat :=
  match s.queues.packages.find? (fun p => p.part == r.part && p.handle == r.handle) with
  | some p => r.tables.take p.tables.length
  | none => []

/-- The tables that a stream set feeds: those its route names, and those of the RUNs on it. -/
def State.setTables (s : State) (set : Nat) : List TableShape :=
  match s.set? set with
  | none => []
  | some x =>
    let fed := (x.cfg.route.map routeTables).getD [] ++ (s.queues.runs.filter (fun r => r.set == set)).flatMap s.inputTables
    (s.compute.tables.filter (fun t => fed.contains t.id)).map (fun t => t.cfg.shape)

/-- W for some tables, and whether every one of them takes it. -/
def State.admission (s : State) (set : Nat) (more : List Ctx) (ts : List TableShape) : Nat × Bool :=
  match s.set? set with
  | none => (0, true)
  | some x =>
    let cs := s.declared set more
    let k := s.rdN Fld.vheCtrl_adm_k
    let w (t : TableShape) : Nat := worstCells x.cfg cs t.grid
    (ts.foldl (fun m t => max m (w t)) 0, ts.all (fun t => fits k t (w t)))

/-- The detail of ADMISSION where a stream set with some more contexts does not fit its tables: W, saturating. -/
def State.admissionFault (s : State) (set : Nat) (more : List Ctx) : Option Word :=
  let (w, ok) := s.admission set more (s.setTables set)
  if ok then none else some (satDetail w)

end Sys2Proof.Machine
end

