-- ==== Sys2Proof/Machine/Voxel.lean ====
section
/-! DEFINITION. The Voxel Hash Engines (R188 to R210): keys, hash and probes, slots, accumulation rows, inserts, replicas and
the insert queues. -/
namespace Sys2Proof.Machine

/-! Statuses (R221). -/
def stTableOverflow : Half := 0x0201
def stCropDrops : Half := 0x0202
def stHaloIncomplete : Half := 0x0203
def stStalePoints : Half := 0x0204
def stTableAbsent : Half := 0x0241
def stTableState : Half := 0x0242
def stTableExists : Half := 0x0243
def stPlacement : Half := 0x0244
def stTableFailed : Half := 0x0245

/-! Keys (R189, R190). -/

/-- The indices of a point's cell. -/
def TableCfg.cellOf (c : TableCfg) (x y z : Int) : Int × Int × Int :=
  let f (p : Int) (i : Nat) : Int := floorDiv (p - nth 0 c.origin i) (nth 1 c.voxel i : Nat)
  (f x 0, f y 1, f z 2)

/-- Whether a cell lies in the crop box. -/
def TableCfg.inCrop (c : TableCfg) (i : Int × Int × Int) : Bool :=
  let b (k : Nat) : Int := nth 0 c.crop k
  decide (b 0 ≤ i.1) && decide (i.1 < b 1) && decide (b 2 ≤ i.2.1) && decide (i.2.1 < b 3) && decide (b 4 ≤ i.2.2)
    && decide (i.2.2 < b 5)

/-- The 64-bit key of a cell. -/
def cellKey (batch : Nat) (i : Int × Int × Int) : Nat :=
  ofSigned 22 i.1 + 2 ^ 22 * ofSigned 22 i.2.1 + 2 ^ 44 * ofSigned 14 i.2.2 + 2 ^ 58 * (batch % 64)

/-- The batch value and the cell of a key. -/
def keyBatch (k : Nat) : Nat := getBits k 58 6
def keyCell (k : Nat) : Int × Int × Int :=
  (toSigned 22 (getBits k 0 22), toSigned 22 (getBits k 22 22), toSigned 14 (getBits k 44 14))

/-! Hash, owner and probe sequence (R191). -/

/-- The hash of a key. -/
def keyHash (k : Nat) : Nat := k * 0x9E3779B97F4A7C15 % 2 ^ 64

/-- Slots and buckets of a Stem's subtable (R188). -/
def TableCfg.subSlots (c : TableCfg) : Nat := 2 ^ c.log2 / c.n
def TableCfg.buckets (c : TableCfg) : Nat := c.subSlots / 8

/-- The Stems of a table, in ring order from first_stem. -/
def TableCfg.stems (c : TableCfg) : List Nat := (List.range c.n).map (fun k => (c.firstStem + k) % 4)

/-- The part of a table that owns a key (R191). -/
def TableCfg.partOf (c : TableCfg) (k : Nat) : Nat :=
  if c.xStrip then
    (clampInt 0 (c.n - 1 : Nat) (floorDiv ((keyCell k).1 - c.stripBase) c.stripWidth)).toNat
  else getBits (keyHash k) 24 2 % c.n

/-- The owning Stem and the engine of a key. -/
def TableCfg.owner (c : TableCfg) (k : Nat) : Nat := (c.firstStem + c.partOf k) % 4
def keyEngine (k : Nat) : Nat := getBits (keyHash k) 16 2

/-- The 64 probes of a key in a subtable: bucket and slot. -/
def TableCfg.probes (c : TableCfg) (k : Nat) : List (Nat × Nat) :=
  let h := keyHash k
  let lb := Nat.log2 c.buckets
  let b0 := h >>> (64 - lb)
  let j0 := getBits h (61 - lb) 3
  (List.range 8).flatMap (fun i => (List.range 8).map (fun j => ((b0 + i * (i + 1) / 2) % c.buckets, (j0 + j) % 8)))

/-! Placement (R197, R198, R200). -/

/-- Channels of a row, and its size (R200). -/
def TableCfg.split (c : TableCfg) : Bool := c.reduce == 4
def TableCfg.channels (c : TableCfg) : Nat := if c.split then c.cIn * c.splitDepth else c.cIn
def TableCfg.rowHead (c : TableCfg) : Nat := if c.split then 36 else 4
def TableCfg.rowBytes (c : TableCfg) : Nat := 16 * ceilDiv (c.rowHead + 4 * c.channels) 16

/-- The address of a slot. -/
def TableCfg.slotAddr (c : TableCfg) (stem bucket slot : Nat) : Nat :=
  if c.inHbm then c.base + bucket * 128 + slot * 16
  else regionAddr stem c.slots.t0 c.slots.m c.slots.offset 128 bucket + slot * 16

/-- The address of an accumulation row. -/
def TableCfg.rowAddr (c : TableCfg) (stem i : Nat) : Nat :=
  if c.inHbm then c.accBase + i * c.rowBytes else regionAddr stem c.acc.t0 c.acc.m c.acc.offset c.rowBytes i

/-! Slots (R195). -/

/-- A slot's fields. -/
structure Slot where
  key : Nat
  index : Nat
  owner : Nat
  replica : Bool
  epoch : Nat
  mask : Nat
  count : Nat

/-- The slot of 16 bytes. -/
def slotOf (b : List Byte) : Slot :=
  let w := leAt b 8 4
  { key := leAt b 0 8, index := getBits w 0 22, owner := getBits w 22 2, replica := w.testBit 24, epoch := getBits w 25 7,
    mask := leAt b 12 2, count := leAt b 14 2 }

/-- The 16 bytes of a slot. -/
def Slot.bytes (x : Slot) : List Byte :=
  natToBytes 8 x.key ++ natToBytes 4 (x.index % 2 ^ 22 + 2 ^ 22 * x.owner + (if x.replica then 2 ^ 24 else 0) + 2 ^ 25 * x.epoch)
    ++ natToBytes 2 x.mask ++ natToBytes 2 x.count

/-- A site's ID (R195). -/
def Slot.site (x : Slot) : Nat := x.owner * 2 ^ 22 + x.index

/-! Access. -/

/-- What a probe sequence meets: the slot that holds the key, a slot that is not valid in the epoch, or neither. -/
inductive Found where
  | hit (addr : Nat) (slot : Slot)
  | empty (addr : Nat)
  | full

/-- The probes of a key in order, up to the key's slot or a slot not valid in the epoch (R192): what was met, and the
number of probes made. -/
def State.probe (s : State) (o : Origin) (t : Table) (stem key : Nat) : List (Nat × Nat) → Nat → State × Except AccErr (Found × Nat)
  | [], n => (s, .ok (.full, n))
  | (b, j) :: r, n =>
    let a := t.cfg.slotAddr stem b j
    match s.load o a 16 with
    | (s, .error e) => (s, .error e)
    | (s, .ok d) =>
      let x := slotOf d
      if x.epoch ≠ t.epoch then (s, .ok (.empty a, n + 1))
      else if x.key = key then (s, .ok (.hit a x, n + 1))
      else s.probe o t stem key r (n + 1)

/-- A key looked up in a subtable, its probes counted (R222). -/
def State.findKey (s : State) (o : Origin) (cmd : Option Nat) (t : Table) (stem key : Nat) (insert : Bool) :
    State × Except AccErr (Found × Nat) :=
  match s.probe o t stem key (t.cfg.probes key) 0 with
  | (s, .error e) => (s, .error e)
  | (s, .ok (f, n)) =>
    let s := s.count Fld.vheStemProbes_probes n stem
    let s := if insert then
        let s := if n > s.rdN Fld.vheStemMaxprobe_max_probe stem then s.wrN Fld.vheStemMaxprobe_max_probe n stem else s
        s.tallyFor cmd t.id (vheUnit stem (keyEngine key)) 0x0208 n
      else s
    (s, .ok (f, n))

/-! Input channels (R199). -/

/-- An FP32 value that is a quotient of an integer, rounded once. -/
def fpQuot (a : Int) (b : Nat) : FVal := fp32.round (fp32.div (FVal.ofInt a) (FVal.ofInt b))

/-- The value of a source code for a point of a cell, as an FP32 pattern. -/
def TableCfg.source (c : TableCfg) (code : Nat) (p : Point) (cell : Int × Int × Int) : Nat :=
  let centre (x : Int) (i : Nat) (k : Int) : FVal :=
    let v : Int := (nth 1 c.voxel i : Nat)
    fpQuot (2 * x - (2 * (nth 0 c.origin i + k * v) + v)) 2000
  fp32.enc (match code with
    | 0x1 => fpQuot p.x 1000
    | 0x2 => fpQuot p.y 1000
    | 0x3 => fpQuot p.z 1000
    | 0x4 => centre p.x 0 cell.1
    | 0x5 => centre p.y 1 cell.2.1
    | 0x6 => centre p.z 2 cell.2.2
    | 0x7 => fp32.round (FVal.ofInt p.intensity)
    | 0x8 => fpQuot p.dtUs 1000000
    | 0x9 => FVal.ofInt p.sweep
    | 0xA => FVal.ofInt p.ret
    | 0xB => FVal.ofInt p.beam
    | 0xC => FVal.ofInt 1
    | _ => .fin false 0 0)

/-- The input channels of a point. -/
def TableCfg.inputs (c : TableCfg) (p : Point) (cell : Int × Int × Int) : List Nat :=
  (List.range c.cIn).map (fun k => c.source (getBits c.sources (4 * k) 4) p cell)

/-! Accumulation rows (R200, R201). -/

/-- A row: count, group counts, and FP32 channels. -/
structure AccRow where
  count : Nat
  groups : List Nat
  chans : List Nat

/-- An empty row of a table. -/
def TableCfg.emptyRow (c : TableCfg) : AccRow := ⟨0, List.replicate 16 0, List.replicate c.channels 0⟩

/-- The row of some bytes. -/
def TableCfg.rowOf (c : TableCfg) (b : List Byte) : AccRow :=
  { count := leAt b 0 4
    groups := (List.range 16).map (fun g => if c.split then leAt b (4 + 2 * g) 2 else 0)
    chans := (List.range c.channels).map (fun k => leAt b (c.rowHead + 4 * k) 4) }

/-- The bytes of a row. -/
def TableCfg.rowData (c : TableCfg) (r : AccRow) : List Byte :=
  slice (natToBytes 4 r.count ++ (if c.split then r.groups.flatMap (natToBytes 2) else []) ++ r.chans.flatMap (natToBytes 4)) 0
    c.rowBytes

/-- FP32 addition and maximum on patterns. -/
def addPat (a b : Nat) : Nat := fp32.enc (add32 (f32 a) (f32 b))
def maxPat (a b : Nat) : Nat := if (f32 a).lt (f32 b) then b else a

/-- Channels combined from a place on by a function. -/
def mergeAt (l : List Nat) (base : Nat) (vs : List Nat) (f : Nat → Nat → Nat) : List Nat :=
  vs.zipIdx.foldl (fun l v => l.set (base + v.2) (f (nth 0 l (base + v.2)) v.1)) l

/-- How channels combine: 0 mean and 2 sum add, 1 takes the maximum, 3 keeps the first (R201). -/
def TableCfg.how (c : TableCfg) : Nat := if c.split then c.splitOp else c.reduce

/-- A point counts in its row; whether its channels begin a row or group, update one, or none (R200), and the place of its
channels. -/
inductive PointRole where
  | begins (base : Nat)
  | updates (base : Nat)
  | countsOnly

/-- The row with a point counted, and the point's role. -/
def TableCfg.countPoint (c : TableCfg) (r : AccRow) (sweep : Nat) (fresh : Bool) : AccRow × PointRole :=
  let r := { r with count := satTo 32 (r.count + 1) }
  if c.split then
    if sweep ≥ c.splitDepth then (r, .countsOnly)
    else
      let g := nth 0 r.groups sweep
      ({ r with groups := r.groups.set sweep (satTo 16 (g + 1)) }, if g = 0 then .begins (sweep * c.cIn) else .updates (sweep * c.cIn))
  else (r, if fresh then .begins 0 else .updates 0)

/-! Inserts. -/

/-- A partial sum that a combining cache holds (R207): Stem, cell index, the place of its channels, and their sums. -/
structure Partial where
  stem : Nat
  index : Nat
  base : Nat
  sums : List Nat

/-- What an insert needs: the origin of its accesses, its command, its table and its batch value. -/
structure InsertOf where
  o : Origin
  cmd : Option Nat
  table : Nat
  batch : Nat

/-- A partial sum is added to its row. -/
def State.flushPartial (s : State) (o : Origin) (t : Table) (p : Partial) : State × Option AccErr :=
  let a := t.cfg.rowAddr p.stem p.index
  match s.load o a t.cfg.rowBytes with
  | (s, .error e) => (s, some e)
  | (s, .ok b) =>
    let r := t.cfg.rowOf b
    s.store o a (t.cfg.rowData { r with chans := mergeAt r.chans p.base p.sums addPat })

/-- Partial sums are added one after the other. -/
def State.flushPartials (s : State) (o : Origin) (t : Table) : List Partial → State × Option AccErr
  | [] => (s, none)
  | p :: r =>
    match s.flushPartial o t p with
    | (s, some e) => (s, some e)
    | (s, none) => s.flushPartials o t r

/-- Whether channels of an update may pass through the combining cache: sums, with the cache on; a free choice. -/
def State.chooseCombine (s : State) (t : Table) : Bool × State :=
  if (t.cfg.how == 0 || t.cfg.how == 2) && s.rdB Fld.vheCtrl_combine_enable then
    let (k, s) := s.choose 2
    (k == 1, s)
  else (false, s)

/-- A value joins the partial sum of its cell. -/
def addPartial (stem index base : Nat) (vs : List Nat) : List Partial → List Partial
  | [] => [⟨stem, index, base, vs⟩]
  | p :: r =>
    if p.stem = stem ∧ p.index = index ∧ p.base = base then { p with sums := mergeAt p.sums 0 vs addPat } :: r
    else p :: addPartial stem index base vs r

/-- The Stem across the border that a cell's replica goes to (R193). -/
def TableCfg.replicaStem (c : TableCfg) (ix : Int) : Option Nat :=
  if !c.xStrip ∨ c.halo = 0 then none
  else (List.range (c.n - 1)).findSome? (fun i =>
    let border : Int := c.stripBase + ((i + 1) * c.stripWidth : Nat)
    if border - c.halo ≤ ix ∧ ix < border then some ((c.firstStem + i + 1) % 4)
    else if border ≤ ix ∧ ix < border + c.halo then some ((c.firstStem + i) % 4)
    else none)

/-- The replica of a new cell is placed across the border, or refused (R193, R194). What its sweep mask and count hold is
a value that the spec does not state. -/
def State.placeReplica (s : State) (i : InsertOf) (t : Table) (x : Slot) : State × Option AccErr :=
  match t.cfg.replicaStem (keyCell x.key).1 with
  | none => (s, none)
  | some stem =>
    match s.findKey i.o i.cmd t stem x.key true with
    | (s, .error e) => (s, some e)
    | (s, .ok (.hit _ _, _)) => (s, none)
    | (s, .ok (.empty a, _)) =>
      let (w, s) := s.draw
      s.store i.o a ({ x with replica := true, mask := getBits w.toNat 0 16, count := getBits w.toNat 16 16 } : Slot).bytes
    | (s, .ok (.full, _)) =>
      let s := s.tallyFor i.cmd t.id (vheUnit stem (keyEngine x.key)) 0x0207 1
      (s.updTable t.id (fun t => { t with
        haloIncomplete := true
        counts := { t.counts with haloRefused := t.counts.haloRefused + 1, haloMask := setBit t.counts.haloMask stem } }), none)

/-- A point of a refused cell is discarded (R209). -/
def State.refusePoint (s : State) (i : InsertOf) (t : Table) (unit : Nat) (exhausted : Bool) : State :=
  let s := s.tallyFor i.cmd t.id unit 0x0202 1
  let s := if exhausted then s.tallyFor i.cmd t.id unit 0x0203 1 else s
  s.updTable t.id (fun t => { t with
    overflowed := true
    counts := { t.counts with
      pointsRefused := t.counts.pointsRefused + 1
      probeExhausted := t.counts.probeExhausted + (if exhausted then 1 else 0) } })

/-- A point is counted as inserted (R222). -/
def State.insertedPoint (s : State) (i : InsertOf) (stem unit : Nat) : State :=
  (s.tallyFor i.cmd i.table unit 0x0200 1).count Fld.vheStemInserts_inserts 1 stem

/-- A point's first insert into a cell creates it: its index, its slot, its row and its replica (R192, R193, R196). -/
def State.createCell (s : State) (i : InsertOf) (t : Table) (stem unit key addr : Nat) (p : Point) : State × Option AccErr :=
  let ix := nth 0 t.cells stem
  let x : Slot := { key := key, index := ix, owner := stem, replica := false, epoch := t.epoch, mask := 2 ^ p.sweep, count := 1 }
  let (r, role) := t.cfg.countPoint t.cfg.emptyRow p.sweep true
  let vs := t.cfg.inputs p (keyCell key)
  let r := match role with
    | .begins b | .updates b => { r with chans := mergeAt r.chans b vs (fun _ v => v) }
    | .countsOnly => r
  match s.store i.o addr x.bytes with
  | (s, some e) => (s, some e)
  | (s, none) =>
    match s.store i.o (t.cfg.rowAddr stem ix) (t.cfg.rowData r) with
    | (s, some e) => (s, some e)
    | (s, none) =>
      let s := s.updTable t.id (fun t => { t with cells := t.cells.set stem (ix + 1) })
      ((s.tallyFor i.cmd t.id unit 0x0201 1).insertedPoint i stem unit).placeReplica i t x

/-- A later point of a cell updates slot and row; its sums may wait in a combining cache (R195, R201, R207). -/
def State.updateCell (s : State) (i : InsertOf) (t : Table) (stem unit addr : Nat) (x : Slot) (p : Point) (ps : List Partial) :
    State × Option AccErr × List Partial :=
  let ra := t.cfg.rowAddr stem x.index
  match s.load i.o ra t.cfg.rowBytes with
  | (s, .error e) => (s, some e, ps)
  | (s, .ok b) =>
    let (r, role) := t.cfg.countPoint (t.cfg.rowOf b) p.sweep false
    let vs := t.cfg.inputs p (keyCell x.key)
    let (comb, s) := s.chooseCombine t
    let (r, ps) := match role with
      | .begins b => ({ r with chans := mergeAt r.chans b vs (fun _ v => v) }, ps)
      | .updates b =>
        if t.cfg.how = 1 then ({ r with chans := mergeAt r.chans b vs maxPat }, ps)
        else if t.cfg.how = 3 then (r, ps)
        else if comb then (r, addPartial stem x.index b vs ps)
        else ({ r with chans := mergeAt r.chans b vs addPat }, ps)
      | .countsOnly => (r, ps)
    let s := if comb then s.count Fld.vheStemCombined_combined 1 stem else s
    match s.store i.o ra (t.cfg.rowData r) with
    | (s, some e) => (s, some e, ps)
    | (s, none) =>
      let (s, e) := s.store i.o addr ({ x with mask := x.mask ||| 2 ^ p.sweep, count := satTo 16 (x.count + 1) } : Slot).bytes
      (s.insertedPoint i stem unit, e, ps)

/-- One point is inserted (R189, R192, R209). -/
def State.insertPoint (s : State) (i : InsertOf) (p : Point) (ps : List Partial) : State × Option AccErr × List Partial :=
  match s.table? i.table with
  | none => (s, none, ps)
  | some t =>
    let cell := t.cfg.cellOf p.x p.y p.z
    if !t.cfg.inCrop cell then
      let s := s.tallyFor i.cmd t.id (vheUnit t.cfg.firstStem 0) 0x0204 1
      (s.updTable t.id (fun t => { t with counts := { t.counts with cropDrops := t.counts.cropDrops + 1 } }), none, ps)
    else
      let key := cellKey i.batch cell
      let stem := t.cfg.owner key
      let unit := vheUnit stem (keyEngine key)
      let s := match i.cmd with | some id => s.serve id unit | none => s
      match s.findKey i.o i.cmd t stem key true with
      | (s, .error e) => (s, some e, ps)
      | (s, .ok (.full, _)) => (s.refusePoint i t unit true, none, ps)
      | (s, .ok (.empty a, _)) =>
        if nth 0 t.cells stem ≥ t.cfg.maxCells then (s.refusePoint i t unit false, none, ps)
        else
          let (s, e) := s.createCell i t stem unit key a p
          (s, e, ps)
      | (s, .ok (.hit a x, _)) => s.updateCell i t stem unit a x p ps

/-- The points of a chunk are inserted in an order that the engines choose (R201); sums that combining caches still hold
join their rows at the end. An access that fails ends the chunk: what is left of it is answered too. -/
def State.insertAll (s : State) (i : InsertOf) : Nat → List Point → List Partial → State × Option AccErr × Nat
  | 0, l, ps =>
    match s.table? i.table with
    | none => (s, none, l.length)
    | some t =>
      let (s, e) := s.flushPartials i.o t ps
      (s, e, l.length)
  | n + 1, l, ps =>
    let (k, s) := s.choose l.length
    match l[k]? with
    | none => s.insertAll i n l ps
    | some p =>
      match s.insertPoint i p ps with
      | (s, some e, _) => (s, some e, l.length)
      | (s, none, ps) => s.insertAll i n (l.eraseIdx k) ps

/-! The insert queue (R203 to R206, R208). -/

/-- The first batch of a table's queue has left it. -/
def State.popBatch (s : State) (t : Nat) : State :=
  s.updTable t (fun t => { t with queue := t.queue.drop 1, done := t.done + 1 })

/-- Whether an order holds back the batch at the head of the queue: batches that came after it wait for it. -/
def Table.barred (t : Table) : Bool := match t.orders with | [] => false | o :: _ => decide (o.batchesBefore ≤ t.done)

/-- Whether the batch at the head waits for a clear (R204, R205). -/
def Table.headHeld (t : Table) : Bool :=
  match t.queue with
  | [] => false
  | b :: _ => t.state == .final || t.state == .clearing ||
    (match b.window, t.frameTag with | some w, some g => t.state == .filling && decide (g < w) | _, _ => false)

/-- An insert command ends, and its batches leave the queue (R206). -/
def State.endInsert (s : State) (t : Table) (id : Nat) (st : Half) (detail : Word) : State :=
  let mine := t.queue.filter (fun b => b.cmd == some id)
  let s := s.failPoints t (some id) (mine.foldl (fun n b => n + b.points.length) 0)
  (s.updTable t.id (fun t => { t with
    queue := t.queue.filter (fun b => b.cmd != some id), done := t.done + mine.length
    inserts := t.inserts.filter (fun i => i.1 != id) })).finish id st detail

/-- VHE_BATCH_ACCEPT: the batch at the head of the queue is taken for insertion, discarded, or held (R204 to R206). -/
def State.acceptBatch (s : State) (t : Table) (b : QBatch) : State :=
  let take (tag : Option Int) : State := s.updTable t.id (fun t => { t with
    state := .filling, frameTag := tag, queue := updAt t.queue 0 (fun b => { b with accepted := true }) })
  if b.accepted || t.barred then s
  else match t.state with
    | .final | .clearing => s
    | .failed =>
      match b.cmd with
      | some id => s.endInsert t id stTableFailed (BitVec.ofNat 32 t.id)
      | none => (s.failPoints t none b.points.length).popBatch t.id
    | .empty | .filling =>
      match b.window with
      | none => if t.heldBy.isSome then s else take t.frameTag
      | some w =>
        if t.heldBy.isSome then s
        else match t.frameTag with
        | none => take (some w)
        | some g =>
          if w = g then take (some g)
          else if g < w then s
          else
            let s := s.tallyFor none t.id (vheUnit t.cfg.firstStem 0) 0x0205 b.points.length
            (s.updTable t.id (fun t => { t with counts := { t.counts with
              stalePoints := t.counts.stalePoints + b.points.length } })).popBatch t.id

/-- VHE_BATCH_ACCEPT (R205). -/
def execVheBatchAccept (table : Nat) (s : State) : Host.Outcome State Fault Refusal :=
  answer s true (match s.table? table with
    | none => s
    | some t => match t.queue with | [] => s | b :: _ => s.acceptBatch t b)

/-- A total of some counts of one code. -/
def countTotal (l : List CountEntry) (code : Nat) : Nat := l.foldl (fun n e => if e.code = code then n + e.value.toNat else n) 0

/-- The Stems that refused a replica, from some counts (R221). -/
def haloMaskOf (l : List CountEntry) : Nat :=
  l.foldl (fun m e => if e.code = 0x0207 ∧ e.value ≠ 0 then setBit m (getBits e.unit 10 2) else m) 0

/-- The condition that inserts with some counts have met (R210, R221). -/
def insertStatus (l : List CountEntry) : Half × Word :=
  let one (st : Half) (code : Nat) : List (Half × Word) :=
    if countTotal l code ≠ 0 then [(st, satDetail (countTotal l code))] else []
  leastCode (one stTableOverflow 0x0202 ++ one stCropDrops 0x0204
    ++ (if haloMaskOf l ≠ 0 then [(stHaloIncomplete, BitVec.ofNat 32 (haloMaskOf l))] else []) ++ one stStalePoints 0x0205)

/-- Where a batch's accesses come from: its command, or the ingest of the stream sets that route to the table. -/
def State.batchOrigin (s : State) (t : Table) (b : QBatch) : Origin :=
  match b.cmd.bind s.cmd? with
  | some c => c.origin
  | none => s.ingestOrigin t.part b.set

/-- VHE_CHUNK: the engines insert the accepted batch, a chunk of up to 4,096 records, whole (R206, R208). -/
def execVheChunk (table : Nat) (s : State) : Host.Outcome State Fault Refusal :=
  answer s true (match s.table? table with
    | none => s
    | some t =>
      match t.queue with
      | [] => s
      | b :: _ =>
        if !b.accepted then s
        else
          let i : InsertOf := { o := s.batchOrigin t b, cmd := b.cmd, table := table, batch := b.batch }
          let (s, e, left) := s.insertAll i b.points.length b.points []
          let s := (s.popBatch table).committed b.cmd (vheUnit t.cfg.firstStem 0) t.done
          match e with
          | some e =>
            let s := (s.updTable table (fun t => { t with state := .failed })).failPoints t b.cmd left
            (match b.cmd, s.table? table with
             | some id, some t => s.endInsert t id e.status e.detail
             | _, _ => s)
          | none =>
            let s := if b.final then s.updTable table (fun t => { t with finalSeen := true }) else s
            match b.cmd.bind s.cmd? with
            | some c => if b.last then s.finish c.id (insertStatus c.counts).1 (insertStatus c.counts).2 else s
            | none => s)

/-- Whether one of the Stems that serve a table is not ON (R545). -/
def State.stemsOff (s : State) (c : TableCfg) : Bool := c.stems.any (fun j => !s.stemOn j)

/-- The queue of a table is reset: it empties, its points and commands fail, and the table is FAILED (R206, R480). -/
def State.resetInsertQueue (s : State) (t : Table) : State :=
  let ids := (t.queue.filterMap (·.cmd)).eraseDups
  let n := t.queue.foldl (fun n b => if b.cmd.isNone then n + b.points.length else n) 0
  let s := s.failPoints t none n
  let s := s.updTable t.id (fun t => { t with state := .failed })
  let s := ids.foldl (fun s id => match s.table? t.id with | some t => s.endInsert t id stQueueReset 0 | none => s) s
  (s.updTable t.id (fun t => { t with queue := [], done := t.accepted, acceptedCopy := t.accepted })).queueReset
    (vheUnit t.cfg.firstStem 0) { source := 0x16, part := some t.part, logical := t.id }

/-- A batch joins a table's queue, where there is credit for it. A disagreement of the queue's counts resets it (R203,
R480). -/
def State.pushBatch (s : State) (t : Table) (b : QBatch) : State × Bool :=
  if t.accepted ≠ t.acceptedCopy then (s.resetInsertQueue t, false)
  else if t.queue.length ≥ 64 then (s, false)
  else (s.updTable t.id (fun t => { t with
    queue := t.queue ++ [b], accepted := t.accepted + 1, acceptedCopy := t.acceptedCopy + 1 }), true)

/-! BATCH_PUSH. -/

/-- Where the points of a window of a stream set go. -/
inductive PointsTo where
  /-- To the insert queue of a table. -/
  | table (t : Nat)
  /-- Nowhere: what runs on the set takes no points. -/
  | nowhere
  /-- They wait until something takes them (R176). -/
  | waits
  deriving DecidableEq

/-- Where the points of window k go: where the set's route names (R203), or, where firmware sets it, to the tables of the first RUN on
the set that takes points: windows alternate between two (R184, R188). -/
def State.pointsTo (s : State) (x : StreamSet) (k : Int) : PointsTo :=
  match x.cfg.route with
  | some r => .table (if r.testBit 12 && k % 2 != 0 then getBits r 6 6 else getBits r 0 6)
  | none =>
    let runs := s.queues.runs.filter (fun r => r.set == x.num)
    match (runs.map s.inputTables).find? (fun l => !l.isEmpty) with
    | some ts => .table (nth 0 ts (k % ts.length).toNat)
    | none => if runs.isEmpty then .waits else .nowhere

/-- Where a batch goes, by its stream set. -/
def State.batchTo (s : State) (b : Batch) : PointsTo := match s.set? b.set with | some x => s.pointsTo x b.window | none => .waits

/-- Whether a closed batch can leave: its queue has credit, and a re-expressed one leaves no live one behind, neither of its own window
nor one that is ready for the same queue (R175, R176). -/
def State.canPush (s : State) (b : Batch) : Bool :=
  b.closed && (match s.batchTo b with
    | .waits => false
    | .nowhere => true
    | .table t => (match s.table? t with | some t => t.accepted != t.acceptedCopy || decide (t.queue.length < 64) | none => false))
  && (!b.reexpressed || !s.ingest.batches.any (fun y => !y.reexpressed
    && ((y.set == b.set && y.window == b.window) || (y.closed && s.batchTo y == s.batchTo b))))

/-- The batch of a set that is pushed next: live points before re-expressed ones (R176). -/
def State.nextBatch (s : State) (set : Nat) : Option Batch :=
  let mine := s.ingest.batches.filter (fun b => b.set == set && s.canPush b)
  (mine.find? (fun b => !b.reexpressed)).or mine.head?

/-- A batch has left for its queue: its window's points are pushed when it was marked final (R177). -/
def State.batchGone (s : State) (b : Batch) : State :=
  let s := { s with ingest := { s.ingest with batches := s.ingest.batches.erase b } }
  if b.final then
    s.updSet b.set (fun x => x.updWindow b.window (fun w =>
      if b.reexpressed then { w with rePushed := true } else { w with livePushed := true }))
  else s

/-- Whether a batch is the one marked final for its frame: the last of its re-expressed points, or of its live points where
it has no others (R175). -/
def State.frameFinal (s : State) (b : Batch) : Bool :=
  b.final && (b.reexpressed || !s.ingest.batches.any (fun x => x.set == b.set && x.window == b.window && x.reexpressed))

/-- BATCH_PUSH: a batch of a stream set moves to its insert queue (R175, R176, R203). -/
def execBatchPush (set : Nat) (s : State) : Host.Outcome State Fault Refusal :=
  answer s true (match s.nextBatch set with
    | none => s
    | some b =>
      match s.batchTo b with
      | .waits => s
      | .nowhere => s.batchGone b
      | .table t =>
        match s.table? t with
        | none => s
        | some t =>
          let q : QBatch := { window := some b.window, final := s.frameFinal b, points := b.points, batch := t.cfg.batch,
                              set := set, cmd := none, last := false }
          let (s, ok) := s.pushBatch t q
          if ok then s.batchGone b else s)

end Sys2Proof.Machine
end

