-- ==== Sys2Proof/Machine/TileWork.lean ====
section
/-! DEFINITION. Work items on the tiles (R87 to R89, R243, R274 to R280, R285, R479): which tile takes one, the accumulator file
and its image, the end of a pass, and the epilogue's rows. -/
namespace Sys2Proof.Machine

/-! Statuses (R287). -/
def stAccSaturated : Half := 0x0401
def stOutSaturated : Half := 0x0402
def stNonfinite : Half := 0x0403
def stMetadata : Half := 0x0440
def stFormatPair : Half := 0x0441
def stTilePlacement : Half := 0x0442

/-! Tiles. -/

/-- Whether a logical tile is lost (R470). -/
def State.tileLost (s : State) (stem tile : Nat) : Bool := s.bark.lostTiles.contains (stem, tile)

/-- Whether an in-place Core Sample has a tile now (R463). -/
def State.tileTested (s : State) (stem tile : Nat) : Bool :=
  s.bark.samples.any (fun x => x.stem == stem && x.tile == tile && x.kind == .inPlace && x.step == .testing)

/-- Whether a tile is in service. -/
def State.tileServes (s : State) (stem tile : Nat) : Bool :=
  s.stemOn stem && !s.tileLost stem tile && !s.tileTested stem tile

/-- The tiles of four masks, Stem 0 first, in ascending order (R284, R285). -/
def tilesOf (masks : List Nat) : List (Nat × Nat) :=
  (List.range 4).flatMap (fun j => (maskTiles (nth 0 masks j)).map (fun t => (j, t)))

/-- Whether the time partitions let a partition's work be dispatched on a Stem (R479). -/
def State.slotAdmits (s : State) (stem part : Nat) : Bool :=
  !s.rdB Fld.brkTdmaCfg_enable stem || (s.rdN Fld.brkTdmaSlot_members (8 * stem + nth 0 s.bark.slots stem)).testBit part

/-- The program that holds the array of a tile (R306). -/
def State.arrayHolder (s : State) (stem tile : Nat) : Option Program :=
  s.compute.programs.find? (fun p =>
    p.arrayAccess && p.started && !p.suspended.contains (stem, tile) && (nth 0 p.tiles stem).testBit tile)

/-- A command that names a tile or needs an engine's Stem fails at dispatch where a tile is lost or a Stem is not ON (R470,
R545). -/
def State.tilesFault (s : State) (ts : List (Nat × Nat)) : Option (Half × Word) :=
  if ts.any (fun t => !s.stemOn t.1) then some (stResource, 0)
  else (ts.find? (fun t => s.tileLost t.1 t.2)).map (fun t => (stUnitLost, BitVec.ofNat 32 (t.1 * 256 + t.2)))

/-! Work items. -/

/-- A change to the work item at an index. -/
def State.updItem (s : State) (i : Nat) (f : WorkItem → WorkItem) : State :=
  { s with compute := { s.compute with items := updAt s.compute.items i f } }

/-- Whether an item is on its tile: started, neither done nor preempted. -/
def WorkItem.active (w : WorkItem) : Bool := w.tile.isSome && !w.done && !w.suspended

/-- The command of an item, while it runs. -/
def State.itemCmd (s : State) (w : WorkItem) : Option Cmd :=
  match s.cmd? w.cmd with
  | some c => if c.phase == .running then some c else none
  | none => none

/-- The item on a tile. -/
def State.occupant (s : State) (stem tile : Nat) : Option WorkItem :=
  s.compute.items.find? (fun w => w.active && w.stem == stem && w.tile == some tile)

/-- Whether a command's work goes before another's (R87 to R89): a higher class, then work that was preempted, then R87's
order. -/
def State.workBeats (s : State) (a b : WorkItem) : Bool :=
  match s.itemCmd a, s.itemCmd b with
  | some c, some d => if c.crit ≠ d.crit then decide (c.crit > d.crit)
    else if a.suspended ≠ b.suspended then a.suspended
    else s.beats c d
  | _, _ => false

/-- Whether an item waits for a tile: not started, or preempted. -/
def WorkItem.waits (w : WorkItem) : Bool := !w.done && (w.tile.isNone || w.suspended)

/-- The tiles that may take an item: its own once it has started, the dealt one (R285), or those of the command's mask
(R243). -/
def State.itemTiles (s : State) (w : WorkItem) : List Nat :=
  match w.tile.or w.fixedTile with
  | some t => [t]
  | none => match s.itemCmd w with
    | some c => maskTiles (nth 0 c.tileMasks w.stem)
    | none => []

/-- Whether a tile can take an item now: in service, free or held by work of a lower class, and wanted by no item that goes
first. -/
def State.tileTakes (s : State) (w : WorkItem) (c : Cmd) (t : Nat) : Bool :=
  let lower (id : Nat) : Bool := match s.cmd? id with | some d => decide (d.crit < c.crit) | none => true
  s.tileServes w.stem t && (s.arrayHolder w.stem t).isNone
    && (match s.occupant w.stem t with | some o => o.cmd != w.cmd && lower o.cmd | none => true)
    && !s.compute.items.any (fun x => x.waits && x.stem == w.stem && x.cmd != w.cmd && (s.itemTiles x).contains t
      && (match s.itemCmd x with | some d => s.slotAdmits x.stem d.part | none => false) && s.workBeats x w)

/-- Programs that a test picks begin to suspend on some tiles (R307). -/
def State.suspendOn (s : State) (ts : List (Nat × Nat)) (pick : Program → Bool) : State :=
  let more (p : Program) : List (Nat × Nat) :=
    ts.filter (fun t => (nth 0 p.tiles t.1).testBit t.2 && !p.suspended.contains t && !p.suspending.contains t)
  { s with compute := { s.compute with
      programs := updWhere s.compute.programs (fun p => p.started && pick p) (fun p => { p with suspending := p.suspending ++ more p }) } }

/-- A tile-program of a lower class gives up the tiles that an item needs: its suspension begins (R307). -/
def State.askSuspend (s : State) (w : WorkItem) (c : Cmd) : State :=
  s.suspendOn (s.itemTiles w |>.map (fun t => (w.stem, t))) (fun p => p.arrayAccess
    && (match s.cmd? p.cmd with | some d => decide (d.crit < c.crit) | none => false))

/-- The output sites of a group of a convolution (R254). -/
def Cmd.groupSites (c : Cmd) : Nat := if c.f 0 26 0 10 = 0 then 512 else c.f 0 26 0 10

/-- The accumulator entries that an item occupies: one for each of its rows, output sites or cells. -/
def State.itemRows (s : State) (c : Cmd) (w : WorkItem) : Nat :=
  match w.kind with
  | .gemm _ n _ => n
  | .convert _ n => n
  | .dense _ _ => 256
  | .conv stem g _ =>
    match (s.compute.convs.find? (fun v => v.cmd == w.cmd)).bind (fun v => s.table? v.outTable) with
    | some t => min c.groupSites (nth 0 t.cells stem - c.groupSites * g)
    | none => 512

/-- The half of a tile's accumulator file that an item takes: consecutive small items take alternate halves, and one that occupies both
begins in half 0. Which half is first, or is taken where the halves do not alternate, is open (R274, R288). -/
def State.chooseHalf (s : State) (stem tile rows : Nat) : Nat × State :=
  if 256 < rows then (0, s)
  else
    let last := s.compute.halves.find? (fun h => h.stem == stem && h.tile == tile)
    let (half, s) := match last with
      | some h => if s.rdB Fld.tileCtrl_acc_alternate then (1 - h.half, s) else s.choose 2
      | none => s.choose 2
    (half, { s with compute := { s.compute with
        halves := s.compute.halves.filter (fun h => !(h.stem == stem && h.tile == tile)) ++ [({ stem := stem, tile := tile, half := half } : TileHalf)] } })

/-- WORK_ITEM_START: an item goes to a tile (R243, R285), or a preempted one comes back to its tile (R89). Work of a lower class
that holds the tile is preempted at its pass boundary. -/
def execWorkItemStart (index : Nat) (s : State) : Host.Outcome State Fault Refusal :=
  answer s true (match s.compute.items[index]? with
    | none => s
    | some w =>
      match s.itemCmd w with
      | none => s
      | some c =>
        let earlier := (s.compute.items.take index).any (fun x => x.cmd == w.cmd && x.stem == w.stem && x.fixedTile == w.fixedTile
          && (if w.fixedTile.isSome then !x.done else x.waits))
        if !w.waits || earlier || !s.slotAdmits w.stem c.part then s
        else
          let s := s.askSuspend w c
          let free := (s.itemTiles w).filter (s.tileTakes w c)
          let (k, s) := s.choose free.length
          match free[k]? with
          | none => s
          | some t =>
            let (half, s) := if w.tile.isSome then (w.half, s) else s.chooseHalf w.stem t (s.itemRows c w)
            let gone (x : WorkItem) : Bool := x.active && x.stem == w.stem && x.tile == some t
            let u := unitId 5 w.stem t
            let s := (s.compute.items.zipIdx.filter (fun x => gone x.1)).foldl (fun s x =>
              s.event u 0x04 (((s.cmd? x.1.cmd).map Cmd.eventOf).getD {}) (natToBytes 4 x.2)) s
            let s := { s with compute := { s.compute with items := updWhere s.compute.items gone (fun x => { x with suspended := true }) } }
            let s := if w.suspended then s.event u 0x05 c.ev (natToBytes 4 index) else s
            (s.updItem index (fun x => { x with tile := some t, suspended := false, half := half })).serve w.cmd u)

/-! The accumulator file and its image (R274, R275, R279, R299). -/

/-- The address of an entry of a tile's accumulator file. -/
def accAddr (stem tile entry : Nat) : Nat := ctlBase stem tile + 128 * entry

/-- The first entry of an item. -/
def WorkItem.entry (w : WorkItem) : Nat := 256 * w.half

/-- The 32 words of each entry in some bytes. -/
def entriesOf (n : Nat) (b : List Byte) : List (List Nat) :=
  (List.range n).map (fun e => (List.range 32).map (fun c => leAt b (128 * e + 4 * c) 4))

/-- Entries as bytes. -/
def entryData (acc : List (List Nat)) : List Byte := acc.flatMap (fun e => e.flatMap (natToBytes 4))

/-- The partial area of a tile (R245, R284). -/
def partialArea (stem tile offset : Nat) : Nat := sliceBase stem tile + offset

/-- The entries that a pass begins with: zeros in the first pass, the image later (R279). -/
def State.beginPass (s : State) (c : Cmd) (w : WorkItem) (tile n offset : Nat) : State × Except AccErr (List (List Nat)) :=
  if w.passes = 0 then (s, .ok (List.replicate n (List.replicate 32 0)))
  else
    match s.load c.origin (partialArea w.stem tile offset + 128 * w.entry) (128 * n) with
    | (s, .error e) => (s, .error e)
    | (s, .ok b) => (s, .ok (entriesOf n b))

/-- The accumulator file holds an item's entries. -/
def State.putAcc (s : State) (w : WorkItem) (tile : Nat) (acc : List (List Nat)) : State :=
  { s with acc := memWrite s.acc (accAddr w.stem tile w.entry) (entryData acc) }

/-- The image of both halves is saved (R275). -/
def State.saveImage (s : State) (c : Cmd) (w : WorkItem) (tile offset : Nat) : State × Option AccErr :=
  s.store c.origin (partialArea w.stem tile offset) (memRead s.acc (accAddr w.stem tile 0) 65536)

/-! Counts (R287, R288, R518). -/

/-- Counts of a pass: they go to the tile and its Stem. -/
structure PassCounts where
  macs : Nat := 0
  saturated : Nat := 0
  outSaturated : Nat := 0
  nonfinite : Nat := 0

/-- A pass commits: its counts, and the item's place. -/
def State.commitPass (s : State) (index : Nat) (w : WorkItem) (tile broadcasts : Nat) (n : PassCounts) (done : Bool) : State :=
  let u := unitId 5 w.stem tile
  let s := (s.count Fld.tileStemMacs_macs n.macs w.stem).count Fld.tileStemSaturated_saturated (n.saturated + n.outSaturated) w.stem
  let s := (s.count Fld.tileStemNonfinite_nonfinite n.nonfinite w.stem).count Fld.tileStemPasses_passes 1 w.stem
  let s := ((s.tally (some w.cmd) u 0x0400 n.macs).tally (some w.cmd) u 0x0401 1).tally (some w.cmd) u 0x0403 n.saturated
  let s := (s.tally (some w.cmd) u 0x0404 n.outSaturated).tally (some w.cmd) u 0x0405 n.nonfinite
  let s := s.committed (some w.cmd) u index
  s.updItem index (fun x => { x with passes := x.passes + 1, broadcasts := x.broadcasts + broadcasts, done := done })

/-- Conditions that a command's tile work met (R269 to R272). -/
def Cmd.tileConditions (c : Cmd) : List (Half × Word) :=
  let one (st : Half) (code : Nat) : List (Half × Word) := if countTotal c.counts code = 0 then [] else [(st, satDetail (countTotal c.counts code))]
  one stAccSaturated 0x0403 ++ one stOutSaturated 0x0404 ++ one stNonfinite 0x0405

/-- The items and generators of a command are dropped. -/
def State.dropItems (s : State) (id : Nat) : State :=
  { s with compute := { s.compute with
      items := s.compute.items.filter (fun w => w.cmd != id)
      generators := s.compute.generators.filter (fun g => g.1 != id) } }

/-- A command's work fails in a pass of an item (R279): that pass is discarded and counted, and every other item stops at its
boundary. -/
def State.failPass (s : State) (index : Nat) (w : WorkItem) (e : AccErr) : State :=
  let others := s.compute.items.zipIdx.map (fun x => if x.1.cmd == w.cmd && x.2 != index then { x.1 with done := true } else x.1)
  (({ s with compute := { s.compute with items := others } }).dropWork w.cmd).failAcc w.cmd e

/-- Broadcasts of a pass (R245, R278): up to the first boundary at or after 16,384 cycles. -/
def passLength (total done cycles : Nat) : Nat := min (total - done) (ceilDiv 16384 cycles)

/-- The meaning of a pass row: the item at an index is on a tile, its command runs, and its time partition holds. -/
def State.onPass (s : State) (index : Nat) (f : Cmd → WorkItem → Nat → State) : State :=
  match s.compute.items[index]? with
  | none => s
  | some w =>
    match s.itemCmd w, w.tile with
    | some c, some t => if w.active && s.slotAdmits w.stem c.part && s.tileServes w.stem t then f c w t else s
    | _, _ => s

/-! Epilogues. -/

/-- The generator of a tile for a command (R273): seeded at first from TILE_SR_SEED as the command's dispatch read it, the tile and
op_id. -/
def State.generator (s : State) (c : Cmd) (stem tile : Nat) : DWord :=
  match s.compute.generators.find? (fun g => g.1 == c.id && g.2.1 == stem && g.2.2.1 == tile) with
  | some g => g.2.2.2
  | none =>
    let x := (if c.srSeed = 0 then 1 else c.srSeed) ^^^ BitVec.ofNat 64 (stem * 256 + tile) ^^^ BitVec.ofNat 64 c.opId
    if x = 0 then 1 else x

/-- Draws for 32 elements: none without stochastic rounding. -/
def State.draws32 (s : State) (c : Cmd) (stem tile : Nat) (stoch : Bool) : State × List (Option Nat) :=
  if stoch then
    let (l, x) := srDraws 32 (s.generator c stem tile)
    let rest := s.compute.generators.filter (fun g => !(g.1 == c.id && g.2.1 == stem && g.2.2.1 == tile))
    ({ s with compute := { s.compute with generators := (c.id, stem, tile, x) :: rest } }, l)
  else (s, List.replicate 32 none)

/-- What an epilogue does with accumulators: the class of the pair, the output format, the bias and ReLU. -/
structure Epilogue where
  int : Bool
  out : Nat
  /-- FP32 patterns of the 32 channels. -/
  bias : Option (List Nat)
  relu : Bool

/-- An integer accumulator for INT32 output (R271, R596): the bias is rounded and added, with saturation. -/
def Epilogue.intValue (p : Epilogue) (acc : Nat) (b : Option Nat) : FVal × Nat :=
  let (bi, n) : Int × Nat := match b with
    | none => (0, 0)
    | some b =>
      let (r, excess) := toElem 0xD (f32 b) none
      (toSigned 32 r, if excess then 1 else 0)
  let v := toSigned 32 acc + bi
  let c := clampInt int32Lo int32Hi v
  let c' := if p.relu then max 0 c else c
  (FVal.ofInt c', n + (if c = v then 0 else 1))

/-- The values of an entry that go to the conversion, and conversions counted before it (R246, R271, R596). -/
def Epilogue.values (p : Epilogue) (acc : List Nat) : List FVal × Nat :=
  let bias (i : Nat) : Option Nat := p.bias.map (fun b => nth 0 b i)
  if p.int && p.out == 0xD then
    let vs := acc.zipIdx.map (fun a => p.intValue a.1 (bias a.2))
    (vs.map (·.1), vs.foldl (fun n v => n + v.2) 0)
  else
    (acc.zipIdx.map (fun a =>
      let v := if p.int then fp32.round (FVal.ofInt (toSigned 32 a.1)) else f32 a.1
      let v := match bias a.2 with | some b => add32 v (f32 b) | none => v
      if p.relu then reluVal v else v), 0)

/-- Channel block nb of a row of N channels is written (R264): elements, scale, and with the last block the padding. -/
def State.storeBlock (s : State) (o : Origin) (f channels base nb : Nat) (b : OutBlock) : State × Option AccErr :=
  let bits := (tileFmt f).bits
  let tail := channels * bits / 8
  let stop := tail + (if isMx f then channels / 32 else 0)
  match s.store o (base + 4 * bits * nb) (elemBytes f b.elems) with
  | (s, some e) => (s, some e)
  | (s, none) =>
    match (if isMx f then s.store o (base + tail + nb) (natToBytes 1 b.scale) else (s, none)) with
    | (s, some e) => (s, some e)
    | (s, none) =>
      if nb + 1 = channels / 32 ∧ stop < rowSize f channels then
        s.store o (base + stop) (List.replicate (rowSize f channels - stop) 0)
      else (s, none)

/-- Where an epilogue's rows go: the address of row k of the item, the channels of a row and the block. -/
structure RowPlace where
  addr : Nat → Nat
  channels : Nat
  block : Nat

/-- The rows of an item's entries are converted and written in order, up to the first that fails. -/
def State.epilogueRows (s : State) (c : Cmd) (w : WorkItem) (tile : Nat) (stoch : Bool) (p : Epilogue) (r : RowPlace) :
    List (List Nat × Nat) → PassCounts → State × Except AccErr PassCounts
  | [], n => (s, .ok n)
  | (acc, k) :: rest, n =>
    let (vs, before) := p.values acc
    let (s, draws) := s.draws32 c w.stem tile (stoch && stochFmt p.out)
    let b := convertBlock p.out vs draws
    match s.storeBlock c.origin p.out r.channels (r.addr k) r.block b with
    | (s, some e) => (s, .error e)
    | (s, none) =>
      s.epilogueRows c w tile stoch p r rest
        { n with outSaturated := n.outSaturated + before + b.saturated, nonfinite := n.nonfinite + b.nonfinite }

/-- Whether stochastic rounding holds for a command that writes through a tile epilogue and carries no bit for it (R273). -/
def State.partStoch (s : State) (part : Nat) : Bool := (s.rdN Fld.tileSrPart_sr_part).testBit part

/-- The end of an item's pass: an unfinished item saves its image; a finished one applies the epilogue to its rows. -/
def State.endPass (s : State) (c : Cmd) (index : Nat) (w : WorkItem) (tile offset broadcasts : Nat) (complete stoch : Bool)
    (acc : List (List Nat)) (n : PassCounts) (p : Epilogue) (r : RowPlace) : State :=
  let s := s.putAcc w tile acc
  if complete then
    match s.epilogueRows c w tile stoch p r acc.zipIdx n with
    | (s, .error e) => s.failPass index w e
    | (s, .ok n) => s.commitPass index w tile broadcasts n true
  else
    match s.saveImage c w tile offset with
    | (s, some e) => s.failPass index w e
    | (s, none) => s.commitPass index w tile broadcasts n false

/-- The 32 bias values of an output block, where there is a bias. -/
def State.loadBias (s : State) (c : Cmd) (bias : Bool) (base nb : Nat) : State × Except AccErr (Option (List Nat)) :=
  if bias then
    match s.load c.origin (base + 128 * nb) 128 with
    | (s, .error e) => (s, .error e)
    | (s, .ok b) => (s, .ok (some ((List.range 32).map (fun i => leAt b (4 * i) 4))))
  else (s, .ok none)

/-- The weights of some input blocks of an output block, as 32 columns, or the fault that stops them (R244, R267, R285). -/
def State.loadWeights (s : State) (c : Cmd) (stem f : Nat) (sparse : Bool) (base : Nat) (valid : Nat → Nat) :
    List (Nat × Nat) → State × Except AccErr (List (List (Option FVal)))
  | [] => (s, .ok (List.replicate 32 []))
  | (idx, kb) :: rest =>
    match s.load c.origin (base + idx * blockSize f sparse) (blockSize f sparse) with
    | (s, .error e) => (s, .error e)
    | (s, .ok d) =>
      match (if sparse then metaFault f d (valid kb) else none) with
      | some x => (s.count Fld.tileStemMeta_meta_faults 1 stem, .error ⟨stMetadata, metaDetail x idx⟩)
      | none =>
        match s.loadWeights c stem f sparse base valid rest with
        | (s, .error e) => (s, .error e)
        | (s, .ok cols) => (s, .ok (cols.zipIdx.map (fun col => weightRow f sparse d col.2 ++ col.1)))

/-- One broadcast into an entry: every column's step (R268, R269); the entry and the accumulates that saturated. -/
def broadcast (a0 int : Bool) (xs : List FVal) (cols : List (List (Option FVal))) (acc : List Nat) : List Nat × Nat :=
  let one (p : Nat × List (Option FVal)) : Nat × Bool :=
    let v := columnSum xs p.2
    if int then accInt p.1 v else (accFloat a0 p.1 v, false)
  let r := (acc.zip cols).map one
  (r.map (·.1), (r.filter (·.2)).length)

/-- Whether the part flushes subnormal accumulators (R270). -/
def State.isA0 (s : State) : Bool := s.revision == .a0

end Sys2Proof.Machine
end

