-- ==== Sys2Proof/Machine/Gemm.lean ====
section
/-! DEFINITION. TILE_GEMM and TILE_CONVERT, GEMM and CONVERT, and their passes (R278, R282 to R286). -/
namespace Sys2Proof.Machine

/-! The arguments. -/

/-- What a matrix product is asked to do (R283, R284). -/
structure GemmArgs where
  inFmt : Nat
  wFmt : Nat
  out : Nat
  bias : Bool
  relu : Bool
  sparse : Bool
  stoch : Bool
  kBlocks : Nat
  kTail : Nat
  nBlocks : Nat
  rowsPerItem : Nat
  rows : Nat
  aBase : Nat
  wBase : Nat
  outBase : Nat
  biasBase : Nat
  aStride : Nat
  outStride : Nat
  partialOff : Nat

/-- The arguments of a TILE_GEMM, or of a GEMM, whose rows are packed (R282). -/
def Cmd.gemmArgs (c : Cmd) : GemmArgs :=
  let basic := c.engineClass == 0
  let kb := c.f 0 18 0 10 + 1
  let nb := c.f 0 20 0 10 + 1
  let x := c.f 0 16 0 4
  let o := c.f 0 17 0 4
  { inFmt := x, wFmt := c.f 0 16 4 4, out := o, bias := c.f 0 17 4 1 == 1, relu := c.f 0 17 5 1 == 1,
    sparse := c.f 0 17 6 1 == 1, stoch := c.f 0 17 7 1 == 1, kBlocks := kb,
    kTail := if c.f 0 18 10 5 = 0 then 32 else c.f 0 18 10 5, nBlocks := nb,
    rowsPerItem := if basic || c.f 0 22 0 9 == 0 then 512 else c.f 0 22 0 9, rows := c.b 24 4,
    aBase := c.b 28 6, wBase := c.b 34 6, outBase := c.b 40 6, biasBase := c.e 4 6,
    aStride := if basic then rowSize x (32 * kb) else c.e 10 3,
    outStride := if basic then rowSize o (32 * nb) else c.e 13 3, partialOff := if basic then 0 else c.e 16 3 }

/-- What a conversion is asked to do (R286). A stride of 0 in a CONVERT means packed rows (R282). -/
structure ConvertArgs where
  inFmt : Nat
  out : Nat
  stoch : Bool
  scale : Bool
  relu : Bool
  blocks : Nat
  rows : Nat
  inBase : Nat
  outBase : Nat
  scaleBase : Nat
  inStride : Nat
  outStride : Nat

def Cmd.convertArgs (c : Cmd) : ConvertArgs :=
  let x := c.f 0 16 0 4
  let o := c.f 0 16 4 4
  let n := c.f 0 18 0 10 + 1
  let stride (v f : Nat) : Nat := if v = 0 then rowSize f (32 * n) else v
  { inFmt := x, out := o, stoch := c.f 0 17 0 1 == 1, scale := c.f 0 17 1 1 == 1, relu := c.f 0 17 2 1 == 1, blocks := n,
    rows := c.b 20 4, inBase := c.b 24 6, outBase := c.b 30 6, scaleBase := c.b 36 6, inStride := stride (c.b 42 3) x,
    outStride := stride (c.b 45 3) o }

/-! Dispatch. -/

/-- Whether a range that lies in Sapwood lies in banks that are ON and owned by a partition (R285). -/
def State.placedOk (s : State) (part base n : Nat) : Bool :=
  if 0x100000000000 ≤ base ∧ base < 0x200000000000 then
    s.sapUsable base && s.sapUsable (base + n - 1) && s.owns part base (base + n)
  else true

/-- Whether the partial areas of some tiles are usable and owned (R285). -/
def State.partialsOk (s : State) (part offset : Nat) (ts : List (Nat × Nat)) : Bool :=
  ts.all (fun t => s.sliceUsable t.1 t.2 offset 65536
    && s.owns part (partialArea t.1 t.2 offset) (partialArea t.1 t.2 offset + 65536))

/-- Rows of a size at a stride are all well placed. -/
def State.rowsPlaced (s : State) (part base stride size n : Nat) : Bool :=
  (List.range n).all (fun i => s.placedOk part (base + i * stride) size)

/-- Why a matrix product cannot start: formats, mask, tiles and Stems, then placement (R262, R285, R470, R545). -/
def State.gemmFault (s : State) (c : Cmd) (a : GemmArgs) (ts : List (Nat × Nat)) (area : Bool) : Option (Half × Word) :=
  let bad (d : Nat) : Option (Half × Word) := some (stTilePlacement, BitVec.ofNat 32 d)
  if !formatPairOk a.inFmt a.wFmt a.out then some (stFormatPair, formatDetail a.inFmt a.wFmt a.out)
  else if ts.isEmpty then bad 4
  else match s.tilesFault ts with
  | some f => some f
  | none =>
    let size := blockSize a.wFmt a.sparse
    if !s.rowsPlaced c.part a.aBase a.aStride (rowSize a.inFmt (32 * a.kBlocks)) a.rows then bad 0
    else if !s.rowsPlaced c.part a.wBase size size (a.kBlocks * a.nBlocks) then bad 1
    else if !s.rowsPlaced c.part a.outBase a.outStride (rowSize a.out (32 * a.nBlocks)) a.rows then bad 2
    else if area && !s.partialsOk c.part a.partialOff ts then bad 3
    else none

/-- Row groups of n rows: the group's number, first row and count. -/
def rowGroups (n rows : Nat) : List (Nat × Nat × Nat) :=
  (List.range (ceilDiv rows n)).map (fun r => (r, r * n, min n (rows - r * n)))

/-- The work items of a matrix product, dealt to the tiles (R285). -/
def gemmItems (id : Nat) (a : GemmArgs) (ts : List (Nat × Nat)) : List WorkItem :=
  (rowGroups a.rowsPerItem a.rows).flatMap (fun g =>
    let t := nth (0, 0) ts (g.1 % ts.length)
    (List.range a.nBlocks).map (fun nb =>
      ({ cmd := id, kind := .gemm g.2.1 g.2.2 nb, stem := t.1, tile := none, fixedTile := some t.2 } : WorkItem)))

/-- Items join the list. -/
def State.addItems (s : State) (l : List WorkItem) : State :=
  { s with compute := { s.compute with items := s.compute.items ++ l } }

/-- TILE_GEMM (R283 to R285). -/
def execTileGemm (cmd : Nat) (s : State) : Host.Outcome State Fault Refusal :=
  answer s true (s.onStart cmd 0x4 0x01 (fun s c =>
    let a := c.gemmArgs
    let ts := tilesOf c.tileMasks
    match s.gemmFault c a ts true with
    | some f => s.finish cmd f.1 f.2
    | none => s.addItems (gemmItems cmd a ts)))

/-- Row groups of a conversion are dealt to the tiles in the same way (R286). -/
def convertItems (id : Nat) (a : ConvertArgs) (ts : List (Nat × Nat)) : List WorkItem :=
  (rowGroups 512 a.rows).map (fun g =>
    let t := nth (0, 0) ts (g.1 % ts.length)
    ({ cmd := id, kind := .convert g.2.1 g.2.2, stem := t.1, tile := none, fixedTile := some t.2 } : WorkItem))

/-- Why a conversion cannot start. -/
def State.convertFault (s : State) (c : Cmd) (a : ConvertArgs) (ts : List (Nat × Nat)) : Option (Half × Word) :=
  let bad (d : Nat) : Option (Half × Word) := some (stTilePlacement, BitVec.ofNat 32 d)
  if ts.isEmpty then bad 4
  else match s.tilesFault ts with
  | some f => some f
  | none =>
    if !s.rowsPlaced c.part a.inBase a.inStride (rowSize a.inFmt (32 * a.blocks)) a.rows then bad 0
    else if !s.rowsPlaced c.part a.outBase a.outStride (rowSize a.out (32 * a.blocks)) a.rows then bad 2
    else none

/-- TILE_CONVERT (R286). -/
def execTileConvert (cmd : Nat) (s : State) : Host.Outcome State Fault Refusal :=
  answer s true (s.onStart cmd 0x4 0x02 (fun s c =>
    let a := c.convertArgs
    let ts := tilesOf c.tileMasks
    match s.convertFault c a ts with
    | some f => s.finish cmd f.1 f.2
    | none => s.addItems (convertItems cmd a ts)))

/-- Tiles that firmware may use for a partition (R282): in service, with a bank in the slice that is ON and the partition's. -/
def State.partTiles (s : State) (part : Nat) : List (Nat × Nat) :=
  (List.range 4).flatMap (fun j => ((List.range 64).filter (fun t => s.tileServes j t && (List.range 12).any (fun b =>
    let a := bankBase ⟨j, t, b⟩
    s.bankState ⟨j, t, b⟩ == bankOn && s.owns part a (a + 0x20000)))).map (fun t => (j, t)))

/-- The tiles that firmware chooses among those. -/
def State.chooseTiles (s : State) (part : Nat) : State × List (Nat × Nat) :=
  let av := s.partTiles part
  let (w, s) := s.draw
  let some_ := av.filter (fun t => w.toNat.testBit t.2)
  (s, if some_.isEmpty then av else some_)

/-- Broadcasts that a row of a matrix product takes. -/
def GemmArgs.perRow (a : GemmArgs) : Nat := ceilDiv a.kBlocks (cadence a.inFmt a.wFmt a.sparse).1

/-- The most rows of an item whose work ends in one pass, so that it needs no partial area. -/
def GemmArgs.onePass (a : GemmArgs) : Nat :=
  max 1 (min 512 (16384 / ((cadence a.inFmt a.wFmt a.sparse).2 * a.perRow)))

/-- GEMM (R282): firmware chooses the tiles, and items that end in one pass. -/
def execGemm (cmd : Nat) (s : State) : Host.Outcome State Fault Refusal :=
  answer s true (s.onStart cmd 0x0 0x40 (fun s c =>
    let a := c.gemmArgs
    let (s, ts) := s.chooseTiles c.part
    if ts.isEmpty then s.finish cmd stResource
    else match s.gemmFault c a ts false with
    | some f => s.finish cmd f.1 f.2
    | none =>
      let (k, s) := s.choose a.onePass
      s.addItems (gemmItems cmd { a with rowsPerItem := k + 1 } ts)))

/-- CONVERT (R282): firmware chooses the tiles. -/
def execConvert (cmd : Nat) (s : State) : Host.Outcome State Fault Refusal :=
  answer s true (s.onStart cmd 0x0 0x41 (fun s c =>
    let a := c.convertArgs
    let (s, ts) := s.chooseTiles c.part
    if ts.isEmpty then s.finish cmd stResource
    else match s.convertFault c a ts with
    | some f => s.finish cmd f.1 f.2
    | none => s.addItems (convertItems cmd a ts)))

/-! Passes. -/

/-- Input blocks of a broadcast group. -/
def GemmArgs.groupBlocks (a : GemmArgs) (g : Nat) : List Nat :=
  let b := (cadence a.inFmt a.wFmt a.sparse).1
  ((List.range b).map (fun i => g * b + i)).filter (fun kb => decide (kb < a.kBlocks))

/-- Valid channels of an input block (R285). -/
def GemmArgs.valid (a : GemmArgs) (kb : Nat) : Nat := if kb + 1 = a.kBlocks then a.kTail else 32

/-- The input vector of a row for a broadcast group: channels at and beyond k_tail are driven as zero (R285). -/
def GemmArgs.vector (a : GemmArgs) (row : List Byte) (g : Nat) : List FVal :=
  (a.groupBlocks g).flatMap (fun kb =>
    (rowBlock a.inFmt (32 * a.kBlocks) row kb).zipIdx.map (fun x =>
      if x.2 < a.valid kb then x.1 else .fin false 0 0))

/-- Columns that a tile holds, with their broadcast group. -/
abbrev Loaded := Option (Nat × List (List (Option FVal)))

/-- The columns of a broadcast group: as they stand, or loaded. -/
def State.gemmColumns (s : State) (c : Cmd) (stem : Nat) (a : GemmArgs) (nb g : Nat) (have_ : Loaded) :
    State × Except AccErr (List (List (Option FVal))) :=
  match have_ with
  | some (g', cols) => if g' = g then (s, .ok cols)
    else s.loadWeights c stem a.wFmt a.sparse a.wBase a.valid ((a.groupBlocks g).map (fun kb => (nb * a.kBlocks + kb, kb)))
  | none => s.loadWeights c stem a.wFmt a.sparse a.wBase a.valid ((a.groupBlocks g).map (fun kb => (nb * a.kBlocks + kb, kb)))

/-- Broadcasts of a pass in order (R285): input groups upward, and the item's rows within each. -/
def State.gemmRun (s : State) (c : Cmd) (stem : Nat) (a : GemmArgs) (first rows nb : Nat) :
    List Nat → Loaded → List (List Nat) → PassCounts → State × Except AccErr (List (List Nat) × PassCounts)
  | [], _, acc, n => (s, .ok (acc, n))
  | j :: rest, have_, acc, n =>
    let g := j / rows
    let k := j % rows
    match s.gemmColumns c stem a nb g have_ with
    | (s, .error e) => (s, .error e)
    | (s, .ok cols) =>
      match s.load c.origin (a.aBase + (first + k) * a.aStride) (rowSize a.inFmt (32 * a.kBlocks)) with
      | (s, .error e) => (s, .error e)
      | (s, .ok row) =>
        let (e, sat) := broadcast s.isA0 (isIntFmt a.inFmt) (a.vector row g) cols (nth [] acc k)
        s.gemmRun c stem a first rows nb rest (some (g, cols)) (acc.set k e)
          { n with macs := n.macs + 1024 * (a.groupBlocks g).length, saturated := n.saturated + sat }

/-- Where every item of a running command is done, the command ends (R287); one that has failed keeps its failure. -/
def State.endItems (s : State) (id : Nat) : State :=
  if s.compute.items.any (fun w => w.cmd == id && !w.done) then s
  else match s.cmd? id with
    | none => s
    | some c =>
      if c.phase != .running then s
      else
        let st := leastCode c.tileConditions
        (s.dropItems id).finish id st.1 st.2

/-- A pass of an item of a matrix product. -/
def State.gemmPass (s : State) (index : Nat) (c : Cmd) (w : WorkItem) (tile first rows nb : Nat) : State :=
  let a := c.gemmArgs
  let total := rows * a.perRow
  let n := passLength total w.broadcasts (cadence a.inFmt a.wFmt a.sparse).2
  match s.beginPass c w tile rows a.partialOff with
  | (s, .error e) => s.failPass index w e
  | (s, .ok acc) =>
    match s.gemmRun c w.stem a first rows nb ((List.range n).map (fun i => w.broadcasts + i)) none acc {} with
    | (s, .error e) => s.failPass index w e
    | (s, .ok (acc, cnt)) =>
      match s.loadBias c a.bias a.biasBase nb with
      | (s, .error e) => s.failPass index w e
      | (s, .ok bias) =>
        let p : Epilogue := { int := isIntFmt a.inFmt, out := a.out, bias := bias, relu := a.relu }
        let r : RowPlace := { addr := fun k => a.outBase + (first + k) * a.outStride, channels := 32 * a.nBlocks, block := nb }
        (s.endPass c index w tile a.partialOff n (decide (w.broadcasts + n = total)) a.stoch acc cnt p r).endItems c.id

/-- A value of a conversion before it goes to the output format (R286): the exact value, an integer first rounded to FP32,
times the channel's scale. -/
def convertValue (a : ConvertArgs) (v : FVal) (scale : Nat) : FVal :=
  let v := if isIntFmt a.inFmt then fp32.round v else v
  let v := mul32 v (f32 scale)
  if a.relu then reluVal v else v

/-- An input row of a conversion: as it stands, or read. -/
def State.convertInput (s : State) (c : Cmd) (a : ConvertArgs) (i : Nat) (have_ : Option (Nat × List Byte)) : State × Except AccErr (List Byte) :=
  match have_.filter (fun x => x.1 == i) with
  | some x => (s, .ok x.2)
  | none => s.load c.origin (a.inBase + i * a.inStride) (rowSize a.inFmt (32 * a.blocks))

/-- The row conversions of a pass in order, a channel block of a row each; the row that has been read is kept for its other blocks. -/
def State.convertRun (s : State) (c : Cmd) (w : WorkItem) (tile first : Nat) (a : ConvertArgs) (scales : List Byte) :
    List Nat → Option (Nat × List Byte) → PassCounts → State × Except AccErr PassCounts
  | [], _, n => (s, .ok n)
  | j :: rest, have_, n =>
    let i := first + j / a.blocks
    let nb := j % a.blocks
    match s.convertInput c a i have_ with
    | (s, .error e) => (s, .error e)
    | (s, .ok row) =>
      let vs := (rowBlock a.inFmt (32 * a.blocks) row nb).zipIdx.map (fun x =>
        convertValue a x.1 (if a.scale then leAt scales (4 * (32 * nb + x.2)) 4 else 0x3F800000))
      let (s, draws) := s.draws32 c w.stem tile (a.stoch && stochFmt a.out)
      let b := convertBlock a.out vs draws
      match s.storeBlock c.origin a.out (32 * a.blocks) (a.outBase + i * a.outStride) nb b with
      | (s, some e) => (s, .error e)
      | (s, none) => s.convertRun c w tile first a scales rest (some (i, row))
          { n with outSaturated := n.outSaturated + b.saturated, nonfinite := n.nonfinite + b.nonfinite }

/-- A pass of an item of a conversion: a row of 32 channels is one broadcast of one cycle (R278, R286). -/
def State.convertPass (s : State) (index : Nat) (c : Cmd) (w : WorkItem) (tile first rows : Nat) : State :=
  let a := c.convertArgs
  let total := rows * a.blocks
  let n := passLength total w.broadcasts 1
  match (if a.scale then s.load c.origin a.scaleBase (128 * a.blocks) else (s, .ok [])) with
  | (s, .error e) => s.failPass index w e
  | (s, .ok scales) =>
    match s.convertRun c w tile first a scales ((List.range n).map (fun i => w.broadcasts + i)) none {} with
    | (s, .error e) => s.failPass index w e
    | (s, .ok cnt) => (s.commitPass index w tile n cnt (decide (w.broadcasts + n = total))).endItems c.id

/-- GEMM_PASS: a pass of a TILE_GEMM, TILE_CONVERT, GEMM or CONVERT item (R278, R279). -/
def execGemmPass (index : Nat) (s : State) : Host.Outcome State Fault Refusal :=
  answer s true (s.onPass index (fun c w tile =>
    match w.kind with
    | .gemm first rows nb => s.gemmPass index c w tile first rows nb
    | .convert first rows => s.convertPass index c w tile first rows
    | _ => s))

end Sys2Proof.Machine
end

