-- ==== Sys2Proof/Machine/Turns.lean ====
section
/-! DEFINITION. Whose work an engine does next: time slices, and the arbitration of R87 and R88 between the commands that have work at it
(R248, R332, R360, R386). -/
namespace Sys2Proof.Machine

/-- Of the commands that have work at an engine, the one that goes first (R87, R88). -/
def State.firstOf (s : State) (l : List Cmd) : Option Cmd := l.find? (fun c => l.all (fun d => d.id == c.id || s.beats c d))

/-- The turn of an engine, and its command, where that one still has work there. -/
def State.turnOf (s : State) (unit : Nat) (l : List Cmd) : Option (EngineTurn × Cmd) :=
  (s.compute.turns.find? (fun t => t.unit == unit)).bind (fun t => (l.find? (fun c => c.id == t.cmd)).map (fun c => (t, c)))

/-- The command whose unit of work an engine does next: the one whose slice is not over, unless one of a higher class preempts it, and
else the first in arbitration (R88, R89). A slice of 0 units acts as 1. -/
def State.nextOf (s : State) (unit slice : Nat) (l : List Cmd) : Option Cmd :=
  match s.turnOf unit l with
  | some (t, c) =>
    if t.units < max 1 slice ∧ !l.any (fun d => decide (c.crit < d.crit) && s.beats d c) then some c else s.firstOf l
  | none => s.firstOf l

/-- The command of a lower class whose work at an engine another one takes the place of (R89). -/
def State.preempts (s : State) (unit : Nat) (l : List Cmd) (c : Cmd) : Option Nat :=
  (s.turnOf unit l).bind (fun t => if t.2.crit < c.crit then some t.2.id else none)

/-- An engine does a unit of work of a command: the slice goes on or begins, and those that have lost remember since when (R88). DESIGN
CHOICE: a command has lost continuously until it is served at any engine. -/
def State.tookTurn (s : State) (unit slice : Nat) (l : List Cmd) (c : Cmd) : State :=
  let units := match s.turnOf unit l with
    | some (t, d) => if d.id = c.id ∧ t.units < max 1 slice then t.units + 1 else 1
    | none => 1
  let note (d : Cmd) : Cmd :=
    if d.id == c.id then { d with lostOwn := none, lostCross := none }
    else if !l.any (fun x => x.id == d.id) then d
    else { d with
      lostOwn := if d.crit == c.crit then d.lostOwn.or (some s.now) else d.lostOwn,
      lostCross := if d.crit < c.crit then d.lostCross.or (some s.now) else d.lostCross }
  { s with
    compute := { s.compute with
      turns := s.compute.turns.filter (fun t => t.unit != unit) ++ [({ unit := unit, cmd := c.id, units := units } : EngineTurn)] },
    queues := { s.queues with cmds := s.queues.cmds.map note } }

/-- A command takes its turn at an engine among those that have work there: none where it is not its turn. -/
def State.takeTurn (s : State) (unit slice : Nat) (l : List Cmd) (c : Cmd) : Option State :=
  if (s.nextOf unit slice l).map (·.id) = some c.id then some ((s.tookTurn unit slice l c).serve c.id unit) else none

/-- The running commands among some. -/
def State.atWork (s : State) (ids : List Nat) : List Cmd := (ids.filterMap s.cmd?).filter (fun c => c.phase == .running)

end Sys2Proof.Machine
end

