-- ==== Sys2Proof/Machine/IngestCommands.lean ====
section
/-! DEFINITION. The ingest commands (R182 to R185): stream sets, contexts, templates, calibration tables, pose sources,
parse programs and the host's rings. -/
namespace Sys2Proof.Machine

/-- The ingest status range (R185). -/
def stIngestLoss : Half := 0x0101
def stPoseRejected : Half := 0x0102
def stContextAbsent : Half := 0x0140
def stContextTableFull : Half := 0x0141
def stKeyExists : Half := 0x0142
def stCalibInvalid : Half := 0x0143
def stProgramRange : Half := 0x0144
def stSetInUse : Half := 0x0145
def stSetUndefined : Half := 0x0146

/-! Contexts in their 128-byte form (R147). -/

/-- The context that an image describes, its counters zero. -/
def ctxOf (id part : Nat) (p : List Byte) : Ctx :=
  let w := leAt p 0 2
  let f (i : Nat) : Word := BitVec.ofNat 32 (leAt p i 4)
  { id := id
    key := { port := getBits w 0 4, srcMac := leAt p 4 6, srcIp := leAt p 12 16, udpPort := leAt p 10 2, sensorId := leAt p 2 2 }
    state := ctxStateOf (getBits w 4 2), format := formatOf (getBits w 6 2), template := w.testBit 8, auto := w.testBit 9,
    timeSource := w.testBit 10, set := leAt p 28 2, calib := leAt p 30 2, program := getBits (leAt p 32 2) 0 13,
    part := part, ageMs := leAt p 36 4, lagNs := f 40, maxPoints := leAt p 44 4,
    extQ := [f 48, f 52, f 56, f 60], extT := [f 64, f 68, f 72], maxRangeMm := leAt p 76 4 }

/-- A context with bytes 80 to 127 of an image (R147). -/
def Ctx.withCounts (x : Ctx) (p : List Byte) : Ctx :=
  let f (i : Nat) : Word := BitVec.ofNat 32 (leAt p i 4)
  { x with
    lastNs := BitVec.ofNat 64 (leAt p 80 8), frames := f 88, points := BitVec.ofNat 64 (leAt p 92 8), lostFrames := f 100,
    parseFaults := f 104, windowDrops := f 108, poseDrops := f 112, budgetPoints := f 116, bufferDrops := f 120, extrapolated := f 124 }

/-- A context with bytes 0 to 79 of another (R184). -/
def Ctx.overwrite (o x : Ctx) : Ctx :=
  { o with
    key := x.key, state := x.state, format := x.format, template := x.template, auto := x.auto,
    timeSource := x.timeSource, set := x.set, calib := x.calib, program := x.program, ageMs := x.ageMs,
    lagNs := x.lagNs, maxPoints := x.maxPoints, extQ := x.extQ, extT := x.extT, maxRangeMm := x.maxRangeMm }

/-- Whether an image breaks the layout of R147: reserved bits, a reserved format, or a number out of range. -/
def imageBad (p : List Byte) : Bool :=
  let w := leAt p 0 2
  getBits w 11 5 != 0 || getBits w 6 2 == 3 || leAt p 28 2 > 255 || (leAt p 30 2 > 1023 && leAt p 30 2 != 0xFFFF)
    || getBits (leAt p 32 2) 13 3 != 0 || getBits (leAt p 34 1) 6 2 != 0 || leAt p 35 1 != 0

/-- A command that reads bytes at an address goes on with them, or ends with the error of the access. -/
def State.withBytes (s : State) (c : Cmd) (basic : Bool) (a n : Nat) (f : State → List Byte → State) : State :=
  match s.imageLoad c basic a n with
  | (s, .ok b) => f s b
  | (s, .error e) => s.failAcc c.id e

/-- A context of which the key is taken: matching contexts only, since a template never matches (R150, R151). -/
def State.keyHolder (s : State) (k : FrameKey) (but : Option Nat) : Option Ctx :=
  s.ingest.ctxs.find? (fun x => !x.template && x.key == k && some x.id != but)

/-- The ID of a FREE context, any of them. -/
def State.takeCtxId (s : State) : Nat × State :=
  let used := s.ingest.ctxs.map (fun (x : Ctx) => x.id)
  let (k, s) := s.choose (131072 - used.length)
  (used.foldl (fun id u => if u ≤ id then id + 1 else id) k, s)

/-- SENSOR_ADD and TEMPLATE_SET once the image is read (R182, R184). -/
def State.addContext (s : State) (c : Cmd) (template : Bool) (p : List Byte) : State :=
  let x := ctxOf 0 c.part p
  let admitted := s.admissionFault x.set [x]
  let stateOk := x.state == .active || x.state == .disabled
  if imageBad p || x.template != template || !stateOk then s.finish c.id stBadValue 24
  else if s.setElsewhere c.part x.set then s.finish c.id stOwnership 24
  else if (s.set? x.set).isNone then s.finish c.id stSetUndefined (BitVec.ofNat 32 x.set)
  else match (if template then none else s.keyHolder x.key none) with
    | some h => s.finish c.id stKeyExists (BitVec.ofNat 32 h.id)
    | none =>
      match s.freeCtx, admitted with
      | none, _ => s.finish c.id stContextTableFull
      | _, some w => s.finish c.id stAdmission w
      | some _, none =>
        let (id, s) := s.takeCtxId
        (s.putCtx { x with id := id, auto := false, basic := true }).finish c.id stSuccess (BitVec.ofNat 32 id)

/-- SENSOR_ADD (R151, R182, R184). -/
def execSensorAdd (cmd : Nat) (s : State) : Host.Outcome State Fault Refusal :=
  answer s true (s.onCmd cmd 0x0 0x11 (fun c => s.withBytes c true (c.b 24 8) 128 (fun s p => s.addContext c false p)))

/-- TEMPLATE_SET (R150, R182). -/
def execTemplateSet (cmd : Nat) (s : State) : Host.Outcome State Fault Refusal :=
  answer s true (s.onCmd cmd 0x0 0x13 (fun c => s.withBytes c true (c.b 24 8) 128 (fun s p => s.addContext c true p)))

/-- SENSOR_REMOVE: the context becomes FREE (R151, R182). -/
def execSensorRemove (cmd : Nat) (s : State) : Host.Outcome State Fault Refusal :=
  answer s true (s.onCmd cmd 0x0 0x12 (fun c =>
    let id := c.f 0 16 0 17
    match s.ctx? id with
    | none => s.finish cmd stContextAbsent (BitVec.ofNat 32 id)
    | some x =>
      if x.part != c.part then s.finish cmd stOwnership 16
      else (s.dropCtx id).finish cmd stSuccess))

/-- SENSOR_READ and CTX_READ: the 128 bytes of a context are written to an address (R182, R184). -/
def State.readContext (s : State) (c : Cmd) (basic : Bool) : State :=
  let id := c.b 16 4
  match s.ctx? id with
  | none => s.finish c.id stContextAbsent (BitVec.ofNat 32 id)
  | some x =>
    if x.part != c.part || (!basic && s.ctxHeld id) then s.finish c.id stOwnership 16
    else match s.imageStore c basic (c.b 24 8) x.bytes with
      | (s, some e) => s.failAcc c.id e
      | (s, none) => s.finish c.id stSuccess

/-- SENSOR_READ (R182). -/
def execSensorRead (cmd : Nat) (s : State) : Host.Outcome State Fault Refusal :=
  answer s true (s.onCmd cmd 0x0 0x18 (fun c => s.readContext c true))

/-- CTX_READ (R184). -/
def execCtxRead (cmd : Nat) (s : State) : Host.Outcome State Fault Refusal :=
  answer s true (s.onCmd cmd 0x1 0x02 (fun c => s.readContext c false))

/-- What the device keeps of a context beside bytes 0 to 79 of a new image: of one that is FREE, the context table holds it (R146, R147). -/
def State.keptCtx (s : State) (x : Ctx) : State × Ctx :=
  match s.ctx? x.id with
  | some o => (s, o)
  | none =>
    let (s, b) := s.getHbm { part := 0, crit := 0, stream := 0 } (s.ctxAddr x.id) 128
    (s, x.withCounts (b.getD []))

/-- CTX_WRITE once the image is read: bytes 0 to 79 of a context, its counters kept or zeroed (R151, R184). -/
def State.writeContext (s : State) (c : Cmd) (p : List Byte) : State :=
  let id := c.b 16 4
  let x := ctxOf id c.part p
  if id ≥ 131072 then s.finish c.id stContextAbsent (BitVec.ofNat 32 id)
  else if (s.ctx? id).any (fun o => o.part != c.part) || s.ctxHeld id then s.finish c.id stOwnership 16
  else if imageBad p then s.finish c.id stBadValue 24
  else if x.template && c.fn != 0 then s.finish c.id stOwnership 24
  else
    let put (s : State) : State :=
      let (s, o) := s.keptCtx x
      (s.putCtx (if c.f 0 20 0 1 = 1 then { x with lastNs := o.lastNs } else { o.overwrite x with basic := false }))
    if x.state == .free then ((put s).dropCtx id).finish c.id stSuccess
    else if s.setElsewhere c.part x.set then s.finish c.id stOwnership 24
    else if (s.set? x.set).isNone then s.finish c.id stSetUndefined (BitVec.ofNat 32 x.set)
    else match (if x.template then none else s.keyHolder x.key (some id)) with
      | some h => s.finish c.id stKeyExists (BitVec.ofNat 32 h.id)
      | none => (put s).finish c.id stSuccess

/-- CTX_WRITE (R184). -/
def execCtxWrite (cmd : Nat) (s : State) : Host.Outcome State Fault Refusal :=
  answer s true (s.onCmd cmd 0x1 0x01 (fun c => s.withBytes c false (c.b 24 8) 128 (fun s p => s.writeContext c p)))

/-! Calibration tables and parse programs. -/

/-- The calibration table that an image describes, where it is valid (R157, R185). -/
def calibOf (num part len : Nat) (p : List Byte) : Option Calib :=
  let beams := leAt p 0 2
  let f (i : Nat) : Word := BitVec.ofNat 32 (leAt p i 4)
  let es := (List.range beams).map (fun b => (f (16 + 16 * b), f (20 + 16 * b), f (24 + 16 * b), f (28 + 16 * b)))
  let fin (w : Word) : Bool := (f32 w.toNat).isFinite
  if beams = 0 ∨ beams > 512 ∨ len ≠ 16 + 16 * beams then none
  else if fin (f 4) && es.all (fun e => fin e.1 && fin e.2.1 && fin e.2.2.1 && fin e.2.2.2) then
    some { num := num, part := part, azStep := f 4, rangeUnitUm := f 8, entries := es }
  else none

/-- CALIB_LOAD (R157, R182, R185): a length that no table can have is refused before anything is read. -/
def execCalibLoad (cmd : Nat) (s : State) : Host.Outcome State Fault Refusal :=
  answer s true (s.onCmd cmd 0x0 0x14 (fun c =>
    let n := c.b 16 2
    let len := c.b 32 4
    let bad (s : State) : State := s.finish cmd stCalibInvalid (BitVec.ofNat 32 n)
    if len < 32 ∨ len > 16 + 16 * 512 then bad s
    else s.withBytes c true (c.b 24 8) len (fun s p =>
      match calibOf n c.part len p with
      | none => bad s
      | some k =>
        let i := s.ingest
        ({ s with ingest := { i with calibs := k :: i.calibs.filter (fun x => x.num != n) } }).finish cmd stSuccess)))

/-- Words of the program store replaced from an index on; words that are 0 are not listed. -/
def storeProgram (l : List (Nat × DWord)) (start : Nat) (ws : List DWord) : List (Nat × DWord) :=
  let kept := l.filter (fun x => decide (x.1 < start) || decide (start + ws.length ≤ x.1))
  let fresh := (ws.zipIdx.map (fun w => (start + w.2, w.1))).filter (fun x => x.2 != 0)
  kept.filter (fun x => decide (x.1 < start)) ++ fresh ++ kept.filter (fun x => decide (start ≤ x.1))

/-- PROGRAM_LOAD (R158, R184). -/
def execProgramLoad (cmd : Nat) (s : State) : Host.Outcome State Fault Refusal :=
  answer s true (s.onCmd cmd 0x1 0x03 (fun c =>
    let start := c.b 16 2
    let n := c.b 18 2
    if start + n > 8192 then s.finish cmd stProgramRange
    else s.withBytes c false (c.b 24 8) (8 * n) (fun s p =>
      let ws := (List.range n).map (fun i => (BitVec.ofNat 64 (leAt p (8 * i) 8) : DWord))
      ({ s with ingest := { s.ingest with store := storeProgram s.ingest.store start ws } }).finish cmd stSuccess)))

/-! Pose sources and the host's rings. -/

/-- POSE_SOURCE_CONFIG (R182). -/
def execPoseSourceConfig (cmd : Nat) (s : State) : Host.Outcome State Fault Refusal :=
  answer s true (s.onCmd cmd 0x0 0x15 (fun c =>
    let n := c.f 0 16 0 4
    let port := c.b 17 1 == 1
    if s.poseElsewhere c.part n then s.finish cmd stOwnership 16
    else if port && (s.ctx? (c.b 20 4)).isNone then s.finish cmd stContextAbsent (BitVec.ofNat 32 (c.b 20 4))
    else
      let i := s.ingest
      let recs := if c.f 0 24 0 1 = 1 then [] else ((i.poses.find? (fun (x : PoseSource) => x.num == n)).map (fun (x : PoseSource) => x.records)).getD []
      let x : PoseSource := { num := n, part := c.part, fromPort := port, gapMs := c.b 18 2, ctx := c.b 20 4, records := recs }
      ({ s with ingest := { i with poses := i.poses.filter (fun (y : PoseSource) => y.num != n) ++ [x] } }).finish cmd stSuccess))

/-- POSE_PUSH (R165, R166, R182, R185): the detail holds the records accepted, or those rejected. -/
def execPosePush (cmd : Nat) (s : State) : Host.Outcome State Fault Refusal :=
  answer s true (s.onCmd cmd 0x0 0x16 (fun c =>
    let n := c.b 17 1
    s.withBytes c true (c.b 24 8) (40 * n) (fun s p =>
      let (s, k) := s.poseAcceptAll (c.b 16 1) ((List.range n).map (fun i => poseRecord p (40 * i)))
      if k = n then s.finish cmd stSuccess (BitVec.ofNat 32 n) else s.finish cmd stPoseRejected (BitVec.ofNat 32 (n - k)))))

/-- INGEST_QUEUES (R180, R182): the two rings start empty, with counts of 0. -/
def execIngestQueues (cmd : Nat) (s : State) : Host.Outcome State Fault Refusal :=
  answer s true (s.onCmd cmd 0x0 0x17 (fun c =>
    ({ s with ingest := { s.ingest with
        discovery := some { log2 := c.b 16 1, base := c.b 24 8 }, events := some { log2 := c.b 17 1, base := c.b 32 8 },
        headLine := c.b 40 8, vector := c.b 18 2, discSeq := 0, eventSeq := 0 } }).finish cmd stSuccess))

/-! Stream sets. -/

/-- The settings of the stream-set body (R183); `basic`: firmware sets the buffer, the Knot and the route (R184). -/
def Cmd.setCfg (c : Cmd) (basic : Bool) : SetCfg :=
  { depth := c.f 0 18 0 5, poseSource := c.f 0 19 0 4, periodUs := c.b 20 4, phaseUs := c.b 24 4, graceUs := c.b 28 2,
    maxAuto := c.b 30 1, maxPoints := c.b 32 4, buffer := if basic then 0 else c.b 36 6,
    closeKnot := if basic then 0 else c.b 42 2, route := if basic then none else some (c.b 44 2) }

/-- What firmware adds to a stream set's settings at the basic level: a point buffer in the partition's HBM, where there is room for it,
and a Knot of its own block, any of them (R99, R174, R184). The route follows the RUNs on the set. -/
def State.firmwareCfg (s : State) (n part : Nat) (cfg : SetCfg) : State × Option SetCfg :=
  let (s, a) := (s.updSet n (fun x => { x with next := none })).placeHbm part cfg.bufferBytes 64 []
  let (k, s) := s.choose 255
  (s, a.map (fun a => { cfg with buffer := a, closeKnot := k + 1 }))

/-- STREAM_SET_CONFIG and SET_WRITE: new settings wait for the next window start (R183). -/
def State.configureSet (s : State) (c : Cmd) (cfg : SetCfg) : State :=
  let n := c.b 16 2
  if s.setElsewhere c.part n then s.finish c.id stOwnership 16
  else if s.setInUse n then s.finish c.id stSetInUse (BitVec.ofNat 32 n)
  else
    let s := match s.set? n with
      | some _ => s.updSet n (fun x => { x with next := some cfg })
      | none => { s with ingest := { s.ingest with
          sets := s.ingest.sets ++ [({ num := n, part := c.part, cfg := cfg, next := some cfg } : StreamSet)] } }
    s.finish c.id stSuccess

/-- STREAM_SET_CONFIG: the settings, after the admission of the set with them (R183, R184, R211). -/
def execStreamSetConfig (cmd : Nat) (s : State) : Host.Outcome State Fault Refusal :=
  answer s true (s.onCmd cmd 0x0 0x10 (fun c =>
    let n := c.b 16 2
    let cfg := c.setCfg true
    if s.setElsewhere c.part n || s.setInUse n then s.configureSet c cfg
    else match (s.updSet n (fun x => { x with cfg := cfg })).admissionFault n [] with
    | some w => s.finish cmd stAdmission w
    | none =>
      match s.firmwareCfg n c.part cfg with
      | (_, none) => s.finish cmd stResource
      | (t, some cfg) => ({ s with free := t.free }).configureSet c cfg))

/-- SET_WRITE (R183, R184). -/
def execSetWrite (cmd : Nat) (s : State) : Host.Outcome State Fault Refusal :=
  answer s true (s.onCmd cmd 0x1 0x04 (fun c => s.configureSet c (c.setCfg false)))

end Sys2Proof.Machine
end

