-- ==== Sys2Proof/Machine/VoxelCommands.lean ====
section
/-! DEFINITION. The voxel commands (R211 to R220) and the effects of clears and finalisations. -/
namespace Sys2Proof.Machine

/-! Basic-level commands. -/

/-- The grid of a VOXEL_GRID_SET body (R212). -/
def Cmd.gridOf (c : Cmd) : List Int :=
  [18, 20, 22].map (fun (b : Nat) => ((c.b b 2 : Nat) : Int)) ++ [24, 28, 32].map (fun (b : Nat) => c.int 0 b 4)
    ++ (List.range 6).map (fun i => c.int 1 (4 + 4 * i) 4)

/-- VOXEL_GRID_SET: the grid of the next RUN, after the admission of R211 with it (R213). -/
def execVoxelGridSet (cmd : Nat) (s : State) : Host.Outcome State Fault Refusal :=
  answer s true (s.onCmd cmd 0x0 0x20 (fun c =>
    let n := c.b 16 2
    if (s.set? n).isNone then s.finish cmd stSetUndefined (BitVec.ofNat 32 n)
    else if s.setInUse n then s.finish cmd stSetInUse (BitVec.ofNat 32 n)
    else
      let ts := (s.setTables n).map (fun t => { t with grid := gridSize c.gridOf })
      let (w, ok) := s.admission n [] ts
      if ok then (s.updSet n (fun x => { x with grid := some c.gridOf })).finish cmd stSuccess
      else s.finish cmd stAdmission (satDetail w)))

/-- VOXEL_ADMIT_CHECK: the admission of R211 for a package on a stream set; nothing changes (R213). -/
def execVoxelAdmitCheck (cmd : Nat) (s : State) : Host.Outcome State Fault Refusal :=
  answer s true (s.onCmd cmd 0x0 0x21 (fun c =>
    let n := c.b 16 2
    match s.set? n, s.package? c.part (c.b 18 2) with
    | some x, some p =>
      let (w, ok) := s.admission n [] (packageShapes p x.grid)
      s.finish cmd (if ok then stSuccess else stAdmission) (satDetail w)
    | none, _ => s.finish cmd stSetUndefined (BitVec.ofNat 32 n)
    | _, none => s.finish cmd stOwnership 18))

/-! Waiting for a clear. -/

/-- A clear of the table has been ordered and has not ended: commands that name the table wait for it (R218). -/
def Table.clearing (t : Table) : Bool := t.orders.any (fun o => o.clear)

/-- The meaning of a row of an expert descriptor that names an existing table in byte 16. -/
def State.onTable (s : State) (cmd op : Nat) (f : Cmd → Table → State) : State :=
  s.onCmd cmd 0x2 op (fun c =>
    match s.table? (c.f 0 16 0 6) with
    | none => s.finish cmd stTableAbsent (BitVec.ofNat 32 (c.f 0 16 0 6))
    | some t => if !c.started && s.tableElsewhere c.part t.id then s.finish cmd stOwnership 16 else f c t)

/-- The state that a descriptor meets in a table: one that a convolution holds as its output is being filled (R233). -/
def Table.stateMet (t : Table) : Word := BitVec.ofNat 32 (if t.heldBy.isSome then tableCode .filling else tableCode t.state)

/-- A descriptor ends because the table's state does not allow it (R214, R233). -/
def State.badTableState (s : State) (cmd : Nat) (t : Table) : State := s.finish cmd stTableState t.stateMet

/-- The commands that pin a table as a convolution's input or key set, or as a Canopy command's, until they retire (R233, R321, R330). -/
def State.layerPins (s : State) (t : Table) : List Nat :=
  t.pins.filter (fun p => match s.cmd? p with | some c => c.engineClass == 3 || c.engineClass == 5 | none => false)

/-- Whether a convolution pins or holds a table, or a Canopy command pins it (R233, R321, R330). -/
def State.convUses (s : State) (t : Table) : Bool := t.heldBy.isSome || !(s.layerPins t).isEmpty

/-! VHE_CREATE. -/

/-- The configuration that VHE_CREATE describes (R215, R216). -/
def Cmd.vheCfg (c : Cmd) : TableCfg :=
  let log2 := c.f 0 17 0 5
  let n := max 1 c.vheStems
  let split := c.f 0 19 0 3 == 4
  let cells := c.f 0 20 0 22
  { log2 := log2, n := n, inHbm := c.f 0 17 7 1 == 1, xStrip := c.f 0 18 0 1 == 1, halo := c.f 0 18 1 4,
    firstStem := c.f 0 18 5 2, reduce := c.f 0 19 0 3, splitOp := c.f 0 19 3 2,
    maxCells := if cells = 0 then 2 ^ log2 / n / 2 else cells,
    voxel := [c.b 24 2, c.b 26 2, c.b 28 2], batch := c.f 0 30 0 6, cIn := c.f 0 31 0 4 + 1,
    splitDepth := if split then c.f 0 31 4 4 + 1 else 1, origin := [c.int 0 32 4, c.int 0 36 4, c.int 0 40 4],
    sources := c.b 44 4, base := c.e 4 6, accBase := c.e 10 6,
    slots := { t0 := c.f 1 16 0 6, m := c.f 1 17 0 3, offset := c.e 18 3 },
    acc := { t0 := c.f 1 21 0 6, m := c.f 1 22 0 3, offset := c.e 23 3 },
    crop := (List.range 6).map (fun i => c.int 2 (4 + 4 * i) 4), stripBase := c.int 2 28 4, stripWidth := c.f 2 32 0 32 }

/-- Elements of some size dealt over a region. -/
def SapRegion.dealt (r : SapRegion) (size n : Nat) : Dealt := { t0 := r.t0, m := r.m, offset := r.offset, size := size, n := n }

/-- A table's regions in Sapwood: buckets of slots and accumulation rows (R197). -/
def TableCfg.slotArea (c : TableCfg) : Dealt := c.slots.dealt 128 c.buckets
def TableCfg.accArea (c : TableCfg) : Dealt := c.acc.dealt c.rowBytes c.maxCells

/-- Bytes of the slots and of the accumulation rows of a table in HBM (R198). -/
def TableCfg.slotHbm (c : TableCfg) : Nat := 2 ^ c.log2 * 16
def TableCfg.accHbm (c : TableCfg) : Nat := c.maxCells * c.rowBytes

/-- The first of a new table's regions that breaks R197 or R198: 0 slots, 1 accumulation. -/
def State.placementFault (s : State) (part : Nat) (c : TableCfg) : Option Nat :=
  if c.inHbm then
    if c.base % 4096 ≠ 0 ∨ !s.hbmOk part c.base c.slotHbm then some 0
    else if c.accBase % 4096 ≠ 0 ∨ !s.hbmOk part c.accBase c.accHbm then some 1
    else none
  else if !c.stems.all (fun j => s.regionOk part j c.slotArea) then some 0
  else if !c.stems.all (fun j => s.regionOk part j c.accArea) then some 1
  else if rangesMeet (c.slotArea.ranges 0) (c.accArea.ranges 0) then some 1
  else none

/-- The elements of a Sapwood region of a Stem read zero. -/
def State.zeroRegion (s : State) (stem : Nat) (d : Dealt) : State := (d.ranges stem).foldl (fun s r => s.zeroSap r.1 r.2) s

/-- Every slot of a table reads zero (R196). -/
def State.zeroSlots (s : State) (c : TableCfg) : State :=
  if c.inHbm then s.zeroHbm c.base (c.base + c.slotHbm)
  else c.stems.foldl (fun s j => s.zeroRegion j c.slotArea) s

/-- The whole table reads zero: slots and accumulation rows (R218). -/
def State.zeroTable (s : State) (c : TableCfg) : State :=
  let s := s.zeroSlots c
  if c.inHbm then s.zeroHbm c.accBase (c.accBase + c.accHbm)
  else c.stems.foldl (fun s j => s.zeroRegion j c.accArea) s

/-- A new table, its slots zeroed: the expert's, or one that firmware holds for a command (R8, R196). -/
def State.makeTable (s : State) (id part : Nat) (cfg : TableCfg) (firmware : Option Nat) : State :=
  let s := s.zeroSlots cfg
  { s with compute := { s.compute with
      tables := s.compute.tables ++ [({ id := id, part := part, cfg := cfg, firmware := firmware } : Table)] } }

/-- VHE_CREATE (R196 to R198, R214 to R216, R545): the detail is the size of an accumulation row. -/
def execVheCreate (cmd : Nat) (s : State) : Host.Outcome State Fault Refusal :=
  answer s true (s.onCmd cmd 0x2 0x01 (fun c =>
    let id := c.f 0 16 0 6
    match s.table? id with
    | some t =>
      if s.tableElsewhere c.part id then s.finish cmd stOwnership 16
      else if t.clearing then s else s.finish cmd stTableExists (BitVec.ofNat 32 id)
    | none =>
      let cfg := c.vheCfg
      if s.stemsOff cfg then s.finish cmd stResource
      else match s.placementFault c.part cfg with
      | some d => s.finish cmd stPlacement (BitVec.ofNat 32 d)
      | none =>
        let s := cfg.stems.foldl (fun s j => s.serve cmd (vheUnit j 0)) (s.makeTable id c.part cfg none)
        s.finish cmd stSuccess (BitVec.ofNat 32 cfg.rowBytes)))

/-! VHE_CLEAR. -/

/-- Commands that pin or hold a table. -/
def Table.users (t : Table) : List Nat := t.pins ++ (match t.heldBy with | some h => [h] | none => [])

/-- VHE_CLEAR: the order waits for what came before it (R218, R545). -/
def execVheClear (cmd : Nat) (s : State) : Host.Outcome State Fault Refusal :=
  answer s true (s.onTable cmd 0x02 (fun c t =>
    if c.started || t.clearing then s
    else if s.stemsOff t.cfg then s.finish cmd stResource
    else
      let o : TableOrder := { cmd := cmd, clear := true, waitFinal := false,
                              out := { fmt := 0, inHbm := false, region := { t0 := 0, m := 0, offset := 0 }, base := 0 },
                              batchesBefore := t.accepted, pinsBefore := t.users }
      let s := s.updCmd cmd (fun x => { x with started := true })
      s.updTable t.id (fun t => { t with orders := t.orders ++ [o] })))

/-- Whether the batches accepted before an order have been inserted; one that waits for a clear itself does not hold the
order back (R204, R205, R218, R219). -/
def Table.batchesIn (t : Table) (o : TableOrder) : Bool := decide (o.batchesBefore ≤ t.done) || t.headHeld

/-- The clear takes the table to EMPTY (R196, R218). -/
def Table.cleared (t : Table) : Table :=
  { t with state := .empty, epoch := if t.epoch ≥ 127 then 1 else t.epoch + 1, frameTag := none, finalSeen := false,
           overflowed := false, haloIncomplete := false, cells := [0, 0, 0, 0], counts := {}, frameCounts := [], orders := t.orders.drop 1,
           out := none }

/-- VHE_CLEAR_EFFECT: the table passes through CLEARING, zeroed where R196 and R218 say so, to EMPTY. -/
def execVheClearEffect (table : Nat) (s : State) : Host.Outcome State Fault Refusal :=
  answer s true (match s.table? table with
    | none => s
    | some t =>
      match t.orders with
      | [] => s
      | o :: _ =>
        if !o.clear then s
        else if t.state == .clearing then (s.updTable table Table.cleared).finish o.cmd stSuccess
        else if !t.batchesIn o || t.users.any (fun p => o.pinsBefore.contains p) then s
        else
          let s := if t.state == .failed || t.epoch ≥ 127 then s.zeroTable t.cfg else s
          s.updTable table (fun t => { t with state := .clearing }))

/-! VHE_INSERT. -/

/-- Records of an insert command are queued while there is credit for a batch (R203, R217). -/
def State.queueRecords (s : State) (c : Cmd) (t : Nat) : Nat → State
  | 0 => s
  | fuel + 1 =>
    match s.table? t with
    | none => s
    | some x =>
      match x.inserts.find? (fun i => i.1 == c.id) with
      | none => s
      | some (_, k) =>
        if x.queue.length ≥ 64 then s
        else
          let n := min 4096 (c.b 20 4 - k)
          match s.gLoad c (c.b 24 8 + 32 * k) (32 * n) with
          | (s, .wait) => s
          | (s, .err e) => (s.dropWork c.id).failAcc c.id e
          | (s, .ok b) =>
            let last := k + n ≥ c.b 20 4
            let q : QBatch := { window := none, final := false, points := (List.range n).map (fun i => pointOf (slice b (32 * i) 32)),
                                batch := if c.f 0 17 7 1 = 1 then x.cfg.batch else c.f 0 17 0 6, cmd := some c.id, last := last }
            let (s, ok) := s.pushBatch x q
            if !ok then s
            else
              let s := s.updTable t (fun x => { x with
                inserts := if last then x.inserts.filter (fun i => i.1 != c.id)
                           else updWhere x.inserts (fun i => i.1 == c.id) (fun i => (i.1, k + n)) })
              s.queueRecords c t fuel

/-- VHE_INSERT: records are queued in address order, a chunk at a time (R203, R214, R217, R233, R545). The command ends when its
last chunk is inserted. -/
def execVheInsert (cmd : Nat) (s : State) : Host.Outcome State Fault Refusal :=
  answer s true (s.onTable cmd 0x03 (fun c t =>
    if c.started then s.queueRecords c t.id 64
    else if t.clearing then s
    else if s.stemsOff t.cfg then s.finish cmd stResource
    else if t.state == .failed || s.convUses t then s.badTableState cmd t
    else
      let s := s.updCmd cmd (fun x => { x with started := true })
      (s.updTable t.id (fun t => { t with inserts := t.inserts ++ [(cmd, 0)] })).queueRecords c t.id 64))

/-! VHE_FINALISE. -/

/-- Channels of an output row and its size (R202). -/
def TableCfg.outChannels (c : TableCfg) : Nat := 32 * ceilDiv c.channels 32
def TableCfg.outBytes (c : TableCfg) (fmt : Nat) : Nat := c.outChannels * (if fmt = 0 then 4 else 2)

/-- The address of an output row. -/
def OutPlace.addr (o : OutPlace) (c : TableCfg) (stem i : Nat) : Nat :=
  if o.inHbm then o.base + (stem * c.maxCells + i) * c.outBytes o.fmt
  else regionAddr stem o.region.t0 o.region.m o.region.offset (c.outBytes o.fmt) i

/-- The output rows of a table in Sapwood. -/
def OutPlace.area (o : OutPlace) (c : TableCfg) : Dealt := o.region.dealt (c.outBytes o.fmt) c.maxCells

/-- The place that VHE_FINALISE gives to the output rows (R219). -/
def Cmd.outPlace (c : Cmd) : OutPlace :=
  { fmt := c.f 0 17 0 2, inHbm := c.f 0 17 2 1 == 1, region := { t0 := c.f 0 18 0 6, m := c.f 0 19 0 3, offset := c.b 20 3 },
    base := c.b 24 6 }

/-- Whether an output region keeps R197: within usable, owned memory, clear of the table's other regions. -/
def State.outOk (s : State) (part : Nat) (c : TableCfg) (o : OutPlace) : Bool :=
  if o.inHbm then
    c.stems.all (fun j => s.hbmOk part (o.addr c j 0) (c.maxCells * c.outBytes o.fmt))
  else
    c.stems.all (fun j => s.regionOk part j (o.area c))
      && (c.inHbm || !rangesMeet ((o.area c).ranges 0) (c.slotArea.ranges 0 ++ c.accArea.ranges 0))

/-- VHE_FINALISE: the order waits for what came before it (R214, R219, R233, R545). -/
def execVheFinalise (cmd : Nat) (s : State) : Host.Outcome State Fault Refusal :=
  answer s true (s.onTable cmd 0x04 (fun c t =>
    if c.started || t.clearing then s
    else if s.stemsOff t.cfg then s.finish cmd stResource
    else if (t.state != .empty && t.state != .filling) || s.convUses t then s.badTableState cmd t
    else if !s.outOk c.part t.cfg c.outPlace then s.finish cmd stPlacement 2
    else
      let o : TableOrder := { cmd := cmd, clear := false, waitFinal := c.f 0 16 6 1 == 1, out := c.outPlace,
                              batchesBefore := t.accepted, pinsBefore := [] }
      let s := s.updCmd cmd (fun x => { x with started := true })
      s.updTable t.id (fun t => { t with orders := t.orders ++ [o] })))

/-- A value of an output row in its format (R202): FP32, BF16 or FP16, rounded to nearest even. -/
def outElem (fmt : Nat) (x : Nat) : List Byte :=
  match fmt with
  | 0 => natToBytes 4 x
  | 1 => natToBytes 2 (bf16.enc (f32 x))
  | _ => natToBytes 2 (fp16.enc (f32 x))

/-- The channels of an output row, as FP32 patterns (R201, R202). -/
def TableCfg.outValues (c : TableCfg) (r : AccRow) : List Nat :=
  let value (count x : Nat) : Nat :=
    if count = 0 then 0
    else if c.how = 0 then fp32.enc (fp32.div (f32 x) (FVal.ofInt count))
    else x
  let vs := (List.range c.channels).map (fun k =>
    value (if c.split then nth 0 r.groups (k / c.cIn) else r.count) (nth 0 r.chans k))
  vs ++ List.replicate (c.outChannels - c.channels) 0

/-- One output row is written (R202). What fails: reading the accumulation row (`true`) or writing the output. -/
def State.finaliseRow (s : State) (o : Origin) (t : Table) (p : OutPlace) (stem i : Nat) : State × Option (AccErr × Bool) :=
  match s.load o (t.cfg.rowAddr stem i) t.cfg.rowBytes with
  | (s, .error e) => (s, some (e, true))
  | (s, .ok b) =>
    match s.store o (p.addr t.cfg stem i) ((t.cfg.outValues (t.cfg.rowOf b)).flatMap (outElem p.fmt)) with
    | (s, some e) => (s, some (e, false))
    | (s, none) => (s, none)

/-- Output rows are written one after the other, up to the first that fails. -/
def State.finaliseRows (s : State) (o : Origin) (t : Table) (p : OutPlace) : List (Nat × Nat) → State × Option (AccErr × Bool)
  | [] => (s, none)
  | (stem, i) :: r =>
    match s.finaliseRow o t p stem i with
    | (s, some e) => (s, some e)
    | (s, none) => s.finaliseRows o t p r

/-- VHE_FINALISE_EFFECT (R201, R202, R219): the detail is the total of the cell counts. -/
def execVheFinaliseEffect (table : Nat) (s : State) : Host.Outcome State Fault Refusal :=
  answer s true (match s.table? table with
    | none => s
    | some t =>
      match t.orders with
      | [] => s
      | o :: _ =>
        let drop (s : State) : State := s.updTable table (fun t => { t with orders := t.orders.drop 1 })
        if o.clear then s
        else if t.state == .failed || t.state == .final then (drop s).badTableState o.cmd t
        else if !t.batchesIn o || (o.waitFinal && !t.finalSeen) || t.heldBy.isSome then s
        else match s.cmd? o.cmd with
          | none => drop s
          | some c =>
            let s := t.cfg.stems.foldl (fun s j => s.serve o.cmd (vheUnit j 0)) s
            let rows := t.cfg.stems.flatMap (fun j => (List.range (nth 0 t.cells j)).map (fun i => (j, i)))
            match (drop s).finaliseRows c.origin t o.out rows with
            | (s, some (e, table_)) =>
              let s := if table_ then s.updTable table (fun t => { t with state := .failed }) else s
              s.failAcc o.cmd e
            | (s, none) =>
              (s.updTable table (fun t => { t with state := .final, out := some o.out })).finish o.cmd stSuccess
                (BitVec.ofNat 32 (t.cells.foldl (· + ·) 0)))

/-! VHE_LOOKUP. -/

/-- The key that an input of a lookup names (R220): a point record's cell under a batch value, or the key itself. -/
def lookupKey (c : TableCfg) (keys : Bool) (batch : Nat) (b : List Byte) : Nat × (Int × Int × Int) :=
  if keys then (leAt b 0 8, keyCell (leAt b 0 8))
  else
    let p := pointOf b
    let i := c.cellOf p.x p.y p.z
    (cellKey batch i, i)

/-- The entries of a lookup's inputs in order, up to the first access that fails (R220). -/
def State.lookupAll (s : State) (o : Origin) (cmd : Nat) (t : Table) (keys : Bool) (batch : Nat) :
    List (List Byte) → State × Except AccErr (List Byte)
  | [] => (s, .ok [])
  | b :: r =>
    let (key, cell) := lookupKey t.cfg keys batch b
    let go (s : State) (e : Nat) : State × Except AccErr (List Byte) :=
      match s.lookupAll o cmd t keys batch r with
      | (s, .error x) => (s, .error x)
      | (s, .ok d) => (s, .ok (natToBytes 4 e ++ d))
    if !t.cfg.inCrop cell then go s (2 * 2 ^ 30)
    else
      match (s.serve cmd (vheUnit (t.cfg.owner key) (keyEngine key))).findKey o (some cmd) t (t.cfg.owner key) key false with
      | (s, .error x) => (s, .error x)
      | (s, .ok (.hit _ x, _)) => go s x.site
      | (s, .ok _) => go s (2 ^ 30)

/-- VHE_LOOKUP (R204, R214, R220, R545): the table stays pinned for reading while the command runs. -/
def execVheLookup (cmd : Nat) (s : State) : Host.Outcome State Fault Refusal :=
  answer s true (s.onTable cmd 0x05 (fun c t =>
    let begun := t.pins.contains cmd
    if t.clearing && !begun then s
    else if !begun && s.stemsOff t.cfg then s.finish cmd stResource
    else if t.state == .failed then s.finish cmd stTableFailed (BitVec.ofNat 32 t.id)
    else if t.state != .final then s.badTableState cmd t
    else
      let s := if begun then s else s.updTable t.id (fun t => { t with pins := t.pins ++ [cmd] })
      let keys := c.f 0 17 7 1 == 1
      let size := if keys then 8 else 32
      let n := c.b 20 4
      let batch := if c.f 0 17 6 1 = 1 then t.cfg.batch else c.f 0 17 0 6
      s.withGlobal c (c.b 24 8) (size * n) (fun s b =>
        match s.lookupAll c.origin cmd t keys batch ((List.range n).map (fun i => slice b (size * i) size)) with
        | (s, .error e) => (s.updTable t.id (fun t => { t with state := .failed })).failAcc cmd e
        | (s, .ok d) => s.finishStore c (c.b 32 8) d stSuccess)))

/-! VHE_DESTROY. -/

/-- Whether a stream set's route, in force or to come, names a table. -/
def State.routed (s : State) (t : Nat) : Bool :=
  s.ingest.sets.any (fun x =>
    let names (c : SetCfg) : Bool := (c.route.map (fun r => (routeTables r).contains t)).getD false
    names x.cfg || (x.next.map names).getD false)

/-- VHE_DESTROY (R214, R233, R321): it waits for the convolutions and Canopy commands that use the table; then the table is ABSENT, and whatever waits on it ends with TABLE_ABSENT (R204). -/
def execVheDestroy (cmd : Nat) (s : State) : Host.Outcome State Fault Refusal :=
  answer s true (s.onTable cmd 0x06 (fun _ t =>
    if t.clearing then s
    else if t.pins.length != (s.layerPins t).length || s.routed t.id then s.badTableState cmd t
    else if s.convUses t then s
    else if t.state == .filling || t.state == .clearing then s.badTableState cmd t
    else
      let waits := ((t.queue.filterMap (fun b => b.cmd)) ++ t.inserts.map (fun i => i.1) ++ t.orders.map (fun o => o.cmd)).eraseDups
      let routed := t.queue.foldl (fun n b => if b.cmd.isNone then n + b.points.length else n) 0
      let s := s.failPoints t none routed
      let s := waits.foldl (fun s id => s.finish id stTableAbsent (BitVec.ofNat 32 t.id)) s
      ({ s with compute := { s.compute with tables := s.compute.tables.filter (fun x => x.id != t.id) } }).finish cmd stSuccess))

end Sys2Proof.Machine
end

