-- ==== Sys2Proof/Machine/KernelMap.lean ====
section
/-! DEFINITION. Kernel maps (R224 to R242, R251 to R256): the kernel, a layer's dispatch, the site phase, groups of pairs and
their spill chunks. -/
namespace Sys2Proof.Machine

/-! Statuses (R257). -/
def stConvOverflow : Half := 0x0301
def stSitesCropped : Half := 0x0302
def stHaloFallback : Half := 0x0303
def stPairsSpilled : Half := 0x0304
def stGridMismatch : Half := 0x0340
def stModeShape : Half := 0x0341
def stKeysetStale : Half := 0x0342
def stSpillFull : Half := 0x0343
def stSpillCorrupt : Half := 0x0344
def stFeaturePlacement : Half := 0x0345
def stGrowthAdmission : Half := 0x0346

/-! The kernel (R224, R254). -/

/-- What a layer is asked to do. Lists hold one number an axis. -/
structure KmeArgs where
  inTable : Nat
  outTable : Nat
  mode : ConvMode
  modeCode : Nat
  extent : List Nat
  stride : List Nat
  dilation : List Nat
  keysetEpoch : Nat
  cinBlocks : Nat
  coutBlocks : Nat
  bias : Bool
  relu : Bool
  sparse : Bool
  inFmt : Nat
  out : Nat
  groupSites : Nat
  weights : Nat
  biasBase : Nat
  /-- The spill region, or the destination of a map write: base and MiB. -/
  spillBase : Nat
  spillMib : Nat
  mapOnly : Bool

/-- The mode of a code (R227). -/
def convMode : Nat → ConvMode
  | 0 => .dilating | 1 => .submanifold | 2 => .strided | _ => .transposed

/-- The arguments of KME_CONV or KME_MAP_WRITE (R254, R256). -/
def Cmd.kmeArgs (c : Cmd) : KmeArgs :=
  let map_ := c.opcode == 0x02
  let axis (lo w : Nat) : List Nat := [18, 19, 20].map (fun b => c.f 0 b lo w + 1)
  { inTable := c.f 0 16 0 6, outTable := c.f 0 17 0 6, mode := convMode (c.f 0 16 6 2), modeCode := c.f 0 16 6 2,
    extent := axis 0 3, stride := axis 3 2, dilation := axis 5 2, keysetEpoch := c.f 0 21 0 7,
    cinBlocks := c.f 0 22 0 5 + 1, coutBlocks := c.f 0 22 5 5 + 1, bias := c.f 0 22 10 1 == 1, relu := c.f 0 22 11 1 == 1,
    sparse := c.f 0 22 12 1 == 1, inFmt := c.f 0 24 0 4, out := c.f 0 24 4 4,
    groupSites := c.groupSites, weights := c.b 28 6, biasBase := c.b 34 6,
    spillBase := if map_ then c.b 28 6 else c.b 40 6, spillMib := if map_ then c.b 34 6 / 0x100000 else c.b 46 2,
    mapOnly := map_ }

/-- The offsets u_k in order: z fastest (R224). -/
def KmeArgs.offsets (a : KmeArgs) : List (Int × Int × Int) :=
  let range (i : Nat) : List Int :=
    let e := nth 1 a.extent i
    let lo : Int := -(((e - 1) / 2 : Nat) : Int)
    (List.range e).map (fun j => lo + (j : Nat))
  (range 0).flatMap (fun x => (range 1).flatMap (fun y => (range 2).map (fun z => (x, y, z))))

/-- Each axis of a cell by a function of the axis number. -/
def axes (f : Nat → Int → Int → Option Int) (c u : Int × Int × Int) : Option (Int × Int × Int) :=
  match f 0 c.1 u.1, f 1 c.2.1 u.2.1, f 2 c.2.2 u.2.2 with
  | some x, some y, some z => some (x, y, z)
  | _, _, _ => none

/-- A quotient that must be exact. -/
def exactDiv (x : Int) (s : Nat) : Option Int := if x % (s : Nat) = 0 then some (x / (s : Nat)) else none

/-- s·c + d·u, and (c − d·u) / s where it is exact (R226, R227). -/
def KmeArgs.mulAdd (a : KmeArgs) (c u : Int × Int × Int) : Option (Int × Int × Int) :=
  axes (fun i c u => some ((nth 1 a.stride i : Nat) * c + (nth 1 a.dilation i : Nat) * u)) c u
def KmeArgs.subDiv (a : KmeArgs) (c u : Int × Int × Int) : Option (Int × Int × Int) :=
  axes (fun i c u => exactDiv (c - (nth 1 a.dilation i : Nat) * u) (nth 1 a.stride i)) c u

/-- The candidates that an input cell gives, one for each offset in order (R227, R234): those of a strided layer are all one cell. -/
def KmeArgs.candidates (a : KmeArgs) (c : Int × Int × Int) : List (Int × Int × Int) :=
  match a.mode with
  | .dilating => a.offsets.filterMap (fun u => a.subDiv c u)
  | _ => a.offsets.filterMap (fun _ => axes (fun i c _ => some (floorDiv c (nth 1 a.stride i : Nat))) c (0, 0, 0))

/-- The input cell that an output cell meets under an offset (R226, R235). -/
def KmeArgs.inputCell (a : KmeArgs) (o u : Int × Int × Int) : Option (Int × Int × Int) :=
  match a.mode with
  | .transposed => a.subDiv o u
  | _ => a.mulAdd o u

/-! Dispatch. -/

/-- Where rows of features lie (R246, R255). -/
structure FeaturePlace where
  inHbm : Bool
  base : Nat
  t0 : Nat
  m : Nat
  offset : Nat

/-- The places of the input and output features (R255). -/
def Cmd.inPlace (c : Cmd) : FeaturePlace :=
  { inHbm := c.f 1 16 6 1 == 1, base := c.e 4 6, t0 := c.f 1 16 0 6, m := c.f 1 17 0 3, offset := c.e 18 3 }
def Cmd.featOut (c : Cmd) : FeaturePlace :=
  { inHbm := c.f 1 21 6 1 == 1, base := c.e 10 6, t0 := c.f 1 21 0 6, m := c.f 1 22 0 3, offset := c.e 23 3 }

/-- The address of row i of a Stem: in HBM the rows of a Stem begin max_cells rows apart. -/
def FeaturePlace.addr (p : FeaturePlace) (maxCells size stem i : Nat) : Nat :=
  if p.inHbm then p.base + (stem * maxCells + i) * size else regionAddr stem p.t0 p.m p.offset size i

/-- Feature rows of some size in Sapwood, for a table. -/
def FeaturePlace.area (p : FeaturePlace) (maxCells size : Nat) : Dealt :=
  { t0 := p.t0, m := p.m, offset := p.offset, size := size, n := maxCells }

/-- The ranges of a table: slots, accumulation rows and output rows. -/
def Table.ranges (t : Table) : List (Nat × Nat) :=
  let c := t.cfg
  let main := if c.inHbm then [(c.base, c.base + c.slotHbm), (c.accBase, c.accBase + c.accHbm)]
    else c.stems.flatMap (fun j => c.slotArea.ranges j ++ c.accArea.ranges j)
  main ++ (match t.out with
    | some o => c.stems.flatMap (fun j =>
        if o.inHbm then [(o.addr c j 0, o.addr c j c.maxCells)]
        else (o.area c).ranges j)
    | none => [])

/-- The ranges of feature rows of a table. -/
def FeaturePlace.ranges (p : FeaturePlace) (t : TableCfg) (size : Nat) : List (Nat × Nat) :=
  t.stems.flatMap (fun j =>
    if p.inHbm then [(p.addr t.maxCells size j 0, p.addr t.maxCells size j t.maxCells)]
    else (p.area t.maxCells size).ranges j)

/-- Whether feature rows of a table lie in usable memory of a partition. -/
def State.featureOk (s : State) (part : Nat) (p : FeaturePlace) (t : TableCfg) (size : Nat) : Bool :=
  t.stems.all (fun j =>
    if p.inHbm then s.hbmOk part (p.addr t.maxCells size j 0) (t.maxCells * size)
    else s.regionOk part j (p.area t.maxCells size))

/-- Whether a mode makes its own output table. -/
def ConvMode.makes : ConvMode → Bool
  | .dilating | .strided => true
  | _ => false

/-- The region of a KME_CONV that breaks R255: 0 input, 1 output, 2 partial, 3 mask. -/
def State.featureFault (s : State) (c : Cmd) (a : KmeArgs) (ti tOut : Table) : Option Nat :=
  let rin := rowSize a.inFmt (32 * a.cinBlocks)
  let rout := rowSize a.out (32 * a.coutBlocks)
  let tables := ti.ranges ++ tOut.ranges
  let ri := c.inPlace.ranges ti.cfg rin
  let ro := c.featOut.ranges tOut.cfg rout
  let ts := tilesOf c.tileMasks
  let rp := ts.map (fun t => (partialArea t.1 t.2 (c.e 26 3), partialArea t.1 t.2 (c.e 26 3) + 65536))
  if !s.featureOk c.part c.inPlace ti.cfg rin || rangesMeet ri tables then some 0
  else if !s.featureOk c.part c.featOut tOut.cfg rout || rangesMeet ro (tables ++ ri) then some 1
  else if !s.partialsOk c.part (c.e 26 3) ts || rangesMeet rp (tables ++ ri ++ ro) then some 2
  else if !a.mode.makes && tOut.cfg.stems.any (fun j => decide (nth 0 tOut.cells j > 0) && nth 0 c.tileMasks j == 0) then some 3
  else none

/-- The grid rule of a mode that the tables break: 0 origin, 1 voxel size (R228). -/
def gridFault (a : KmeArgs) (ti tOut : TableCfg) : Option Nat :=
  let scaled (x y : TableCfg) : Bool :=
    (List.range 3).all (fun i => nth 0 x.voxel i == nth 1 a.stride i * nth 0 y.voxel i)
  match a.mode with
  | .submanifold => none
  | .transposed => if ti.origin ≠ tOut.origin then some 0 else if scaled ti tOut then none else some 1
  | _ => if ti.origin ≠ tOut.origin then some 0 else if scaled tOut ti then none else some 1

/-- Why a layer cannot start (R204, R214, R228, R232, R233, R253 to R255, R262, R470, R545). -/
def State.kmeFault (s : State) (c : Cmd) (a : KmeArgs) (ti tOut : Table) : Option (Half × Word) :=
  let state (t : Table) : Option (Half × Word) := some (stTableState, t.stateMet)
  let failed (t : Table) : Option (Half × Word) := some (stTableFailed, BitVec.ofNat 32 t.id)
  let shape : Option (Half × Word) := some (stModeShape, BitVec.ofNat 32 a.modeCode)
  if a.mode == .submanifold && (a.inTable != a.outTable || a.stride.any (· != 1)) then shape
  else if ti.state == .failed then failed ti
  else if ti.state != .final || ti.heldBy.isSome then state ti
  else if a.mode == .transposed && tOut.state == .failed then failed tOut
  else if a.mode == .transposed && (tOut.state != .final || tOut.heldBy.isSome) then state tOut
  else if a.mode == .transposed && a.keysetEpoch != tOut.epoch then some (stKeysetStale, BitVec.ofNat 32 tOut.epoch)
  else if a.mode.makes && (tOut.state != .empty || tOut.heldBy.isSome) then state tOut
  else if a.mode.makes && s.routed tOut.id then state tOut
  else match gridFault a ti.cfg tOut.cfg with
  | some d => some (stGridMismatch, BitVec.ofNat 32 d)
  | none =>
    if a.mapOnly then (s.tilesFault (tOut.cfg.stems.map (fun j => (j, 64))))
    else if !formatPairOk a.inFmt a.inFmt a.out then some (stFormatPair, formatDetail a.inFmt a.inFmt a.out)
    else match s.tilesFault (tilesOf c.tileMasks ++ tOut.cfg.stems.map (fun j => (j, 64))) with
    | some f => some f
    | none => (s.featureFault c a ti tOut).map (fun d => (stFeaturePlacement, BitVec.ofNat 32 d))

/-- Chunks of each quarter of a spill region, lowest first (R240). -/
def quarterChunks (mib : Nat) : List (List Nat) := List.replicate 4 (List.range (mib / 4))

/-- A convolution in progress. -/
def State.conv? (s : State) (id : Nat) : Option Conv := s.compute.convs.find? (fun v => v.cmd == id)

/-- A change to it. -/
def State.updConv (s : State) (id : Nat) (f : Conv → Conv) : State :=
  { s with compute := { s.compute with convs := updWhere s.compute.convs (fun v => v.cmd == id) f } }

/-- Conditions that a layer met (R257). -/
def State.convConditions (c : Cmd) (v : Conv) : List (Half × Word) :=
  let one (st : Half) (n : Nat) : List (Half × Word) := if n = 0 then [] else [(st, satDetail n)]
  one stConvOverflow v.candidatesRefused ++ one stSitesCropped v.sitesCropped ++ one stHaloFallback v.haloFallback
    ++ one stPairsSpilled v.groupsSpilled ++ c.tileConditions

/-- Whether every group of a layer's output sites has been formed. -/
def Conv.allFormed (v : Conv) (g : Nat) (tOut : Table) : Bool :=
  v.mapPhase && tOut.cfg.stems.all (fun j => decide (nth 0 tOut.cells j ≤ g * nth 0 v.groupNext j))

/-- A layer whose last group is done ends (R256, R257). -/
def State.endConv (s : State) (id : Nat) : State :=
  match s.conv? id, s.cmd? id with
  | some v, some c =>
    match s.table? v.outTable with
    | none => s
    | some tOut =>
      if v.allFormed c.kmeArgs.groupSites tOut && v.groups.isEmpty then
        let st := leastCode (State.convConditions c v)
        let detail := if st.1 = stSuccess && v.mapOnly then satDetail v.pairTotal else st.2
        let s := { s with compute := { s.compute with convs := s.compute.convs.filter (fun x => x.cmd != id) } }
        (s.dropItems id).finish id st.1 detail
      else s
  | _, _ => s

/-- KME_CONV and KME_MAP_WRITE: the layer's tables are pinned or held, and its phases begin (R232, R233). -/
def State.startConv (s : State) (c : Cmd) : State :=
  let a := c.kmeArgs
  match s.table? a.inTable, s.table? a.outTable with
  | none, _ => s.finish c.id stTableAbsent (BitVec.ofNat 32 a.inTable)
  | _, none => s.finish c.id stTableAbsent (BitVec.ofNat 32 a.outTable)
  | some ti, some tOut =>
    if s.tableElsewhere c.part ti.id then s.finish c.id stOwnership 16
    else if s.tableElsewhere c.part tOut.id then s.finish c.id stOwnership 17
    else if ti.clearing || tOut.clearing then s
    else match s.kmeFault c a ti tOut with
    | some f => s.finish c.id f.1 f.2
    | none =>
      let s := s.updCmd c.id (fun x => { x with started := true })
      let s := s.updTable a.inTable (fun t => { t with pins := t.pins ++ [c.id] })
      let s := if a.mode == .transposed then s.updTable a.outTable (fun t => { t with pins := t.pins ++ [c.id] })
        else if a.mode.makes then s.updTable a.outTable (fun t => { t with state := .filling, heldBy := some c.id })
        else s
      let v : Conv := { cmd := c.id, mode := a.mode, inTable := a.inTable, outTable := a.outTable, mapOnly := a.mapOnly,
                        mapPhase := !a.mode.makes, freeChunks := quarterChunks a.spillMib }
      ({ s with compute := { s.compute with convs := s.compute.convs ++ [v] } }).endConv c.id

/-- KME_CONV (R253 to R255). -/
def execKmeConv (cmd : Nat) (s : State) : Host.Outcome State Fault Refusal :=
  answer s true (s.onCmd cmd 0x3 0x01 (fun c => if c.started then s else s.startConv c))

/-- KME_MAP_WRITE (R256). -/
def execKmeMapWrite (cmd : Nat) (s : State) : Host.Outcome State Fault Refusal :=
  answer s true (s.onCmd cmd 0x3 0x02 (fun c => if c.started then s else s.startConv c))

/-! Cells of a table. -/

/-- The slots of a bucket of 128 bytes. -/
def bucketSlots (b : List Byte) : List Slot := (List.range 8).map (fun j => slotOf (slice b (16 * j) 16))

/-- The cells that a Stem owns in a table, read from its slots: index and key (R195). -/
def State.readCells (s : State) (o : Origin) (t : Table) (stem : Nat) : List Nat → State × Except AccErr (List (Nat × Nat))
  | [] => (s, .ok [])
  | b :: rest =>
    match s.load o (t.cfg.slotAddr stem b 0) 128 with
    | (s, .error e) => (s, .error e)
    | (s, .ok d) =>
      match s.readCells o t stem rest with
      | (s, .error e) => (s, .error e)
      | (s, .ok l) =>
        let mine := (bucketSlots d).filter (fun x => x.epoch == t.epoch && !x.replica && x.owner == stem)
        (s, .ok (mine.map (fun x => (x.index, x.key)) ++ l))

/-- The keys of cells lo to hi − 1 of a Stem, in cell-index order. -/
def State.cellKeys (s : State) (o : Origin) (t : Table) (stem lo hi : Nat) : State × Except AccErr (List (Nat × Nat)) :=
  match s.readCells o t stem (List.range t.cfg.buckets) with
  | (s, .error e) => (s, .error e)
  | (s, .ok l) => (s, .ok ((List.range (hi - lo)).filterMap (fun i => l.find? (fun x => x.1 == lo + i))))

/-- A layer fails at a slot of a table: the table is FAILED too (R206). -/
def State.failConv (s : State) (id table : Nat) (e : AccErr) : State :=
  ((s.dropWork id).updTable table (fun t => { t with state := .failed })).failAcc id e

/-! The site phase (R229, R231, R234). -/

/-- A KME's unit ID (R512). -/
def kmeUnit (stem engine : Nat) : Nat := unitId 4 stem engine

/-- The input cells of a Stem that a layer's next chunk takes: from, to (R234). -/
def State.siteChunk (s : State) (v : Conv) (stem : Nat) : Nat × Nat :=
  let lo := nth 0 v.siteDone stem
  (lo, min (((s.table? v.inTable).map (fun t => nth 0 t.cells stem)).getD 0) (lo + 4096))

/-- The output cells of a Stem that a layer's next group holds: from, to (R243). -/
def State.siteGroup (s : State) (v : Conv) (g stem : Nat) : Nat × Nat :=
  let lo := g * nth 0 v.groupNext stem
  (lo, min (((s.table? v.outTable).map (fun t => nth 0 t.cells stem)).getD 0) (lo + g))

/-- Whether a layer has a chunk or a group for the KMEs of a Stem. -/
def State.kmeHas (s : State) (v : Conv) (stem : Nat) : Bool :=
  let r := if v.mapPhase then s.siteGroup v (((s.cmd? v.cmd).map (fun c => c.kmeArgs.groupSites)).getD 0) stem else s.siteChunk v stem
  decide (r.1 < r.2)

/-- The commands that have work for the KMEs of a Stem. -/
def State.kmeWork (s : State) (stem : Nat) : List Cmd :=
  s.atWork ((s.compute.convs.filter (fun v => s.kmeHas v stem)).map (fun v => v.cmd))

/-- A KME of a Stem takes the next chunk or group of a command, where one of them takes this command next: which one is open (R248). -/
def State.kmeTurn (s : State) (c : Cmd) (stem : Nat) : Option (State × Nat) :=
  let l := s.kmeWork stem
  let slice := s.rdN Fld.kmeCtrl_slice_groups
  match (List.range 4).filter (fun k => (s.nextOf (kmeUnit stem k) slice l).map (fun d => d.id) == some c.id) with
  | [] => none
  | ks =>
    let (i, s) := s.choose ks.length
    let unit := kmeUnit stem (nth 0 ks i)
    some ((s.tookTurn unit slice l c).serve c.id unit, unit)

/-- One candidate is inserted in the output table, refused, or cropped. No accumulation row is written, and no point counts
in the slot. -/
def State.insertSite (s : State) (c : Cmd) (unit key : Nat) : State × Option AccErr :=
  match (s.conv? c.id).bind (fun v => s.table? v.outTable) with
  | none => (s, none)
  | some t =>
    let refuse (s : State) (exhausted : Bool) : State :=
      let s := s.tally (some c.id) unit 0x0301 1
      let s := if exhausted then s.tally (some c.id) unit 0x0302 1 else s
      (s.updConv c.id (fun v => { v with candidatesRefused := v.candidatesRefused + 1 })).updTable t.id
        (fun t => { t with overflowed := true })
    let stem := t.cfg.owner key
    if !t.cfg.inCrop (keyCell key) then
      ((s.tally (some c.id) unit 0x0303 1).updConv c.id (fun v => { v with sitesCropped := v.sitesCropped + 1 }), none)
    else
      let s := s.serve c.id (vheUnit stem (keyEngine key))
      match s.findKey c.origin (some c.id) t stem key true with
      | (s, .error e) => (s, some e)
      | (s, .ok (.hit _ _, _)) => (s, none)
      | (s, .ok (.full, _)) => (refuse s true, none)
      | (s, .ok (.empty addr, _)) =>
        let ix := nth 0 t.cells stem
        if ix ≥ t.cfg.maxCells then (refuse s false, none)
        else
          let x : Slot := { key := key, index := ix, owner := stem, replica := false, epoch := t.epoch, mask := 0, count := 0 }
          match s.store c.origin addr x.bytes with
          | (s, some e) => (s, some e)
          | (s, none) =>
            let s := s.updTable t.id (fun t => { t with cells := t.cells.set stem (ix + 1) })
            (s.tally (some c.id) unit 0x0300 1).placeReplica { o := c.origin, cmd := some c.id, table := t.id, batch := keyBatch key } t x

/-- Candidates in order, up to the first access that fails. -/
def State.insertSites (s : State) (c : Cmd) (unit : Nat) : List Nat → State × Option AccErr
  | [] => (s, none)
  | k :: r =>
    match s.insertSite c unit k with
    | (s, some e) => (s, some e)
    | (s, none) => s.insertSites c unit r

/-- The keys of the candidates that some input cells give, in order, and how many candidates leave the key's fields: their
indices lie outside the crop box and are never truncated into a key (R229). -/
def KmeArgs.siteKeys (a : KmeArgs) (cells : List (Nat × Nat)) : List Nat × Nat :=
  let all := cells.flatMap (fun x => (a.candidates (keyCell x.2)).map (fun o => (x.2, o)))
  let fits (o : Int × Int × Int) : Bool :=
    decide (-2097152 ≤ o.1) && decide (o.1 < 2097152) && decide (-2097152 ≤ o.2.1) && decide (o.2.1 < 2097152)
      && decide (-8192 ≤ o.2.2) && decide (o.2.2 < 8192)
  ((all.filter (fun x => fits x.2)).map (fun x => cellKey (keyBatch x.1) x.2), (all.filter (fun x => !fits x.2)).length)

/-- Candidates that have no key are counted as cropped. -/
def State.countCropped (s : State) (id unit n : Nat) : State :=
  if n = 0 then s else (s.tally (some id) unit 0x0303 n).updConv id (fun v => { v with sitesCropped := v.sitesCropped + n })

/-- KME_SITE_CHUNK: up to 4,096 input cells of a Stem send their candidates (R234, R248). -/
def execKmeSiteChunk (cmd stem : Nat) (s : State) : Host.Outcome State Fault Refusal :=
  answer s (isStem stem) (match s.conv? cmd, s.cmd? cmd with
    | some v, some c =>
      match s.table? v.inTable with
      | none => s
      | some ti =>
        let (lo, hi) := s.siteChunk v stem
        if v.mapPhase || hi ≤ lo || c.phase != .running then s
        else match s.kmeTurn c stem with
        | none => s
        | some (s, unit) =>
          match s.cellKeys c.origin ti stem lo hi with
          | (s, .error e) => s.failConv cmd ti.id e
          | (s, .ok cells) =>
            let ks := c.kmeArgs.siteKeys cells
            match (s.countCropped cmd unit ks.2).insertSites c unit ks.1 with
            | (s, some e) => s.failConv cmd v.outTable e
            | (s, none) => (s.updConv cmd (fun v => { v with siteDone := v.siteDone.set stem hi })).committed (some cmd) unit (lo / 4096)
    | _, _ => s)

/-- SITE_PHASE_END: every Stem has sent and inserted its candidates; the output table is FINAL (R232, R234). A Stem that owns
output sites needs a tile mask (R255). -/
def execSitePhaseEnd (cmd : Nat) (s : State) : Host.Outcome State Fault Refusal :=
  answer s true (match s.conv? cmd, s.cmd? cmd with
    | some v, some c =>
      match s.table? v.inTable, s.table? v.outTable with
      | some ti, some tOut =>
        if v.mapPhase || c.phase != .running || !ti.cfg.stems.all (fun j => decide (nth 0 ti.cells j ≤ nth 0 v.siteDone j)) then s
        else if !v.mapOnly && tOut.cfg.stems.any (fun j => decide (nth 0 tOut.cells j > 0) && nth 0 c.tileMasks j == 0) then
          (s.dropWork cmd).finish cmd stFeaturePlacement 3
        else
          let s := s.updTable v.outTable (fun t => { t with state := .final })
          (s.updConv cmd (fun v => { v with mapPhase := true })).endConv cmd
      | _, _ => s
    | _, _ => s)

/-! The map phase (R235, R236). -/

/-- What a layer's probes counted. -/
structure ProbeCounts where
  probes : Nat := 0
  remote : Nat := 0
  fallback : Nat := 0

/-- A probe of a subtable by the KME of a Stem: the site that answers, if any. -/
def State.kmeProbe (s : State) (o : Origin) (t : Table) (stem owner key : Nat) (n : ProbeCounts) :
    State × Except AccErr (Option Slot × ProbeCounts) :=
  match s.probe o t owner key (t.cfg.probes key) 0 with
  | (s, .error e) => (s, .error e)
  | (s, .ok (f, k)) =>
    let n := { n with probes := n.probes + k, remote := n.remote + (if owner = stem then 0 else k) }
    (s, .ok (match f with | .hit _ x => some x | _ => none, n))

/-- The input site that a key names, looked up as R235 and R236 say. -/
def State.lookupSite (s : State) (o : Origin) (t : Table) (stem key : Nat) (n : ProbeCounts) :
    State × Except AccErr (Option Slot × ProbeCounts) :=
  let owner := t.cfg.owner key
  if owner ≠ stem ∧ t.cfg.replicaStem (keyCell key).1 = some stem then
    match s.kmeProbe o t stem stem key n with
    | (s, .error e) => (s, .error e)
    | (s, .ok (some x, n)) => (s, .ok (some x, n))
    | (s, .ok (none, n)) =>
      if t.haloIncomplete then s.kmeProbe o t stem owner key { n with fallback := n.fallback + 1 } else (s, .ok (none, n))
  else s.kmeProbe o t stem owner key n

/-- The pairs of one output site, in offset order. -/
def State.sitePairs (s : State) (o : Origin) (a : KmeArgs) (ti : Table) (stem site key : Nat) :
    List ((Int × Int × Int) × Nat) → ProbeCounts → State × Except AccErr (List Pair × ProbeCounts)
  | [], n => (s, .ok ([], n))
  | (u, k) :: rest, n =>
    match (a.inputCell (keyCell key) u).filter ti.cfg.inCrop with
    | none => s.sitePairs o a ti stem site key rest n
    | some i =>
      match s.lookupSite o ti stem (cellKey (keyBatch key) i) n with
      | (s, .error e) => (s, .error e)
      | (s, .ok (x, n)) =>
        match s.sitePairs o a ti stem site key rest n with
        | (s, .error e) => (s, .error e)
        | (s, .ok (l, n)) =>
          (s, .ok ((match x with
            | some x => [({ offset := k, outSite := site, inSite := x.site, remote := x.owner != stem } : Pair)]
            | none => []) ++ l, n))

/-- The pairs of a group's sites, in cell-index order. -/
def State.groupPairs (s : State) (o : Origin) (a : KmeArgs) (ti : Table) (stem : Nat) :
    List (Nat × Nat) → ProbeCounts → State × Except AccErr (List Pair × ProbeCounts)
  | [], n => (s, .ok ([], n))
  | (i, key) :: rest, n =>
    match s.sitePairs o a ti stem (stem * 2 ^ 22 + i) key a.offsets.zipIdx n with
    | (s, .error e) => (s, .error e)
    | (s, .ok (l, n)) =>
      match s.groupPairs o a ti stem rest n with
      | (s, .error e) => (s, .error e)
      | (s, .ok (m, n)) => (s, .ok (l ++ m, n))

/-- One segment for each offset, in offset order (R239). -/
def segments (k : Nat) (l : List Pair) : List Pair := (List.range k).flatMap (fun i => l.filter (fun p => p.offset == i))

/-! Spill chunks (R239 to R242). -/

/-- Pairs that a chunk holds. -/
def chunkPairs : Nat := 131064

/-- A pair's 8 bytes (R238), and the pair of 8 bytes. -/
def Pair.bytes (p : Pair) : List Byte :=
  natToBytes 8 (p.inSite + 2 ^ 24 * p.outSite + 2 ^ 48 * p.offset + (if p.remote then 2 ^ 57 else 0))
def pairOf (b : List Byte) : Pair :=
  let w := leAt b 0 8
  { inSite := getBits w 0 24, outSite := getBits w 24 24, offset := getBits w 48 9, remote := w.testBit 57 }

/-- A chunk's bytes (R241). -/
def chunkBytes (c : Cmd) (stem group seq : Nat) (ps : List Pair) : List Byte :=
  let body := ps.flatMap Pair.bytes
  natToBytes 2 c.opId ++ natToBytes 4 group ++ natToBytes 1 stem ++ natToBytes 1 seq ++ natToBytes 4 ps.length
    ++ natToBytes 4 (crc32c body) ++ List.replicate 48 0 ++ body

/-- The address of chunk i of a Stem's quarter. -/
def KmeArgs.chunkAt (a : KmeArgs) (stem i : Nat) : Nat := a.spillBase + (stem * (a.spillMib / 4) + i) * 0x100000

/-- The pairs of a chunk, by its place in the group. -/
def pairsOfChunk (ps : List Pair) (seq : Nat) : List Pair := (ps.drop (seq * chunkPairs)).take chunkPairs

/-- Chunks are written in sequence, up to the first that fails. -/
def State.writeChunks (s : State) (c : Cmd) (a : KmeArgs) (stem group : Nat) (ps : List Pair) :
    List (Nat × Nat) → State × Option AccErr
  | [] => (s, none)
  | (i, seq) :: r =>
    match s.store c.origin (a.chunkAt stem i) (chunkBytes c stem group seq (pairsOfChunk ps seq)) with
    | (s, some e) => (s, some e)
    | (s, none) => s.writeChunks c a stem group ps r

/-- Chunks of a quarter leave the free list. -/
def Conv.take (v : Conv) (stem n : Nat) : Conv := { v with freeChunks := updAt v.freeChunks stem (fun l => l.drop n) }

/-- The work items of a group (R243). -/
def groupItems (id stem group cout : Nat) : List WorkItem :=
  (List.range cout).map (fun b => ({ cmd := id, kind := .conv stem group b, stem := stem, tile := none } : WorkItem))

/-- The counts of a group's map go to its engine and Stem (R257, R258). -/
def State.groupCounts (s : State) (id stem unit pairs : Nat) (mapOnly : Bool) (n : ProbeCounts) : State :=
  let s := (s.count Fld.kmeStemProbes_probes n.probes stem).count Fld.kmeStemRemote_remote_probes n.remote stem
  let s := if mapOnly then s else s.count Fld.kmeStemPairs_pairs pairs stem
  let s := ((s.tally (some id) unit 0x0304 n.probes).tally (some id) unit 0x0305 n.remote).tally (some id) unit 0x0306 n.fallback
  let s := s.tally (some id) unit 0x0307 pairs
  s.updConv id (fun v => { v with pairTotal := v.pairTotal + pairs, haloFallback := v.haloFallback + n.fallback })

/-- Pairs have been written to spill chunks (R258). -/
def State.spilledPairs (s : State) (id stem unit n : Nat) : State :=
  (s.count Fld.kmeStemSpilled_pairs_spilled n stem).tally (some id) unit 0x0308 n

/-- A formed group joins its layer: as chunks of a map write, for the spill region, or as work items. -/
def State.placeGroup (s : State) (c : Cmd) (v : Conv) (a : KmeArgs) (stem g unit : Nat) (ps : List Pair) : State :=
  if v.mapOnly then
    let n := ceilDiv ps.length chunkPairs
    let free := (nth [] v.freeChunks stem).take n
    if free.length < n then (s.dropWork c.id).finish c.id stSpillFull (BitVec.ofNat 32 stem)
    else match s.writeChunks c a stem g ps free.zipIdx with
    | (s, some e) => (s.dropWork c.id).failAcc c.id e
    | (s, none) =>
      (((s.spilledPairs c.id stem unit ps.length).updConv c.id (fun v => v.take stem n)).committed (some c.id) unit g).endConv c.id
  else
    let spilled := decide (ps.length > 131072)
    let x : SiteGroup := { stem := stem, num := g, pairs := ps, spilled := spilled, waitingChunks := spilled,
                           unit := unit, itemsLeft := a.coutBlocks }
    let s := s.updConv c.id (fun v => { v with
      groups := v.groups ++ [x], groupsSpilled := v.groupsSpilled + (if spilled then 1 else 0) })
    let s := if spilled then s else s.addItems (groupItems c.id stem g a.coutBlocks)
    s.committed (some c.id) unit g

/-- KME_GROUP: the pairs of the next group of output sites of a Stem (R235, R236, R239, R243, R248). -/
def execKmeGroup (cmd stem : Nat) (s : State) : Host.Outcome State Fault Refusal :=
  answer s (isStem stem) (match s.conv? cmd, s.cmd? cmd with
    | some v, some c =>
      match s.table? v.inTable, s.table? v.outTable with
      | some ti, some tOut =>
        let a := c.kmeArgs
        let g := nth 0 v.groupNext stem
        let (lo, hi) := s.siteGroup v a.groupSites stem
        if !v.mapPhase || hi ≤ lo || c.phase != .running then s
        else match s.kmeTurn c stem with
        | none => s
        | some (s, unit) =>
          match s.cellKeys c.origin tOut stem lo hi with
          | (s, .error e) => s.failConv cmd tOut.id e
          | (s, .ok cells) =>
            match s.groupPairs c.origin a ti stem cells {} with
            | (s, .error e) => s.failConv cmd ti.id e
            | (s, .ok (l, n)) =>
              let ps := segments a.offsets.length l
              let s := s.groupCounts cmd stem unit ps.length v.mapOnly n
              let s := s.updConv cmd (fun v => { v with groupNext := v.groupNext.set stem (g + 1) })
              match s.conv? cmd with
              | some v => s.placeGroup c v a stem g unit ps
              | none => s
      | _, _ => s
    | _, _ => s)

/-- A group of a layer. -/
def Conv.group? (v : Conv) (stem g : Nat) : Option SiteGroup := v.groups.find? (fun x => x.stem == stem && x.num == g)

/-- A change to it. -/
def State.updGroup (s : State) (id stem g : Nat) (f : SiteGroup → SiteGroup) : State :=
  s.updConv id (fun v => { v with groups := updWhere v.groups (fun x => x.stem == stem && x.num == g) f })

/-- Spill chunks in use on a Stem go up by some, and the high-water mark follows (R258). -/
def State.useSpill (s : State) (stem n : Nat) : State :=
  let k := s.rdN Fld.kmeStemSpillUse_in_use stem + n
  let s := s.wrN Fld.kmeStemSpillUse_in_use k stem
  if k > s.rdN Fld.kmeStemSpillUse_high_water stem then s.wrN Fld.kmeStemSpillUse_high_water k stem else s

/-- SPILL_CHUNK_CLAIM: a spilled group takes the chunks it needs and is written to them; it waits while other groups of the
command hold chunks, and the command fails where none does (R239, R240). -/
def execSpillChunkClaim (cmd stem group : Nat) (s : State) : Host.Outcome State Fault Refusal :=
  answer s (isStem stem) (match s.conv? cmd, s.cmd? cmd with
    | some v, some c =>
      match v.group? stem group with
      | none => s
      | some g =>
        let n := ceilDiv g.pairs.length chunkPairs
        let free := (nth [] v.freeChunks stem).take n
        if !g.waitingChunks || c.phase != .running then s
        else if free.length < n then
          if v.groups.any (fun x => x.stem == stem && !x.chunks.isEmpty) then s
          else (s.dropWork cmd).finish cmd stSpillFull (BitVec.ofNat 32 stem)
        else match s.writeChunks c c.kmeArgs stem group g.pairs free.zipIdx with
        | (s, some e) => (s.dropWork cmd).failAcc cmd e
        | (s, none) =>
          let s := ((s.spilledPairs cmd stem g.unit g.pairs.length).updConv cmd (fun v => v.take stem n)).useSpill stem n
          s.updGroup cmd stem group (fun x => { x with chunks := free, waitingChunks := false, pairs := [] })
    | _, _ => s)

/-- Whether a chunk read back passes the checks of R242; and its pairs. -/
def chunkOk (c : Cmd) (a : KmeArgs) (ti tOut : Table) (stem group seq : Nat) (b : List Byte) : Option (List Pair) :=
  let n := leAt b 8 4
  let body := slice b 64 (8 * n)
  let ps := (List.range n).map (fun i => pairOf (slice body (8 * i) 8))
  let rising := (ps.zip (ps.drop 1)).all (fun x => decide (x.1.offset ≤ x.2.offset))
  let lo := group * a.groupSites
  let hi := min (nth 0 tOut.cells stem) (lo + a.groupSites)
  if leAt b 0 2 ≠ c.opId ∨ leAt b 2 4 ≠ group ∨ leAt b 6 1 ≠ stem ∨ leAt b 7 1 ≠ seq ∨ n > chunkPairs then none
  else if crc32c body ≠ leAt b 12 4 then none
  else if rising && ps.all (fun p => decide (p.offset < a.offsets.length)
      && decide (stem * 2 ^ 22 + lo ≤ p.outSite) && decide (p.outSite < stem * 2 ^ 22 + hi)
      && decide (p.inSite % 2 ^ 22 < nth 0 ti.cells (p.inSite / 2 ^ 22))) then some ps
  else none

/-- What reading a group's chunks back gives. -/
inductive ReadBack where
  | ok (ps : List Pair)
  | access (e : AccErr)
  | corrupt (chunk : Nat)

/-- Chunks are read back in sequence, up to the first that fails. -/
def State.readChunks (s : State) (c : Cmd) (a : KmeArgs) (ti tOut : Table) (stem group : Nat) : List (Nat × Nat) → State × ReadBack
  | [] => (s, .ok [])
  | (i, seq) :: r =>
    match s.load c.origin (a.chunkAt stem i) 0x100000 with
    | (s, .error e) => (s, .access e)
    | (s, .ok b) =>
      match chunkOk c a ti tOut stem group seq b with
      | none => (s, .corrupt i)
      | some ps =>
        match s.readChunks c a ti tOut stem group r with
        | (s, .ok qs) => (s, .ok (ps ++ qs))
        | x => x

/-- SPILL_READBACK: a spilled group is read back and checked, and its work items become ready (R239, R242, R243). -/
def execSpillReadback (cmd stem group : Nat) (s : State) : Host.Outcome State Fault Refusal :=
  answer s (isStem stem) (match s.conv? cmd, s.cmd? cmd with
    | some v, some c =>
      match v.group? stem group, s.table? v.inTable, s.table? v.outTable with
      | some g, some ti, some tOut =>
        let a := c.kmeArgs
        if !g.spilled || g.waitingChunks || g.readBack || c.phase != .running then s
        else match s.readChunks c a ti tOut stem group g.chunks.zipIdx with
        | (s, .access e) => (s.dropWork cmd).failAcc cmd e
        | (s, .corrupt i) =>
          let at_ := a.chunkAt stem i - a.spillBase
          ((s.dropWork cmd).finish cmd stSpillCorrupt (BitVec.ofNat 32 at_)).report
            { source := 0x17, stem := stem, part := some c.part, logical := group, detail := BitVec.ofNat 64 at_ }
        | (s, .ok ps) =>
          (s.updGroup cmd stem group (fun x => { x with pairs := ps, readBack := true })).addItems (groupItems cmd stem group a.coutBlocks)
      | _, _, _ => s
    | _, _ => s)

end Sys2Proof.Machine
end

