-- ==== Sys2Proof/Machine/Canopy.lean ====
section
/-! DEFINITION. Maps, folds, warps and devoxelisation (R314 to R321, R327 to R338, R341 to R343). -/
namespace Sys2Proof.Machine

/-! Statuses (R343). -/
def stHistoryReset : Half := 0x0501
def stDevoxAbsent : Half := 0x0502
def stMapExists : Half := 0x0541
def stMapGeometry : Half := 0x0542
def stMapPlacement : Half := 0x0543
def stMapGrid : Half := 0x0546

/-! Layout (R315, R316). -/

/-- The size of a cell's row of one block; rows of spatial tiles in a band; the Stem of a band. -/
def CMap.rs (m : CMap) : Nat := rowSize m.fmt 32
def CMap.bandTiles (m : CMap) : Nat := m.height / 16 / max 1 m.bands
def CMap.bandStem (m : CMap) (j : Nat) : Nat := (m.firstStem + j) % 4

/-- The address of a cell's row of a block. -/
def CMap.addr (m : CMap) (u v cb : Nat) : Nat :=
  let tw := m.width / 16
  let cell := (16 * (v % 16) + u % 16) * m.rs
  if m.inHbm then m.base + ((v / 16 * tw + u / 16) * m.cBlocks + cb) * 256 * m.rs + cell
  else
    let j := v / 16 / max 1 m.bandTiles
    let ti := (v / 16 - j * m.bandTiles) * tw + u / 16
    sliceBase (m.bandStem j) (m.t0 + ti % 2 ^ m.m) + m.offset + (ti / 2 ^ m.m * m.cBlocks + cb) * 256 * m.rs + cell

/-- Bytes of a spatial tile in every block, and of a band in HBM; and a band's tiles in the slices of its Stem. -/
def CMap.tileBytes (m : CMap) : Nat := m.cBlocks * 256 * m.rs
def CMap.bandHbm (m : CMap) : Nat := m.bandTiles * (m.width / 16) * m.tileBytes
def CMap.area (m : CMap) : Dealt := { t0 := m.t0, m := m.m, offset := m.offset, size := m.tileBytes, n := m.bandTiles * (m.width / 16) }

/-- The ranges of a map. -/
def CMap.ranges (m : CMap) : List (Nat × Nat) :=
  if m.inHbm then [(m.base, m.base + m.bands * m.bandHbm)] else (List.range m.bands).flatMap (fun j => m.area.ranges (m.bandStem j))

/-- Whether a band lies in usable memory that a partition owns. -/
def State.bandOk (s : State) (part : Nat) (m : CMap) (j : Nat) : Bool :=
  if m.inHbm then s.hbmOk part (m.base + j * m.bandHbm) m.bandHbm
  else s.regionOk part (m.bandStem j) m.area

/-- A map reads zero. -/
def State.zeroMap (s : State) (m : CMap) : State :=
  if m.inHbm then s.zeroHbm m.base (m.base + m.bands * m.bandHbm)
  else (List.range m.bands).foldl (fun s j => s.zeroRegion (m.bandStem j) m.area) s

/-- The map that CNP_MAP_DEFINE describes (R336, R337). -/
def Cmd.mapOf (c : Cmd) : CMap :=
  { id := c.b 16 1, part := c.part, fmt := c.f 0 17 0 4, inHbm := c.f 0 17 4 1 == 1, bands := c.mapBands,
    width := 16 * (c.f 0 18 0 12 + 1), height := 16 * (c.f 0 20 0 12 + 1), cBlocks := c.f 0 22 0 5 + 1, firstStem := c.f 0 23 0 2,
    x0 := c.int 0 24 4, y0 := c.int 0 28 4, vx := c.b 32 2, vy := c.b 34 2, ox := c.int 0 36 4, oy := c.int 0 40 4,
    base := c.e 4 6, t0 := c.f 1 10 0 6, m := c.f 1 11 0 3, offset := c.e 12 3 }

/-- CNP_MAP_DEFINE (R314, R316, R336, R337, R343). DESIGN CHOICE: a place that breaks R337 as a whole is reported for band 0. -/
def execCnpMapDefine (cmd : Nat) (s : State) : Host.Outcome State Fault Refusal :=
  answer s true (s.onStart cmd 0x5 0x01 (fun s c =>
    let m := c.mapOf
    if s.mapElsewhere c.part m.id then s.finish cmd stOwnership 16
    else if (s.map? m.id).isSome then s.finish cmd stMapExists (BitVec.ofNat 32 m.id)
    else if c.mapPlaceBad then s.finish cmd stMapPlacement 0
    else match (List.range m.bands).find? (fun j => !s.bandOk c.part m j) with
    | some j => s.finish cmd stMapPlacement (BitVec.ofNat 32 j)
    | none =>
      let zero := c.f 0 17 7 1 == 1
      let s := if zero then s.zeroMap m else s
      let m := if zero then { m with valid := blockMask 0 m.cBlocks } else m
      ({ s with canopy := { s.canopy with maps := s.canopy.maps ++ [m] } }).finish cmd stSuccess))

/-! Dispatch. -/

/-- Why an engine of a kind cannot serve on some Stems: a Stem is not ON (R545), or its only engine of the kind is lost (R470). -/
def State.engineFault (s : State) (kind : EngineKind) (stems : List Nat) : Option (Half × Word) :=
  if stems.any (fun j => !s.stemOn j) then some (stResource, 0)
  else (stems.find? (fun j => s.bark.lostEngines.contains (j, kind, 0))).map (fun j => (stUnitLost, BitVec.ofNat 32 (j * 256)))

/-- The Stems that serve a map's bands. -/
def CMap.stems (m : CMap) : List Nat := (List.range m.bands).map m.bandStem

/-- The row of a Canopy command that names maps, whose blocks its dispatch has taken: its own checks, and then its work. -/
def State.startMaps (s : State) (c : Cmd) (check : Option (Half × Word)) (f : State → State) : State :=
  match check with
  | some e => s.finish c.id e.1 e.2
  | none => f (s.updCmd c.id (fun x => { x with started := true }))

/-- A run of an engine command begins. -/
def State.addRun (s : State) (id : Nat) : State :=
  { s with canopy := { s.canopy with runs := s.canopy.runs ++ [({ cmd := id } : CanopyRun)] } }

/-- CNP_MAP_FREE (R319). -/
def execCnpMapFree (cmd : Nat) (s : State) : Host.Outcome State Fault Refusal :=
  answer s true (s.onCmd cmd 0x5 0x02 (fun c => if c.started then s else s.startMaps c none (fun s =>
    ({ s with canopy := { s.canopy with maps := s.canopy.maps.filter (fun m => m.id != c.b 16 1) } }).finish cmd stSuccess)))

/-! Folding (R320, R321, R338). -/

/-- What a fold is asked to do. -/
structure FoldArgs where
  table : Nat
  reduce : Nat
  map : Nat
  inFmt : Nat
  binOp : Nat
  nbins : Nat
  binCells : Nat
  zLo : Int
  zCount : Nat
  batch : Nat
  cinBlocks : Nat
  feat : FeaturePlace

def Cmd.foldArgs (c : Cmd) : FoldArgs :=
  let cat := c.f 0 16 6 2 == 3
  { table := c.f 0 16 0 6, reduce := c.f 0 16 6 2, map := c.b 17 1, inFmt := c.f 0 18 0 4,
    binOp := if cat then c.f 0 18 4 2 else c.f 0 16 6 2, nbins := if cat then c.f 0 19 0 4 + 1 else 1,
    binCells := if cat then c.f 0 19 4 4 + 1 else c.f 0 22 0 14, zLo := toSigned 14 (c.f 0 20 0 14), zCount := c.f 0 22 0 14,
    batch := c.f 0 24 0 6, cinBlocks := c.f 0 25 0 5 + 1,
    feat := { inHbm := c.f 0 32 6 1 == 1, base := c.b 26 6, t0 := c.f 0 32 0 6, m := c.f 0 33 0 3, offset := c.b 34 3 } }

/-- Why a fold cannot start. -/
def State.foldFault (s : State) (part : Nat) (a : FoldArgs) : Option (Half × Word) :=
  match s.table? a.table, s.map? a.map with
  | none, _ => some (stTableAbsent, BitVec.ofNat 32 a.table)
  | _, none => none
  | some t, some m =>
    let at_ (i : Nat) : Int := nth 0 t.cfg.origin i
    if s.tableElsewhere part t.id then some (stOwnership, 16)
    else if t.state == .failed then some (stTableFailed, BitVec.ofNat 32 t.id)
    else if t.state != .final || t.heldBy.isSome then some (stTableState, t.stateMet)
    else if m.cBlocks ≠ a.cinBlocks * a.nbins ∨ a.zCount ≠ a.nbins * a.binCells then some (stMapGeometry, BitVec.ofNat 32 m.id)
    else if m.ox ≠ at_ 0 ∨ m.oy ≠ at_ 1 then some (stMapGrid, 0)
    else if m.vx ≠ nth 0 t.cfg.voxel 0 ∨ m.vy ≠ nth 0 t.cfg.voxel 1 then some (stMapGrid, 1)
    else s.engineFault .canopy m.stems

/-- A Canopy command pins a voxel table for reading. -/
def State.pinTable (s : State) (t cmd : Nat) : State := s.updTable t (fun t => { t with pins := t.pins ++ [cmd] })

/-- CNP_FOLD (R320, R321). A command that names a table which is being cleared waits (R218). -/
def execCnpFold (cmd : Nat) (s : State) : Host.Outcome State Fault Refusal :=
  answer s true (s.onCmd cmd 0x5 0x03 (fun c =>
    let a := c.foldArgs
    if c.started || (match s.table? a.table with | some t => t.clearing | none => false) then s
    else s.startMaps c (s.foldFault c.part a) (fun s => (s.pinTable a.table cmd).addRun cmd)))

/-- Counts of one unit of an engine. -/
structure UnitCounts where
  saturated : Nat := 0
  nonfinite : Nat := 0
  probes : Nat := 0
  folded : Nat := 0
  border : Nat := 0
  absent : Nat := 0

def UnitCounts.add (a b : UnitCounts) : UnitCounts :=
  { saturated := a.saturated + b.saturated, nonfinite := a.nonfinite + b.nonfinite, probes := a.probes + b.probes,
    folded := a.folded + b.folded, border := a.border + b.border, absent := a.absent + b.absent }

/-- The values of a feature row of n blocks. -/
def rowValues (fmt n : Nat) (row : List Byte) : List FVal := (List.range n).flatMap (rowBlock fmt (32 * n) row)

/-- The present cells of a column: z index and feature row, in z order. A slot that cannot be read puts the table in FAILED (R206). -/
def State.foldColumn (s : State) (o : Origin) (a : FoldArgs) (t : Table) (x y : Int) :
    List Nat → UnitCounts → State × Except AccErr (List (Nat × List FVal) × UnitCounts)
  | [], n => (s, .ok ([], n))
  | k :: rest, n =>
    let cell := (x, y, a.zLo + (k : Nat))
    if !t.cfg.inCrop cell then s.foldColumn o a t x y rest n
    else
      let key := cellKey a.batch cell
      match s.probe o t (t.cfg.owner key) key (t.cfg.probes key) 0 with
      | (s, .error e) => (s.updTable t.id (fun t => { t with state := .failed }), .error e)
      | (s, .ok (f, p)) =>
        let n := { n with probes := n.probes + p }
        match f with
        | .hit _ x' =>
          let size := rowSize a.inFmt (32 * a.cinBlocks)
          (match s.load o (a.feat.addr t.cfg.maxCells size x'.owner x'.index) size with
           | (s, .error e) => (s, .error e)
           | (s, .ok row) =>
             match s.foldColumn o a t x y rest { n with folded := n.folded + 1 } with
             | (s, .error e) => (s, .error e)
             | (s, .ok (l, n)) => (s, .ok ((k, rowValues a.inFmt a.cinBlocks row) :: l, n)))
        | _ => s.foldColumn o a t x y rest n

/-- Values in a freely chosen order (R320). -/
def State.shuffle {α : Type} (s : State) (l : List α) : State × List α :=
  let go := (List.range l.length).foldl (fun (x : State × List α × List α) _ =>
    let (k, s) := x.1.choose x.2.1.length
    (s, x.2.1.eraseIdx k, x.2.2 ++ (x.2.1[k]?).toList)) (s, l, [])
  (go.1, go.2.2)

/-- The maximum of two values: a NaN wins. -/
def maxVal (a b : FVal) : FVal := if a.isNan || b.isNan then .nan else if a.lt b then b else a

/-- One channel of a bin over the present cells, in some order: zero where there is none. -/
def binValue (op : Nat) : List FVal → FVal
  | [] => .fin false 0 0
  | v :: r =>
    let sum := r.foldl add32 v
    match op with
    | 0 => r.foldl maxVal v
    | 1 => sum
    | _ => div32 sum (FVal.ofInt ((r.length + 1 : Nat) : Int))

/-- The channels of a map cell from its column's present cells. -/
def State.foldBins (s : State) (a : FoldArgs) (cells : List (Nat × List FVal)) : List Nat → State × List FVal
  | [] => (s, [])
  | j :: rest =>
    let mine := (cells.filter (fun x => decide (j * a.binCells ≤ x.1) && decide (x.1 < (j + 1) * a.binCells))).map (·.2)
    let (s, mine) := s.shuffle mine
    let vs := (List.range (32 * a.cinBlocks)).map (fun c => binValue a.binOp (mine.map (fun row => nth .nan row c)))
    let (s, more) := s.foldBins a cells rest
    (s, vs ++ more)

/-- The blocks of a map cell are converted and written, up to the first write that fails (R333). -/
def State.writeCell (s : State) (o : Origin) (m : CMap) (u v : Nat) : List (Nat × List FVal) → UnitCounts →
    State × Except AccErr UnitCounts
  | [], n => (s, .ok n)
  | (cb, vs) :: rest, n =>
    let b := convertBlock m.fmt vs (List.replicate 32 none)
    match s.storeBlock o m.fmt 32 (m.addr u v cb) 0 b with
    | (s, some e) => (s, .error e)
    | (s, none) => s.writeCell o m u v rest { n with saturated := n.saturated + b.saturated, nonfinite := n.nonfinite + b.nonfinite }

/-- A list cut into blocks of 32 channels, numbered from a first block. -/
def blocks32 (first n : Nat) (vs : List FVal) : List (Nat × List FVal) :=
  (List.range n).map (fun b => (first + b, (vs.drop (32 * b)).take 32))

/-- The fold of one map cell. -/
def State.foldCell (s : State) (o : Origin) (a : FoldArgs) (t : Table) (m : CMap) (u v : Nat) (n : UnitCounts) :
    State × Except AccErr UnitCounts :=
  match s.foldColumn o a t (m.x0 + u) (m.y0 + v) (List.range a.zCount) n with
  | (s, .error e) => (s, .error e)
  | (s, .ok (cells, n)) =>
    let (s, vs) := s.foldBins a cells (List.range a.nbins)
    s.writeCell o m u v (blocks32 0 m.cBlocks vs) n

/-! Warping (R327, R341). -/

/-- What a warp is asked to do. -/
structure WarpArgs where
  src : Nat
  dst : Nat
  replicate : Bool
  first : Nat
  /-- m00, m01, m10, m11, tu, tv. -/
  par : List FVal

def Cmd.warpArgs (c : Cmd) : WarpArgs :=
  { src := c.b 16 1, dst := c.b 17 1, replicate := c.f 0 18 0 2 == 1, first := c.f 0 19 0 5,
    par := (List.range 6).map (fun i => f32 (c.b (20 + 4 * i) 4)) }

/-- Why a warp cannot start. -/
def State.warpFault (s : State) (a : WarpArgs) : Option (Half × Word) :=
  match s.map? a.src, s.map? a.dst with
  | some x, some y =>
    if x.width ≠ y.width ∨ x.height ≠ y.height ∨ y.cBlocks < a.first + x.cBlocks then some (stMapGeometry, BitVec.ofNat 32 y.id)
    else s.engineFault .canopy y.stems
  | _, _ => none

/-- CNP_WARP (R327). -/
def execCnpWarp (cmd : Nat) (s : State) : Host.Outcome State Fault Refusal :=
  answer s true (s.onCmd cmd 0x5 0x05 (fun c =>
    if c.started then s else s.startMaps c (s.warpFault c.warpArgs) (fun s => s.addRun cmd)))

/-- 0.5 and 1. -/
def half32 : FVal := .fin false 1 (-1)
def one32 : FVal := .fin false 1 0

/-- A coordinate of the sampled place (R327): a·(u + 0.5) + b·(v + 0.5) + t − 0.5, each operation rounded. -/
def warpCoord (a b t : FVal) (u v : Nat) : FVal :=
  let p (x : Nat) : FVal := add32 (FVal.ofInt x) half32
  sub32 (add32 (add32 (mul32 a (p u)) (mul32 b (p v))) t) half32

/-- The four neighbours in the order of R327, with their weights. -/
def warpTaps (us vs : FVal) : Option (List (Int × Int × FVal)) :=
  match us.floor, vs.floor with
  | some i, some j =>
    let fu := sub32 us (FVal.ofInt i)
    let fv := sub32 vs (FVal.ofInt j)
    let gu := sub32 one32 fu
    let gv := sub32 one32 fv
    some [(i, j, mul32 gu gv), (i + 1, j, mul32 fu gv), (i, j + 1, mul32 gu fv), (i + 1, j + 1, mul32 fu fv)]
  | _, _ => none

/-- The 32 values of a block of a map cell. -/
def State.mapCell (s : State) (o : Origin) (m : CMap) (u v cb : Nat) : State × Except AccErr (List FVal) :=
  match s.load o (m.addr u v cb) m.rs with
  | (s, .error e) => (s, .error e)
  | (s, .ok row) => (s, .ok (rowBlock m.fmt 32 row 0))

/-- Whether a position lies inside a map. -/
def CMap.holds? (m : CMap) (i j : Int) : Bool :=
  decide (0 ≤ i) && decide (i < m.width) && decide (0 ≤ j) && decide (j < m.height)

/-- The values of a block at the neighbours with a weight that is not zero: position by position, up to the first read that
fails. -/
def State.warpReads (s : State) (o : Origin) (m : CMap) (rep : Bool) (cb : Nat) : List (Int × Int × FVal) →
    State × Except AccErr (List (FVal × List FVal))
  | [] => (s, .ok [])
  | (i, j, w) :: rest =>
    let inside := m.holds? i j
    let at_ : Nat × Nat := ((clampInt 0 (m.width - 1) i).toNat, (clampInt 0 (m.height - 1) j).toNat)
    match (if inside || rep then s.mapCell o m at_.1 at_.2 cb else (s, .ok (List.replicate 32 (.fin false 0 0)))) with
    | (s, .error e) => (s, .error e)
    | (s, .ok vs) =>
      match s.warpReads o m rep cb rest with
      | (s, .error e) => (s, .error e)
      | (s, .ok l) => (s, .ok ((w, vs) :: l))

/-- The weighted sum of a channel, left to right: a neighbour of weight zero contributes nothing. -/
def warpSum (l : List (FVal × List FVal)) (c : Nat) : FVal :=
  let ts := l.map (fun x => mul32 x.1 (nth .nan x.2 c))
  match ts with
  | [] => .fin false 0 0
  | t :: r => r.foldl add32 t

/-- Free values for a cell whose sampled place is not a number: the spec states no result. -/
def State.freeVals (s : State) : State × List FVal :=
  (List.range 32).foldl (fun x _ =>
    let (w, s) := x.1.draw
    (s, x.2 ++ [f32 (w.toNat % 2 ^ 32)])) (s, [])

/-- The blocks of one warped cell. -/
def State.warpBlocks (s : State) (o : Origin) (a : WarpArgs) (src : CMap) (taps : Option (List (Int × Int × FVal))) :
    List Nat → State × Except AccErr (List (Nat × List FVal))
  | [] => (s, .ok [])
  | cb :: rest =>
    let r := match taps with
      | some l =>
        (match s.warpReads o src a.replicate cb l with
         | (s, .error e) => (s, Except.error e)
         | (s, .ok ws) => (s, .ok ((List.range 32).map (warpSum ws))))
      | none => let (s, vs) := s.freeVals; (s, .ok vs)
    match r with
    | (s, .error e) => (s, .error e)
    | (s, .ok vs) =>
      match s.warpBlocks o a src taps rest with
      | (s, .error e) => (s, .error e)
      | (s, .ok l) => (s, .ok ((a.first + cb, vs) :: l))

/-- The warp of one cell. -/
def State.warpCell (s : State) (o : Origin) (a : WarpArgs) (src dst : CMap) (u v : Nat) (n : UnitCounts) : State × Except AccErr UnitCounts :=
  let p (i : Nat) : FVal := nth .nan a.par i
  let taps := (warpTaps (warpCoord (p 0) (p 1) (p 4) u v) (warpCoord (p 2) (p 3) (p 5) u v)).map
    (fun l => l.filter (fun t => !t.2.2.isZero))
  let border := match taps with | some l => l.any (fun t => !src.holds? t.1 t.2.1) | none => true
  match s.warpBlocks o a src taps (List.range src.cBlocks) with
  | (s, .error e) => (s, .error e)
  | (s, .ok bs) => s.writeCell o dst u v bs { n with border := n.border + (if border then 1 else 0) }

/-! Devoxelisation (R330, R331, R342). -/

/-- What a devoxelisation is asked to do. -/
structure DevoxArgs where
  points : Bool
  argmax : Bool
  map : Nat
  inFmt : Nat
  out : Nat
  cBlocks : Nat
  count : Nat
  inBase : Nat
  outBase : Nat
  table : Nat
  feat : FeaturePlace

def Cmd.devoxArgs (c : Cmd) : DevoxArgs :=
  { points := c.f 0 16 0 2 == 1, argmax := c.f 0 16 2 1 == 1, map := c.b 17 1, inFmt := c.f 0 18 0 4, out := c.f 0 18 4 4,
    cBlocks := c.f 0 19 0 5 + 1, count := c.b 20 4, inBase := c.b 24 6, outBase := c.b 30 6, table := c.f 1 10 0 6,
    feat := { inHbm := c.f 1 11 6 1 == 1, base := c.e 4 6, t0 := c.f 1 11 0 6, m := c.f 1 12 0 3, offset := c.e 13 3 } }

/-- Why a devoxelisation cannot start. -/
def State.devoxFault (s : State) (part : Nat) (a : DevoxArgs) : Option (Half × Word) :=
  if a.points then
    match s.map? a.map with
    | some m => if m.cBlocks ≠ a.cBlocks then some (stMapGeometry, BitVec.ofNat 32 m.id) else none
    | none => none
  else match s.table? a.table with
    | none => some (stTableAbsent, BitVec.ofNat 32 a.table)
    | some t =>
      if s.tableElsewhere part t.id then some (stOwnership, 74)
      else if t.state == .failed then some (stTableFailed, BitVec.ofNat 32 t.id)
      else if t.state != .final || t.heldBy.isSome then some (stTableState, t.stateMet)
      else none

/-- CNP_DEVOX (R330). -/
def execCnpDevox (cmd : Nat) (s : State) : Host.Outcome State Fault Refusal :=
  answer s true (s.onCmd cmd 0x5 0x06 (fun c =>
    let a := c.devoxArgs
    if c.started || (!a.points && (match s.table? a.table with | some t => t.clearing | none => false)) then s
    else s.startMaps c (s.devoxFault c.part a) (fun s => (if a.points then s else s.pinTable a.table cmd).addRun cmd)))

/-- The label record of R331. -/
def labelOf (vs : Option (List FVal)) : List Byte :=
  match vs with
  | none => natToBytes 2 0xFFFF ++ natToBytes 6 0
  | some vs =>
    let best := vs.zipIdx.foldl (fun (b : Option (FVal × Nat)) x =>
      if x.1.isNan then b else match b with
        | none => some x
        | some y => if y.1.lt x.1 then some x else b) none
    match best with
    | none => natToBytes 2 0xFFFE ++ natToBytes 2 0 ++ natToBytes 4 0x7FC00000
    | some (v, i) => natToBytes 2 i ++ natToBytes 2 0 ++ natToBytes 4 (fp32.enc v)

/-- The channels of an input's cell: none where it is absent. -/
def State.devoxInput (s : State) (o : Origin) (a : DevoxArgs) (i : Nat) : State × Except AccErr (Option (List FVal)) :=
  if a.points then
    match s.map? a.map with
    | none => (s, .ok none)
    | some m =>
      match s.load o (a.inBase + 32 * i) 32 with
      | (s, .error e) => (s, .error e)
      | (s, .ok b) =>
        let p := pointOf b
        let u := floorDiv (p.x - m.ox) m.vx - m.x0
        let v := floorDiv (p.y - m.oy) m.vy - m.y0
        if !m.holds? u v then (s, .ok none)
        else
          (List.range m.cBlocks).foldl (fun x cb => match x with
            | (s, .ok (some vs)) => (match s.mapCell o m u.toNat v.toNat cb with
              | (s, .error e) => (s, .error e)
              | (s, .ok more) => (s, .ok (some (vs ++ more))))
            | x => x) (s, .ok (some []))
  else
    match s.table? a.table with
    | none => (s, .ok none)
    | some t =>
      match s.load o (a.inBase + 4 * i) 4 with
      | (s, .error e) => (s, .error e)
      | (s, .ok b) =>
        let e := leAt b 0 4
        if e / 2 ^ 30 ≠ 0 then (s, .ok none)
        else
          let size := rowSize a.inFmt (32 * a.cBlocks)
          match s.load o (a.feat.addr t.cfg.maxCells size (getBits e 22 2) (getBits e 0 22)) size with
          | (s, .error e) => (s, .error e)
          | (s, .ok row) => (s, .ok (some (rowValues a.inFmt a.cBlocks row)))

/-- The blocks of a packed row are converted and written in order. -/
def State.devoxRow (s : State) (o : Origin) (a : DevoxArgs) (base : Nat) (vs : List FVal) : List Nat → UnitCounts →
    State × Except AccErr UnitCounts
  | [], n => (s, .ok n)
  | nb :: rest, n =>
    let b := convertBlock a.out ((vs.drop (32 * nb)).take 32) (List.replicate 32 none)
    match s.storeBlock o a.out (32 * a.cBlocks) base nb b with
    | (s, some e) => (s, .error e)
    | (s, none) => s.devoxRow o a base vs rest { n with saturated := n.saturated + b.saturated, nonfinite := n.nonfinite + b.nonfinite }

/-- One input's output. -/
def State.devoxOne (s : State) (o : Origin) (a : DevoxArgs) (i : Nat) (n : UnitCounts) : State × Except AccErr UnitCounts :=
  match s.devoxInput o a i with
  | (s, .error e) => (s, .error e)
  | (s, .ok vs) =>
    let n := if vs.isNone then { n with absent := n.absent + 1 } else n
    if a.argmax then
      match s.store o (a.outBase + 8 * i) (labelOf vs) with
      | (s, some e) => (s, .error e)
      | (s, none) =>
        -- the canonical NaN of an input whose channels are all NaN is a non-finite output (R333)
        let nan := match vs with | some l => l.all FVal.isNan | none => false
        (s, .ok (if nan then { n with nonfinite := n.nonfinite + 1 } else n))
    else
      let size := rowSize a.out (32 * a.cBlocks)
      match vs with
      | none => (match s.store o (a.outBase + size * i) (List.replicate size 0) with
        | (s, some e) => (s, .error e)
        | (s, none) => (s, .ok n))
      | some vs => s.devoxRow o a (a.outBase + size * i) vs (List.range a.cBlocks) n

/-! Units (R332). -/

/-- Counts of a unit reach its engine, its Stem's registers and its command's run. -/
def State.canopyCounts (s : State) (cmd stem : Nat) (n : UnitCounts) : State :=
  let u := unitId 6 stem 0
  let s := (s.count Fld.cnpStemProbes_fold_probes n.probes stem).count Fld.cnpStemFolded_cells_folded n.folded stem
  let s := (s.count Fld.cnpStemBorder_warp_border n.border stem).count Fld.cnpStemAbsent_devox_absent n.absent stem
  let s := ((s.tally (some cmd) u 0x0500 n.probes).tally (some cmd) u 0x0501 n.folded).tally (some cmd) u 0x0502 n.border
  let s := s.tally (some cmd) u 0x0503 n.absent
  { s with canopy := { s.canopy with runs := updWhere s.canopy.runs (fun r => r.cmd == cmd) (fun r => { r with
      saturated := r.saturated + n.saturated, nonfinite := r.nonfinite + n.nonfinite, absent := r.absent + n.absent,
      border := r.border + n.border, probes := r.probes + n.probes, folded := r.folded + n.folded }) } }

/-- Conditions that an engine command met. -/
def CanopyRun.status (r : CanopyRun) : Half × Word :=
  let one (st : Half) (n : Nat) : List (Half × Word) := if n = 0 then [] else [(st, satDetail n)]
  leastCode (one stOutSaturated r.saturated ++ one stNonfinite r.nonfinite ++ one stDevoxAbsent r.absent)

/-- Cells of a spatial tile, in some order: rows upward. -/
def tileCells (tu tv : Nat) : List (Nat × Nat) :=
  (List.range 16).flatMap (fun b => (List.range 16).map (fun a => (16 * tu + a, 16 * tv + b)))

/-- The cells of a unit one after the other, up to the first failure. -/
def State.overCells (s : State) (f : State → Nat → Nat → UnitCounts → State × Except AccErr UnitCounts) :
    List (Nat × Nat) → UnitCounts → State × Except AccErr UnitCounts
  | [], n => (s, .ok n)
  | (u, v) :: rest, n =>
    match f s u v n with
    | (s, .error e) => (s, .error e)
    | (s, .ok n) => s.overCells f rest n

/-- Units of a band of a map, and the spatial tile of one. -/
def CMap.bandUnits (m : CMap) : Nat := m.bandTiles * (m.width / 16)
def CMap.unitTile (m : CMap) (j k : Nat) : Nat × Nat := (k % (m.width / 16), j * m.bandTiles + k / (m.width / 16))

/-- The band of a map that a Stem serves. -/
def CMap.bandOf (m : CMap) (stem : Nat) : Option Nat := (List.range m.bands).find? (fun j => m.bandStem j == stem)

/-- The work of the next unit of a command on a Stem, with whether it is the command's last: none where there is none. -/
def State.nextUnit (s : State) (c : Cmd) (r : CanopyRun) (stem : Nat) :
    Option ((State → State × Except AccErr UnitCounts) × Bool) :=
  let total := r.done.foldl (· + ·) 0
  let banded (m : CMap) (f : State → Nat → Nat → UnitCounts → State × Except AccErr UnitCounts) :
      Option ((State → State × Except AccErr UnitCounts) × Bool) :=
    match m.bandOf stem with
    | none => none
    | some j =>
      let k := nth 0 r.done stem
      if k ≥ m.bandUnits then none
      else
        let t := m.unitTile j k
        some (fun s => s.overCells f (tileCells t.1 t.2) {}, decide (total + 1 = m.bands * m.bandUnits))
  match c.opcode with
  | 0x03 =>
    let a := c.foldArgs
    (match s.table? a.table, s.map? a.map with
     | some t, some m => banded m (fun s u v n => s.foldCell c.origin a t m u v n)
     | _, _ => none)
  | 0x05 =>
    let a := c.warpArgs
    (match s.map? a.src, s.map? a.dst with
     | some x, some y => banded y (fun s u v n => s.warpCell c.origin a x y u v n)
     | _, _ => none)
  | 0x06 =>
    let a := c.devoxArgs
    let lo := 4096 * total
    if lo ≥ a.count then none
    else
      let n := min 4096 (a.count - lo)
      some (fun s => s.overCells (fun s i _ n => s.devoxOne c.origin a i n) ((List.range n).map (fun i => (lo + i, 0))) {},
        decide (lo + n = a.count))
  | _ => none

/-- The commands that have work for a Stem's Canopy engine. -/
def State.canopyWork (s : State) (stem : Nat) : List Cmd :=
  s.atWork ((s.canopy.runs.filter (fun r => match s.cmd? r.cmd with
    | some c => (s.nextUnit c r stem).isSome
    | none => false)).map (fun r => r.cmd))

/-- CANOPY_UNIT: a Stem's Canopy engine completes one unit of a command (R332). -/
def execCanopyUnit (cmd stem : Nat) (s : State) : Host.Outcome State Fault Refusal :=
  answer s (isStem stem) (match s.running cmd 5 ((s.cmd? cmd).map Cmd.opcode |>.getD 0),
      s.canopy.runs.find? (fun r => r.cmd == cmd) with
    | some c, some r =>
      if (s.engineFault .canopy [stem]).isSome then s
      else match s.nextUnit c r stem with
      | none => s
      | some (work, last) =>
        let u := unitId 6 stem 0
        match s.takeTurn u (s.rdN Fld.cnpCtrl_slice_items) (s.canopyWork stem) c with
        | none => s
        | some t =>
        match work t with
        | (s, .error e) => (s.dropWork cmd).failAcc cmd e
        | (s, .ok n) =>
          let k := nth 0 r.done stem
          let s := (s.canopyCounts cmd stem n).committed (some cmd) u k
          let s := { s with canopy := { s.canopy with runs := updWhere s.canopy.runs (fun r => r.cmd == cmd) (fun r => { r with
              done := r.done.set stem (k + 1) }) } }
          if last then
            let st := ((s.canopy.runs.find? (fun r => r.cmd == cmd)).map CanopyRun.status).getD (stSuccess, 0)
            ({ s with canopy := { s.canopy with runs := s.canopy.runs.filter (fun r => r.cmd != cmd) } }).finish cmd st.1 st.2
          else s
    | _, _ => s)

/-! History (R334). -/

/-- HISTORY_RESET (R334). -/
def execHistoryReset (cmd : Nat) (s : State) : Host.Outcome State Fault Refusal :=
  answer s true (s.onCmd cmd 0x0 0x50 (fun c =>
    let n := c.b 16 2
    if (s.set? n).isNone then s.finish cmd stSetUndefined (BitVec.ofNat 32 n)
    else
      let rs := if s.canopy.resets.contains n then s.canopy.resets else s.canopy.resets ++ [n]
      ({ s with canopy := { s.canopy with resets := rs } }).finish cmd stSuccess))

/-- HISTORY_LIMIT (R334): 0 selects the package's value. -/
def execHistoryLimit (cmd : Nat) (s : State) : Host.Outcome State Fault Refusal :=
  answer s true (s.onCmd cmd 0x0 0x51 (fun c =>
    let n := c.b 16 2
    let rest := s.canopy.limits.filter (fun x => x.1 != n)
    if (s.set? n).isNone then s.finish cmd stSetUndefined (BitVec.ofNat 32 n)
    else
      ({ s with canopy := { s.canopy with limits := if c.b 20 4 = 0 then rest else rest ++ [(n, c.b 20 4)] } }).finish cmd stSuccess))

end Sys2Proof.Machine
end

