-- ==== Sys2Proof/Machine/TwigDecode.lean ====
section
/-! DEFINITION. The instructions of a Twig (R290 to R292, R300): decoding RV64IMAC and the tile extension, and what integer,
multiply and divide instructions compute. PRESUMED from the RISC-V unprivileged specification, which the spec names. -/
namespace Sys2Proof.Machine

/-- An instruction that executes. Immediates are sign-extended; register fields are numbers below 32. -/
inductive TwigOp where
  | lui (rd : Nat) (imm : DWord)
  | auipc (rd : Nat) (imm : DWord)
  | jal (rd : Nat) (imm : DWord)
  | jalr (rd rs1 : Nat) (imm : DWord)
  | branch (f3 rs1 rs2 : Nat) (imm : DWord)
  | load (f3 rd rs1 : Nat) (imm : DWord)
  | store (f3 rs1 rs2 : Nat) (imm : DWord)
  /-- funct3, the alternate function (subtract, arithmetic shift), and the 32-bit form. -/
  | opImm (f3 : Nat) (alt w : Bool) (rd rs1 : Nat) (imm : DWord)
  | op (f3 : Nat) (alt w : Bool) (rd rs1 rs2 : Nat)
  | mulDiv (f3 : Nat) (w : Bool) (rd rs1 rs2 : Nat)
  | fence
  | fenceI
  | brk
  | csr (num rd : Nat)
  | amo (op : AtomicOp) (aq rl : Bool) (rd rs1 rs2 : Nat)
  | acq
  | rel
  | yield
  | exit (rs1 : Nat)
  | time (rd : Nat)
  | tid (rd : Nat)
  | knotSig (rs1 rs2 : Nat)
  | knotWait (rd rs1 rs2 : Nat)
  | knotRd (rd rs1 : Nat)
  | cas (aq rl : Bool) (rd rs1 rs2 : Nat)
  | illegal
  deriving DecidableEq, Repr

/-- A w-bit field, sign-extended. -/
def sext (w x : Nat) : DWord := BitVec.ofInt 64 (toSigned w x)

/-- The CSRs that a thread can read (R292). -/
def twigCsr (n : Nat) : Bool := n == 0xC00 || n == 0xC01 || n == 0xC02 || n == 0xCC0

/-- The atomics that execute, by funct5 (R298). -/
def amoOp : Nat → Option AtomicOp
  | 0x00 => some .add | 0x01 => some .swap | 0x10 => some .minS | 0x14 => some .maxS | 0x18 => some .minU | 0x1C => some .maxU
  | _ => none

/-- The tile extension (R300). -/
def decodeTile (w : Nat) : TwigOp :=
  let rd := getBits w 7 5
  let rs1 := getBits w 15 5
  let rs2 := getBits w 20 5
  let f7 := getBits w 25 7
  let only (ok : Bool) (i : TwigOp) : TwigOp := if ok then i else .illegal
  match getBits w 12 3, f7 with
  | 0, 0x00 => only (rd == 0 && rs1 == 0 && rs2 == 0) .acq
  | 0, 0x01 => only (rd == 0 && rs1 == 0 && rs2 == 0) .rel
  | 0, 0x02 => only (rd == 0 && rs1 == 0 && rs2 == 0) .yield
  | 0, 0x03 => only (rd == 0 && rs2 == 0) (.exit rs1)
  | 0, 0x04 => only (rs1 == 0 && rs2 == 0) (.time rd)
  | 0, 0x05 => only (rs1 == 0 && rs2 == 0) (.tid rd)
  | 1, 0x00 => only (rd == 0) (.knotSig rs1 rs2)
  | 1, 0x01 => .knotWait rd rs1 rs2
  | 1, 0x02 => only (rs2 == 0) (.knotRd rd rs1)
  | 2, f => only (decide (f < 4)) (.cas (f.testBit 1) (f.testBit 0) rd rs1 rs2)
  | _, _ => .illegal

/-- Whether an immediate shift's upper bits are legal, and whether it is arithmetic. -/
def shiftForm (w : Nat) (word : Bool) : Option Bool :=
  let hi := if word then getBits w 25 7 else getBits w 26 6 * 2
  if hi = 0 then some false else if hi = 0x20 then some true else none

/-- A 32-bit instruction. -/
def decode32 (w : Nat) : TwigOp :=
  let rd := getBits w 7 5
  let f3 := getBits w 12 3
  let rs1 := getBits w 15 5
  let rs2 := getBits w 20 5
  let f7 := getBits w 25 7
  let immI := sext 12 (getBits w 20 12)
  let immS := sext 12 (f7 * 32 + rd)
  let immB := sext 13 (getBits w 31 1 * 4096 + getBits w 7 1 * 2048 + getBits w 25 6 * 32 + getBits w 8 4 * 2)
  let immU := sext 32 (getBits w 12 20 * 4096)
  let immJ := sext 21 (getBits w 31 1 * 2 ^ 20 + getBits w 12 8 * 4096 + getBits w 20 1 * 2048 + getBits w 21 10 * 2)
  let opi (word : Bool) : TwigOp :=
    if word && f3 != 0 && f3 != 1 && f3 != 5 then .illegal
    else if f3 = 1 ∨ f3 = 5 then
      match shiftForm w word with
      | some alt => if alt && f3 == 1 then .illegal else .opImm f3 alt word rd rs1 (BitVec.ofNat 64 (getBits w 20 (if word then 5 else 6)))
      | none => .illegal
    else .opImm f3 false word rd rs1 immI
  let opr (word : Bool) : TwigOp :=
    if f7 = 1 then (if word && (f3 == 1 || f3 == 2 || f3 == 3) then .illegal else .mulDiv f3 word rd rs1 rs2)
    else if word && f3 != 0 && f3 != 1 && f3 != 5 then .illegal
    else if f7 = 0 then .op f3 false word rd rs1 rs2
    else if f7 = 0x20 ∧ (f3 = 0 ∨ f3 = 5) then .op f3 true word rd rs1 rs2
    else .illegal
  match getBits w 0 7 with
  | 0x37 => .lui rd immU
  | 0x17 => .auipc rd immU
  | 0x6F => .jal rd immJ
  | 0x67 => if f3 = 0 then .jalr rd rs1 immI else .illegal
  | 0x63 => if f3 = 2 ∨ f3 = 3 then .illegal else .branch f3 rs1 rs2 immB
  | 0x03 => if f3 = 7 then .illegal else .load f3 rd rs1 immI
  | 0x23 => if f3 > 3 then .illegal else .store f3 rs1 rs2 immS
  | 0x13 => opi false
  | 0x1B => opi true
  | 0x33 => opr false
  | 0x3B => opr true
  | 0x0F => if f3 = 0 then .fence else if f3 = 1 then .fenceI else .illegal
  | 0x73 =>
    if w = 0x00000073 ∨ w = 0x00100073 then .brk
    else if f3 % 4 ≥ 2 && rs1 == 0 && twigCsr (getBits w 20 12) then .csr (getBits w 20 12) rd
    else .illegal
  | 0x2F =>
    if f3 = 3 then
      match amoOp (getBits w 27 5) with
      | some op => .amo op (w.testBit 26) (w.testBit 25) rd rs1 rs2
      | none => .illegal
    else .illegal
  | 0x0B => decodeTile w
  | _ => .illegal

/-- A compressed instruction. -/
def decode16 (w : Nat) : TwigOp :=
  let b (lo n : Nat) : Nat := getBits w lo n
  let r (lo : Nat) : Nat := 8 + b lo 3
  let rd := b 7 5
  let rs2 := b 2 5
  let imm6 := sext 6 (b 12 1 * 32 + b 2 5)
  let sh := BitVec.ofNat 64 (b 12 1 * 32 + b 2 5)
  let immW := BitVec.ofNat 64 (b 10 3 * 8 + b 6 1 * 4 + b 5 1 * 64)
  let immD := BitVec.ofNat 64 (b 10 3 * 8 + b 5 2 * 64)
  let immB := sext 9 (b 12 1 * 256 + b 10 2 * 8 + b 5 2 * 64 + b 3 2 * 2 + b 2 1 * 32)
  match b 0 2, b 13 3 with
  | 0, 0 =>
    let imm := b 11 2 * 16 + b 7 4 * 64 + b 6 1 * 4 + b 5 1 * 8
    if imm = 0 then .illegal else .opImm 0 false false (r 2) 2 (BitVec.ofNat 64 imm)
  | 0, 2 => .load 2 (r 2) (r 7) immW
  | 0, 3 => .load 3 (r 2) (r 7) immD
  | 0, 6 => .store 2 (r 7) (r 2) immW
  | 0, 7 => .store 3 (r 7) (r 2) immD
  | 1, 0 => .opImm 0 false false rd rd imm6
  | 1, 1 => if rd = 0 then .illegal else .opImm 0 false true rd rd imm6
  | 1, 2 => .opImm 0 false false rd 0 imm6
  | 1, 3 =>
    if rd = 2 then
      let imm := sext 10 (b 12 1 * 512 + b 6 1 * 16 + b 5 1 * 64 + b 3 2 * 128 + b 2 1 * 32)
      if imm = 0 then .illegal else .opImm 0 false false 2 2 imm
    else if imm6 = 0 then .illegal
    else .lui rd (sext 18 (b 12 1 * 2 ^ 17 + b 2 5 * 4096))
  | 1, 4 =>
    (match b 10 2 with
     | 0 => .opImm 5 false false (r 7) (r 7) sh
     | 1 => .opImm 5 true false (r 7) (r 7) sh
     | 2 => .opImm 7 false false (r 7) (r 7) imm6
     | _ =>
       match b 12 1, b 5 2 with
       | 0, 0 => .op 0 true false (r 7) (r 7) (r 2)
       | 0, 1 => .op 4 false false (r 7) (r 7) (r 2)
       | 0, 2 => .op 6 false false (r 7) (r 7) (r 2)
       | 0, 3 => .op 7 false false (r 7) (r 7) (r 2)
       | 1, 0 => .op 0 true true (r 7) (r 7) (r 2)
       | 1, 1 => .op 0 false true (r 7) (r 7) (r 2)
       | _, _ => .illegal)
  | 1, 5 =>
    .jal 0 (sext 12 (b 12 1 * 2048 + b 11 1 * 16 + b 9 2 * 256 + b 8 1 * 1024 + b 7 1 * 64 + b 6 1 * 128 + b 3 3 * 2 + b 2 1 * 32))
  | 1, 6 => .branch 0 (r 7) 0 immB
  | 1, 7 => .branch 1 (r 7) 0 immB
  | 2, 0 => .opImm 1 false false rd rd sh
  | 2, 2 => if rd = 0 then .illegal else .load 2 rd 2 (BitVec.ofNat 64 (b 12 1 * 32 + b 4 3 * 4 + b 2 2 * 64))
  | 2, 3 => if rd = 0 then .illegal else .load 3 rd 2 (BitVec.ofNat 64 (b 12 1 * 32 + b 5 2 * 8 + b 2 3 * 64))
  | 2, 4 =>
    (match b 12 1 with
     | 0 => if rs2 ≠ 0 then .op 0 false false rd 0 rs2 else if rd = 0 then .illegal else .jalr 0 rd 0
     | _ => if rs2 ≠ 0 then .op 0 false false rd rd rs2 else if rd = 0 then .brk else .jalr 1 rd 0)
  | 2, 6 => .store 2 2 rs2 (BitVec.ofNat 64 (b 9 4 * 4 + b 7 2 * 64))
  | 2, 7 => .store 3 2 rs2 (BitVec.ofNat 64 (b 10 3 * 8 + b 7 3 * 64))
  | _, _ => .illegal

/-- The instruction that starts a word, and its length in bytes. -/
def decodeTwig (w : Nat) : TwigOp × Nat := if w % 4 = 3 then (decode32 w, 4) else (decode16 (w % 65536), 2)

/-! What instructions compute. -/

/-- The low 32 bits of a value, sign-extended. -/
def sextW (x : DWord) : DWord := sext 32 (x.toNat % 2 ^ 32)

/-- An integer operation of 64 bits. -/
def alu64 (f3 : Nat) (alt : Bool) (x y : DWord) : DWord :=
  let sh := y.toNat % 64
  match f3 with
  | 0 => if alt then x - y else x + y
  | 1 => x <<< sh
  | 2 => if x.toInt < y.toInt then 1 else 0
  | 3 => if x.toNat < y.toNat then 1 else 0
  | 4 => x ^^^ y
  | 5 => if alt then x.sshiftRight sh else x >>> sh
  | 6 => x ||| y
  | _ => x &&& y

/-- An integer operation of 32 bits: add, subtract and shifts. -/
def alu32 (f3 : Nat) (alt : Bool) (x y : DWord) : DWord :=
  let sh := y.toNat % 32
  match f3 with
  | 0 => sextW (if alt then x - y else x + y)
  | 1 => sextW (x <<< sh)
  | _ => if alt then sextW ((sextW x).sshiftRight sh) else sext 32 ((x.toNat % 2 ^ 32) >>> sh)

/-- An integer operation. -/
def alu (f3 : Nat) (alt w : Bool) (x y : DWord) : DWord := if w then alu32 f3 alt x y else alu64 f3 alt x y

/-- Division of integers by the rules of RISC-V: a zero divisor gives −1, and the remainder is then the dividend. -/
def divInt (x y : Int) : Int := if y = 0 then -1 else Int.tdiv x y
def remInt (x y : Int) : Int := if y = 0 then x else Int.tmod x y

/-- A multiply or divide. -/
def mulDiv (f3 : Nat) (w : Bool) (x y : DWord) : DWord :=
  let bits := if w then 32 else 64
  let sx := toSigned bits x.toNat
  let sy := toSigned bits y.toNat
  let ux : Int := (x.toNat % 2 ^ bits : Nat)
  let uy : Int := (y.toNat % 2 ^ bits : Nat)
  let r : Int := match f3 with
    | 0 => sx * sy
    | 1 => floorDiv (sx * sy) ((2 ^ 64 : Nat) : Int)
    | 2 => floorDiv (sx * uy) ((2 ^ 64 : Nat) : Int)
    | 3 => floorDiv (ux * uy) ((2 ^ 64 : Nat) : Int)
    | 4 => divInt sx sy
    | 5 => divInt ux uy
    | 6 => remInt sx sy
    | _ => remInt ux uy
  if w then sextW (BitVec.ofInt 64 r) else BitVec.ofInt 64 r

/-- Whether a branch is taken. -/
def taken (f3 : Nat) (x y : DWord) : Bool :=
  match f3 with
  | 0 => x == y
  | 1 => x != y
  | 4 => decide (x.toInt < y.toInt)
  | 5 => decide (y.toInt ≤ x.toInt)
  | 6 => decide (x.toNat < y.toNat)
  | _ => decide (y.toNat ≤ x.toNat)

/-- Bytes of a load or store. -/
def accessBytes (f3 : Nat) : Nat := 2 ^ (f3 % 4)

/-- The value of a load: bit 2 of funct3 says zero extension. -/
def loaded (f3 : Nat) (b : List Byte) : DWord :=
  let n := accessBytes f3
  let v := leAt b 0 n
  if f3 ≥ 4 then BitVec.ofNat 64 v else sext (8 * n) v

end Sys2Proof.Machine
end

