-- ==== Sys2Proof/Machine/TwigThreads.lean ====
section
/-! DEFINITION. Tile programs and their threads (R290 to R312): launching, suspension, exceptions, caches and the issue of an
instruction. -/
namespace Sys2Proof.Machine

/-! Statuses (R287). -/
def stTwigAccess : Half := 0x0450
def stTwigIllegal : Half := 0x0451
def stTwigMisaligned : Half := 0x0452
def stTwigBreak : Half := 0x0453
def stTwigWatchdog : Half := 0x0454
def stTwigKnot : Half := 0x0455

/-! Launching (R303 to R306, R309). -/

/-- Slots of some tiles in the order of R305. -/
def slotsOf (ts : List (Nat × Nat)) (mask : Nat) : List (Nat × Nat × Nat) :=
  ts.flatMap (fun t => (bitList 16 mask).map (fun j => (t.1, t.2, j)))

/-- Four masks of the tiles that slots lie on. -/
def tileMasksOf (slots : List (Nat × Nat × Nat)) : List Nat :=
  (List.range 4).map (fun j => (slots.filter (fun x => x.1 == j)).foldl (fun m x => setBit m x.2.1) 0)

/-- The tiles of a program. -/
def Program.tileList (p : Program) : List (Nat × Nat) := tilesOf p.tiles

/-- The program that TWIG_RUN describes (R303, R304). -/
def Cmd.twigProgram (c : Cmd) : Program :=
  let slots := slotsOf (tilesOf c.tileMasks) (c.b 22 2)
  { cmd := c.id, part := c.part, entry := c.b 16 6, slots := slots, arg := BitVec.ofNat 64 (c.b 24 8), stackBase := c.b 32 6,
    stackKib := c.b 38 2, limitUs := c.b 40 4, arrayAccess := c.f 0 44 0 1 == 1, saveBase := c.e 4 6, tiles := c.tileMasks }

/-- Whether the areas of a program lie in memory that its partition owns: its first instruction in HBM or Sapwood, and its save area in HBM
(R303, R304). -/
def State.programPlaced (s : State) (p : Program) : Bool :=
  let n := p.slots.length
  decide (p.entry < 0x200000000000) && decide (p.saveBase + 512 * n ≤ 0x100000000000) && s.owns p.part p.entry (p.entry + 2) && s.owns p.part p.saveBase (p.saveBase + 512 * n)
    && (p.stackKib == 0 || s.owns p.part p.stackBase (p.stackBase + n * p.stackKib * 1024))

/-- The run limit of a program: 0 selects the default, of which 0 acts as 1 (R303, R308, R312). -/
def State.runLimit (s : State) (us : Nat) : Nat := if us = 0 then max 1 (s.rdN Fld.twigCtrl_default_limit_us) else us

/-- A program waits for its slots, with the limit that it runs under. -/
def State.addProgram (s : State) (p : Program) : State :=
  { s with compute := { s.compute with programs := s.compute.programs ++ [{ p with limitUs := s.runLimit p.limitUs }] } }

/-- TWIG_RUN (R303, R304). -/
def execTwigRun (cmd : Nat) (s : State) : Host.Outcome State Fault Refusal :=
  answer s true (s.onStart cmd 0x4 0x10 (fun s c =>
    let p := c.twigProgram
    if p.tileList.isEmpty then s.finish cmd stTilePlacement 4
    else if p.saveBase = 0 then s.finish cmd stTilePlacement 3
    else match s.tilesFault p.tileList with
    | some f => s.finish cmd f.1 f.2
    | none => if s.programPlaced p then s.addProgram p else s.finish cmd stTilePlacement 3))

/-- Whether a program is suspended on a tile. -/
def State.suspendedOn (s : State) (cmd stem tile : Nat) : Bool :=
  s.compute.programs.any (fun p => p.cmd == cmd && p.suspended.contains (stem, tile))

/-- The class of a command in flight. -/
def State.critOf (s : State) (id : Nat) : Nat := ((s.cmd? id).map (·.crit)).getD 0

/-- Whether a slot is FREE (R293). -/
def State.threadSlotFree (s : State) (x : Nat × Nat × Nat) : Bool :=
  !s.compute.threads.any (fun t => t.stem == x.1 && t.tile == x.2.1 && t.slot == x.2.2)

/-- Whether a slot holds another command's thread, unless that command is of a lower class and has been suspended there (R306). -/
def State.slotTaken (s : State) (p : Program) (x : Nat × Nat × Nat) : Bool :=
  s.compute.threads.any (fun t => t.stem == x.1 && t.tile == x.2.1 && t.slot == x.2.2 && t.cmd != p.cmd
    && !(s.suspendedOn t.cmd x.1 x.2.1 && decide (s.critOf t.cmd < s.critOf p.cmd)))

/-- n elements of a list, freely chosen, in its order. -/
def State.pickSome {α : Type} [BEq α] (s : State) (n : Nat) (l : List α) : State × List α :=
  let go := (List.range n).foldl (fun (x : State × List α) _ =>
    let (k, s) := x.1.choose x.2.length
    (s, x.2.eraseIdx k)) (s, l)
  (go.1, l.filter (fun x => !go.2.contains x))

/-- PROGRAM_RUN (R309): firmware chooses free slots of the partition's tiles; the package declares the rest. -/
def execProgramRun (cmd : Nat) (s : State) : Host.Outcome State Fault Refusal :=
  answer s true (s.onStart cmd 0x0 0x42 (fun s c =>
    match (s.package? c.part (c.b 16 2)).bind (fun p => p.programs[c.b 18 2]?) with
    | none => s.finish cmd stBadValue 18
    | some d =>
      let n := c.b 20 4
      let free := (slotsOf (s.partTiles c.part) 0xFFFF).filter s.threadSlotFree
      if free.length < n then s.finish cmd stResource
      else
        let (s, slots) := s.pickSome n free
        let p : Program :=
          { cmd := cmd, part := c.part, entry := d.entry, slots := slots, arg := BitVec.ofNat 64 (c.b 24 8), stackBase := d.stackBase,
            stackKib := d.stackKib, limitUs := d.limitUs, arrayAccess := d.arrayAccess, saveBase := d.saveBase,
            tiles := tileMasksOf slots }
        if s.programPlaced p then s.addProgram p else s.finish cmd stResource))

/-- The identity word (R301). -/
def State.identityWord (s : State) (stem tile slot : Nat) : DWord :=
  BitVec.ofNat 64 (s.chipId * 2 ^ 48 + stem * 2 ^ 32 + tile * 2 ^ 24 + slot)

/-- A thread as it starts (R305). Its pc names this chip. -/
def State.newThread (s : State) (p : Program) (x : Nat × Nat × Nat) (i : Nat) : Thread :=
  let sp : Nat := if p.stackKib = 0 then 0 else p.stackBase + (i + 1) * p.stackKib * 1024
  let regs : List DWord := (List.range 32).map (fun r =>
    if r = 10 then p.arg else if r = 11 then BitVec.ofNat 64 i else if r = 12 then BitVec.ofNat 64 p.slots.length
    else if r = 4 then s.identityWord x.1 x.2.1 x.2.2 else if r = 2 then BitVec.ofNat 64 sp else 0)
  { stem := x.1, tile := x.2.1, slot := x.2.2, cmd := p.cmd, index := i, pc := BitVec.ofNat 64 (s.chipId * 2 ^ 48 + p.entry),
    regs := regs }

/-- Slots and arrays that a program needs and that programs of a lower class hold: those begin to suspend (R306, R307). -/
def State.evictFor (s : State) (p : Program) (ts : List (Nat × Nat)) : State :=
  s.suspendOn ts (fun q => q.cmd != p.cmd && decide (s.critOf q.cmd < s.critOf p.cmd)
    && (p.slots.any (fun x => s.compute.threads.any (fun t => t.cmd == q.cmd && t.stem == x.1 && t.tile == x.2.1 && t.slot == x.2.2))
      || (p.arrayAccess && q.arrayAccess)))

/-- Whether a program can have a tile now: its slots there are free, and with array_access no other program holds its array; an engine's
item there is at its pass boundary (R306). -/
def State.tileFor (s : State) (p : Program) (t : Nat × Nat) : Bool :=
  s.tileServes t.1 t.2 && s.slotAdmits t.1 p.part
    && !(p.slots.filter (fun x => x.1 == t.1 && x.2.1 == t.2)).any (s.slotTaken p)
    && (!p.arrayAccess || (match s.arrayHolder t.1 t.2 with | some q => q.cmd == p.cmd | none => true))

/-- Engine items on tiles whose arrays a program takes are preempted at their boundary. -/
def State.yieldArrays (s : State) (p : Program) (ts : List (Nat × Nat)) : State :=
  if p.arrayAccess then
    { s with compute := { s.compute with
        items := updWhere s.compute.items (fun w => w.active && ts.any (fun t => t.1 == w.stem && w.tile == some t.2)) (fun w => { w with suspended := true }) } }
  else s

/-- A change to a program. -/
def State.updProgram (s : State) (id : Nat) (f : Program → Program) : State :=
  { s with compute := { s.compute with programs := updWhere s.compute.programs (fun p => p.cmd == id) f } }

/-- A program of a command that runs. -/
def State.program? (s : State) (id : Nat) : Option Program :=
  match s.cmd? id with
  | some c => if c.phase == .running then s.compute.programs.find? (fun p => p.cmd == id) else none
  | none => none

/-- TWIG_THREADS_START: every slot of a program is free, and its threads start (R305, R306). The instruction caches of its tiles
are invalidated (R292). -/
def execTwigThreadsStart (cmd : Nat) (s : State) : Host.Outcome State Fault Refusal :=
  answer s true (match s.program? cmd with
    | none => s
    | some p =>
      if p.started then s
      else
        let ts := p.tileList
        if ts.all (s.tileFor p) then
          let s := s.yieldArrays p ts
          let threads := p.slots.zipIdx.map (fun x => s.newThread p x.1 x.2)
          let s := { s with compute := { s.compute with
              threads := s.compute.threads ++ threads
              icache := s.compute.icache.filter (fun l => !ts.contains (l.stem, l.tile)) } }
          let s := s.updProgram cmd (fun p => { p with started := true, since := some s.now })
          ts.foldl (fun s t => s.serve cmd (unitId 5 t.1 t.2)) s
        else s.evictFor p ts)

/-! Exceptions (R310, R311). -/

/-- A thread raises an exception: its command fails, and every other thread of it stops. -/
def State.threadFails (s : State) (t : Thread) (st : Half) (detail : Word) : State :=
  ((s.count Fld.twigStemExcept_exceptions 1 t.stem).dropWork t.cmd).finish t.cmd st detail

/-- The exception of an access that failed (R310): an access fault, unless another status says what happened. -/
def State.accessFails (s : State) (t : Thread) (a : Nat) (e : Half × Word) : State :=
  if e.1 = stAddress ∨ e.1 = stFirewall then s.threadFails t stTwigAccess (addrDetail a) else s.threadFails t e.1 e.2

/-! Caches (R62, R292). -/

/-- Lines of a cache after a fill: the lines of that tile that were evicted, which the spec leaves open, are gone, and the new one
is there. -/
def fillCache (lines : List CacheLine) (cap : Nat) (gone : DWord) (l : CacheLine) : List CacheLine :=
  let here (x : CacheLine) : Bool := x.stem == l.stem && x.tile == l.tile
  let kept := ((lines.filter here).zipIdx.filter (fun x => x.1.line != l.line && !gone.getLsbD (x.2 % 64))).map (·.1)
  lines.filter (fun x => !here x) ++ kept.take (cap - 1) ++ [l]

/-- A cached line. -/
def lineIn (lines : List CacheLine) (t : Thread) (a : Nat) : Option CacheLine :=
  lines.find? (fun l => l.stem == t.stem && l.tile == t.tile && l.line == a / 64 * 64)

/-- The read cache of a tile is emptied: an acquire. -/
def State.emptyReads (s : State) (stem tile : Nat) : State :=
  { s with compute := { s.compute with rcache := s.compute.rcache.filter (fun l => !(l.stem == stem && l.tile == tile)) } }

/-- A write to HBM leaves no copy of its bytes in the writing tile's read cache. -/
def State.dropReads (s : State) (t : Thread) (a n : Nat) : State :=
  { s with compute := { s.compute with rcache := s.compute.rcache.filter (fun l =>
      !(l.stem == t.stem && l.tile == t.tile && decide (l.line < a + n) && decide (a < l.line + 64))) } }

/-- The 16-bit parcel at a local address, from the instruction cache. -/
def State.parcel (s : State) (t : Thread) (a : Nat) : Option Nat :=
  (lineIn s.compute.icache t a).map (fun l => leAt l.bytes (a % 64) 2)

/-- A line enters a tile's instruction cache (R292, R475). -/
def State.fillInstr (s : State) (o : Origin) (t : Thread) (a : Nat) : State × Option AccErr :=
  match s.place a with
  | .hbm _ | .sap _ =>
    (match s.readBlock o (a / 64 * 64) 64 .exec with
     | (s, .error e) => (s, some e)
     | (s, .ok b) =>
       let (w, s) := s.draw
       ({ s with compute := { s.compute with
          icache := fillCache s.compute.icache 512 w { stem := t.stem, tile := t.tile, line := a / 64 * 64, bytes := b } } }, none))
  | _ => (s, some ⟨stAddress, addrDetail a⟩)

/-! Issue. -/

/-- What an instruction is issued with. -/
structure Issue where
  t : Thread
  c : Cmd
  o : Origin
  op : TwigOp
  len : Nat
  word : Nat

/-- A change to a thread. -/
def State.updThread (s : State) (t : Thread) (f : Thread → Thread) : State :=
  { s with compute := { s.compute with
      threads := updWhere s.compute.threads (fun x => x.cmd == t.cmd && x.stem == t.stem && x.tile == t.tile && x.slot == t.slot) f } }

/-- The thread in a slot that holds one which is not suspended, with its program. -/
def State.thread? (s : State) (n : Nat) : Option (Thread × Program) :=
  match s.compute.threads.find? (fun t => (t.stem * 64 + t.tile) * 16 + t.slot == n
      && !s.suspendedOn t.cmd t.stem t.tile) with
  | none => none
  | some t => (s.program? t.cmd).map (fun p => (t, p))

/-- The value of a thread's register. -/
def Thread.x (t : Thread) (r : Nat) : DWord := nth 0 t.regs r

/-- A thread with a register written; x0 stays 0. -/
def Thread.put (t : Thread) (r : Nat) (v : DWord) : Thread := if r = 0 then t else { t with regs := t.regs.set r v }

/-- The parcels of the instruction at a local address, where the cache holds it; or the address that misses. -/
def State.cachedInstr (s : State) (t : Thread) (a : Nat) : Except Nat Nat :=
  match s.parcel t a with
  | none => .error a
  | some lo =>
    if lo % 4 ≠ 3 then .ok lo
    else match s.parcel t (a + 2) with
      | none => .error (a + 2)
      | some hi => .ok (lo + 65536 * hi)

/-- What a tile's Twig keeps. -/
def State.twigOf (s : State) (stem tile : Nat) : TwigTile :=
  (s.compute.twigs.find? (fun x => x.stem == stem && x.tile == tile)).getD { stem := stem, tile := tile }

/-- A change to it. -/
def State.setTwig (s : State) (x : TwigTile) : State :=
  { s with compute := { s.compute with
      twigs := s.compute.twigs.filter (fun y => !(y.stem == x.stem && y.tile == x.tile)) ++ [x] } }

/-- Whether a thread can issue: it is READY, its program is neither suspending nor suspended there, and its tile serves its partition. -/
def State.issuable (s : State) (t : Thread) (p : Program) : Bool :=
  t.state == .ready && !p.suspending.contains (t.stem, t.tile) && !p.suspended.contains (t.stem, t.tile)
    && s.tileServes t.stem t.tile && s.slotAdmits t.stem p.part

/-- How far a slot is behind the one that issued last on its tile, in round-robin order. -/
def State.issueRank (s : State) (t : Thread) : Nat := (t.slot + 15 - (s.twigOf t.stem t.tile).issued) % 16

/-- Whether a thread is the next to issue on its tile: no thread before it in round-robin order can (R294). -/
def State.issuesNext (s : State) (t : Thread) : Bool :=
  (List.range 16).all (fun k => match s.thread? ((t.stem * 64 + t.tile) * 16 + k) with
    | some (x, p) => !s.issuable x p || decide (s.issueRank t ≤ s.issueRank x)
    | none => true)

/-- The row that issues an instruction of a thread: nothing happens where the thread cannot issue or its next instruction is of
another kind, or where another thread of its tile is next (R294). A fetch that misses stalls the thread; a fetch outside R292's rule is an access fault. -/
def State.issueRow (s : State) (n : Nat) (want : TwigOp → Bool) (f : State → Issue → State) : State :=
  match s.thread? n with
  | none => s
  | some (t, p) =>
    match s.cmd? t.cmd with
    | none => s
    | some c =>
      let turn (s : State) : State := s.setTwig { s.twigOf t.stem t.tile with issued := t.slot }
      if !s.issuable t p || !s.issuesNext t then s
      else if t.yielded then (turn s).updThread t (fun t => { t with yielded := false })
      else
        let o : Origin := { c.origin with thread := some (t.stem, t.tile, p.arrayAccess) }
        let pc := t.pc.toNat
        if !s.isHere pc then (turn s).threadFails t stTwigAccess (addrDetail (gLocal pc))
        else match s.cachedInstr t (gLocal pc) with
        | .error a =>
          (match (turn s).fillInstr o t a with
           | (s, some e) => s.accessFails t a (e.status, e.detail)
           | (s, none) => s.updThread t (fun t => { t with state := .stalled }))
        | .ok w =>
          let (op, len) := decodeTwig w
          if want op then f (turn s) { t := t, c := c, o := o, op := op, len := len, word := w } else s

/-- An instruction retires: the thread changes, its pc moves to the next instruction, and it is counted. -/
def State.retireInstr (s : State) (i : Issue) (f : Thread → Thread) (next : Option DWord := none) : State :=
  (s.count Fld.twigStemInstret_instret 1 i.t.stem).updThread i.t (fun t =>
    let t := f t
    { t with pc := next.getD (t.pc + BitVec.ofNat 64 i.len), instret := t.instret + 1 })

/-- Requests of a thread to other chips that it still waits for in a release (R61): all but its Knot signals. -/
def State.remotePending (s : State) (t : Thread) : Bool :=
  let mine (r : Request) : Bool := r.owner == .thread t.cmd t.stem t.tile t.slot && (match r.kind with | .knot _ => false | _ => true)
  s.fabric.requests.any mine || s.fabric.waiting.any (fun r => mine r.1)

/-- A load or atomic of a thread to another chip that has not been answered. -/
def State.loadPending (s : State) (t : Thread) : Bool :=
  let mine (r : Request) : Bool :=
    r.owner == .thread t.cmd t.stem t.tile t.slot && (match r.kind with | .load .. | .atomic .. => true | _ => false)
  s.fabric.requests.any mine || s.fabric.waiting.any (fun r => mine r.1)

/-! Suspension (R307) and the watchdog (R308). -/

/-- A stalled thread's result arrives. -/
def Thread.arrive (t : Thread) : Thread :=
  let t := match t.pendingResult with | some r => t.put r.rd r.value | none => t
  { t with state := .ready, pendingResult := none, acquire := false }

/-- What a thread's save area holds, which the spec leaves open: 512 free bytes. -/
def State.saveBytes (s : State) : State × List Byte :=
  (List.range 64).foldl (fun x _ =>
    let (w, s) := x.1.draw
    (s, x.2 ++ natToBytes 8 w.toNat)) (s, [])

/-- The threads of a program on some tiles are saved, in the order of their indices, up to the first write that fails. -/
def State.saveThreads (s : State) (c : Cmd) (p : Program) : List Thread → State × Option AccErr
  | [] => (s, none)
  | t :: r =>
    let (s, b) := s.saveBytes
    match s.store c.origin (p.saveBase + 512 * t.index) b with
    | (s, some e) => (s, some e)
    | (s, none) => (s.count Fld.twigStemSuspends_suspends 1 t.stem).saveThreads c p r

/-- A program enters SUSPENDED on the tiles where its threads have stopped: its running time stops with the last of them. -/
def Program.enterSuspended (p : Program) (now : DWord) : Program :=
  let all := p.suspended ++ p.suspending
  let p := { p with suspended := all, suspending := [] }
  match p.since with
  | some t => if p.tileList.all all.contains then { p with since := none, ran := p.ran + (now - t).toNat } else p
  | none => p

/-- A program goes on, on some tiles. -/
def Program.leaveSuspended (p : Program) (now : DWord) (ts : List (Nat × Nat)) : Program :=
  { p with suspended := p.suspended.filter (fun t => !ts.contains t), since := p.since.or (some now) }

/-- How long a program has been running, in ns: the time in which it was SUSPENDED on all its tiles is left out (R308). -/
def Program.runTime (p : Program) (now : DWord) : Nat := p.ran + ((p.since.map (fun t => (now - t).toNat)).getD 0)

/-- TWIG_SUSPEND_DONE: the threads of a program on the tiles concerned have stopped and enter SUSPENDED (R307). Their outstanding
loads and atomics complete first. -/
def execTwigSuspendDone (cmd : Nat) (s : State) : Host.Outcome State Fault Refusal :=
  answer s true (match s.program? cmd, s.cmd? cmd with
    | some p, some c =>
      let on (t : Thread) : Bool := t.cmd == cmd && p.suspending.contains (t.stem, t.tile) && t.state != .exited
      let ts := s.compute.threads.filter on
      if p.suspending.isEmpty || ts.any s.loadPending then s
      else
        let flush := ts.filter (fun t => t.acquire)
        let s := flush.foldl (fun s t => s.emptyReads t.stem t.tile) s
        match s.saveThreads c p ts with
        | (s, some e) => (s.dropWork cmd).failAcc cmd e
        | (s, none) =>
          let s := { s with compute := { s.compute with threads := updWhere s.compute.threads on (fun t =>
              { (match t.state with | .stalled => t.arrive | _ => t) with state := .suspended }) } }
          let s := s.updProgram cmd (fun p => p.enterSuspended s.now)
          p.suspending.foldl (fun s t => s.event (unitId 5 t.1 t.2) 0x04 c.ev (natToBytes 4 0)) s
    | _, _ => s)

/-- A suspended thread goes on: a Knot wait that was in progress is issued again (R307). -/
def State.resumed (s : State) (t : Thread) : Thread :=
  match t.knotWait with
  | some (rd, k, h) =>
    let v := s.knot k
    if h.toNat ≤ v.toNat then { t.put rd v with state := .ready, knotWait := none } else { t with state := .waiting }
  | none => { t with state := .ready }

/-- Whether a tile that a suspended program wants is wanted by work of a higher class: a program that waits, or an engine item
where the program needs the array. -/
def State.rival (s : State) (p : Program) (c : Cmd) (t : Nat × Nat) : Bool :=
  s.compute.programs.any (fun q => !q.started && decide (s.critOf q.cmd > c.crit) && q.tileList.contains t)
    || (p.arrayAccess && s.compute.items.any (fun w => w.waits && decide (s.critOf w.cmd > c.crit) && w.stem == t.1
      && (s.itemTiles w).contains t.2))

/-- The tiles on which a suspended program can go on. -/
def State.resumable (s : State) (p : Program) (c : Cmd) : List (Nat × Nat) :=
  p.suspended.filter (fun t => s.tileFor p t && !s.rival p c t)

/-- TWIG_RESUME: suspended threads resume on the tiles that are free again, where no program of a higher class waits for them
(R307). -/
def execTwigResume (cmd : Nat) (s : State) : Host.Outcome State Fault Refusal :=
  answer s true (match s.program? cmd, s.cmd? cmd with
    | some p, some c =>
      let ts := s.resumable p c
      if ts.isEmpty then s
      else
        let s := s.yieldArrays p ts
        let on (t : Thread) : Bool := t.cmd == cmd && t.state == .suspended && ts.contains (t.stem, t.tile)
        let wake := s.compute.threads.filter (fun t => on t && (s.resumed t).state == .ready && t.knotWait.isSome)
        let s := wake.foldl (fun s t => s.emptyReads t.stem t.tile) s
        let s := { s with compute := { s.compute with threads := updWhere s.compute.threads on s.resumed } }
        let s := s.updProgram cmd (fun p => p.leaveSuspended s.now ts)
        ts.foldl (fun s t => s.event (unitId 5 t.1 t.2) 0x05 c.ev (natToBytes 4 0)) s
    | _, _ => s)

/-- The lowest index of a program's thread that has not exited. -/
def State.firstRunning (s : State) (cmd : Nat) : Option Nat :=
  ((s.compute.threads.filter (fun t => t.cmd == cmd && t.state != .exited)).map (·.index)).min?

/-- TWIG_WATCHDOG: a program has run past its limit (R308). -/
def execTwigWatchdog (cmd : Nat) (s : State) : Host.Outcome State Fault Refusal :=
  answer s true (match s.program? cmd with
    | none => s
    | some p =>
      if !p.started || decide (p.runTime s.now ≤ 1000 * p.limitUs) then s
      else (s.dropWork cmd).finish cmd stTwigWatchdog (BitVec.ofNat 32 ((s.firstRunning cmd).getD 0)))

end Sys2Proof.Machine
end

