-- ==== Sys2Proof/Machine/TwigOps.lean ====
section
/-! DEFINITION. The instructions that threads issue (R291 to R302): one meaning for each kind. -/
namespace Sys2Proof.Machine

/-! Integer instructions. -/

/-- Whether an instruction is an integer or branch instruction. -/
def TwigOp.isInteger : TwigOp → Bool
  | .lui .. | .auipc .. | .jal .. | .jalr .. | .branch .. | .opImm .. | .op .. => true
  | _ => false

/-- An integer or branch instruction: the register written, its value, and the next pc where it jumps. -/
def integerEffect (t : Thread) (len : Nat) : TwigOp → Nat × DWord × Option DWord
  | .lui rd imm => (rd, imm, none)
  | .auipc rd imm => (rd, t.pc + imm, none)
  | .jal rd imm => (rd, t.pc + BitVec.ofNat 64 len, some (t.pc + imm))
  | .jalr rd rs1 imm => (rd, t.pc + BitVec.ofNat 64 len, some ((t.x rs1 + imm) &&& ~~~(1 : DWord)))
  | .branch f3 rs1 rs2 imm => (0, 0, if taken f3 (t.x rs1) (t.x rs2) then some (t.pc + imm) else none)
  | .opImm f3 alt w rd rs1 imm => (rd, alu f3 alt w (t.x rs1) imm, none)
  | .op f3 alt w rd rs1 rs2 => (rd, alu f3 alt w (t.x rs1) (t.x rs2), none)
  | _ => (0, 0, none)

/-- TWIG_INTEGER_OP (R290, R295). -/
def execTwigIntegerOp (thread : Nat) (s : State) : Host.Outcome State Fault Refusal :=
  answer s (isThread thread) (s.issueRow thread TwigOp.isInteger (fun s i =>
    let (rd, v, next) := integerEffect i.t i.len i.op
    s.retireInstr i (fun t => t.put rd v) next))

/-- A thread stalls until a result arrives (R293, R295). -/
def Thread.stall (t : Thread) (rd : Nat) (v : DWord) : Thread :=
  { t with state := .stalled, pendingResult := some { rd := rd, value := v } }

/-- TWIG_MULDIV (R290, R295). -/
def execTwigMuldiv (thread : Nat) (s : State) : Host.Outcome State Fault Refusal :=
  answer s (isThread thread) (s.issueRow thread (fun op => match op with | .mulDiv .. => true | _ => false) (fun s i =>
    match i.op with
    | .mulDiv f3 w rd rs1 rs2 => s.retireInstr i (fun t => t.stall rd (mulDiv f3 w (t.x rs1) (t.x rs2)))
    | _ => s))

/-! Memory. -/

/-- Regions that a thread's access names by the local part of its address (R296). -/
inductive TwigPlace where
  | hbm | sap | ctl | host | none
  deriving DecidableEq, Repr

/-- The region. -/
def twigPlace (a : Nat) : TwigPlace :=
  if a < 0x100000000000 then .hbm
  else if a < 0x200000000000 then .sap
  else if a < 0x300000000000 then .ctl
  else if 0x800000000000 ≤ a then .host
  else .none

/-- Whether a plain access of n bytes may be misaligned as it is (R297). -/
def alignedOk (a n : Nat) : Bool :=
  a % n == 0 || ((twigPlace a == .hbm || twigPlace a == .sap) && decide (a / 64 = (a + n - 1) / 64))

/-- Why a thread's access cannot be made at all: misalignment first, then its chip (R39, R41), then its region (R296). -/
def State.twigFault (s : State) (ga n : Nat) (ok : TwigPlace → Bool) : Option (Half × Word) :=
  let a := gLocal ga
  if !alignedOk a n then some (stTwigMisaligned, addrDetail a)
  else if badChip (gChip ga) then some (stTwigAccess, addrDetail a)
  else if !ok (twigPlace a) then some (stTwigAccess, addrDetail a)
  else if s.isHere ga || s.reaches (gChip ga) then none
  else some (stUnreachable, BitVec.ofNat 32 (gChip ga))

/-- A read of HBM of this chip goes through the tile's read cache (R62); an access is checked whether it hits or not. -/
def State.cachedLoad (s : State) (i : Issue) (a n : Nat) : State × Except AccErr (List Byte) :=
  match s.check i.o .read a n with
  | (s, some e) => (s, .error e)
  | (s, none) =>
    match lineIn s.compute.rcache i.t a with
    | some l => (s, .ok (slice l.bytes (a % 64) n))
    | none =>
      match s.readBlock i.o (a / 64 * 64) 64 with
      | (s, .error e) => (s, .error e)
      | (s, .ok b) =>
        let (w, s) := s.draw
        ({ s with compute := { s.compute with
            rcache := fillCache s.compute.rcache 256 w { stem := i.t.stem, tile := i.t.tile, line := a / 64 * 64, bytes := b } } },
         .ok (slice b (a % 64) n))

/-- A thread's request to another chip. -/
def State.threadRequest (s : State) (i : Issue) (kind : ReqKind) (ga type : Nat) (payload : List Byte) : State :=
  s.request i.o (.thread i.t.cmd i.t.stem i.t.tile i.t.slot) kind (gChip ga) type payload

/-- TWIG_LOAD (R295 to R297, R299, R62). -/
def execTwigLoad (thread : Nat) (s : State) : Host.Outcome State Fault Refusal :=
  answer s (isThread thread) (s.issueRow thread (fun op => match op with | .load .. => true | _ => false) (fun s i =>
    match i.op with
    | .load f3 rd rs1 imm =>
      let ga := (i.t.x rs1 + imm).toNat
      let a := gLocal ga
      let n := accessBytes f3
      (match s.twigFault ga n (fun p => p != .none) with
       | some e => s.threadFails i.t e.1 e.2
       | none =>
         if s.isHere ga then
           match (if twigPlace a = .hbm then s.cachedLoad i a n else s.load i.o a n) with
           | (s, .error e) => s.accessFails i.t a (e.status, e.detail)
           | (s, .ok b) => s.retireInstr i (fun t => t.stall rd (loaded f3 b))
         else
           let s := s.threadRequest i (.load a rd n (decide (f3 < 4))) ga 0x01 (readPayload a n)
           s.retireInstr i (fun t => { t with state := .stalled }))
    | _ => s))

/-- TWIG_STORE (R295 to R297, R62). -/
def execTwigStore (thread : Nat) (s : State) : Host.Outcome State Fault Refusal :=
  answer s (isThread thread) (s.issueRow thread (fun op => match op with | .store .. => true | _ => false) (fun s i =>
    match i.op with
    | .store f3 rs1 rs2 imm =>
      let ga := (i.t.x rs1 + imm).toNat
      let a := gLocal ga
      let n := accessBytes f3
      let data := natToBytes n (i.t.x rs2).toNat
      (match s.twigFault ga n (fun p => p != .none && p != .ctl) with
       | some e => s.threadFails i.t e.1 e.2
       | none =>
         if s.isHere ga then
           match s.store i.o a data with
           | (s, some e) => s.accessFails i.t a (e.status, e.detail)
           | (s, none) => (s.dropReads i.t a n).retireInstr i id
         else (s.threadRequest i (.store a) ga 0x02 (writePayload a data)).retireInstr i id)
    | _ => s))

/-- A memory-side atomic of a thread (R63, R298): with rl it waits for the thread's earlier accesses, and with aq its result is
an acquire. -/
def State.threadAtomic (s : State) (i : Issue) (op : AtomicOp) (aq rl : Bool) (rd : Nat) (ad x y : DWord) : State :=
  let ga := ad.toNat
  let a := gLocal ga
  if a % 8 ≠ 0 then s.threadFails i.t stTwigMisaligned (addrDetail a)
  else match s.twigFault ga 8 (fun p => p != .none && p != .ctl) with
  | some e => s.threadFails i.t e.1 e.2
  | none =>
    if rl && s.remotePending i.t then s
    else if s.isHere ga then
      match s.atomic i.o op a x y with
      | (s, .error e) => s.accessFails i.t a (e.status, e.detail)
      | (s, .ok old) => (s.dropReads i.t a 8).retireInstr i (fun t => { t.stall rd old with acquire := aq })
    else
      let s := s.threadRequest i (.atomic a rd) ga 0x03 (atomicPayload a op x y)
      s.retireInstr i (fun t => { t with state := .stalled, acquire := aq })

/-- TWIG_AMO (R298). -/
def execTwigAmo (thread : Nat) (s : State) : Host.Outcome State Fault Refusal :=
  answer s (isThread thread) (s.issueRow thread (fun op => match op with | .amo .. => true | _ => false) (fun s i =>
    match i.op with
    | .amo op aq rl rd rs1 rs2 => s.threadAtomic i op aq rl rd (i.t.x rs1) (i.t.x rs2) 0
    | _ => s))

/-- TW.CAS (R300): rd holds the value to compare with. -/
def execTwCas (thread : Nat) (s : State) : Host.Outcome State Fault Refusal :=
  answer s (isThread thread) (s.issueRow thread (fun op => match op with | .cas .. => true | _ => false) (fun s i =>
    match i.op with
    | .cas aq rl rd rs1 rs2 => s.threadAtomic i .cas aq rl rd (i.t.x rs1) (i.t.x rs2) (i.t.x rd)
    | _ => s))

/-- TWIG_LOAD_RETURN: what a stalled thread waits for has arrived, and it is READY (R293, R295). -/
def execTwigLoadReturn (thread : Nat) (s : State) : Host.Outcome State Fault Refusal :=
  answer s (isThread thread) (match s.thread? thread with
    | none => s
    | some (t, _) =>
      if t.state != .stalled || s.loadPending t then s
      else
        let s := if t.acquire then s.emptyReads t.stem t.tile else s
        s.updThread t Thread.arrive)

/-! CSRs, time and identity. -/

/-- The tile cycles since reset, as CSR cycle reads them: any number above the one that a thread of the tile read before, for the model
keeps no tile clock (R292). -/
def State.readCycle (s : State) (t : Thread) : DWord × State :=
  let x := s.twigOf t.stem t.tile
  let (w, s) := s.draw
  let v : DWord := BitVec.ofNat 64 (min (2 ^ 64 - 1) (x.cycle.toNat + 1 + w.toNat % (2 ^ 64 - x.cycle.toNat)))
  (v, s.setTwig { s.twigOf t.stem t.tile with cycle := v })

/-- What a CSR reads as (R292). -/
def State.csrValue (s : State) (t : Thread) (n : Nat) : DWord × State :=
  if n = 0xC00 then s.readCycle t
  else if n = 0xC01 then (s.leaf (unitId 5 t.stem t.tile), s)
  else if n = 0xC02 then (t.instret, s)
  else (s.identityWord t.stem t.tile t.slot, s)

/-- TWIG_CSR_READ (R292). -/
def execTwigCsrRead (thread : Nat) (s : State) : Host.Outcome State Fault Refusal :=
  answer s (isThread thread) (s.issueRow thread (fun op => match op with | .csr .. => true | _ => false) (fun s i =>
    match i.op with
    | .csr n rd =>
      let (v, s) := s.csrValue i.t n
      s.retireInstr i (fun t => t.put rd v)
    | _ => s))

/-- TW.TIME (R300). -/
def execTwTime (thread : Nat) (s : State) : Host.Outcome State Fault Refusal :=
  answer s (isThread thread) (s.issueRow thread (fun op => match op with | .time _ => true | _ => false) (fun s i =>
    match i.op with
    | .time rd => s.retireInstr i (fun t => t.put rd (s.leaf (unitId 5 t.stem t.tile)))
    | _ => s))

/-- TW.TID (R300, R301). -/
def execTwTid (thread : Nat) (s : State) : Host.Outcome State Fault Refusal :=
  answer s (isThread thread) (s.issueRow thread (fun op => match op with | .tid _ => true | _ => false) (fun s i =>
    match i.op with
    | .tid rd => s.retireInstr i (fun t => t.put rd (s.identityWord t.stem t.tile t.slot))
    | _ => s))

/-! Fences. -/

/-- A release, an acquire or both of a thread: a release waits until every earlier access of the thread is complete at its
target (R61). -/
def State.threadFence (s : State) (i : Issue) (rel acq : Bool) : State :=
  if rel && s.remotePending i.t then s
  else
    let s := if acq then s.emptyReads i.t.stem i.t.tile else s
    s.retireInstr i id

/-- A FENCE of any kind: release, then acquire (R298). -/
def execTwigFence (thread : Nat) (s : State) : Host.Outcome State Fault Refusal :=
  answer s (isThread thread) (s.issueRow thread (fun op => op == .fence) (fun s i => s.threadFence i true true))

/-- TW.ACQ (R300). -/
def execTwAcq (thread : Nat) (s : State) : Host.Outcome State Fault Refusal :=
  answer s (isThread thread) (s.issueRow thread (fun op => op == .acq) (fun s i => s.threadFence i false true))

/-- TW.REL (R300). -/
def execTwRel (thread : Nat) (s : State) : Host.Outcome State Fault Refusal :=
  answer s (isThread thread) (s.issueRow thread (fun op => op == .rel) (fun s i => s.threadFence i true false))

/-- FENCE.I: the tile's instruction cache is emptied (R292). -/
def execFenceI (thread : Nat) (s : State) : Host.Outcome State Fault Refusal :=
  answer s (isThread thread) (s.issueRow thread (fun op => op == .fenceI) (fun s i =>
    let gone (l : CacheLine) : Bool := l.stem == i.t.stem && l.tile == i.t.tile
    let s := { s with compute := { s.compute with icache := s.compute.icache.filter (fun l => !gone l) } }
    s.retireInstr i id))

/-! Exceptions, yield and exit. -/

/-- ECALL and EBREAK raise the break exception (R291). -/
def execEcallEbreak (thread : Nat) (s : State) : Host.Outcome State Fault Refusal :=
  answer s (isThread thread) (s.issueRow thread (fun op => op == .brk) (fun s i =>
    s.threadFails i.t stTwigBreak (BitVec.ofNat 32 i.t.pc.toNat)))

/-- An unsupported or illegal instruction (R291, R292, R300, R310). -/
def execTwigIllegalInstruction (thread : Nat) (s : State) : Host.Outcome State Fault Refusal :=
  answer s (isThread thread) (s.issueRow thread (fun op => op == .illegal) (fun s i =>
    s.threadFails i.t stTwigIllegal (BitVec.ofNat 32 i.word)))

/-- TW.YIELD (R300). -/
def execTwYield (thread : Nat) (s : State) : Host.Outcome State Fault Refusal :=
  answer s (isThread thread) (s.issueRow thread (fun op => op == .yield) (fun s i =>
    s.retireInstr i (fun t => { t with yielded := true })))

/-- A program of which every thread has exited completes (R308). -/
def State.endProgram (s : State) (cmd : Nat) : State :=
  let mine := s.compute.threads.filter (fun t => t.cmd == cmd)
  if mine.all (fun t => t.state == .exited) then
    s.finish cmd stSuccess (satDetail (mine.filter (fun t => t.exitCode != 0)).length)
  else s

/-- TW.EXIT (R300, R308). -/
def execTwExit (thread : Nat) (s : State) : Host.Outcome State Fault Refusal :=
  answer s (isThread thread) (s.issueRow thread (fun op => match op with | .exit _ => true | _ => false) (fun s i =>
    match i.op with
    | .exit rs1 =>
      (s.retireInstr i (fun t => { t with state := .exited, exitCode := BitVec.ofNat 32 (t.x rs1).toNat })).endProgram i.t.cmd
    | _ => s))

/-! Knots (R300 to R302). -/

/-- Whether a Knot reference raises the Knot exception; `remote`: another chip may be named, whose own check follows there. -/
def State.knotFault (s : State) (i : Issue) (ref : Nat) (remote : Bool) : Bool :=
  let n := ref % 65536
  n == 0 || getBits ref 16 32 != 0 || (if s.isHere ref then !s.ownsKnot i.c.part n else !remote)

/-- KNOT.SIG (R302): a release, then the signal, at this chip or another. -/
def execKnotSig (thread : Nat) (s : State) : Host.Outcome State Fault Refusal :=
  answer s (isThread thread) (s.issueRow thread (fun op => match op with | .knotSig .. => true | _ => false) (fun s i =>
    match i.op with
    | .knotSig rs1 rs2 =>
      let ref := (i.t.x rs1).toNat
      let n := ref % 65536
      if s.knotFault i ref true then s.threadFails i.t stTwigKnot (BitVec.ofNat 32 n)
      else if badChip (gChip ref) then s.threadFails i.t stTwigAccess (addrDetail (gLocal ref))
      else if !s.isHere ref && !s.reaches (gChip ref) then s.threadFails i.t stUnreachable (BitVec.ofNat 32 (gChip ref))
      else if s.remotePending i.t then s
      else if s.isHere ref then
        (s.retireInstr i id).signalKnot n (i.t.x rs2) i.c.ev |>.1
      else (s.threadRequest i (.knot n) ref 0x04 (knotPayload n (i.t.x rs2))).retireInstr i id
    | _ => s))

/-- KNOT.WAIT (R302): met at once, or the thread is WAITING until R100 meets it; the end of the wait is an acquire. -/
def execKnotWait (thread : Nat) (s : State) : Host.Outcome State Fault Refusal :=
  answer s (isThread thread) (s.issueRow thread (fun op => match op with | .knotWait .. => true | _ => false) (fun s i =>
    match i.op with
    | .knotWait rd rs1 rs2 =>
      let ref := (i.t.x rs1).toNat
      let n := ref % 65536
      let h := i.t.x rs2
      if s.knotFault i ref false then s.threadFails i.t stTwigKnot (BitVec.ofNat 32 n)
      else
        let v := s.knot n
        if h.toNat ≤ v.toNat then (s.emptyReads i.t.stem i.t.tile).retireInstr i (fun t => t.put rd v)
        else s.retireInstr i (fun t => { t with state := .waiting, knotWait := some (rd, n, h) })
    | _ => s))

/-- KNOT.RD (R302). -/
def execKnotRd (thread : Nat) (s : State) : Host.Outcome State Fault Refusal :=
  answer s (isThread thread) (s.issueRow thread (fun op => match op with | .knotRd .. => true | _ => false) (fun s i =>
    match i.op with
    | .knotRd rd rs1 =>
      let ref := (i.t.x rs1).toNat
      if s.knotFault i ref false then s.threadFails i.t stTwigKnot (BitVec.ofNat 32 (ref % 65536))
      else s.retireInstr i (fun t => t.stall rd (s.knot (ref % 65536)))
    | _ => s))

end Sys2Proof.Machine
end

