-- ==== Sys2Proof/Machine/ConvPass.lean ====
section
/-! DEFINITION. The passes of a convolution (R230, R243 to R246), the growth admission (R251, R252) and the spill pool. -/
namespace Sys2Proof.Machine

/-! Passes. -/

/-- Input blocks of a broadcast group of a convolution, whose weights are in the input format. -/
def KmeArgs.groupBlocks (a : KmeArgs) (g : Nat) : List Nat :=
  let b := (cadence a.inFmt a.inFmt a.sparse).1
  ((List.range b).map (fun i => g * b + i)).filter (fun kb => decide (kb < a.cinBlocks))

/-- Broadcasts that a pair takes. -/
def KmeArgs.perPair (a : KmeArgs) : Nat := ceilDiv a.cinBlocks (cadence a.inFmt a.inFmt a.sparse).1

/-- Weight blocks of an offset and an input group: block number and input block (R244). -/
def KmeArgs.weightBlocks (a : KmeArgs) (k cout g : Nat) : List (Nat × Nat) :=
  (a.groupBlocks g).map (fun kb => ((k * a.coutBlocks + cout) * a.cinBlocks + kb, kb))

/-- Columns that a tile holds, with their broadcast group and offset. -/
abbrev LoadedAt := Option (Nat × Nat × List (List (Option FVal)))

/-- The columns of an offset and an input group: as they stand, or loaded. -/
def State.convColumns (s : State) (c : Cmd) (stem : Nat) (a : KmeArgs) (cout g k : Nat) (have_ : LoadedAt) :
    State × Except AccErr (List (List (Option FVal))) :=
  let load_ := s.loadWeights c stem a.inFmt a.sparse a.weights (fun _ => 32) (a.weightBlocks k cout g)
  match have_ with
  | some (g', k', cols) => if g' = g ∧ k' = k then (s, .ok cols) else load_
  | none => load_

/-- Broadcasts of a pass in the order of R244: input groups upward, and the segments' pairs within each. -/
def State.convRun (s : State) (c : Cmd) (stem : Nat) (a : KmeArgs) (ti : Table) (lo cout : Nat) (ps : List Pair) :
    List Nat → LoadedAt → List (List Nat) → PassCounts → State × Except AccErr (List (List Nat) × PassCounts)
  | [], _, acc, n => (s, .ok (acc, n))
  | j :: rest, have_, acc, n =>
    let g := j / ps.length
    match ps[j % ps.length]? with
    | none => s.convRun c stem a ti lo cout ps rest have_ acc n
    | some p =>
      match s.convColumns c stem a cout g p.offset have_ with
      | (s, .error e) => (s, .error e)
      | (s, .ok cols) =>
        let size := rowSize a.inFmt (32 * a.cinBlocks)
        match s.load c.origin (c.inPlace.addr ti.cfg.maxCells size (p.inSite / 2 ^ 22) (p.inSite % 2 ^ 22)) size with
        | (s, .error e) => (s, .error e)
        | (s, .ok row) =>
          let xs := (a.groupBlocks g).flatMap (rowBlock a.inFmt (32 * a.cinBlocks) row)
          let k := p.outSite % 2 ^ 22 - lo
          let (e, sat) := broadcast s.isA0 (isIntFmt a.inFmt) xs cols (nth [] acc k)
          s.convRun c stem a ti lo cout ps rest (some (g, p.offset, cols)) (acc.set k e)
            { n with macs := n.macs + 1024 * (a.groupBlocks g).length, saturated := n.saturated + sat }

/-- A number joins a rising list. -/
def insertNat (x : Nat) : List Nat → List Nat
  | [] => [x]
  | y :: r => if x ≤ y then x :: y :: r else y :: insertNat x r

/-- Chunks come back to a quarter's free list, lowest first. -/
def giveBack (chunks free : List Nat) : List Nat := chunks.foldl (fun l x => insertNat x l) free

/-- A work item of a group is done. The last one gives the group's chunks back (R240), and the layer may end. -/
def State.endGroupItem (s : State) (id stem g : Nat) : State :=
  match (s.conv? id).bind (fun v => v.group? stem g) with
  | none => s
  | some x =>
    if x.itemsLeft > 1 then s.updGroup id stem g (fun x => { x with itemsLeft := x.itemsLeft - 1 })
    else
      let s := s.freeSpill stem x.chunks.length
      (s.updConv id (fun v => { v with
        groups := v.groups.filter (fun y => !(y.stem == stem && y.num == g))
        freeChunks := updAt v.freeChunks stem (giveBack x.chunks) })).endConv id

/-- Whether the item at an index is done. -/
def State.itemDone (s : State) (index : Nat) : Bool := ((s.compute.items[index]?).map (·.done)).getD false

/-- A pass of an item of a convolution. -/
def State.convPass (s : State) (index : Nat) (c : Cmd) (w : WorkItem) (tile stem g cout : Nat) : State :=
  match s.conv? c.id with
  | none => s
  | some v =>
    match v.group? stem g, s.table? v.inTable, s.table? v.outTable with
    | some x, some ti, some tOut =>
      let a := c.kmeArgs
      let lo := a.groupSites * g
      let rows := min a.groupSites (nth 0 tOut.cells stem - lo)
      let total := x.pairs.length * a.perPair
      let n := passLength total w.broadcasts (cadence a.inFmt a.inFmt a.sparse).2
      match s.beginPass c w tile rows (c.e 26 3) with
      | (s, .error e) => s.failPass index w e
      | (s, .ok acc) =>
        match s.convRun c stem a ti lo cout x.pairs ((List.range n).map (fun i => w.broadcasts + i)) none acc {} with
        | (s, .error e) => s.failPass index w e
        | (s, .ok (acc, cnt)) =>
          match s.loadBias c a.bias a.biasBase cout with
          | (s, .error e) => s.failPass index w e
          | (s, .ok bias) =>
            let p : Epilogue := { int := isIntFmt a.inFmt, out := a.out, bias := bias, relu := a.relu }
            let size := rowSize a.out (32 * a.coutBlocks)
            let r : RowPlace :=
              { addr := fun k => c.featOut.addr tOut.cfg.maxCells size stem (lo + k), channels := 32 * a.coutBlocks, block := cout }
            let done := decide (w.broadcasts + n = total)
            let s := s.endPass c index w tile (c.e 26 3) n done (s.partStoch c.part) acc cnt p r
            if done && s.itemDone index then s.endGroupItem c.id stem g else s
    | _, _, _ => s

/-- CONV_PASS: a pass of a convolution's work item (R244, R245, R246). -/
def execConvPass (index : Nat) (s : State) : Host.Outcome State Fault Refusal :=
  answer s true (s.onPass index (fun c w tile =>
    match w.kind with
    | .conv stem g cout => s.convPass index c w tile stem g cout
    | _ => s))

/-! Growth admission (R252). -/

/-- The most output sites that an input site brings when dilating. -/
def LayerFacts.growth (l : LayerFacts) : Nat :=
  (List.range 3).foldl (fun n i =>
    let st := max 1 (nth 1 l.stride i)
    n * ceilDiv (nth 1 l.extent i * Nat.gcd st (nth 1 l.dilation i)) st) 1

/-- The bound of each layer in package order, from W and those of the layers before. -/
def growthBounds (w : Nat) : List LayerFacts → List Nat → List Nat
  | [], ws => ws
  | l :: r, ws =>
    let of (x : Option Nat) : Nat := match x with | none => w | some i => nth w ws i
    let bound := match l.mode with
      | 0 => of l.input * l.growth
      | 3 => of l.keySet
      | _ => of l.input
    growthBounds w r (ws ++ [min bound l.cropCells])

/-- Whether a layer's output table takes a bound, or the package accepts its overflow. A submanifold or transposed layer has no
output table of its own. -/
def LayerFacts.takes (l : LayerFacts) (k w : Nat) : Bool :=
  l.acceptOverflow || l.mode == 1 || l.mode == 3
    || fits k { log2 := l.log2, n := max 1 l.stems, xStrip := l.xStrip, grid := { v := [], cells := [] } } w

/-- The first layer of a package that fails the growth admission on a stream set (R252). -/
def State.growthFault (s : State) (set : Nat) (p : Package) : Option Nat :=
  let grid := (s.set? set).bind (fun x => x.grid)
  let w := (s.admission set [] (packageShapes p grid)).1
  let k := s.rdN Fld.vheCtrl_adm_k
  let ws := growthBounds w p.layers []
  (List.range p.layers.length).find? (fun i =>
    match p.layers[i]? with | some l => !l.takes k (nth 0 ws i) | none => false)

/-- SPARSE_ADMIT_CHECK (R251, R252). -/
def execSparseAdmitCheck (cmd : Nat) (s : State) : Host.Outcome State Fault Refusal :=
  answer s true (s.onCmd cmd 0x0 0x30 (fun c =>
    let n := c.b 16 2
    match s.set? n, s.package? c.part (c.b 18 2) with
    | some _, some p =>
      (match s.growthFault n p with
       | some i => s.finish cmd stGrowthAdmission (BitVec.ofNat 32 i)
       | none => s.finish cmd stSuccess 0xFFFFFFFF)
    | none, _ => s.finish cmd stSetUndefined (BitVec.ofNat 32 n)
    | _, none => s.finish cmd stOwnership 18))

/-- SPILL_POOL_SET (R251): a pool of size 0 goes away. It must lie in HBM of the partition. -/
def execSpillPoolSet (cmd : Nat) (s : State) : Host.Outcome State Fault Refusal :=
  answer s true (s.onCmd cmd 0x0 0x31 (fun c =>
    let base := c.b 24 6
    let mib := c.b 32 4
    let others := s.compute.spillPools.filter (fun p => p.1 != c.part)
    let has := s.compute.spillPools.any (fun p => p.1 == c.part)
    if has && s.queues.runs.any (fun r => r.part == c.part) then s.finish cmd stTableState 0
    else if mib != 0 && !s.hbmOk c.part base (mib * 0x100000) then s.finish cmd stOwnership 24
    else
      let pools := if mib = 0 then others else others ++ [(c.part, base, mib)]
      ({ s with compute := { s.compute with spillPools := pools } }).finish cmd stSuccess))

end Sys2Proof.Machine
end

