-- ==== Sys2Proof/Machine/Iou.lean ====
section
/-! DEFINITION. The overlap of two rotated rectangles (R355, R356), computed with 64 bits below the point and errors far below the
2^-12 that the spec allows the IoU unit. -/
namespace Sys2Proof.Machine

/-- A box of the IoU unit (R354). -/
structure NmsBox where
  x : FVal
  y : FVal
  l : FVal
  w : FVal
  yaw : FVal
  deriving DecidableEq, Repr, Inhabited

/-- A vector turned by an angle given by its cosine and sine. -/
def turn (c s : Fix) (p : Fix × Fix) : Fix × Fix := (fmul p.1 c - fmul p.2 s, fmul p.1 s + fmul p.2 c)

/-- The corners of a box relative to its centre, counter-clockwise. -/
def NmsBox.corners (b : NmsBox) : List (Fix × Fix) :=
  let a := reduceAngle b.yaw
  let h := floorDiv (toFix b.l) 2
  let v := floorDiv (toFix b.w) 2
  [(h, v), (-h, v), (-h, -v), (h, -v)].map (turn (fixCos a) (fixSin a))

/-- The corners of a box in the frame of another: its centre is the origin and its heading +x. -/
def NmsBox.seenFrom (b a : NmsBox) : List (Fix × Fix) :=
  let t := reduceAngle a.yaw
  let dx := toFix (b.x.sub a.x)
  let dy := toFix (b.y.sub a.y)
  b.corners.map (fun p => turn (fixCos t) (-(fixSin t)) (p.1 + dx, p.2 + dy))

/-- The part of a convex polygon where `f` is not negative, for a linear f; `prev` is the vertex before the list. -/
def clipFrom (f : Fix × Fix → Fix) (prev : Fix × Fix) : List (Fix × Fix) → List (Fix × Fix)
  | [] => []
  | p :: rest =>
    let a := f prev
    let b := f p
    let cut : List (Fix × Fix) :=
      if (0 ≤ a) = (0 ≤ b) then []
      else
        let t := fdiv a (a - b)
        [(prev.1 + fmul t (p.1 - prev.1), prev.2 + fmul t (p.2 - prev.2))]
    cut ++ (if 0 ≤ b then [p] else []) ++ clipFrom f p rest

def clipBy (f : Fix × Fix → Fix) (l : List (Fix × Fix)) : List (Fix × Fix) :=
  match l.getLast? with
  | some q => clipFrom f q l
  | none => []

/-- Twice the signed area of the polygon that a list and the vertex before it make. -/
def shoelace (prev : Fix × Fix) : List (Fix × Fix) → Fix
  | [] => 0
  | p :: rest => fmul prev.1 p.2 - fmul p.1 prev.2 + shoelace p rest

def polygonArea (l : List (Fix × Fix)) : Fix :=
  match l.getLast? with
  | some q => floorDiv ((shoelace q l).natAbs : Int) 2
  | none => 0

/-- The area that two boxes share: none where their centres are too far apart to share any. -/
def sharedArea (a b : NmsBox) : Fix :=
  let far (x y : FVal) : Bool := (FVal.fin false 1024 0).lt (x.sub y).abs
  if far a.x b.x || far a.y b.y then 0
  else
    let h := floorDiv (toFix a.l) 2
    let v := floorDiv (toFix a.w) 2
    polygonArea (clipBy (fun p => v + p.2) (clipBy (fun p => v - p.2) (clipBy (fun p => h + p.1) (clipBy (fun p => h - p.1)
      (b.seenFrom a)))))

/-- The IoU of two boxes. -/
def iouOf (a b : NmsBox) : Fix :=
  let i := sharedArea a b
  fdiv i (fmul (toFix a.l) (toFix a.w) + fmul (toFix b.l) (toFix b.w) - i)

/-- Whether an extent lies in [0.1, 256] m, where the IoU unit's error is bounded (R356). -/
def extentBounded (v : FVal) : Bool := !((FVal.fin false 10 0).mul v).lt (.fin false 1 0) && v.le (.fin false 256 0)

/-- The unit's own result, where the spec leaves it open. -/
def openIou (a b : NmsBox) : FVal := real32 fnIou32 [a.x, a.y, a.l, a.w, a.yaw, b.x, b.y, b.l, b.w, b.yaw]

/-- Whether the computed IoU of a kept box and a candidate exceeds a threshold (R355, R356): the exact IoU decides where it is
further than 2^-12 from the threshold, and the unit's own arithmetic elsewhere. The margin has 2^-20 for the model's own rounding. -/
def iouAbove (a b : NmsBox) (thr : FVal) : Bool :=
  let d := iouOf a b - toFix thr
  let margin : Fix := 4503599627370496 + 17592186044416
  if [a.l, a.w, b.l, b.w].all extentBounded then
    if margin < d then true else if d < -margin then false else thr.lt (openIou a b)
  else thr.lt (openIou a b)

end Sys2Proof.Machine
end

