-- ==== Sys2Proof/Machine/Sort.lean ====
section
/-! DEFINITION. Sort, top-k, merge and non-maximum suppression (R346 to R368). -/
namespace Sys2Proof.Machine

/-! Statuses (R368). -/
def stNanKeys : Half := 0x0601
def stDuplicatesCollapsed : Half := 0x0602
def stBoxesInvalid : Half := 0x0603
def stRowTooLong : Half := 0x0640
def stMergeInconsistent : Half := 0x0641
def stMergeUnsorted : Half := 0x0642
def stMergeTooLarge : Half := 0x0643
def stSortPlacement : Half := 0x0644
def stScratchSmall : Half := 0x0645

/-! Keys (R346, R347, R349). -/

/-- How keys are read and ordered. -/
structure KeyForm where
  bytes : Nat
  type : Nat
  descending : Bool
  deriving DecidableEq, Repr, Inhabited

/-- The key fields of byte 16. -/
def Cmd.keyForm (c : Cmd) : KeyForm :=
  { bytes := 2 ^ c.f 0 16 0 2, type := c.f 0 16 2 2, descending := c.f 0 16 4 1 == 1 }

/-- The order value of a key (R347). -/
def KeyForm.order (k : KeyForm) (key : Nat) : Nat :=
  let w := 8 * k.bytes
  let msb := 2 ^ (w - 1)
  match k.type with
  | 0 => key
  | 1 => key ^^^ msb
  | _ => if key.testBit (w - 1) then 2 ^ w - 1 - key else key ||| msb

/-- Whether an order value stands strictly before another in a command's order. -/
def KeyForm.before (k : KeyForm) (a b : Nat) : Bool := if k.descending then decide (b < a) else decide (a < b)

/-- Whether a key is a NaN. -/
def KeyForm.isNan (k : KeyForm) (key : Nat) : Bool :=
  match k.type, k.bytes with
  | 2, 2 => (fp16.dec key).isNan
  | 2, 4 => (fp32.dec key).isNan
  | 2, 8 => (fp64.dec key).isNan
  | 3, _ => (bf16.dec key).isNan
  | _, _ => false

/-- An element of a row (R346). -/
structure Elem where
  key : Nat
  payload : Nat
  deriving DecidableEq, Repr, Inhabited

/-- Puts an element after every one that does not stand behind it. -/
def insertElem {α : Type} (before : α → α → Bool) (x : α) : List α → List α
  | [] => [x]
  | y :: r => if before x y then x :: y :: r else y :: insertElem before x r

/-- A list in order: elements of equal order keep their input order (R350). -/
def stableSort {α : Type} (before : α → α → Bool) (l : List α) : List α := l.foldl (fun acc x => insertElem before x acc) []

/-- The sentinel key (R350). -/
def KeyForm.sentinel (k : KeyForm) : Nat := if k.descending then 0 else 2 ^ (8 * k.bytes) - 1

/-! Rows. -/

/-- What a row did: elements read, the whole of its work, what its command counts, and what it failed with. -/
structure RowResult where
  elements : Nat := 0
  work : Nat := 0
  nanKeys : Nat := 0
  collapsed : Nat := 0
  boxesInvalid : Nat := 0
  iouTests : Nat := 0
  suppressed : Nat := 0
  fail : Option AccErr := none
  deriving DecidableEq, Repr, Inhabited

/-- Pieces written one after the other, up to the first that fails. -/
def State.storeAll (s : State) (o : Origin) : List (Nat × List Byte) → State × Option AccErr
  | [] => (s, none)
  | (a, d) :: r =>
    match s.store o a d with
    | (s, some e) => (s, some e)
    | (s, none) => s.storeAll o r

/-- The result of a row whose outputs are these pieces. -/
def State.rowEnds (s : State) (o : Origin) (out : List (Nat × List Byte)) (r : RowResult) : State × Except AccErr RowResult :=
  match s.storeAll o out with
  | (s, some e) => (s, .error e)
  | (s, none) => (s, .ok r)

/-- What a sort or top-k is asked to do (R364, R365). -/
structure SortArgs where
  form : KeyForm
  payloadIn : Bool
  keysOut : Bool
  topk : Bool
  thresh : Bool
  rows : Nat
  n : Nat
  k : Nat
  keyBase : Nat
  payloadBase : Nat
  outKeyBase : Nat
  outPayloadBase : Nat
  countsBase : Nat
  keyStride : Nat
  payloadStride : Nat
  outKeyStride : Nat
  outPayloadStride : Nat
  auxBase : Nat
  aux : Nat
  threshold : Nat

def Cmd.sortArgs (c : Cmd) (topk : Bool) : SortArgs :=
  { form := c.keyForm, payloadIn := c.f 0 16 5 1 == 1, keysOut := c.f 0 16 6 1 == 1, topk := topk, thresh := c.f 0 17 4 1 == 1,
    rows := c.b 18 2 + 1, n := c.b 20 4, k := c.f 1 32 0 12 + 1, keyBase := c.b 24 6, payloadBase := c.b 30 6,
    outKeyBase := c.b 36 6, outPayloadBase := c.b 42 6, countsBase := c.e 4 6, keyStride := c.e 10 4, payloadStride := c.e 14 4,
    outKeyStride := c.e 18 4, outPayloadStride := c.e 22 4, auxBase := c.e 26 6, aux := c.e 32 4, threshold := c.e 40 8 }

/-- The element count of a row: one above n is refused, whenever it is read (R348). -/
def State.rowCount (s : State) (o : Origin) (base n r : Nat) : State × Except AccErr Nat :=
  if base = 0 then (s, .ok n)
  else match s.load o (base + 4 * r) 4 with
    | (s, .error e) => (s, .error e)
    | (s, .ok b) => (s, if n < leAt b 0 4 then .error ⟨stRowTooLong, BitVec.ofNat 32 r⟩ else .ok (leAt b 0 4))

/-- The elements of a row in input order. -/
def State.rowElems (s : State) (o : Origin) (a : SortArgs) (r n : Nat) : State × Except AccErr (List Elem) :=
  match s.load o (a.keyBase + r * a.keyStride) (n * a.form.bytes) with
  | (s, .error e) => (s, .error e)
  | (s, .ok ks) =>
    match (if a.payloadIn then s.load o (a.payloadBase + r * a.payloadStride) (n * 4) else (s, .ok [])) with
    | (s, .error e) => (s, .error e)
    | (s, .ok ps) => (s, .ok ((List.range n).map (fun i =>
        ({ key := leAt ks (i * a.form.bytes) a.form.bytes, payload := if a.payloadIn then leAt ps (4 * i) 4 else i } : Elem))))

/-- The output pieces of a row. -/
def SortArgs.pieces (a : SortArgs) (r : Nat) (l : List Elem) : List (Nat × List Byte) :=
  (if a.keysOut then [(a.outKeyBase + r * a.outKeyStride, l.flatMap (fun e => natToBytes a.form.bytes e.key))] else [])
    ++ [(a.outPayloadBase + r * a.outPayloadStride, l.flatMap (fun e => natToBytes 4 e.payload))]

/-- Free bytes: what a sort leaves in its scratch area is not stated. -/
def State.freeBytes (s : State) : Nat → State × List Byte
  | 0 => (s, [])
  | n + 1 =>
    let (w, s) := s.draw
    let (s, l) := s.freeBytes n
    (s, BitVec.ofNat 8 w.toNat :: l)

/-- A row of a sort (R350, R359). `scratch` is the engine's area, where the command gives one. -/
def State.sortRow (s : State) (o : Origin) (a : SortArgs) (scratch : Option Nat) (r : Nat) : State × Except AccErr RowResult :=
  match s.rowCount o a.countsBase a.n r with
  | (s, .error e) => (s, .error e)
  | (s, .ok n) =>
    if n = 0 then (s, .ok {})
    else match s.rowElems o a r n with
    | (s, .error e) => (s, .error e)
    | (s, .ok l) =>
      let sorted := stableSort (fun (x y : Elem) => a.form.before (a.form.order x.key) (a.form.order y.key)) l
      match scratch with
      | some base =>
        let (s, junk) := s.freeBytes (2 * n * (a.form.bytes + 4))
        s.rowEnds o ([(base, junk)] ++ a.pieces r sorted) { elements := n, work := 2 * n }
      | none => s.rowEnds o (a.pieces r sorted) { elements := n, work := 2 * n }

/-- Whether an element that is not a NaN passes a top-k's threshold (R349). -/
def SortArgs.passes (a : SortArgs) (x : Elem) : Bool :=
  !a.thresh || !a.form.before (a.form.order a.threshold) (a.form.order x.key)

/-- A row of a top-k (R349, R350). -/
def State.topkRow (s : State) (o : Origin) (a : SortArgs) (r : Nat) : State × Except AccErr RowResult :=
  match s.rowCount o a.countsBase a.n r with
  | (s, .error e) => (s, .error e)
  | (s, .ok n) =>
    match s.rowElems o a r n with
    | (s, .error e) => (s, .error e)
    | (s, .ok l) =>
      let nums := l.filter (fun x => !a.form.isNan x.key)
      let valid := nums.filter a.passes
      let best := (stableSort (fun (x y : Elem) => a.form.before (a.form.order x.key) (a.form.order y.key)) valid).take a.k
      let pad := List.replicate (a.k - best.length) ({ key := a.form.sentinel, payload := 0xFFFFFFFF } : Elem)
      s.rowEnds o (a.pieces r (best ++ pad) ++ [(a.auxBase + 4 * r, natToBytes 4 best.length)])
        { elements := n, work := n + a.k, nanKeys := l.length - nums.length }

/-! Merge (R351 to R353). -/

/-- A list that a merge reads: where its next element stands, how many are left, its head and the last key read from it. -/
structure Cursor where
  index : Nat
  keyAt : Nat
  payAt : Nat
  left : Nat
  head : Option Elem := none
  last : Option Nat := none
  deriving DecidableEq, Repr, Inhabited

/-- What a merge is asked to do (R366). -/
structure MergeArgs where
  form : KeyForm
  dedup : Bool
  keysOut : Bool
  topk : Bool
  lists : Nat
  k : Nat
  table : Nat
  outKeyBase : Nat
  outPayloadBase : Nat
  countBase : Nat

def Cmd.mergeArgs (c : Cmd) : MergeArgs :=
  { form := c.keyForm, dedup := c.f 0 16 5 1 == 1, keysOut := c.f 0 16 6 1 == 1, topk := c.f 0 16 7 1 == 1,
    lists := c.f 0 17 4 4 + 1, k := c.f 0 18 0 12 + 1, table := c.b 24 6, outKeyBase := c.b 30 6, outPayloadBase := c.b 36 6,
    countBase := c.b 42 6 }

/-- The lists of a merge, as its list table gives them. -/
def State.mergeLists (s : State) (o : Origin) (a : MergeArgs) : State × Except AccErr (List Cursor) :=
  match s.load o a.table (16 * a.lists) with
  | (s, .error e) => (s, .error e)
  | (s, .ok b) => (s, .ok ((List.range a.lists).map (fun i =>
      ({ index := i, keyAt := leAt b (16 * i) 6, payAt := leAt b (16 * i + 6) 6, left := leAt b (16 * i + 12) 4 } : Cursor))))

/-- Heads are brought in where a list has elements and no head. -/
def State.mergeHeads (s : State) (o : Origin) (kb : Nat) : List Cursor → State × Except AccErr (List Cursor)
  | [] => (s, .ok [])
  | c :: rest =>
    let more (s : State) (c : Cursor) : State × Except AccErr (List Cursor) :=
      match s.mergeHeads o kb rest with
      | (s, .error e) => (s, .error e)
      | (s, .ok l) => (s, .ok (c :: l))
    if c.head.isSome || c.left == 0 then more s c
    else match s.load o c.keyAt kb with
    | (s, .error e) => (s, .error e)
    | (s, .ok k) =>
      match s.load o c.payAt 4 with
      | (s, .error e) => (s, .error e)
      | (s, .ok p) => more s { c with
          head := some { key := leAt k 0 kb, payload := leAt p 0 4 }
          keyAt := c.keyAt + kb
          payAt := c.payAt + 4
          left := c.left - 1 }

/-- The list whose head is taken: by key, then the lower payload, then the lower index. -/
def mergePick (f : KeyForm) (l : List Cursor) : Option (Cursor × Elem) :=
  l.foldl (fun best c => match c.head, best with
    | none, b => b
    | some x, none => some (c, x)
    | some x, some (d, y) =>
      let ox := f.order x.key
      let oy := f.order y.key
      if f.before ox oy || (ox == oy && decide (x.payload < y.payload)) then some (c, x) else some (d, y)) none

/-- How a merge ends. -/
inductive MergeEnd where
  | done (out : List Elem)
  | failed (status : Half) (detail : Word)
  deriving DecidableEq, Repr, Inhabited

/-- Elements are read and emitted; the fuel is the number of elements of all lists. -/
def State.mergeRun (s : State) (o : Origin) (a : MergeArgs) : Nat → List Cursor → List Elem → RowResult →
    State × Except AccErr (MergeEnd × RowResult)
  | 0, _, out, r => (s, .ok (.done out.reverse, r))
  | n + 1, l, out, r =>
    if a.topk && out.length == a.k then (s, .ok (.done out.reverse, r))
    else match s.mergeHeads o a.form.bytes l with
    | (s, .error e) => (s, .error e)
    | (s, .ok l) =>
      match mergePick a.form l with
      | none => (s, .ok (.done out.reverse, r))
      | some (c, x) =>
        let r := { r with elements := r.elements + 1 }
        let ord := a.form.order x.key
        let broken := match c.last with | some k => a.form.before ord k | none => false
        if broken then (s, .ok (.failed stMergeUnsorted (BitVec.ofNat 32 c.index), r))
        else
          let l := updWhere l (fun d => d.index == c.index) (fun d => { d with head := none, last := some ord })
          match (if a.dedup then out.find? (fun y => y.payload == x.payload) else none) with
          | some y =>
            if y.key = x.key then s.mergeRun o a n l out { r with collapsed := r.collapsed + 1 }
            else (s, .ok (.failed stMergeInconsistent (BitVec.ofNat 32 x.payload), r))
          | none => s.mergeRun o a n l (x :: out) r

/-- The one row of a merge: its outputs are written once it is known that it does not fail, and what it has read counts even where it does
(R369). -/
def State.mergeRow (s : State) (o : Origin) (a : MergeArgs) : State × Except AccErr RowResult :=
  match s.mergeLists o a with
  | (s, .error e) => (s, .error e)
  | (s, .ok l) =>
    match s.mergeRun o a (l.foldl (fun n c => n + c.left) 0) l [] {} with
    | (s, .error e) => (s, .error e)
    | (s, .ok (.failed st d, r)) => (s, .ok { r with work := r.elements, fail := some ⟨st, d⟩ })
    | (s, .ok (.done out, r)) =>
      let slots := if a.topk then out ++ List.replicate (a.k - out.length) ({ key := a.form.sentinel, payload := 0xFFFFFFFF } : Elem)
        else out
      let pieces := (if a.keysOut then [(a.outKeyBase, slots.flatMap (fun e => natToBytes a.form.bytes e.key))] else [])
        ++ [(a.outPayloadBase, slots.flatMap (fun e => natToBytes 4 e.payload)), (a.countBase, natToBytes 4 out.length)]
      s.rowEnds o pieces { r with work := r.elements + slots.length }

/-! Non-maximum suppression (R354, R355, R367). -/

/-- A box record. -/
structure BoxRec where
  bytes : List Byte
  box : NmsBox
  score : Nat
  cls : Nat
  deriving DecidableEq, Repr, Inhabited

/-- The 32 bytes of a record, read. -/
def boxOf (b : List Byte) : BoxRec :=
  let v (i : Nat) : FVal := f32 (leAt b i 4)
  { bytes := b, box := ⟨v 0, v 4, v 8, v 12, v 16⟩, score := leAt b 20 4, cls := leAt b 24 2 }

/-- A box that may be a candidate (R354). -/
def BoxRec.valid (b : BoxRec) : Bool :=
  let x := b.box
  [x.x, x.y, x.yaw, x.l, x.w].all FVal.isFinite && [x.l, x.w].all (fun v => (FVal.fin false 0 0).lt v)

/-- What an NMS is asked to do. -/
structure NmsArgs where
  classAware : Bool
  thresh : Bool
  rows : Nat
  n : Nat
  inBase : Nat
  outBase : Nat
  countBase : Nat
  preK : Nat
  maxOut : Nat
  iouThr : FVal
  scoreThr : FVal
  inStride : Nat
  outStride : Nat
  countsBase : Nat

def Cmd.nmsArgs (c : Cmd) : NmsArgs :=
  { classAware := c.f 0 16 0 1 == 1, thresh := c.f 0 16 1 1 == 1, rows := c.b 18 2 + 1, n := c.b 20 4, inBase := c.b 24 6,
    outBase := c.b 30 6, countBase := c.b 36 6, preK := c.f 0 42 0 12 + 1, maxOut := c.f 0 44 0 12 + 1, iouThr := f32 (c.e 4 4),
    scoreThr := f32 (c.e 8 4), inStride := c.e 12 4, outStride := c.e 16 4, countsBase := c.e 20 6 }

/-- Candidates one after the other: a box is kept where no kept box overlaps it too much. How many pairs the unit evaluates past the
first that suppresses is open. -/
def State.nmsRun (s : State) (a : NmsArgs) : List BoxRec → List BoxRec → RowResult → State × List BoxRec × RowResult
  | [], kept, r => (s, kept.reverse, r)
  | b :: rest, kept, r =>
    if kept.length = a.maxOut then (s, kept.reverse, r)
    else
      let rivals := kept.reverse.filter (fun k => !a.classAware || k.cls == b.cls)
      match rivals.findIdx? (fun k => iouAbove k.box b.box a.iouThr) with
      | none => s.nmsRun a rest (b :: kept) { r with iouTests := r.iouTests + rivals.length }
      | some i =>
        let (more, s) := s.choose (rivals.length - i)
        s.nmsRun a rest kept { r with iouTests := r.iouTests + i + 1 + more, suppressed := r.suppressed + 1 }

/-- A row of an NMS. -/
def State.nmsRow (s : State) (o : Origin) (a : NmsArgs) (row : Nat) : State × Except AccErr RowResult :=
  match s.rowCount o a.countsBase a.n row with
  | (s, .error e) => (s, .error e)
  | (s, .ok n) =>
    if n = 0 then (s, .ok {})
    else match s.load o (a.inBase + row * a.inStride) (32 * n) with
    | (s, .error e) => (s, .error e)
    | (s, .ok bytes) =>
      let all := (List.range n).map (fun i => boxOf (slice bytes (32 * i) 32))
      let good := all.filter BoxRec.valid
      let nums := good.filter (fun b => !(f32 b.score).isNan)
      let cand := nums.filter (fun b => !a.thresh || !(f32 b.score).lt a.scoreThr)
      let form : KeyForm := { bytes := 4, type := 2, descending := true }
      let best := (stableSort (fun (x y : BoxRec) => form.before (form.order x.score) (form.order y.score)) cand).take a.preK
      let (s, kept, r) := s.nmsRun a best [] { elements := n, nanKeys := good.length - nums.length, boxesInvalid := n - good.length }
      s.rowEnds o [(a.outBase + row * a.outStride, kept.flatMap (·.bytes)), (a.countBase + 4 * row, natToBytes 4 kept.length)]
        { r with work := n + kept.length + r.iouTests }

/-! Dispatch (R348, R357, R359, R363). -/

/-- The bytes of rows. -/
def rowsExtent (base stride rows bytes : Nat) : Extent := (base, base + (rows - 1) * stride + bytes)

/-- A base or a stride that is no multiple of 64 bytes. -/
def off64 (x : Nat) : Bool := x % 64 != 0

/-- Whether an output meets an input, a scratch area or another output. -/
def outputsMeet (outs others : List Extent) : Bool :=
  outs.any (fun o => others.any (extentsMeet o)) ||
    outs.zipIdx.any (fun x => outs.zipIdx.any (fun y => decide (x.2 < y.2) && extentsMeet x.1 y.1))

/-- The first placement rule that is broken, as SORT_PLACEMENT's detail. -/
def placementFault (l : List (Bool × Nat)) : Option (Half × Word) :=
  (leastBad l).map (fun d => (stSortPlacement, BitVec.ofNat 32 d))

/-- Bytes of scratch that a sort needs on a Stem (R359). -/
def SortArgs.scratchBytes (a : SortArgs) : Nat := ceilDiv (2 * a.n * (a.form.bytes + 4)) 4096 * 4096

/-- What a sort or top-k reads, and what it writes. -/
def SortArgs.inputs (a : SortArgs) : List Extent :=
  [rowsExtent a.keyBase a.keyStride a.rows (a.n * a.form.bytes)]
    ++ (if a.payloadIn then [rowsExtent a.payloadBase a.payloadStride a.rows (a.n * 4)] else [])
    ++ (if a.countsBase = 0 then [] else [(a.countsBase, a.countsBase + 4 * a.rows)])
def SortArgs.outputs (a : SortArgs) : List Extent :=
  let m := if a.topk then a.k else a.n
  (if a.keysOut then [rowsExtent a.outKeyBase a.outKeyStride a.rows (m * a.form.bytes)] else [])
    ++ [rowsExtent a.outPayloadBase a.outPayloadStride a.rows (m * 4)]
    ++ (if a.topk then [(a.auxBase, a.auxBase + 4 * a.rows)] else [])

/-- The placement of a sort or top-k. The scratch areas are those of the Stems of the mask. -/
def SortArgs.placement (a : SortArgs) (scratch : List Nat) : Option (Half × Word) :=
  let m := if a.topk then a.k else a.n
  let kb := a.form.bytes
  let ins := a.inputs ++ scratch.map (fun x => (x, x + a.scratchBytes))
  placementFault
    [(off64 a.keyBase || off64 a.keyStride || decide (a.keyStride < a.n * kb), 0),
     (a.payloadIn && (off64 a.payloadBase || off64 a.payloadStride || decide (a.payloadStride < a.n * 4)), 1),
     (a.keysOut && (off64 a.outKeyBase || off64 a.outKeyStride || decide (a.outKeyStride < m * kb)), 2),
     (off64 a.outPayloadBase || off64 a.outPayloadStride || decide (a.outPayloadStride < m * 4) || outputsMeet a.outputs ins, 2),
     (!scratch.isEmpty && (off64 a.auxBase || off64 a.aux), 3),
     (off64 a.countsBase || (a.topk && off64 a.auxBase), 4)]

/-- The placement of an NMS. -/
def NmsArgs.placement (a : NmsArgs) : Option (Half × Word) :=
  let ins := [rowsExtent a.inBase a.inStride a.rows (a.n * 32)]
    ++ (if a.countsBase = 0 then [] else [(a.countsBase, a.countsBase + 4 * a.rows)])
  let outs := [rowsExtent a.outBase a.outStride a.rows (a.maxOut * 32), (a.countBase, a.countBase + 4 * a.rows)]
  placementFault
    [(off64 a.inBase || off64 a.inStride || decide (a.inStride < a.n * 32), 0),
     (off64 a.outBase || off64 a.outStride || decide (a.outStride < a.maxOut * 32) || outputsMeet outs ins, 2),
     (off64 a.countsBase || off64 a.countBase, 4)]

/-- Why the engines of some Stems cannot take a command's rows (R363, R470, R545). For an engine that is lost the spec names two
statuses, and which one is open. -/
def State.sortEngines (s : State) (stems : List Nat) : State × Option (Half × Word) :=
  if stems.isEmpty then (s, some (stSortPlacement, 5))
  else if stems.any (fun j => !s.stemOn j) then (s, some (stResource, 0))
  else match stems.find? (fun j => s.bark.lostEngines.contains (j, .sort, 0)) with
  | none => (s, none)
  | some j =>
    let (k, s) := s.choose 2
    (s, some (if k = 0 then (stSortPlacement, 5) else (stUnitLost, BitVec.ofNat 32 (j * 256))))

/-- Firmware chooses the engines of a basic-level command among those that serve (R362): none where there is none. -/
def State.chooseEngines (s : State) (one : Bool) : State × List Nat :=
  let ok := (List.range 4).filter (fun j => s.stemOn j && !s.bark.lostEngines.contains (j, .sort, 0))
  let (k, s) := s.choose ok.length
  let first := (ok[k]?).toList
  if one then (s, first)
  else
    ok.foldl (fun (x : State × List Nat) j =>
      let (b, s) := x.1.choose 2
      (s, if first.contains j || b == 1 then x.2 ++ [j] else x.2)) (s, [])

/-- The counts of a command's rows in order, up to the first that cannot be read or is longer than n (R348). -/
def State.countsFault (s : State) (o : Origin) (base n : Nat) : List Nat → State × Option AccErr
  | [] => (s, none)
  | r :: rest =>
    match s.rowCount o base n r with
    | (s, .error e) => (s, some e)
    | (s, .ok _) => s.countsFault o base n rest

/-- Firmware places scratch areas for the engines of some Stems, clear of some ranges: none where one of them has no place (R362). -/
def State.placeScratch (s : State) (part bytes : Nat) : List Nat → List Extent → State × Option (List ScratchArea)
  | [], _ => (s, some [])
  | j :: r, others =>
    match s.placeHbm part bytes 4096 others with
    | (s, none) => (s, none)
    | (s, some a) =>
      match s.placeScratch part bytes r (others ++ [(a, a + bytes)]) with
      | (s, none) => (s, none)
      | (s, some l) => (s, some (({ stem := j, base := a, bytes := bytes } : ScratchArea) :: l))

/-- The scratch areas of a command: firmware's for a SORT, none for the others (R359, R362). -/
def State.scratchFor (s : State) (c : Cmd) (stems : List Nat) : State × Option (List ScratchArea) :=
  if c.engineClass = 0 ∧ c.opcode = 0x60 then
    let a := c.sortArgs false
    s.placeScratch c.part a.scratchBytes stems (a.inputs ++ a.outputs)
  else (s, some [])

/-- A command's rows go to the engines, unless a check stops it: its row length, its engines, its placement, its counts, its scratch. -/
def State.startSort (s : State) (c : Cmd) (basic one : Bool) (mask : Nat) (rows n counts : Nat) (check : Option (Half × Word)) : State :=
  if 1048576 < n then s.finish c.id stRowTooLong 0xFFFFFFFF
  else
    let r : State × List Nat × Option (Half × Word) :=
      if basic then
        let (s, l) := s.chooseEngines one
        (s, l, if l.isEmpty then some (stResource, 0) else none)
      else
        let l := bitList 4 mask
        let (s, e) := s.sortEngines l
        (s, l, e)
    let s := r.1
    match check.or r.2.2 with
    | some e => s.finish c.id e.1 e.2
    | none =>
      match s.countsFault c.origin counts n (if counts = 0 then [] else List.range rows) with
      | (s, some e) => s.failAcc c.id e
      | (s, none) =>
        match s.scratchFor c r.2.1 with
        | (s, none) => s.finish c.id stResource
        | (s, some l) =>
          { s with sort := { s.sort with runs := s.sort.runs ++ [({ cmd := c.id, stems := r.2.1, scratch := l } : SortRun)] } }

/-- What the placement and the scratch areas of a sort or top-k break, if anything (R357, R359). -/
def Cmd.rowsCheck (c : Cmd) (basic topk : Bool) : Option (Half × Word) :=
  let a := c.sortArgs topk
  let mask := c.f 0 17 0 4
  let scratch := if basic || topk then [] else (bitList 4 mask).map (fun j => a.auxBase + j * a.aux)
  let small : Option (Half × Word) :=
    if !basic && !topk && decide (a.aux < a.scratchBytes) then
      (bitList 4 mask).head?.map (fun j => (stScratchSmall, BitVec.ofNat 32 j))
    else none
  (a.placement scratch).or small

/-- A sort or a top-k at dispatch. -/
def State.startRows (s : State) (c : Cmd) (basic topk : Bool) : State :=
  let a := c.sortArgs topk
  s.startSort c basic false (c.f 0 17 0 4) a.rows a.n a.countsBase (c.rowsCheck basic topk)

/-- Why a merge cannot start, given its lists (R351, R352, R363, R366). -/
def MergeArgs.fault (a : MergeArgs) (l : List Cursor) : Option (Half × Word) :=
  let total := l.foldl (fun n c => n + c.left) 0
  let slots := if a.topk then a.k else total
  let kb := a.form.bytes
  let ins := [(a.table, a.table + 16 * a.lists)] ++ l.map (fun c => (c.keyAt, c.keyAt + c.left * kb))
    ++ l.map (fun c => (c.payAt, c.payAt + c.left * 4))
  let outs := (if a.keysOut then [(a.outKeyBase, a.outKeyBase + slots * kb)] else [])
    ++ [(a.outPayloadBase, a.outPayloadBase + slots * 4), (a.countBase, a.countBase + 4)]
  match l.find? (fun c => decide (1048576 < c.left)) with
  | some c => some (stRowTooLong, BitVec.ofNat 32 c.index)
  | none =>
    (placementFault
      [(l.any (fun c => off64 c.keyAt), 0), (l.any (fun c => off64 c.payAt), 1),
       (a.keysOut && off64 a.outKeyBase, 2), (off64 a.outPayloadBase || outputsMeet outs ins, 2), (off64 a.countBase, 4)]).or
      (if !a.topk && ((a.dedup && decide (65536 < total)) || decide (16777216 < total)) then some (stMergeTooLarge, satDetail total)
       else none)

/-- A merge at dispatch. -/
def State.startMerge (s : State) (c : Cmd) (basic : Bool) : State :=
  let a := c.mergeArgs
  match s.mergeLists c.origin a with
  | (s, .error e) => s.failAcc c.id e
  | (s, .ok l) => s.startSort c basic true (2 ^ c.f 0 17 0 2) 1 0 0 (a.fault l)

/-- An NMS at dispatch. -/
def State.startNms (s : State) (c : Cmd) (basic : Bool) : State :=
  let a := c.nmsArgs
  s.startSort c basic false (c.f 0 17 0 4) a.rows a.n a.countsBase a.placement

/-- SORT, TOPK, MERGE and NMS at the basic level (R362). -/
def execSort (cmd : Nat) (s : State) : Host.Outcome State Fault Refusal :=
  answer s true (s.onStart cmd 0x0 0x60 (fun s c => s.startRows c true false))
def execTopk (cmd : Nat) (s : State) : Host.Outcome State Fault Refusal :=
  answer s true (s.onStart cmd 0x0 0x61 (fun s c => s.startRows c true true))
def execMerge (cmd : Nat) (s : State) : Host.Outcome State Fault Refusal :=
  answer s true (s.onStart cmd 0x0 0x62 (fun s c => s.startMerge c true))
def execNms (cmd : Nat) (s : State) : Host.Outcome State Fault Refusal :=
  answer s true (s.onStart cmd 0x0 0x63 (fun s c => s.startNms c true))

/-- SRT_SORT, SRT_TOPK, SRT_MERGE and SRT_NMS (R363). -/
def execSrtSort (cmd : Nat) (s : State) : Host.Outcome State Fault Refusal :=
  answer s true (s.onStart cmd 0x6 0x01 (fun s c => s.startRows c false false))
def execSrtTopk (cmd : Nat) (s : State) : Host.Outcome State Fault Refusal :=
  answer s true (s.onStart cmd 0x6 0x02 (fun s c => s.startRows c false true))
def execSrtMerge (cmd : Nat) (s : State) : Host.Outcome State Fault Refusal :=
  answer s true (s.onStart cmd 0x6 0x03 (fun s c => s.startMerge c false))
def execSrtNms (cmd : Nat) (s : State) : Host.Outcome State Fault Refusal :=
  answer s true (s.onStart cmd 0x6 0x04 (fun s c => s.startNms c false))

/-- NMS_OVERRIDE (R362). -/
def execNmsOverride (cmd : Nat) (s : State) : Host.Outcome State Fault Refusal :=
  answer s true (s.onCmd cmd 0x0 0x64 (fun c =>
    let n := c.b 16 2
    if (s.set? n).isNone then s.finish cmd stSetUndefined (BitVec.ofNat 32 n)
    else
      let rest := s.sort.overrides.filter (fun o => o.set != n)
      let o : NmsOverride :=
        { set := n, iouThr := BitVec.ofNat 32 (c.b 20 4), scoreThr := BitVec.ofNat 32 (c.b 24 4), maxOut := c.b 28 2 }
      ({ s with sort := { s.sort with overrides := if c.f 0 30 0 1 == 1 then rest else rest ++ [o] } }).finish cmd stSuccess))

/-! Chunks (R357, R360). -/

/-- Rows of a command. -/
def Cmd.sortRows (c : Cmd) (kind : Nat) : Nat := if kind = 3 then 1 else c.b 18 2 + 1

/-- Which of the four operations a command is, whatever its level: 1 sort, 2 top-k, 3 merge, 4 NMS. -/
def Cmd.sortKind (c : Cmd) : Nat := if c.engineClass = 0 then c.opcode - 0x5F else c.opcode

/-- The scratch area of a sort on a Stem (R359, R362). -/
def SortRun.scratchOn (r : SortRun) (c : Cmd) (stem : Nat) : Option Nat :=
  let a := c.sortArgs false
  if c.engineClass = 0 then (r.scratch.find? (fun x => x.stem == stem)).map (·.base) else some (a.auxBase + stem * a.aux)

/-- A row of a command on a Stem, whole. -/
def State.doRow (s : State) (c : Cmd) (run : SortRun) (stem row : Nat) : State × Except AccErr RowResult :=
  match c.sortKind with
  | 1 => s.sortRow c.origin (c.sortArgs false) (run.scratchOn c stem) row
  | 2 => s.topkRow c.origin (c.sortArgs true) row
  | 3 => s.mergeRow c.origin c.mergeArgs
  | _ => s.nmsRow c.origin c.nmsArgs row

/-- A top-k, merge or NMS row that an engine is in begins again: that of every command, or of the one that is preempted (R360). -/
def State.restartRows (s : State) (stem : Nat) (only : Option Nat) : State :=
  let again (r : SortRun) : Bool := only.all (fun k => k == r.cmd) && (match s.cmd? r.cmd with | some c => c.sortKind != 1 | none => false)
  { s with sort := { s.sort with runs := updWhere s.sort.runs again (fun r => { r with chunk := r.chunk.set stem 0 }) } }

/-- What a row counts. -/
def State.sortCounts (s : State) (cmd stem : Nat) (r : RowResult) : State :=
  let u := unitId 7 stem 0
  let s := (s.count Fld.srtStemElements_elements r.elements stem).count Fld.srtStemIou_iou_tests r.iouTests stem
  let s := (s.count Fld.srtStemCollapsed_collapsed r.collapsed stem).count Fld.srtStemSuppressed_suppressed r.suppressed stem
  let rows := if r.fail.isNone then 1 else 0
  let s := ((s.tally (some cmd) u 0x0600 rows).tally (some cmd) u 0x0601 r.elements).tally (some cmd) u 0x0602 r.nanKeys
  let s := ((s.tally (some cmd) u 0x0603 r.collapsed).tally (some cmd) u 0x0604 r.boxesInvalid).tally (some cmd) u 0x0605 r.iouTests
  let s := s.tally (some cmd) u 0x0606 r.suppressed
  { s with sort := { s.sort with runs := updWhere s.sort.runs (fun x => x.cmd == cmd) (fun x => { x with
      rowsDone := x.rowsDone + rows, nanKeys := x.nanKeys + r.nanKeys, collapsed := x.collapsed + r.collapsed,
      boxesInvalid := x.boxesInvalid + r.boxesInvalid, iouTests := x.iouTests + r.iouTests,
      suppressed := x.suppressed + r.suppressed, elements := x.elements + r.elements }) } }

/-- The conditions that a command met (R349, R352, R354). -/
def SortRun.status (r : SortRun) : Half × Word :=
  let one (st : Half) (n : Nat) : List (Half × Word) := if n = 0 then [] else [(st, satDetail n)]
  leastCode (one stNanKeys r.nanKeys ++ one stDuplicatesCollapsed r.collapsed ++ one stBoxesInvalid r.boxesInvalid)

/-- The row that a Stem's engine is in for a command, if it has one left (R357). -/
def SortRun.rowOn (r : SortRun) (c : Cmd) (stem : Nat) : Option Nat :=
  match r.stems.findIdx? (fun j => j == stem) with
  | none => none
  | some p =>
    let row := p + nth 0 r.row stem * r.stems.length
    if row < c.sortRows c.sortKind then some row else none

/-- The commands that have rows for a Stem's Sort Engine. -/
def State.sortWork (s : State) (stem : Nat) : List Cmd :=
  s.atWork ((s.sort.runs.filter (fun r => match s.cmd? r.cmd with | some c => (r.rowOn c stem).isSome | none => false)).map (·.cmd))

/-- A command takes its turn at a Stem's Sort Engine: a row that it preempts begins again (R87, R88, R360). -/
def State.sortTurn (s : State) (c : Cmd) (stem : Nat) : Option State :=
  let u := unitId 7 stem 0
  let l := s.sortWork stem
  (s.takeTurn u (s.rdN Fld.srtCtrl_slice_chunks) l c).map (fun t => match s.preempts u l c with
    | some d => t.restartRows stem (some d)
    | none => t)

/-- SORT_CHUNK: an engine completes a chunk of the row it is in, of the command whose turn it is; the row's effects stand with its last
chunk. -/
def execSortChunk (cmd stem : Nat) (s : State) : Host.Outcome State Fault Refusal :=
  answer s (isStem stem) (match s.cmd? cmd, s.sort.runs.find? (fun r => r.cmd == cmd) with
    | some c, some run =>
      let u := unitId 7 stem 0
      let upd (s : State) (f : SortRun → SortRun) : State :=
        { s with sort := { s.sort with runs := updWhere s.sort.runs (fun x => x.cmd == cmd) f } }
      match run.rowOn c stem, s.sortTurn c stem with
      | some row, some s0 =>
        if (s.engineFault .sort [stem]).isSome then s
        else
          let chunk := nth 0 run.chunk stem
          match s0.doRow c run stem row with
          | (s, .error e) => (s.dropWork cmd).failAcc cmd e
          | (t, .ok r) =>
            if (chunk + 1) * 65536 < r.work then
              (upd s0 (fun x => { x with chunk := x.chunk.set stem (chunk + 1) })).committed (some cmd) u chunk
            else
              let t := (t.sortCounts cmd stem r).committed (some cmd) u chunk
              let t := upd t (fun x => { x with row := x.row.set stem (nth 0 run.row stem + 1), chunk := x.chunk.set stem 0 })
              match r.fail with
              | some e => (t.dropWork cmd).failAcc cmd e
              | none =>
                if run.rowsDone + 1 = c.sortRows c.sortKind then
                  let st := ((t.sort.runs.find? (fun x => x.cmd == cmd)).map SortRun.status).getD (stSuccess, 0)
                  ({ t with sort := { t.sort with runs := t.sort.runs.filter (fun x => x.cmd != cmd) } }).finish cmd st.1 st.2
                else t
      | _, _ => s
    | _, _ => s)

end Sys2Proof.Machine
end

