-- ==== Sys2Proof/Machine/Gather.lean ====
section
/-! DEFINITION. Prior tables and their lookup path (R371 to R375, R378 to R387, R391). -/
namespace Sys2Proof.Machine

/-! Statuses (R393). -/
def stDefaultRows : Half := 0x0701
def stPutRefused : Half := 0x0702
def stPutReplaced : Half := 0x0703
def stPriorAbsent : Half := 0x0740
def stPriorExists : Half := 0x0741
def stVersionState : Half := 0x0742
def stVersionsFull : Half := 0x0743
def stNoVersion : Half := 0x0744
def stNotMember : Half := 0x0745
def stGatherPlacement : Half := 0x0746
def stBurlPlacement : Half := 0x0747
def stVersionMismatch : Half := 0x0748
def stPriorImage : Half := 0x0749

/-! Rows and directories (R373, R374). -/

/-- The member chip that owns a key. -/
def Prior.owner (p : Prior) (key : Nat) : Nat := nth 0 p.members (((keyHash key >>> 32) * p.members.length) >>> 32)

/-- The probe sequence of a key in a directory of 2^d slots: addresses relative to its base. -/
def priorProbes (d key : Nat) : List Nat :=
  let h := keyHash key
  let h2 := keyHash ((h >>> 32) ^^^ h)
  let lb := d - 3
  let b0 := h2 >>> (64 - lb)
  let j0 := getBits h2 (61 - lb) 3
  (List.range 8).flatMap (fun i => (List.range 8).map (fun j =>
    (b0 + i * (i + 1) / 2) % 2 ^ lb * 128 + (j0 + j) % 8 * 16))

/-- What a probe of a directory ends at. -/
inductive DirFound where
  | hit (row : Nat)
  | empty (addr : Nat)
  | full

/-- The probes of a key in order (R374). -/
def State.dirProbe (s : State) (o : Origin) (base key : Nat) : List Nat → State × Except AccErr DirFound
  | [] => (s, .ok .full)
  | p :: rest =>
    match s.load o (base + p) 16 with
    | (s, .error e) => (s, .error e)
    | (s, .ok b) =>
      if leAt b 12 1 % 2 = 0 then (s, .ok (.empty (base + p)))
      else if leAt b 0 8 = key then (s, .ok (.hit (leAt b 8 4)))
      else s.dirProbe o base key rest

/-- The address of a local row; the default row follows the last. -/
def Version.rowAddr (v : Version) (rowBytes r : Nat) : Nat := v.rowBase + r * rowBytes

/-- The code of a slot's state, 0 where it is FREE (R375). -/
def Prior.slotCode (p : Prior) (slot : Nat) : Nat := ((p.versions.find? (fun v => v.slot == slot)).map (fun v => versionCode v.state)).getD 0

/-- VERSION_STATE's detail. -/
def versionDetail (slot code : Nat) : Word := BitVec.ofNat 32 (slot * 16 + code)

/-- A row as its owner serves it from a version (R374, R378): none where it is missing. -/
def State.serveRow (s : State) (o : Origin) (t slot gen key : Nat) : State × Except AccErr (Option (List Byte)) :=
  match s.prior? t with
  | none => (s, .error ⟨stPriorAbsent, BitVec.ofNat 32 t⟩)
  | some p =>
    match s.version? t slot gen with
    | none => (s, .error ⟨stVersionState, versionDetail slot 0⟩)
    | some v =>
      if v.state == .building then (s, .error ⟨stVersionState, versionDetail slot 1⟩)
      else match s.dirProbe o v.dirBase key (priorProbes v.d key) with
      | (s, .error e) => (s, .error e)
      | (s, .ok (.hit r)) =>
        (match s.load o (v.rowAddr p.rowBytes r) p.rowBytes with
         | (s, .error e) => (s, .error e)
         | (s, .ok b) => (s, .ok (some b)))
      | (s, .ok _) => (s, .ok none)

/-- The default row of a version on this chip. -/
def State.defaultRow (s : State) (o : Origin) (p : Prior) (v : Version) : State × Except AccErr (List Byte) :=
  s.load o (v.rowAddr p.rowBytes v.rowsCap) p.rowBytes

/-! Lookups. -/

/-- What a lookup is asked to do. -/
structure GatherArgs where
  table : Nat
  mask : Nat
  maskBatch : Bool
  coalesce : Bool
  colOff : Nat
  colBytes : Nat
  count : Nat
  inBase : Nat
  outBase : Nat
  statusBase : Nat
  stride : Nat
  batch : Nat

def Cmd.gatherArgs (c : Cmd) : GatherArgs :=
  { table := c.b 16 1, mask := c.f 0 17 0 4, maskBatch := c.f 0 17 4 1 == 1, coalesce := c.f 0 17 5 1 == 1, colOff := 16 * c.b 18 1,
    colBytes := 16 * (c.b 19 1 + 1), count := c.b 20 4, inBase := c.b 24 6, outBase := c.b 30 6, statusBase := c.b 36 6,
    stride := c.b 42 3, batch := 2 ^ c.batchLog2 }

/-- Whether a region lies in HBM or Sapwood and is a partition's (R385). -/
def State.dataRegion (s : State) (part : Nat) (x : Extent) : Bool := decide (x.2 ≤ 0x200000000000) && s.owns part x.1 x.2

/-- Why a lookup cannot start: placement and engines (R385, R470, R545). -/
def State.gatherFault (s : State) (c : Cmd) (a : GatherArgs) : Option (Half × Word) :=
  let stems := bitList 4 a.mask
  let ins : Extent := (a.inBase, a.inBase + 8 * a.count)
  let outs : Extent := (a.outBase, a.outBase + (a.count - 1) * a.stride + a.colBytes)
  let sts : Extent := (a.statusBase, a.statusBase + a.count)
  let bad (x : Extent) : Bool := !s.dataRegion c.part x || extentsMeet x ins
  let at_ (d : Nat) : Option (Half × Word) := some (stGatherPlacement, BitVec.ofNat 32 d)
  if stems.any (fun j => !s.stemOn j) then some (stResource, 0)
  else if bad outs then at_ 1
  else if a.statusBase ≠ 0 ∧ bad sts then at_ 2
  else if stems.any (fun j => [0, 1].all (fun k => s.bark.lostEngines.contains (j, .gather, k))) then at_ 3
  else none

/-- A table that a new command may name: one that is being destroyed is absent (R379). -/
def State.liveTable (s : State) (t : Nat) : Option Prior := (s.prior? t).filter (fun p => p.destroyCmd.isNone && !p.leaving)

/-- An engine's own check of the table that a descriptor names: it is there, and is still this partition's (R371, R379). -/
def State.onPrior (s : State) (c : Cmd) (f : Prior → State) : State :=
  let t := c.b 16 1
  match s.liveTable t with
  | none => s.finish c.id stPriorAbsent (BitVec.ofNat 32 t)
  | some p => if s.priorElsewhere c.part t then s.finish c.id stOwnership 16 else f p

/-- GTH_GATHER: the lookup pins the CURRENT version and its batches go to the engines (R378 to R381). -/
def execGthGather (cmd : Nat) (s : State) : Host.Outcome State Fault Refusal :=
  answer s true (s.onStart cmd 0x7 0x05 (fun s c =>
    let a := c.gatherArgs
    s.onPrior c (fun p =>
      if !p.members.contains s.chipId then s.finish cmd stNotMember (BitVec.ofNat 32 s.chipId)
      else match s.gatherFault c a with
      | some e => s.finish cmd e.1 e.2
      | none =>
        match p.versions.find? (fun v => v.state == .current) with
        | none => s.finish cmd stNoVersion (BitVec.ofNat 32 a.table)
        | some v =>
          let es := (bitList 4 a.mask).flatMap (fun j => [2 * j, 2 * j + 1])
          let pos := es.zipIdx.map (fun x => ({ engine := x.1, batch := x.2 } : GatherPos))
          let run : GatherRun := { cmd := cmd, table := a.table, slot := v.slot, gen := v.gen, positions := pos }
          let pin : Pin := { cmd := cmd, table := a.table, slot := v.slot, gen := v.gen }
          { s with gather := { s.gather with runs := s.gather.runs ++ [run], pins := s.gather.pins ++ [pin] } })))

/-! Outputs. -/

/-- An input's output and status (R385). -/
def State.gatherOut (s : State) (o : Origin) (a : GatherArgs) (i : Nat) (cols : List Byte) (st : Nat) : State × Option AccErr :=
  match s.store o (a.outBase + i * a.stride) cols with
  | (s, some e) => (s, some e)
  | (s, none) => if a.statusBase = 0 then (s, none) else s.store o (a.statusBase + i) [BitVec.ofNat 8 st]

/-- The columns of a row that a lookup takes. -/
def GatherArgs.cols (a : GatherArgs) (row : List Byte) : List Byte := slice row a.colOff a.colBytes

/-- Outputs of several inputs that take one row. -/
def State.gatherOuts (s : State) (o : Origin) (a : GatherArgs) (cols : List Byte) (st : Nat) : List Nat → State × Option AccErr
  | [] => (s, none)
  | i :: rest =>
    match s.gatherOut o a i cols st with
    | (s, some e) => (s, some e)
    | (s, none) => s.gatherOuts o a cols st rest

/-! Counts (R393, R394). -/

/-- Counts of an engine for a lookup. -/
structure GatherCounts where
  lookups : Nat := 0
  fetches : Nat := 0
  remote : Nat := 0
  coalesced : Nat := 0
  bypass : Nat := 0
  burlHits : Nat := 0
  invalid : Nat := 0
  missing : Nat := 0
  written : Nat := 0

/-- A Gather Engine's unit ID, for an engine counted over the chip (R512). -/
def gatherUnit (e : Nat) : Nat := unitId 8 (e / 2) (e % 2)

/-- Counts reach the Stem's registers, the engine's counters and the command's run. -/
def State.gatherCounts (s : State) (cmd e : Nat) (n : GatherCounts) : State :=
  let st := e / 2
  let u := gatherUnit e
  let s := (s.count Fld.gthStemLookups_lookups n.lookups st).count Fld.gthStemFetches_fetches n.fetches st
  let s := (s.count Fld.gthStemCoalesced_coalesced n.coalesced st).count Fld.gthStemBurlHits_burl_hits n.burlHits st
  let s := s.count Fld.gthStemDefaults_defaults (n.invalid + n.missing) st
  let s := ((s.tally (some cmd) u 0x0700 n.lookups).tally (some cmd) u 0x0701 n.fetches).tally (some cmd) u 0x0702 n.remote
  let s := ((s.tally (some cmd) u 0x0703 n.coalesced).tally (some cmd) u 0x0704 n.bypass).tally (some cmd) u 0x0705 n.burlHits
  let s := (s.tally (some cmd) u 0x0706 n.invalid).tally (some cmd) u 0x0707 n.missing
  { s with gather := { s.gather with runs := updWhere s.gather.runs (fun r => r.cmd == cmd) (fun r => { r with
      written := r.written + n.written, lookups := r.lookups + n.lookups, fetches := r.fetches + n.fetches,
      remoteFetches := r.remoteFetches + n.remote, coalesced := r.coalesced + n.coalesced, bypass := r.bypass + n.bypass,
      burlHits := r.burlHits + n.burlHits, defInvalid := r.defInvalid + n.invalid, defMissing := r.defMissing + n.missing }) } }

/-- A lookup whose every input has its output ends (R380). -/
def State.settleGather (s : State) (cmd : Nat) : State :=
  match s.cmd? cmd, s.gather.runs.find? (fun r => r.cmd == cmd) with
  | some c, some r =>
    if r.written < c.gatherArgs.count then s
    else
      let d := r.defInvalid + r.defMissing
      let s := { s with gather := { s.gather with runs := s.gather.runs.filter (fun r => r.cmd != cmd) } }
      if d = 0 then s.finish cmd stSuccess else s.finish cmd stDefaultRows (satDetail d)
  | _, _ => s

/-! The Burl cache (R383, R384). -/

/-- The rows of Sapwood bytes of an allocation: a range in each of its tiles. -/
def BurlAlloc.ranges (b : BurlAlloc) : List Extent :=
  (List.range (2 ^ b.m)).map (fun k =>
    let lo := sliceBase b.stem (b.t0 + k) + b.offset
    (lo, lo + ceilDiv (b.units * 0x20000) (2 ^ b.m)))

/-- A partition's allocation on a Stem. -/
def State.burlOf (s : State) (part stem : Nat) : Option BurlAlloc := s.gather.allocs.find? (fun b => b.part == part && b.stem == stem)

/-- What the tables and maps that firmware holds, and the Burl allocations, occupy. -/
def State.heldRanges (s : State) : List Extent :=
  (s.compute.tables.filter (fun t => t.firmware.isSome)).flatMap Table.ranges
    ++ (s.canopy.maps.filter (fun m => m.firmware.isSome)).flatMap CMap.ranges
    ++ (s.gather.allocs ++ s.gather.nextAllocs).flatMap BurlAlloc.ranges

/-- A fetch of a key reaches the Burl stage: it is counted in the Stem's filter. -/
def State.burlCount (s : State) (stem table gen key : Nat) : State × Nat :=
  let same (x : BurlCount) : Bool := x.stem == stem && x.table == table && x.gen == gen && x.key == key
  let n := ((s.gather.filter.find? same).map (·.count)).getD 0 + 1
  let rest := s.gather.filter.filter (fun x => !same x)
  ({ s with gather := { s.gather with
      filter := rest ++ [({ stem := stem, table := table, gen := gen, key := key, count := n } : BurlCount)] } }, n)

/-- A key's row in the Burl: it becomes the most recently used. An uncorrectable error in the allocation may lie in it, for the places
of rows in the allocation are not stated; then the row is dropped (R387). -/
def State.burlLookup (s : State) (part stem table gen key : Nat) : State × Except AccErr (Option (List Byte)) :=
  let same (x : BurlRow) : Bool := x.stem == stem && x.part == part && x.table == table && x.gen == gen && x.key == key
  match s.gather.rows.find? same with
  | none => (s, .ok none)
  | some x =>
    let rest := s.gather.rows.filter (fun x => !same x)
    let broken := s.mem.errs.find? (fun e => e.2 == .uncorrectable &&
      (((s.burlOf part stem).map BurlAlloc.ranges).getD []).any (fun r => decide (r.1 ≤ e.1) && decide (e.1 < r.2)))
    let keep (s : State) : State × Except AccErr (Option (List Byte)) :=
      ({ s with gather := { s.gather with rows := rest ++ [x] } }, .ok (some x.row))
    match broken with
    | none => keep s
    | some (w, _) =>
      let (k, s) := s.choose 2
      if k = 0 then keep s
      else (({ s with gather := { s.gather with rows := rest } }).sapUncorrectable w (some part), .error ⟨stUncorrectable, addrDetail w⟩)

/-- Least recently used rows of a partition leave a Stem's Burl until some bytes are free. -/
def burlEvict (part stem room : Nat) : Nat → List BurlRow → List BurlRow
  | 0, l => l
  | n + 1, l =>
    let mine := l.filter (fun (x : BurlRow) => x.part == part && x.stem == stem)
    if (mine.map (fun x => x.row.length)).sum ≤ room then l
    else match mine with
    | x :: _ => burlEvict part stem room n (l.erase x)
    | [] => l

/-- A row is copied into the Burl. -/
def State.burlPromote (s : State) (part stem table gen key : Nat) (row : List Byte) : State :=
  match s.burlOf part stem with
  | none => s
  | some b =>
    if s.gather.rows.any (fun x => x.stem == stem && x.part == part && x.table == table && x.gen == gen && x.key == key) then s
    else
      let room := b.units * 0x20000
      if room < row.length then s
      else
        let l := burlEvict part stem (room - row.length) s.gather.rows.length s.gather.rows
        { s with gather := { s.gather with
            rows := l ++ [({ stem := stem, part := part, table := table, gen := gen, key := key, row := row } : BurlRow)] } }

/-- New settings of a Stem take effect: old entries are dropped (R384). -/
def State.burlTake (s : State) (stem : Nat) : State :=
  let news := s.gather.nextAllocs.filter (fun b => b.stem == stem)
  news.foldl (fun s b =>
    let old := s.burlOf b.part stem
    let g := s.gather
    let s := { s with gather := { g with
        allocs := g.allocs.filter (fun x => !(x.part == b.part && x.stem == stem)) ++ (if b.units = 0 then [] else [b])
        nextAllocs := g.nextAllocs.erase b
        rows := g.rows.filter (fun r => !(r.part == b.part && r.stem == stem)) } }
    match old with
    | some x =>
      if (s.rdN Fld.sapScrubOnRelease_scrub_on_release).testBit b.part then
        x.ranges.foldl (fun s r => s.startScrub (.burl stem r.1 r.2) none) s
      else s
    | none => s) s

/-- BURL_WINDOW_EXPIRE: burl_window_us after it was last cleared, the Stem's promotion filter is cleared (R383). -/
def execBurlWindowExpire (stem : Nat) (s : State) : Host.Outcome State Fault Refusal :=
  answer s (isStem stem) (
    if s.passed (nth 0 s.gather.filterAt stem) (1000 * max 1 (s.rdN Fld.gthCtrl_burl_window_us)) then
      { s with gather := { s.gather with
          filter := s.gather.filter.filter (fun x => x.stem != stem), filterAt := s.gather.filterAt.set stem s.time.uptime } }
    else s)

/-! Fetches (R378, R382). -/

/-- A fetch goes to the key's owner, unless the Burl has the row: whether the input has its output already. -/
def State.gatherFetch (s : State) (c : Cmd) (a : GatherArgs) (p : Prior) (v : Version) (e i key : Nat) (n : GatherCounts) :
    State × Except AccErr (GatherCounts × Bool) :=
  let stem := e / 2
  let (s, k) := s.burlCount stem p.id v.gen key
  match s.burlLookup p.part stem p.id v.gen key with
  | (s, .error x) => (s, .error x)
  | (s, .ok (some row)) =>
    (match s.gatherOut c.origin a i (a.cols row) 0 with
     | (s, some x) => (s, .error x)
     | (s, none) => (s, .ok ({ n with burlHits := n.burlHits + 1, written := n.written + 1 }, true)))
  | (s, .ok none) =>
    let thr := s.rdN Fld.gthCtrl_burl_threshold
    let (early, s) := if thr = 0 ∨ thr ≤ k then (0, s) else s.choose 2
    let member := p.owner key
    let owner := s.aliased member
    let f : Fetch :=
      { id := s.gather.nextFetch, cmd := c.id, engine := e, table := p.id, slot := v.slot, gen := v.gen, key := key, owner := owner,
        inputs := [i], promote := decide (thr ≠ 0) && (decide (thr ≤ k) || early == 1) }
    let put (s : State) : State :=
      { s with gather := { s.gather with fetches := s.gather.fetches ++ [f], nextFetch := f.id + 1 } }
    if owner = s.chipId then (put s, .ok ({ n with fetches := n.fetches + 1 }, false))
    else if !s.reaches member then (s, .error ⟨stUnreachable, BitVec.ofNat 32 member⟩)
    else
      -- how a fetch names its row to another chip is not stated
      let (s, w) := s.freeBytes 8
      let (comp, s) := s.chooseComp p.rowBytes
      let w := slice w 0 6 ++ natToBytes 2 (putBits (leAt w 6 2) 9 2 comp)
      ((put s).request c.origin (.command c.id) (.fetch f.id) member 0x01 w 1 comp, .ok ({ n with fetches := n.fetches + 1, remote := n.remote + 1 }, false))

/-- The set of a key in the coalescing hash (R382). -/
def hashSet (key : Nat) : Nat := getBits (keyHash key) 54 10

/-- A key's place in its set: an empty entry, or that of the oldest entry without a hit; none where there is neither. Entries stand in
the order of their insertion. -/
def hashInsert (hash : List HashEntry) (x : HashEntry) : Option (List HashEntry) :=
  let mine := hash.filter (fun e => e.set == x.set)
  if mine.length < 8 then some (hash ++ [x])
  else (mine.find? (fun e => !e.hit)).map (fun old => hash.erase old ++ [x])

/-- An input joins the fetch of its key's first occurrence. -/
def State.joinFetch (s : State) (cmd e key first i : Nat) : State :=
  let waits (f : Fetch) : Bool := f.cmd == cmd && f.engine == e && f.key == key && f.inputs.head? == some first
  { s with gather := { s.gather with
      fetches := updWhere s.gather.fetches waits (fun f => { f with inputs := f.inputs ++ [i] }) } }

/-- An input of a batch (R380, R382). -/
def State.gatherOne (s : State) (c : Cmd) (a : GatherArgs) (p : Prior) (v : Version) (e i : Nat) (n : GatherCounts)
    (hash : List HashEntry) : State × Except AccErr (GatherCounts × List HashEntry) :=
  match s.load c.origin (a.inBase + 8 * i) 8 with
  | (s, .error x) => (s, .error x)
  | (s, .ok b) =>
    let w := leAt b 0 8
    let n := { n with lookups := n.lookups + 1 }
    if (if p.index then decide (p.indexLimit ≤ w) else w == 2 ^ 64 - 1) then
      match s.defaultRow c.origin p v with
      | (s, .error x) => (s, .error x)
      | (s, .ok row) =>
        match s.gatherOut c.origin a i (a.cols row) 2 with
        | (s, some x) => (s, .error x)
        | (s, none) => (s, .ok ({ n with invalid := n.invalid + 1, written := n.written + 1 }, hash))
    else
      let key := if a.maskBatch then w % 2 ^ 58 else w
      let set := hashSet key
      let alone (n : GatherCounts) : State × Except AccErr (GatherCounts × List HashEntry) :=
        match s.gatherFetch c a p v e i key n with
        | (s, .error x) => (s, .error x)
        | (s, .ok (n, _)) => (s, .ok (n, hash))
      if !a.coalesce then alone n
      else match hash.find? (fun x => x.set == set && x.key == key) with
      | some x =>
        let hash := updWhere hash (fun y => y.set == set && y.key == key) (fun y => { y with hit := true })
        let n := { n with coalesced := n.coalesced + 1 }
        (match x.result with
         | none =>
           (s.joinFetch c.id e key x.first i, .ok (n, hash))
         | some found =>
           match s.load c.origin (a.outBase + x.first * a.stride) a.colBytes with
           | (s, .error y) => (s, .error y)
           | (s, .ok cols) =>
             match s.gatherOut c.origin a i cols (if found then 0 else 1) with
             | (s, some y) => (s, .error y)
             | (s, none) => (s, .ok ({ n with written := n.written + 1, missing := n.missing + (if found then 0 else 1) }, hash)))
      | none =>
        match hashInsert hash { set := set, key := key, first := i } with
        | none => alone { n with bypass := n.bypass + 1 }
        | some hash =>
          match s.gatherFetch c a p v e i key n with
          | (s, .error x) => (s, .error x)
          | (s, .ok (n, done)) =>
            let hash := if done then updWhere hash (fun y => y.set == set && y.key == key) (fun y => { y with result := some true }) else hash
            (s, .ok (n, hash))

/-- Inputs one after the other, up to the first failure. -/
def State.gatherMany (s : State) (c : Cmd) (a : GatherArgs) (p : Prior) (v : Version) (e : Nat) :
    List Nat → GatherCounts → List HashEntry → State × Except AccErr (GatherCounts × List HashEntry)
  | [], n, hash => (s, .ok (n, hash))
  | i :: rest, n, hash =>
    match s.gatherOne c a p v e i n hash with
    | (s, .error x) => (s, .error x)
    | (s, .ok (n, hash)) => s.gatherMany c a p v e rest n hash

/-- Where an engine stands in a lookup. -/
def State.putPosition (s : State) (cmd : Nat) (x : GatherPos) : State :=
  let upd (r : GatherRun) : GatherRun := { r with positions := updWhere r.positions (fun y => y.engine == x.engine) (fun _ => x) }
  { s with gather := { s.gather with runs := updWhere s.gather.runs (fun r => r.cmd == cmd) upd } }

/-- Whether an engine has inputs left of a lookup. -/
def GatherRun.hasWork (r : GatherRun) (c : Cmd) (engine : Nat) : Bool :=
  match r.positions.find? (fun x => x.engine == engine) with
  | some x => decide (x.batch * c.gatherArgs.batch < c.gatherArgs.count)
  | none => false

/-- The commands that have inputs for a Gather Engine. -/
def State.gatherWork (s : State) (engine : Nat) : List Cmd :=
  s.atWork ((s.gather.runs.filter (fun r => match s.cmd? r.cmd with | some c => r.hasWork c engine | none => false)).map (·.cmd))

/-- An engine's coalescing hash is cleared: for every command but one, or for all (R382). -/
def State.clearHash (s : State) (engine : Nat) (but : Option Nat) : State :=
  { s with gather := { s.gather with
      runs := updWhere s.gather.runs (fun r => but != some r.cmd) (fun r => { r with
        positions := updWhere r.positions (fun x => x.engine == engine) (fun x => { x with hash := [] }) }) } }

/-- A command takes its turn at a Gather Engine, whose hash keeps no entry of another (R87, R88, R382, R386). -/
def State.gatherTurn (s : State) (c : Cmd) (engine : Nat) : Option State :=
  (s.takeTurn (gatherUnit engine) (s.rdN Fld.gthCtrl_slice_chunks) (s.gatherWork engine) c).map (fun t => t.clearHash engine (some c.id))

/-- GATHER_CHUNK: an engine takes up to 4,096 inputs of its batch, for the command whose turn it is (R381, R386). -/
def execGatherChunk (cmd engine : Nat) (s : State) : Host.Outcome State Fault Refusal :=
  answer s (isEngine engine) (match s.running cmd 7 5, s.gather.runs.find? (fun r => r.cmd == cmd) with
    | some c, some run =>
      let a := c.gatherArgs
      (match run.positions.find? (fun x => x.engine == engine), s.prior? run.table, s.version? run.table run.slot run.gen,
           s.gatherTurn c engine with
       | some pos, some p, some v, some t =>
         if !s.stemOn (engine / 2) then s
         else
           let lo := pos.batch * a.batch
           let size := min a.batch (a.count - lo)
           let k := min 4096 (size - pos.taken)
           match (t.burlTake (engine / 2)).gatherMany c a p v engine ((List.range k).map (fun i => lo + pos.taken + i)) {} pos.hash with
           | (s, .error e) => (s.dropWork cmd).failAcc cmd e
           | (s, .ok (n, hash)) =>
             let ends := decide (pos.taken + k = size)
             let next : GatherPos := if ends then { engine := engine, batch := pos.batch + run.positions.length }
               else { pos with taken := pos.taken + k, hash := hash }
             let s := (s.gatherCounts cmd engine n).committed (some cmd) (gatherUnit engine) ((lo + pos.taken) / 4096)
             (s.putPosition cmd next).settleGather cmd
       | _, _, _, _ => s)
    | _, _ => s)

/-- A packet that answers a request of another chip: it takes the request's tag and origin. -/
def State.respond (s : State) (dst tag part crit stream type : Nat) (payload : List Byte) : State :=
  s.inject { dst := dst, src := s.chipId, cls := 1, type := type, epoch := s.epoch, part := part, crit := crit, tag := tag,
             stream := stream, payload := payload }

/-- The payload of an ACK (R405). -/
def ackPayload (st : Half) (prev : DWord) : List Byte := natToBytes 2 st.toNat ++ natToBytes 6 0 ++ natToBytes 8 prev.toNat

/-- A fetch has its answer. -/
def State.answerFetch (s : State) (id : Nat) (a : FetchAnswer) : State :=
  { s with gather := { s.gather with
      fetches := updWhere s.gather.fetches (fun f => f.id == id && f.answer.isNone) (fun f => { f with answer := some a }) } }

/-- What serving a row gives as an answer. -/
def answerOf : Except AccErr (Option (List Byte)) → FetchAnswer
  | .error e => .failed e.status e.detail
  | .ok (some row) => .found row
  | .ok none => .missing

/-- PRIOR_FETCH_REQUEST: an owner serves a row from the pinned version: to an engine of this chip, or to another chip by a READ_DATA
in the form that it asked for (R414), or by an ACK where the row is missing or the read fails (R378). -/
def execPriorFetchRequest (request : FetchRequest) (s : State) : Host.Outcome State Fault Refusal :=
  answer s true (if request.chip = s.chipId then
      match s.gather.fetches.find? (fun f => f.id == request.id) with
      | some f =>
        (match s.cmd? f.cmd with
         | some c =>
           if f.answer.isSome || f.owner != s.chipId then s
           else
             let (s, r) := s.serveRow c.origin f.table f.slot f.gen f.key
             s.answerFetch f.id (answerOf r)
         | none => s)
      | none => s
    else
      let part := ((s.prior? request.table).map (·.part)).getD 0
      let (s, r) := s.serveRow { part := part, crit := request.crit, stream := request.stream } request.table request.slot request.gen request.key
      let send := s.respond request.chip request.id part request.crit request.stream
      match answerOf r with
      | .found row =>
        if request.comp ≠ 0 ∧ !wholeGroups request.comp row.length then send 0x09 (ackPayload stCompression 0)
        else send 0x08 (packed request.comp row)
      | .missing => send 0x09 (ackPayload stSuccess 0)
      | .failed st _ => send 0x09 (ackPayload st 0))

/-- A fetch whose outputs are written is over: its key's first occurrence can be copied. -/
def State.endFetch (s : State) (f : Fetch) (found : Bool) : State :=
  let first := f.inputs.headD 0
  { s with gather := { s.gather with
      fetches := s.gather.fetches.filter (fun x => x.id != f.id),
      runs := updWhere s.gather.runs (fun r => r.cmd == f.cmd) (fun r => { r with
        positions := updWhere r.positions (fun x => x.engine == f.engine) (fun x => { x with
          hash := updWhere x.hash (fun h => h.key == f.key && h.first == first) (fun h => { h with result := some found }) }) }) } }

/-- GATHER_FETCH_RETURN: a fetched row is written to the inputs that wait for it, and may be promoted to the Burl; a missing row gives the
default row (R378, R380, R382, R383). -/
def execGatherFetchReturn (fetch : Nat) (s : State) : Host.Outcome State Fault Refusal :=
  answer s true (match s.gather.fetches.find? (fun f => f.id == fetch) with
    | none => s
    | some f =>
      match f.answer, s.cmd? f.cmd, s.prior? f.table, s.version? f.table f.slot f.gen with
      | some a, some c, some p, some v =>
        let args := c.gatherArgs
        let k := f.inputs.length
        let write (s : State) (row : List Byte) (found : Bool) : State :=
          match s.gatherOuts c.origin args (args.cols row) (if found then 0 else 1) f.inputs with
          | (s, some e) => (s.dropWork f.cmd).failAcc f.cmd e
          | (s, none) =>
            let n : GatherCounts := { written := k, missing := if found then 0 else k }
            ((s.endFetch f found).gatherCounts f.cmd f.engine n).settleGather f.cmd
        (match a with
         | .failed st d => (s.dropWork f.cmd).finish f.cmd st d
         | .found row =>
           let s := if f.promote then s.burlPromote p.part (f.engine / 2) f.table f.gen f.key row else s
           write s row true
         | .missing =>
           match s.defaultRow c.origin p v with
           | (s, .error e) => (s.dropWork f.cmd).failAcc f.cmd e
           | (s, .ok row) => write s row false)
      | _, _, _, _ => s)

end Sys2Proof.Machine
end

