-- ==== Sys2Proof/Machine/GatherTables.lean ====
section
/-! DEFINITION. Building, filling, publishing and destroying prior tables, and Burl allocations (R372, R376 to R379, R384, R388 to
R392). -/
namespace Sys2Proof.Machine

/-- A version of a table changes. -/
def State.updVersion (s : State) (t slot gen : Nat) (f : Version → Version) : State :=
  s.updPrior t (fun p => { p with versions := updWhere p.versions (fun v => v.slot == slot && v.gen == gen) f })

/-! Creation and building. -/

/-- Whether an ID names a chip of the fabric (R401, R403). -/
def State.isChip (s : State) (id : Nat) : Bool := if s.twinLink.isSome then decide (id < 2) else s.namesChip id

/-- The chips of a member list, two bytes each. -/
def chipList (b : List Byte) (m : Nat) : List Nat := (List.range m).map (fun i => leAt b (2 * i) 2)

/-- Whether a list can be the members of a table created here (R392). -/
def State.membersOk (s : State) (l : List Nat) : Bool := l.all s.isChip && l.contains s.chipId && decide l.Nodup

/-- GTH_TABLE_CREATE (R392). -/
def execGthTableCreate (cmd : Nat) (s : State) : Host.Outcome State Fault Refusal :=
  answer s true (s.onStart cmd 0x7 0x01 (fun s c =>
    let t := c.b 16 1
    if (s.prior? t).isSome then s.finish cmd stPriorExists (BitVec.ofNat 32 t)
    else match s.load c.origin (c.b 24 6) (2 * c.b 20 4) with
    | (s, .error e) => s.failAcc cmd e
    | (s, .ok b) =>
      let l := chipList b (c.b 20 4)
      if !s.membersOk l then s.finish cmd stBadValue 24
      else
        let home := c.f 0 17 1 1 == 1
        let p : Prior :=
          { id := t, part := c.part, index := c.f 0 17 0 1 == 1, home := home, homeChip := if home then some s.chipId else none,
            rowBytes := 16 * (c.b 18 1 + 1), members := l, indexLimit := c.b 32 8 }
        ({ s with gather := { s.gather with tables := s.gather.tables ++ [p] } }).finish cmd stSuccess))

/-- A version enters BUILDING: its directory and its default row read zero (R376). -/
def State.buildVersion (s : State) (p : Prior) (v : Version) : State :=
  let d := v.rowAddr p.rowBytes v.rowsCap
  let s := (s.zeroHbm v.dirBase (v.dirBase + dirBytes v.d)).zeroHbm d (d + p.rowBytes)
  s.updPrior p.id (fun p => { p with versions := p.versions ++ [v] })

/-- GTH_VERSION_BUILD (R376, R379, R392). -/
def execGthVersionBuild (cmd : Nat) (s : State) : Host.Outcome State Fault Refusal :=
  answer s true (s.onStart cmd 0x7 0x02 (fun s c => s.onPrior c (fun p =>
    let slot := c.f 0 17 0 4
    let v : Version :=
      { slot := slot, state := .building, gen := c.b 20 4, d := c.b 18 1, dirBase := c.b 24 6, rowBase := c.b 30 6, rowsCap := c.b 36 4 }
    if p.versions.length ≥ 16 then s.finish cmd stVersionsFull (BitVec.ofNat 32 p.id)
    else if p.slotCode slot ≠ 0 then s.finish cmd stVersionState (versionDetail slot (p.slotCode slot))
    else if !s.hbmRangeUsable v.dirBase (v.dirBase + dirBytes v.d) then s.finish cmd stAddress (addrDetail v.dirBase)
    else if !s.hbmRangeUsable v.rowBase (v.rowBase + rowsBytes v.rowsCap p.rowBytes) then s.finish cmd stAddress (addrDetail v.rowBase)
    else (s.buildVersion p v).finish cmd stSuccess)))

/-! Records (R376). -/

/-- What an owner did with a record. -/
inductive PutOutcome where
  | stored
  | replaced
  | refused
  | failed (status : Half) (detail : Word)
  deriving DecidableEq, Repr, Inhabited

/-- The bookkeeping of a put, a publish or a prior load. -/
def State.putRun? (s : State) (cmd : Nat) : Option PutRun := s.gather.putRuns.find? (fun r => r.cmd == cmd)
def State.updPut (s : State) (cmd : Nat) (f : PutRun → PutRun) : State :=
  { s with gather := { s.gather with putRuns := updWhere s.gather.putRuns (fun r => r.cmd == cmd) f } }
def State.dropPut (s : State) (cmd : Nat) : State :=
  { s with gather := { s.gather with putRuns := s.gather.putRuns.filter (fun r => r.cmd != cmd) } }

/-- A row is written over a row that its version holds, or in a new row with a directory slot. -/
def State.putAt (s : State) (o : Origin) (p : Prior) (v : Version) (key : Nat) (row : List Byte) : State × PutOutcome :=
  let fail (s : State) (e : AccErr) : State × PutOutcome := (s, .failed e.status e.detail)
  match s.dirProbe o v.dirBase key (priorProbes v.d key) with
  | (s, .error e) => fail s e
  | (s, .ok .full) => (s, .refused)
  | (s, .ok (.hit r)) =>
    (match s.store o (v.rowAddr p.rowBytes r) row with
     | (s, some e) => fail s e
     | (s, none) => (s, .replaced))
  | (s, .ok (.empty a)) =>
    if v.rowsUsed ≥ v.rowsCap then (s, .refused)
    else match s.store o (v.rowAddr p.rowBytes v.rowsUsed) row with
    | (s, some e) => fail s e
    | (s, none) =>
      match s.store o a (natToBytes 8 key ++ natToBytes 4 v.rowsUsed ++ natToBytes 4 1) with
      | (s, some e) => fail s e
      | (s, none) => (s.updVersion p.id v.slot v.gen (fun v => { v with rowsUsed := v.rowsUsed + 1 }), .stored)

/-- A record at its owner: only a BUILDING version takes it (R375 to R377). -/
def State.putRecord (s : State) (o : Origin) (r : PutRecord) : State × PutOutcome :=
  match s.prior? r.table with
  | none => (s, .failed stPriorAbsent (BitVec.ofNat 32 r.table))
  | some p =>
    match p.versions.find? (fun v => v.slot == r.slot && v.gen == r.gen && v.state == .building) with
    | none => (s, .failed stVersionState (versionDetail r.slot (p.slotCode r.slot)))
    | some v =>
      if r.isDefault then
        match s.store o (v.rowAddr p.rowBytes v.rowsCap) r.row with
        | (s, some e) => (s, .failed e.status e.detail)
        | (s, none) => (s, .stored)
      else s.putAt o p v r.key r.row

/-- Records of a command go to their owners: those of this chip wait for it to take them, the others travel as requests. Up to the
first that has no route. -/
def State.sendRecords (s : State) (c : Cmd) (run : PutRun) : List (Nat × Bool × Nat × List Byte) → State × Option AccErr
  | [] => (s, none)
  | (member, isDefault, key, row) :: rest =>
    if s.aliased member = s.chipId then
      let r : PutRecord :=
        { cmd := c.id, table := run.table, slot := run.slot, gen := run.gen, isDefault := isDefault, key := key, row := row,
          owner := s.chipId, source := s.chipId }
      ({ s with gather := { s.gather with puts := s.gather.puts ++ [r] } }).sendRecords c run rest
    else if !s.reaches member then (s, some ⟨stUnreachable, BitVec.ofNat 32 member⟩)
    else
      -- how a put names its version to another chip is not stated
      let (s, w) := s.freeBytes 8
      (s.request c.origin (.command c.id) .put member 0x02 (w ++ natToBytes 8 key ++ row)).sendRecords c run rest

/-! Publishing (R377). -/

/-- Whether the version of an order is BUILDING here. -/
def State.isBuilding (s : State) (t slot gen : Nat) : Bool := ((s.version? t slot gen).map (fun v => v.state == .building)).getD false

/-- A slot of this chip becomes FREE: no Burl row of its generation stays (R378). -/
def State.freeVersion (s : State) (t slot gen : Nat) : State :=
  let s := (s.dropBurlOf t gen).updPrior t (fun p => { p with versions := p.versions.filter (fun v => !(v.slot == slot && v.gen == gen)) })
  { s with gather := { s.gather with
      reported := s.gather.reported.filter (fun r => !(r.table == t && r.slot == slot && r.gen == gen)) } }

/-- A version becomes CURRENT on this chip and the one before it RETIRING; a member that pins the latter no longer says so (R377, R378). -/
def State.makeCurrent (s : State) (t slot gen : Nat) : State :=
  let old := ((s.prior? t).map (·.versions)).getD [] |>.filter (fun v => v.state == .current)
  let s := s.updPrior t (fun p => { p with
    versions := updWhere p.versions (fun v => v.state == .current) (fun v => { v with state := .retiring }) })
  let s := s.updVersion t slot gen (fun v => { v with state := .current })
  old.foldl (fun s v => s.reportUnpinned t v.slot v.gen) s

/-- A table leaves this chip. -/
def State.removePrior (s : State) (t : Nat) : State :=
  let s := (((s.prior? t).map (·.versions)).getD []).foldl (fun s v => s.dropBurlOf t v.gen) s
  { s with gather := { s.gather with
      tables := s.gather.tables.filter (fun p => p.id != t),
      reports := s.gather.reports.filter (fun r => r.table != t),
      reported := s.gather.reported.filter (fun r => r.table != t) } }

/-- Firmware's choice of memory for a version in a partition's HBM, its directory and its rows: none where there is no room (R388). -/
def State.placeVersion (s : State) (part rowBytes : Nat) (v : Version) : State × Option Version :=
  let fits := (s.hbmPlaces part (dirBytes v.d) 4096 []).flatMap (fun a =>
    (s.hbmPlaces part (rowsBytes v.rowsCap rowBytes) 4096 [(a, a + dirBytes v.d)]).map (fun b => { v with dirBase := a, rowBase := b }))
  let (k, s) := s.choose fits.length
  (s, fits[k]?)

/-- A table that firmware creates, with no version yet. -/
def PriorPlan.prior (f : PriorPlan) (t home : Nat) : Prior :=
  { id := t, part := f.part, index := f.index, home := false, homeChip := some home, rowBytes := f.rowBytes, members := f.members,
    indexLimit := f.indexLimit, fresh := true }

/-- Whether a table is the one that a plan describes. -/
def PriorPlan.fits (f : PriorPlan) (p : Prior) : Bool :=
  p.part == f.part && p.index == f.index && p.rowBytes == f.rowBytes && p.members == f.members && p.indexLimit == f.indexLimit

/-- Firmware prepares a version of a table on this member, and the table where it is absent: whether it could (R388). -/
def State.preparePrior (s : State) (x : PublishOrder) (f : PriorPlan) : State × Bool :=
  let old := s.prior? x.table
  let p := old.getD (f.prior x.table x.home)
  if !f.fits p || p.destroyCmd.isSome || p.leaving || decide (p.versions.length ≥ 16) || p.slotCode x.slot != 0 then (s, false)
  else
    let v : Version := { slot := x.slot, state := .building, gen := x.gen, d := f.d, dirBase := 0, rowBase := 0, rowsCap := f.rowsCap }
    match s.placeVersion f.part f.rowBytes v with
    | (s, none) => (s, false)
    | (s, some v) =>
      let s := if old.isSome then s else { s with gather := { s.gather with tables := s.gather.tables ++ [p] } }
      (s.buildVersion p v, true)

/-- Firmware takes back what it prepared for a load that fails: the version, and the table that was created for it (R388). -/
def State.undoPrepare (s : State) (t slot gen : Nat) (created : Prior → Bool) : State :=
  let s := s.freeVersion t slot gen
  match s.prior? t with
  | some p => if created p && p.versions.isEmpty then s.removePrior t else s
  | none => s

/-- What an order of the home chip does here, and whether it could; none where it is not done yet: a table goes with its last pin
(R377 to R379, R388). -/
def State.obey (s : State) (x : PublishOrder) : State × Option Bool :=
  let s := s.updPrior x.table (fun p => { p with homeChip := some x.home })
  match x.act with
  | .check => (s, some (s.isBuilding x.table x.slot x.gen))
  | .publish =>
    if s.isBuilding x.table x.slot x.gen then
      ((s.makeCurrent x.table x.slot x.gen).updPrior x.table (fun p => { p with fresh := false }), some true)
    else (s, some false)
  | .free => (s.freeVersion x.table x.slot x.gen, some true)
  | .destroy =>
    if s.gather.pins.any (fun p => p.table == x.table) then (s.updPrior x.table (fun p => { p with leaving := true }), none)
    else (s.removePrior x.table, some true)
  | .prepare f =>
    let (s, ok) := s.preparePrior x f
    (s, some ok)
  | .undo => (s.undoPrepare x.table x.slot x.gen (·.fresh), some true)

/-- An order goes to a member: to this chip's own port, or as a request to another. -/
def State.sendOrder (s : State) (o : Origin) (owner : ReqOwner) (x : PublishOrder) : State :=
  if s.aliased x.member = s.chipId then { s with gather := { s.gather with orders := s.gather.orders ++ [x] } }
  else
    -- how firmware writes such an order is not stated
    let (s, w) := s.freeBytes 8
    s.request o owner .publish x.member 0x18 w

/-- Orders of a phase go to every member; the phase awaits as many answers. -/
def State.orderAll (s : State) (c : Cmd) (run : PutRun) (act : MemberAct) (phase : PutPhase) (members : List Nat) : State :=
  let s := s.updPut c.id (fun r => { r with phase := phase, left := members.length })
  members.foldl (fun s m => s.sendOrder c.origin (.command c.id)
    { act := act, cmd := c.id, table := run.table, slot := run.slot, gen := run.gen, member := m, home := s.chipId }) s

/-- Whether a publish of a table is under way (R377: publishes of one table run one after the other). -/
def State.publishing (s : State) (t : Nat) : Bool :=
  s.gather.putRuns.any (fun r => r.table == t && (r.phase == .check || r.phase == .order))

/-- The conditions that puts met (R376). -/
def PutRun.conditions (r : PutRun) : List (Half × Word) :=
  (if r.refused = 0 then [] else [(stPutRefused, satDetail r.refused)]) ++ (if r.replaced = 0 then [] else [(stPutReplaced, satDetail r.replaced)])

/-- The next phase, once the last answer of one has come. PRIOR_LOAD's records are sent by the row that reads its image. -/
def State.nextPhase (s : State) (cmd : Nat) : State :=
  match s.cmd? cmd, s.putRun? cmd with
  | some c, some r =>
    let members := ((s.prior? r.table).map (·.members)).getD []
    if r.left ≠ 0 then s
    else match r.phase with
    | .prepare => s
    | .puts =>
      if c.engineClass = 7 then
        let st := leastCode r.conditions
        (s.dropPut cmd).finish cmd st.1 st.2
      else if s.publishing r.table then s
      else s.orderAll c r .check .check members
    | .check =>
      (match members.find? (fun m => r.faults.contains m || r.faults.contains (s.aliased m)) with
       | some m => (s.dropPut cmd).finish cmd stVersionMismatch (BitVec.ofNat 32 m)
       | none => s.orderAll c r .publish .order members)
    | .order =>
      let st := leastCode r.conditions
      (s.dropPut cmd).finish cmd st.1 (if c.engineClass = 0 ∧ st.1 = stSuccess then BitVec.ofNat 32 r.gen else st.2)
    | .destroy => if s.gather.pins.any (fun x => x.table == r.table) then s else ((s.removePrior r.table).dropPut cmd).finish cmd stSuccess
  | _, _ => s

/-- A record has been answered. The engine that counts it is open. -/
def State.putReply (s : State) (cmd : Nat) (r : PutOutcome) : State :=
  let (k, s) := s.choose 8
  let tally (s : State) (code : Nat) : State := s.tally (some cmd) (gatherUnit k) code 1
  match r with
  | .failed st d => (s.dropWork cmd).finish cmd st d
  | .stored => (s.updPut cmd (fun r => { r with left := r.left - 1 })).nextPhase cmd
  | .replaced => ((tally s 0x0708).updPut cmd (fun r => { r with left := r.left - 1, replaced := r.replaced + 1 })).nextPhase cmd
  | .refused => ((tally s 0x0709).updPut cmd (fun r => { r with left := r.left - 1, refused := r.refused + 1 })).nextPhase cmd

/-- A member has answered an order of a command. -/
def State.orderReply (s : State) (cmd member : Nat) (ok : Bool) : State :=
  (s.updPut cmd (fun r => { r with left := r.left - 1, faults := if ok then r.faults else r.faults ++ [member] })).nextPhase cmd

/-- The status that an ACK carries for a record that was replaced or refused is that of the condition. -/
def PutOutcome.ack : PutOutcome → Half
  | .stored => stSuccess
  | .replaced => stPutReplaced
  | .refused => stPutRefused
  | .failed st _ => st

/-- PUT_RECORD_AT_OWNER: this chip owns the record's key (R376). -/
def execPutRecordAtOwner (record : PutRecord) (s : State) : Host.Outcome State Fault Refusal :=
  answer s true (if record.source = s.chipId then
      match s.gather.puts.find? (fun r => r == record), s.cmd? record.cmd with
      | some _, some c =>
        let s := { s with gather := { s.gather with puts := s.gather.puts.erase record } }
        let (s, r) := s.putRecord c.origin record
        s.putReply record.cmd r
      | _, _ => s
    else
      let part := ((s.prior? record.table).map (·.part)).getD 0
      let (s, r) := s.putRecord { part := part, crit := record.crit, stream := record.stream } record
      s.respond record.source record.tag part record.crit record.stream 0x09 (ackPayload r.ack 0))

/-- PUBLISH_ORDER: a member obeys an order of the home chip, and answers it once it is done (R377 to R379, R388). -/
def execPublishOrder (order : PublishOrder) (s : State) : Host.Outcome State Fault Refusal :=
  answer s true (if order.home = s.chipId then
      if s.gather.orders.contains order then
        match s.obey order with
        | (s, none) => s
        | (s, some ok) =>
          ({ s with gather := { s.gather with orders := s.gather.orders.erase order } }).orderReply order.cmd order.member ok
      else s
    else match s.obey order with
    | (s, none) => s
    | (s, some ok) => s.respond order.home order.tag 0 0 0 0x09 (ackPayload (if ok then stSuccess else stVersionMismatch) 0))

/-- A command's bookkeeping begins. -/
def State.addPut (s : State) (r : PutRun) : State := { s with gather := { s.gather with putRuns := s.gather.putRuns ++ [r] } }

/-- GTH_PUT (R376, R392). -/
def execGthPut (cmd : Nat) (s : State) : Host.Outcome State Fault Refusal :=
  answer s true (s.onStart cmd 0x7 0x03 (fun s c => s.onPrior c (fun p =>
    let slot := c.f 0 17 0 4
    let n := c.b 20 4
    if !p.members.contains s.chipId then s.finish cmd stNotMember (BitVec.ofNat 32 s.chipId)
    else match p.versions.find? (fun v => v.slot == slot && v.state == .building) with
    | none => s.finish cmd stVersionState (versionDetail slot (p.slotCode slot))
    | some v =>
      let size := p.rowBytes + 16
      match s.load c.origin (c.b 24 6) (n * size) with
      | (s, .error e) => s.failAcc cmd e
      | (s, .ok b) =>
        let key (i : Nat) : Nat := leAt b (i * size) 8
        let row (i : Nat) : List Byte := slice b (i * size + 8) p.rowBytes
        let recs : List (Nat × Bool × Nat × List Byte) :=
          if c.f 0 18 0 1 == 1 then p.members.map (fun m => (m, true, 0, row 0))
          else (List.range n).map (fun i => (p.owner (key i), false, key i, row i))
        let run : PutRun := { cmd := cmd, table := p.id, slot := slot, gen := v.gen, phase := .puts, left := recs.length }
        match (s.addPut run).sendRecords c run recs with
        | (s, some e) => (s.dropWork cmd).failAcc cmd e
        | (s, none) => s.nextPhase cmd)))

/-- Whether it is a publish's or a destroy's turn at its table: those of one table run in the order of their dispatch (R377, R379). -/
def State.portTurn (s : State) (c : Cmd) : Bool :=
  !s.queues.cmds.any (fun d => d.phase == .running && !d.started && d.engineClass == 7 && (d.opcode == 4 || d.opcode == 7)
    && d.b 16 1 == c.b 16 1 && decide (d.turn < c.turn))

/-- GTH_PUBLISH (R377, R379, R390). It waits for an earlier publish of the table. -/
def execGthPublish (cmd : Nat) (s : State) : Host.Outcome State Fault Refusal :=
  answer s true (s.onCmd cmd 0x7 0x04 (fun c =>
    if c.started || !s.portTurn c then s
    else s.onPrior c (fun p =>
      let slot := c.f 0 17 0 4
      if !p.home then s.finish cmd stNotMember (BitVec.ofNat 32 s.chipId)
      else if s.publishing p.id then s
      else
        let s := s.updCmd cmd (fun c => { c with started := true })
        match p.versions.find? (fun v => v.slot == slot && v.state == .building) with
        | none => s.finish cmd stVersionMismatch (BitVec.ofNat 32 s.chipId)
        | some v =>
          let run : PutRun := { cmd := cmd, table := p.id, slot := slot, gen := v.gen, phase := .check, left := 0 }
          (s.addPut run).orderAll c run .check .check p.members)))

/-- VERSION_UNPIN_REPORT: a member says that it pins a version no longer. Home frees the slot on every member once all have said so; on
another chip the report leaves for home (R378). -/
def execVersionUnpinReport (report : UnpinReport) (s : State) : Host.Outcome State Fault Refusal :=
  answer s true (match s.prior? report.table with
    | none => s
    | some p =>
      let mine := report.member == s.chipId
      if mine && !s.gather.reports.contains report then s
      else
        let s := { s with gather := { s.gather with
          reports := s.gather.reports.erase report,
          reported := if s.gather.reported.contains report then s.gather.reported else s.gather.reported ++ [report] } }
        if !p.home then
          match p.homeChip with
          | some h =>
            if mine then
              let (s, w) := s.freeBytes 8
              s.request { part := p.part, crit := 0, stream := 0 } .firmware .publish h 0x18 w
            else s
          | none => s
        else
          let said (m : Nat) : Bool := s.gather.reported.contains { report with member := m }
          let retiring := ((s.version? report.table report.slot report.gen).map (fun v => v.state == .retiring)).getD false
          if retiring && p.members.all said then
            let s := (p.members.filter (fun m => m != s.chipId)).foldl (fun s m =>
              s.sendOrder { part := p.part, crit := 0, stream := 0 } .firmware
                { act := .free, cmd := 0, table := report.table, slot := report.slot, gen := report.gen, member := m, home := s.chipId }) s
            s.freeVersion report.table report.slot report.gen
          else s)

/-- GTH_TABLE_DESTROY: from now on new lookups find no table, here and on each member once it has the order, and the table leaves every chip
when its last pin there has gone (R379, R390). Issued again, it looks whether that is so. -/
def execGthTableDestroy (cmd : Nat) (s : State) : Host.Outcome State Fault Refusal :=
  answer s true (s.onCmd cmd 0x7 0x07 (fun c =>
    if c.started then s.nextPhase cmd
    else if !s.portTurn c then s
    else s.onPrior c (fun p =>
      if !p.home then s.finish cmd stNotMember (BitVec.ofNat 32 s.chipId)
      else match s.gather.putRuns.find? (fun r => r.table == p.id && (r.phase == .check || r.phase == .order)) with
      | some r => s.finish cmd stVersionState (versionDetail r.slot (p.slotCode r.slot))
      | none =>
        let run : PutRun := { cmd := cmd, table := p.id, phase := .destroy, left := 0 }
        let s := (s.updCmd cmd (fun c => { c with started := true })).updPrior p.id (fun p => { p with destroyCmd := some cmd })
        ((s.addPut run).orderAll c run .destroy .destroy (p.members.filter (fun m => m != s.chipId))).nextPhase cmd)))

/-! PRIOR_LOAD (R388, R389). -/

/-- A prior image's header. -/
structure PriorImage where
  index : Bool
  rowBytes : Nat
  records : Nat
  limit : Nat
  hasDefault : Bool

def priorImage (h : List Byte) : PriorImage :=
  { index := leAt h 5 1 == 1, rowBytes := leAt h 6 2, records := leAt h 8 8, limit := leAt h 16 8, hasDefault := (leAt h 24 1).testBit 0 }

/-- Bytes of a whole image. -/
def PriorImage.size (x : PriorImage) : Nat := 32 + (if x.hasDefault then x.rowBytes else 0) + x.records * (8 + x.rowBytes)

/-- The first byte of a header that disagrees: with the form of R389, with the image's length, or with the table that it is loaded
into. -/
def imageFault (h : List Byte) (len : Nat) (p : Option Prior) : Option Nat :=
  let x := priorImage h
  leastBad
    [(leAt h 0 4 != 0x4E505254, 0), (leAt h 4 1 != 1, 4), (decide (leAt h 5 1 > 1), 5),
     (x.rowBytes % 16 != 0 || decide (x.rowBytes < 16) || decide (x.rowBytes > 4096), 6), (x.size != len, 8),
     ((!x.index && x.limit != 0) || decide (x.limit > 2 ^ 40), 16), (decide (leAt h 24 1 > 1), 24), (leAt h 25 7 != 0, 25),
     (match p with | some p => p.index != x.index | none => false, 5), (match p with | some p => p.rowBytes != x.rowBytes | none => false, 6),
     (match p with | some p => p.indexLimit != x.limit | none => false, 16)]

/-- The least d from 10 whose directory of 2^d slots is at most half full. -/
def dirLog2 (records : Nat) : Nat := max 10 (Nat.log2 (2 * records - 1) + 1)

/-- Firmware's choice of a version's slot, generation and memory; none where no memory is available (R388). -/
def State.chooseVersion (s : State) (part : Nat) (p : Prior) (x : PriorImage) : State × Option Version :=
  let free := (List.range 16).filter (fun k => p.slotCode k == 0)
  let (k, s) := s.choose free.length
  let (g, s) := s.draw
  let gens := ((List.range 17).map (fun i => (g.toNat + i) % 2 ^ 32)).filter (fun n => !p.versions.any (fun w => w.gen == n))
  let v : Version :=
    { slot := nth 0 free k, state := .building, gen := nth 0 gens 0, d := dirLog2 x.records, dirBase := 0, rowBase := 0,
      rowsCap := max 1 x.records }
  if v.d > 32 ∨ v.rowsCap > 2 ^ 31 then (s, none) else s.placeVersion part p.rowBytes v

/-- The member list that PRIOR_LOAD names: the issuing chip first (R388). -/
def State.loadMembers (s : State) (c : Cmd) : State × Except AccErr (List Nat) :=
  if c.b 36 6 = 0 then (s, .ok [s.chipId])
  else match s.load c.origin (c.b 36 6) (2 * c.b 20 4) with
  | (s, .error e) => (s, .error e)
  | (s, .ok b) => (s, .ok (chipList b (c.b 20 4)))

/-- The table that PRIOR_LOAD fills: the one that exists, or a new one. -/
def State.loadTable (s : State) (c : Cmd) (l : List Nat) (x : PriorImage) : Prior :=
  (s.prior? (c.b 16 1)).getD
    { id := c.b 16 1, part := c.part, index := x.index, home := true, homeChip := some s.chipId, rowBytes := x.rowBytes, members := l,
      indexLimit := x.limit, firmware := some c.id }

/-- What the other members are to prepare. -/
def Prior.plan (p : Prior) (v : Version) : PriorPlan :=
  { part := p.part, index := p.index, rowBytes := p.rowBytes, members := p.members, indexLimit := p.indexLimit, d := v.d,
    rowsCap := v.rowsCap }

/-- The first act of PRIOR_LOAD: its checks, the table and the version, and firmware's messages to the other members, whose form is
not stated. -/
def State.startLoad (s : State) (c : Cmd) : State :=
  let t := c.b 16 1
  let len := c.b 32 4
  match s.loadMembers c with
  | (s, .error e) => s.failAcc c.id e
  | (s, .ok l) =>
    let old := s.prior? t
    if s.priorOther c.part t then s.finish c.id stOwnership 16
    else if l.head? != some s.chipId || !s.membersOk l || (match old with | some p => p.members != l | none => false) then
      s.finish c.id stBadValue 36
    else if old.isSome && (s.liveTable t).isNone then s.finish c.id stPriorAbsent (BitVec.ofNat 32 t)
    else if (match old with | some p => !p.home | none => false) then s.finish c.id stNotMember (BitVec.ofNat 32 s.chipId)
    else if len < 32 then s.finish c.id stPriorImage (BitVec.ofNat 32 len)
    else match s.basicLoad c (c.b 24 8) 32 with
    | (s, .error e) => s.failAcc c.id e
    | (s, .ok h) =>
      match imageFault h len old with
      | some off => s.finish c.id stPriorImage (BitVec.ofNat 32 off)
      | none =>
        let p := s.loadTable c l (priorImage h)
        if p.versions.length ≥ 16 then s.finish c.id stVersionsFull (BitVec.ofNat 32 t)
        else match l.find? (fun m => m != s.chipId && !s.reaches m) with
        | some m => s.finish c.id stUnreachable (BitVec.ofNat 32 m)
        | none =>
          match s.chooseVersion c.part p (priorImage h) with
          | (s, none) => s.finish c.id stResource
          | (s, some v) =>
            let s := if old.isSome then s else { s with gather := { s.gather with tables := s.gather.tables ++ [p] } }
            let run : PutRun := { cmd := c.id, table := t, slot := v.slot, gen := v.gen, phase := .prepare, left := 0 }
            ((s.buildVersion p v).addPut run).orderAll c run (.prepare (p.plan v)) .prepare
              (l.filter (fun m => s.aliased m != s.chipId))

/-- A member has no memory for its part of a load: everyone takes back what was prepared, and the load fails (R388). -/
def State.cancelLoad (s : State) (c : Cmd) (run : PutRun) : State :=
  let members := ((s.prior? run.table).map (·.members)).getD []
  let s := (members.filter (fun m => s.aliased m != s.chipId && !run.faults.contains (s.aliased m))).foldl (fun s m =>
    s.sendOrder c.origin .firmware { act := .undo, cmd := 0, table := run.table, slot := run.slot, gen := run.gen, member := m, home := s.chipId }) s
  ((s.undoPrepare run.table run.slot run.gen (fun p => p.firmware == some c.id)).dropPut c.id).finish c.id stResource

/-- The second: every record of the image is put. -/
def State.loadRecords (s : State) (c : Cmd) (run : PutRun) : State :=
  match s.basicLoad c (c.b 24 8) (c.b 32 4), s.prior? run.table with
  | (s, .error e), _ => (s.dropWork c.id).failAcc c.id e
  | (s, .ok _), none => (s.dropWork c.id).finish c.id stPriorAbsent (BitVec.ofNat 32 run.table)
  | (s, .ok b), some p =>
    let x := priorImage b
    let at_ := 32 + (if x.hasDefault then x.rowBytes else 0)
    let size := 8 + x.rowBytes
    let key (i : Nat) : Nat := leAt b (at_ + i * size) 8
    let recs := (if x.hasDefault then p.members.map (fun m => (m, true, 0, slice b 32 x.rowBytes)) else [])
      ++ (List.range x.records).map (fun i => (p.owner (key i), false, key i, slice b (at_ + i * size + 8) x.rowBytes))
    match (s.updPut c.id (fun r => { r with phase := .puts, left := recs.length })).sendRecords c run recs with
    | (s, some e) => (s.dropWork c.id).failAcc c.id e
    | (s, none) => s.nextPhase c.id

/-- PRIOR_LOAD: firmware's steps, one at a time: it prepares the members, puts every record, and publishes. -/
def execPriorLoad (cmd : Nat) (s : State) : Host.Outcome State Fault Refusal :=
  answer s true (s.onCmd cmd 0x0 0x70 (fun c =>
    if !c.started then (s.updCmd cmd (fun c => { c with started := true })).startLoad c
    else match s.putRun? cmd with
    | some r =>
      if r.phase == .prepare && r.left == 0 then (if r.faults.isEmpty then s.loadRecords c r else s.cancelLoad c r) else s.nextPhase cmd
    | none => s))

/-- PRIOR_BIND (R388). -/
def execPriorBind (cmd : Nat) (s : State) : Host.Outcome State Fault Refusal :=
  answer s true (s.onCmd cmd 0x0 0x71 (fun c =>
    let h := c.b 16 2
    let k := c.b 18 1
    let t := c.b 19 1
    if (s.liveTable t).isNone then s.finish cmd stPriorAbsent (BitVec.ofNat 32 t)
    else if s.priorOther c.part t then s.finish cmd stOwnership 19
    else
      let rest := s.gather.binds.filter (fun b => !(b.1 == h && b.2.1 == k))
      ({ s with gather := { s.gather with binds := rest ++ [(h, k, t)] } }).finish cmd stSuccess))

/-! Burl allocations (R384). -/

/-- Whether an allocation may be made: its region, and the total of its Stem. -/
def State.burlOk (s : State) (b : BurlAlloc) : Bool :=
  let other (x : BurlAlloc) : Bool := x.stem == b.stem && x.part != b.part
  let next := s.gather.nextAllocs.filter other
  let others := (next ++ (s.gather.allocs.filter (fun x => other x && !next.any (fun y => y.part == x.part)))).map (·.units)
  b.units == 0 || (s.regionOk b.part b.stem { t0 := b.t0, m := b.m, offset := b.offset, size := 1, n := b.units * 0x20000 } && decide (others.sum + b.units ≤ 64))

/-- A new setting waits for the next chunk boundary of the Stem's engines; where none is at work it is in force at once. -/
def State.burlSet (s : State) (b : BurlAlloc) : State :=
  let g := s.gather
  let s := { s with gather := { g with nextAllocs := g.nextAllocs.filter (fun x => !(x.part == b.part && x.stem == b.stem)) ++ [b] } }
  if s.gather.runs.any (fun r => r.positions.any (fun x => x.engine / 2 == b.stem)) then s else s.burlTake b.stem

/-- GTH_BURL_SET. -/
def execGthBurlSet (cmd : Nat) (s : State) : Host.Outcome State Fault Refusal :=
  answer s true (s.onStart cmd 0x7 0x06 (fun s c =>
    let b : BurlAlloc :=
      { part := c.part, stem := c.f 0 16 0 2, t0 := c.f 0 17 0 6, m := c.f 0 18 0 3, offset := c.b 20 3, units := c.b 23 1 }
    if s.burlOk b then (s.burlSet b).finish cmd stSuccess else s.finish cmd stBurlPlacement (BitVec.ofNat 32 b.stem)))

/-- The places where firmware may put an allocation on a Stem: whole banks, from each tile on, over each number of tiles. -/
def burlPlaces (part stem units : Nat) (banks : Nat) : List BurlAlloc :=
  (List.range 7).flatMap (fun m => (List.range 64).flatMap (fun t0 => (List.range banks).map (fun b =>
    { part := part, stem := stem, t0 := t0, m := m, offset := b * 0x20000, units := units })))

/-- Firmware places an allocation of some units on a Stem, clear of what it holds: which place is a free choice, and none where there is
none; size 0 needs no place (R384, R388). -/
def State.placeBurl (s : State) (part units stem : Nat) : State × Option BurlAlloc :=
  if units = 0 then (s, some { part := part, stem := stem, t0 := 0, m := 0, offset := 0, units := 0 })
  else
    let l := burlPlaces part stem units (sliceBanks s.variant)
    let (k, s) := s.choose l.length
    (s, (l.drop k ++ l.take k).find? (fun b => s.burlOk b && !rangesMeet b.ranges s.heldRanges))

/-- An allocation on each of some Stems: none where one of them has no place. -/
def State.placeBurls (s : State) (part units : Nat) : List Nat → State × Option (List BurlAlloc)
  | [] => (s, some [])
  | j :: r =>
    match s.placeBurl part units j with
    | (s, none) => (s, none)
    | (s, some b) =>
      match s.placeBurls part units r with
      | (s, none) => (s, none)
      | (s, some l) => (s, some (b :: l))

/-- BURL_SIZE: firmware places the banks (R388). -/
def execBurlSize (cmd : Nat) (s : State) : Host.Outcome State Fault Refusal :=
  answer s true (s.onStart cmd 0x0 0x72 (fun s c =>
    match s.placeBurls c.part (c.b 17 1) (bitList 4 (c.f 0 16 0 4)) with
    | (s, none) => s.finish cmd stResource
    | (s, some l) => (l.foldl State.burlSet s).finish cmd stSuccess))

end Sys2Proof.Machine
end

