-- ==== Sys2Proof/Machine/Run.lean ====
section
/-! DEFINITION. Packages and RUNs (R35, R115, R116, R177, R213, R329), and KNOT_SIGNAL as a command (R38, R100, R102, R118). -/
namespace Sys2Proof.Machine

/-! Packages. -/

/-- A measurement register is extended with a digest (R500). -/
def State.extendMeasure (s : State) (i : Nat) (digest : List Byte) : State :=
  { s with security := { s.security with measure := updAt s.security.measure i (fun m => Config.sha3 (m ++ digest)) } }

/-- The Sapwood banks of a Stem that a partition can use: ON and owned (R35, R57, R58). -/
def State.banksFor (s : State) (part stem : Nat) : Nat :=
  ((List.range 64).map (fun t => ((List.range (sliceBanks s.variant)).filter (fun b =>
    let x : BankId := ⟨stem, t, b⟩
    s.bankState x == bankOn && !s.mem.retired.contains x && s.owns part (bankBase x) (bankBase x + 0x20000))).length)).sum

/-- The bytes of HBM that windows give to a partition. -/
def State.hbmFor (s : State) (part : Nat) : Nat :=
  ((List.range 256).map (fun i =>
    if s.rdB Fld.brkFwCtl_enable i && (s.rdB Fld.brkFwCtl_any_partition i || s.rdN Fld.brkFwCtl_partition i == part) then
      s.winLimit i - s.winBase i
    else 0)).sum

/-- The tiles that a package needs. -/
def tilesOfPackage (masks : List DWord) : List (Nat × Nat) := tilesOf (masks.map (·.toNat))

/-- Whether a partition's usable resources meet what a package declares (R35, R115). -/
def State.resourcesMeet (s : State) (part : Nat) (f : PackageFacts) : Bool :=
  (s.tilesFault (tilesOfPackage f.tiles)).isNone
    && (List.range 4).all (fun j => (nth 0 f.tiles j) == 0 || decide (f.minBanks ≤ s.banksFor part j))
    && decide (f.hbmBytes ≤ s.hbmFor part)

/-- A handle that no loaded package has, from a starting value on. -/
def freeHandle (ps : List Package) (h : Nat) : Option Nat :=
  ((List.range (ps.length + 1)).map (fun i => (h + i) % 65536)).find? (fun x => !ps.any (fun p => p.handle == x))

/-- The Sapwood banks that firmware takes for a package on each Stem that it uses. DESIGN CHOICE: the first usable ones, those that no
other package holds before the others, and of its own tiles before other tiles (R35, R65). -/
def State.banksTaken (s : State) (part : Nat) (f : PackageFacts) : List BankId :=
  let held := s.queues.packages.flatMap (·.banks)
  (List.range 4).flatMap (fun j =>
    let mask := (nth 0 f.tiles j).toNat
    if mask = 0 then []
    else
      let tiles := bitList 64 mask ++ bitList 64 (2 ^ 64 - 1 - mask)
      let banks := (tiles.flatMap (fun t => (List.range (sliceBanks s.variant)).map (fun b => (⟨j, t, b⟩ : BankId)))).filter (fun x =>
        s.bankState x == bankOn && !s.mem.retired.contains x && s.owns part (bankBase x) (bankBase x + 0x20000))
      (banks.filter (fun x => !held.contains x) ++ banks.filter (fun x => held.contains x)).take f.minBanks)

/-- The package that a checked image becomes. -/
def PackageFacts.package (f : PackageFacts) (handle part : Nat) (banks : List BankId) : Package :=
  { handle := handle, part := part, banks := banks, minBanks := f.minBanks, tiles := f.tiles, tables := f.tables,
    outTables := f.outTables, maps := f.maps, gridBounds := f.gridBounds, layers := f.layers, programs := f.programs, history := f.history, ownTol := f.ownTol,
    digest := f.digest }

/-- PACKAGE_LOAD (R35, R115, R119, R500): the image is read, firmware may reject it, and its resources are checked before any engine
is touched. -/
def execPackageLoad (cmd : Nat) (facts : PackageFacts) (s : State) : Host.Outcome State Fault Refusal :=
  answer s true (s.onCmd cmd 0x0 0x06 (fun c =>
    match s.basicLoad c (c.b 24 8) (c.b 32 4) with
    | (s, .error e) => s.failAcc cmd e
    | (s, .ok _) =>
      if facts.reason ≠ 0 then s.finish cmd stFirmware facts.reason
      else if !s.resourcesMeet c.part facts then s.finish cmd stResource
      else match freeHandle s.queues.packages s.queues.nextHandle with
        | none => s.finish cmd stResource
        | some h =>
          let q := s.queues
          let s := { s with queues := { q with packages := q.packages ++ [facts.package h c.part (s.banksTaken c.part facts)], nextHandle := (h + 1) % 65536 } }
          (s.extendMeasure 8 facts.digest).finish cmd stSuccess (BitVec.ofNat 32 h)))

/-- PACKAGE_UNLOAD: the package goes where no RUN uses it, and the banks taken for it are released (R65, R110). -/
def execPackageUnload (cmd : Nat) (s : State) : Host.Outcome State Fault Refusal :=
  answer s true (s.onCmd cmd 0x0 0x07 (fun c =>
    let h := c.b 16 2
    match s.package? c.part h with
    | none => s.finish cmd stOwnership 16
    | some p =>
    if s.queues.runs.any (fun r => r.part == c.part && r.handle == h) then s.finish cmd stOwnership 16
    else
      let s := s.releaseBanks p
      let s := { s with
        queues := { s.queues with packages := s.queues.packages.filter (fun p => !(p.part == c.part && p.handle == h)) },
        gather := { s.gather with binds := s.gather.binds.filter (fun b => b.1 != h) },
        canopy := { s.canopy with history := s.canopy.history.filter (fun x => x.handle != h) } }
      s.finish cmd stSuccess))

/-! RUN. -/

/-- Whether a stream set's own grid breaks the bounds that a package declares (R213). -/
def gridOutside (p : Package) (g : List Int) : Bool :=
  (List.range p.gridBounds.length).any (fun i =>
    match p.gridBounds[i]?, g[i]? with
    | some (lo, hi), some x => decide (x < lo) || decide (hi < x)
    | _, _ => false)

/-- Why a RUN of a package on a stream set does not start: tiles, admission, grid, growth (R211, R213, R252, R470, R545). -/
def State.runFault (s : State) (set : Nat) (x : StreamSet) (p : Package) : Option (Half × Word) :=
  match s.tilesFault (tilesOfPackage p.tiles) with
  | some e => some e
  | none =>
    let (w, ok) := s.admission set [] (packageShapes p x.grid)
    if !ok || (match x.grid with | some g => gridOutside p g | none => false) then some (stAdmission, satDetail w)
    else (s.growthFault set p).map (fun i => (stGrowthAdmission, BitVec.ofNat 32 i))

/-! What firmware allocates for a RUN (R8). -/

/-- A number below n that is not in use: which one is a free choice. -/
def State.freeId (s : State) (n : Nat) (used : List Nat) : State × Option Nat :=
  let ok := (List.range n).filter (fun i => !used.contains i)
  let (k, s) := s.choose ok.length
  (s, ok[k]?)

/-- The tables of a RUN, in the package's order: none where one of them has no place (R188, R197, R198, R545). -/
def State.allocTables (s : State) (cmd part : Nat) : List TableCfg → List Nat → State × Option (List Nat)
  | [], ids => (s, some ids)
  | c :: r, ids =>
    if s.stemsOff c || (s.placementFault part c).isSome || rangesMeet (({ id := 0, part := part, cfg := c } : Table).ranges) s.heldRanges then
      (s, none)
    else match s.freeId 64 (s.compute.tables.map (·.id)) with
      | (s, none) => (s, none)
      | (s, some id) => (s.makeTable id part c (some cmd)).allocTables cmd part r (ids ++ [id])

/-- The maps of a RUN, in the package's order: none where one of them has no place (R314, R316). -/
def State.allocMaps (s : State) (cmd part : Nat) : List CMap → List Nat → State × Option (List Nat)
  | [], ids => (s, some ids)
  | m :: r, ids =>
    if !(List.range m.bands).all (fun j => s.bandOk part m j) || rangesMeet m.ranges s.heldRanges then (s, none)
    else match s.freeId 256 (s.canopy.maps.map (·.id)) with
      | (s, none) => (s, none)
      | (s, some id) =>
        let m := { m with id := id, part := part, firmware := some cmd, valid := 0, pins := [], holds := [] }
        ({ s with canopy := { s.canopy with maps := s.canopy.maps ++ [m] } }).allocMaps cmd part r (ids ++ [id])

/-- The tables and the maps of a RUN: those that take points stand on the stream set's own grid, where it has one (R8, R213). -/
def State.allocRun (s : State) (cmd : Nat) (x : StreamSet) (p : Package) : State × Option (List Nat × List Nat) :=
  match s.allocTables cmd p.part (p.tables.map (fun t => t.onGrid x.grid) ++ p.outTables) [] with
  | (s, none) => (s, none)
  | (s, some ts) =>
    match s.allocMaps cmd p.part p.maps [] with
    | (s, none) => (s, none)
    | (s, some ms) => (s, some (ts, ms))

/-- Whether a submission ring is being drained. -/
def State.ringDrains (s : State) (n : Nat) : Bool := match s.sq? n with | some q => q.state == .draining | none => false

/-- RUN (R8, R116, R213): the checks at its dispatch, and what firmware allocates for it, with the grid that was set for it; then it
waits for the windows of its stream set. Issued again, it starts a frame that waited for a slot. DESIGN CHOICE: one without a frame_count that starts while its ring is drained ends at once, between two frames. -/
def execRun (cmd : Nat) (s : State) : Host.Outcome State Fault Refusal :=
  answer s true (s.onCmd cmd 0x0 0x08 (fun c =>
    if c.started then s.startFrame cmd
    else
      let s := s.updCmd cmd (fun c => { c with started := true })
      let n := c.b 18 2
      match s.set? n, s.package? c.part (c.b 16 2) with
      | none, _ => s.finish cmd stSetUndefined (BitVec.ofNat 32 n)
      | _, none => s.finish cmd stOwnership 16
      | some x, some p =>
        match s.runFault n x p with
        | some (st, d) => s.finish cmd st d
        | none =>
          if c.b 20 4 == 0 && s.ringDrains c.sq then s.finish cmd stSuccess
          else match s.allocRun cmd x p with
            | (_, none) => s.finish cmd stResource
            | (s, some (ts, ms)) =>
              let r : Run := { cmd := cmd, handle := p.handle, part := p.part, set := n, frameCount := c.b 20 4, tables := ts, maps := ms }
              let s := s.updSet n (fun x => { x with grid := none })
              { s with queues := { s.queues with runs := s.queues.runs ++ [r] } }))

/-- The oldest window of a set whose final batches have been pushed and whose frame is not ready yet (R177). -/
def StreamSet.nextReady (x : StreamSet) : Option Window :=
  x.windows.foldl (fun a w =>
    if w.isOpen || w.ready || !w.livePushed || !w.rePushed then a
    else match a with
      | some v => if w.k < v.k then some w else some v
      | none => some w) none

/-- WINDOW_FRAME_READY: close_knot goes up by 1, and the frame of every RUN on the set starts, or waits for its turn (R177). -/
def execWindowFrameReady (set : Nat) (s : State) : Host.Outcome State Fault Refusal :=
  answer s true (match s.set? set with
    | none => s
    | some x =>
      match x.nextReady with
      | none => s
      | some w =>
        let s := s.updSet set (fun x => x.updWindow w.k (fun w => { w with ready := true, taken := true }))
        let s := if x.cfg.closeKnot = 0 then s
          else (s.signalKnot x.cfg.closeKnot 1 { part := x.part, traced := false }).1
        let fw : FrameWin := { k := w.k, tRef := x.cfg.start w.k, ref := w.refPose.map (·.1), stop := x.cfg.stop w.k, counts := w.counts, lost := w.lost }
        let mine := s.queues.runs.filter (fun r => r.set == set)
        mine.foldl (fun s r =>
          if r.draining then s
          else (s.updRun r.cmd (fun r => { r with waiting := r.waiting ++ [fw] })).startFrame r.cmd) s)

/-! KNOT_SIGNAL. -/

/-- KNOT_SIGNAL (R38, R99 to R102, R118): here, or at another chip, whose answer the command awaits. -/
def execKnotSignal (cmd : Nat) (s : State) : Host.Outcome State Fault Refusal :=
  answer s true (s.onStart cmd 0xC 0x01 (fun s c =>
    let chip := c.b 16 2
    let k := c.b 18 2
    let inc : DWord := BitVec.ofNat 64 (c.b 20 8)
    if s.aliased chip == s.chipId then
      if !s.ownsKnot c.part k then s.finish cmd stOwnership 18
      else
      let (s, wrapped) := s.signalKnot k inc c.ev
      s.finish cmd (if wrapped then stKnotWrap else stSuccess) (if wrapped then BitVec.ofNat 32 k else 0)
    else if !s.reaches chip then s.finish cmd stUnreachable (BitVec.ofNat 32 chip)
    else (s.request c.origin (.command cmd) (.knot k) chip 0x04 (knotPayload k inc)).finish cmd stSuccess))

end Sys2Proof.Machine
end

