-- ==== Sys2Proof/Machine/History.lean ====
section
/-! DEFINITION. What firmware adds to a frame of a RUN that ends (R185, R210, R328, R329, R334, R435): its history map, the counts of its
window and of its voxel table, and its status. -/
namespace Sys2Proof.Machine

/-! The parameters of the history's warp (R328). -/

/-- The warp of the previous window's frame into the current one, on the grid of a map: each parameter rounded once to FP32. -/
def warpParams (prev cur : PoseD) (m : CMap) : List FVal :=
  let one := FVal.ofInt 1
  let two := FVal.ofInt 2
  let metres64 (x : Int) : FVal := div64 (FVal.ofInt x) (FVal.ofInt 1000)
  let q := prev.q.conj.mul cur.q
  let d := prev.q.conj.rotate (cur.p.sub prev.p)
  let yaw := atan64 (mul64 two (add64 (mul64 q.w q.z) (mul64 q.x q.y))) (sub64 one (mul64 two (add64 (mul64 q.y q.y) (mul64 q.z q.z))))
  let c := cos64 yaw
  let s := sin64 yaw
  let ex := metres64 m.vx
  let ey := metres64 m.vy
  let x0 := metres64 (m.ox + m.x0 * m.vx)
  let y0 := metres64 (m.oy + m.y0 * m.vy)
  [c, div64 (mul64 s.neg ey) ex, div64 (mul64 s ex) ey, c,
   div64 (sub64 (add64 (sub64 (mul64 c x0) (mul64 s y0)) d.x) x0) ex,
   div64 (sub64 (add64 (add64 (mul64 s x0) (mul64 c y0)) d.y) y0) ey].map fp32.round

/-! The history map (R329, R435). -/

/-- The buffer of a RUN's history map for window k (R435). -/
def Run.buffer (r : Run) (h : HistoryFacts) (k : Int) : Option Nat := r.maps[if k % 2 = 0 then h.first else h.second]?

/-- What firmware remembers of the frame before a RUN's current one. -/
def State.history? (s : State) (r : Run) : Option History := s.canopy.history.find? (fun h => h.cmd == r.cmd)

/-- The reason for which a frame's history is zeroed instead of warped (R329): 0 no valid previous frame, 1 over the limit, 2 reset
requested. DESIGN CHOICE: the least reason where several hold, and 0 where one of the two windows latched no reference pose. -/
def State.historyReason (s : State) (r : Run) (packageMs : Nat) : Option Nat :=
  match s.history? r with
  | some h =>
    if !h.valid || h.window + 1 != r.window.k || h.ref.isNone || r.window.ref.isNone then some 0
    else if r.window.tRef - h.tRef > (r.historyLimit.getD packageMs : Int) * 1000000 then some 1
    else if r.historyReset then some 2
    else none
  | none => some 0

/-- One cell of the blocks that the warp writes: zeros, or the warp of the last buffer. -/
def State.historyCell (s : State) (o : Origin) (a : WarpArgs) (src dst : CMap) (zero : Bool) (u v : Nat) (n : UnitCounts) :
    State × Except AccErr UnitCounts :=
  if zero then s.writeCell o dst u v ((List.range src.cBlocks).map (fun b => (a.first + b, List.replicate 32 (.fin false 0 0)))) n
  else s.warpCell o a src dst u v n

/-- The bands of the map one after the other, their counts the counts of the RUN, up to the first failure: the counts of all. -/
def State.historyBands (s : State) (cmd : Nat) (dst : CMap) (f : State → Nat → Nat → UnitCounts → State × Except AccErr UnitCounts) :
    List Nat → UnitCounts → State × Except AccErr UnitCounts
  | [], n => (s, .ok n)
  | j :: r, n =>
    let stem := dst.bandStem j
    match (s.serve cmd (unitId 6 stem 0)).overCells f ((List.range dst.bandUnits).flatMap (fun k =>
        tileCells (dst.unitTile j k).1 (dst.unitTile j k).2)) {} with
    | (s, .error e) => (s, .error e)
    | (s, .ok x) => (s.canopyCounts cmd stem x).historyBands cmd dst f r (n.add x)

/-- The warp of a frame, or its zeros, and the condition or failure that the frame meets by it (R329, R333, R435). -/
def State.warpHistory (s : State) (c : Cmd) (r : Run) (h : HistoryFacts) : State × (Half × Word) :=
  match (r.buffer h (r.window.k - 1)).bind s.map?, (r.maps[h.dst]?).bind s.map? with
  | some src, some dst =>
    let reason := s.historyReason r h.limitMs
    let par := match (s.history? r).bind (·.ref), r.window.ref with
      | some p, some q => warpParams (poseOf p) (poseOf q) dst
      | _, _ => []
    let a : WarpArgs := { src := src.id, dst := dst.id, replicate := h.replicate, first := h.dstBlock, par := par }
    (match s.historyBands c.id dst (fun s u v n => s.historyCell c.origin a src dst reason.isSome u v n) (List.range dst.bands) {} with
     | (s, .error e) => (s, (e.status, e.detail))
     | (s, .ok n) =>
       let st := ({ cmd := c.id, saturated := n.saturated, nonfinite := n.nonfinite } : CanopyRun).status
       (s, match reason with | some k => combine (stHistoryReset, BitVec.ofNat 32 k) st | none => st))
  | _, _ => (s, match s.historyReason r h.limitMs with | some k => (stHistoryReset, BitVec.ofNat 32 k) | none => (stSuccess, 0))

/-- The rows of a map in order: column, row and channel block. -/
def CMap.places (m : CMap) : List (Nat × Nat × Nat) :=
  (List.range m.height).flatMap (fun v => (List.range m.width).flatMap (fun u => (List.range m.cBlocks).map (fun b => (u, v, b))))

/-- Rows of a map are written; one that the map does not have is dropped. -/
def State.writeRows (s : State) (o : Origin) (m : CMap) (rows : List (Nat × Nat × Nat × List Byte)) : State :=
  rows.foldl (fun s x =>
    if x.1 < m.width ∧ x.2.1 < m.height ∧ x.2.2.1 < m.cBlocks then (s.store o (m.addr x.1 x.2.1 x.2.2.1) (slice x.2.2.2 0 m.rs)).1 else s) s

/-- The bytes of a map: none where one of its rows cannot be read. -/
def State.readRows (s : State) (o : Origin) (m : CMap) : State × Option (List Byte) :=
  m.places.foldl (fun x p => match x with
    | (s, none) => (s, none)
    | (s, some l) => match s.load o (m.addr p.1 p.2.1 p.2.2) m.rs with
      | (s, .error _) => (s, none)
      | (s, .ok b) => (s, some (l ++ b))) (s, some [])

/-- What the history layer wrote stands in the buffer of the frame's window (R329, R435). -/
def State.writeHistory (s : State) (c : Cmd) (r : Run) (h : HistoryFacts) (rows : List (Nat × Nat × Nat × List Byte)) : State :=
  match (r.buffer h r.window.k).bind s.map? with
  | some m => s.writeRows c.origin m rows
  | none => s

/-- Firmware remembers the frame of a RUN, and whether its outputs are valid. -/
def State.noteHistory (s : State) (h : History) : State :=
  { s with canopy := { s.canopy with history := s.canopy.history.filter (fun x => x.cmd != h.cmd) ++ [h] } }

/-- The current frame of a RUN, as its history. -/
def Run.frameHistory (r : Run) (valid : Bool) : History :=
  { set := r.set, handle := r.handle, cmd := r.cmd, window := r.window.k, tRef := r.window.tRef, ref := r.window.ref, valid := valid }

/-! Counts and the voxel table. -/

/-- The kinds of the ingest units that served a frame, with every counter of their lists (R518). -/
def ingestZeros (set : Nat) (ports : List Nat) : List (Nat × Nat) :=
  (ports.flatMap (fun p => (kindCodes 1).map (fun k => (unitId 1 0 p, k))))
    ++ (kindCodes 2).map (fun k => (unitId 2 0 set, k)) ++ [(unitId 0 0 0, 0x010C)]

/-- The ports that hold a context of a stream set. -/
def State.setPorts (s : State) (set : Nat) : List Nat :=
  (List.range 16).filter (fun p => s.ingest.ctxs.any (fun c => c.set == set && c.key.port == p))

/-- The ingest counts of a frame's window join its totals (R178, R518). -/
def State.ingestCounts (s : State) (r : Run) : State :=
  let zeros := ingestZeros r.set (s.setPorts r.set)
  s.updCmd r.cmd (fun c => { c with
    counts := r.window.counts.foldl (fun l e => addCount l e.1 e.2.1 e.2.2) (zeros.foldl (fun l e => addCount l e.1 e.2 0) c.counts) })

/-- The table that took the points of a RUN's current frame, where firmware routes them to one of its tables. -/
def State.frameTable (s : State) (r : Run) : Option Table :=
  match s.set? r.set with
  | none => none
  | some x => match s.pointsTo x r.window.k with
    | .table t => if r.tables.contains t then s.table? t else none
    | _ => none

/-- Whether every point of a frame has reached its table: the batch marked final has been inserted, or the table is FAILED (R205, R206). -/
def State.pointsIn (s : State) (r : Run) : Bool :=
  match s.frameTable r with
  | some t => t.state == .failed || (t.finalSeen && t.frameTag == some r.window.k)
  | none => true

/-- The counts of a frame's table join its totals (R210). -/
def State.tableCounts (s : State) (r : Run) : State :=
  match s.frameTable r with
  | none => s
  | some t =>
    let zeros := (t.frameCounts.map (·.unit)).eraseDups.flatMap (fun u => (kindCodes 3).map (fun k => (u, k)))
    let add (l : List CountEntry) : List CountEntry :=
      t.frameCounts.foldl (fun l e => addCount l e.unit e.code e.value.toNat) (zeros.foldl (fun l e => addCount l e.1 e.2 0) l)
    s.updCmd r.cmd (fun c => { c with counts := add c.counts })

/-- What a frame's table adds to its status: TABLE_FAILED, or the condition that its points met (R206, R210). -/
def State.tableStatus (s : State) (r : Run) : Half × Word :=
  match s.frameTable r with
  | some t => if t.state == .failed then (stTableFailed, BitVec.ofNat 32 t.id) else insertStatus t.frameCounts
  | none => (stSuccess, 0)

/-- Firmware clears a frame's table for the next window (R204, R218). -/
def State.clearFrame (s : State) (r : Run) : State :=
  match s.frameTable r with
  | none => s
  | some t => (if t.state == .failed || t.epoch ≥ 127 then s.zeroTable t.cfg else s).updTable t.id Table.cleared

/-- The losses of a frame's window as a condition (R185). -/
def Run.lossStatus (r : Run) : Half × Word := if r.window.lost = 0 then (stSuccess, 0) else (stIngestLoss, satDetail r.window.lost)

/-- Whether a status is one that a frame's layers can end with: below 0x0C00, and SUCCESS where its low byte is 0 (R17, R18). -/
def frameStatusOk (st : Half) : Bool := decide (st.toNat < 0x0C00) && (st == stSuccess || isCondition st || isFailure st)

/-- Whether the detections of a frame are ones that an NMS with the overriding parameters can keep: none below the score, none beyond
max_out, and no two of a class that overlap above the IoU (R354, R355, R362). -/
def NmsOverride.keeps (o : NmsOverride) (records : List (List Byte)) : Bool :=
  let boxes := records.map boxOf
  let iou := f32 o.iouThr.toNat
  boxes.all (fun b => b.valid && !(f32 b.score).isNan && !(f32 b.score).lt (f32 o.scoreThr.toNat))
    && (o.maxOut == 0 || decide (boxes.length ≤ o.maxOut))
    && boxes.zipIdx.all (fun x => boxes.zipIdx.all (fun y =>
        !(decide (x.2 < y.2) && x.1.cls == y.1.cls && iouAbove x.1.box y.1.box iou)))

/-- A frame of a RUN ends: what its layers wrote for the history, the counts, and the status: what its layers ended with, what its points
met, the history that was zeroed, and the losses of its window (R17, R178, R185, R210, R329). Its voxel table is free for the next
window. -/
def State.closeFrame (s : State) (c : Cmd) (r : Run) (p : Package) (facts : FrameFacts) : State × (Half × Word) :=
  let table := s.tableStatus r
  let s := (s.ingestCounts r).tableCounts r
  let (s, hist) := match p.history with | some h => s.warpHistory c r h | none => (s, (stSuccess, 0))
  let st := combine (combine (combine (facts.status, facts.detail) table) hist) r.lossStatus
  let s := match p.history with | some h => s.writeHistory c r h facts.history | none => s
  ((s.noteHistory (r.frameHistory (!isFailure st.1))).clearFrame r, st)

end Sys2Proof.Machine
end

