-- ==== Sys2Proof/Machine/TwinSignature.lean ====
section
/-! DEFINITION. Frame signatures: their layout, how firmware builds one, and the comparison of two (R437 to R441). -/
namespace Sys2Proof.Machine

/-- A quantised box (R439). -/
structure SigBox where
  x : Int
  y : Int
  l : Nat
  w : Nat
  score : Nat
  cls : Nat
  deriving DecidableEq, Repr, Inhabited

/-- A frame signature (R438). A sample is its word and the FP16 patterns of its 32 channels (R440). -/
structure Signature where
  set : Nat
  valid : Bool
  truncated : Bool
  window : Int
  digest : Nat
  truncScore : Nat
  boxes : List SigBox
  samples : List (Nat × List Nat)
  deriving DecidableEq, Repr, Inhabited

/-- The bytes of a signature (R438). -/
def Signature.bytes (g : Signature) : List Byte :=
  natToBytes 4 0x4E545331 ++ natToBytes 2 g.set ++ natToBytes 2 ((if g.valid then 1 else 0) + (if g.truncated then 2 else 0))
    ++ natToBytes 8 (ofSigned 64 g.window) ++ natToBytes 8 g.digest ++ natToBytes 2 g.boxes.length ++ natToBytes 2 g.samples.length
    ++ natToBytes 2 g.truncScore ++ List.replicate 34 0
    ++ g.boxes.flatMap (fun b => natToBytes 2 (ofSigned 16 b.x) ++ natToBytes 2 (ofSigned 16 b.y) ++ natToBytes 2 b.l
      ++ natToBytes 2 b.w ++ natToBytes 2 b.score ++ natToBytes 2 b.cls)
    ++ g.samples.flatMap (fun p => natToBytes 4 p.1 ++ p.2.flatMap (natToBytes 2))

/-- The byte offset at which bytes break the layout of R438: none where they hold a signature. -/
def signatureFault (b : List Byte) : Option Nat :=
  let n := leAt b 24 2
  let k := leAt b 26 2
  let word (i : Nat) : Nat := leAt b (64 + 12 * n + 68 * i) 4
  if leAt b 0 4 ≠ 0x4E545331 then some 0
  else if leAt b 6 2 ≥ 4 then some 6
  else if n > 512 then some 24
  else if k > 64 then some 26
  else if leAt b 6 2 < 2 ∧ leAt b 28 2 ≠ 0 then some 28
  else match (List.range 34).find? (fun i => nth 0 b (30 + i) != 0) with
    | some i => some (30 + i)
    | none =>
      match (List.range k).find? (fun i => decide (word i ≥ 2 ^ 29)) with
      | some i => some (64 + 12 * n + 68 * i)
      | none => none

/-- The signature that bytes hold. -/
def signatureOf (b : List Byte) : Signature :=
  let n := leAt b 24 2
  let k := leAt b 26 2
  let box (i : Nat) : SigBox :=
    let a := 64 + 12 * i
    { x := toSigned 16 (leAt b a 2), y := toSigned 16 (leAt b (a + 2) 2), l := leAt b (a + 4) 2, w := leAt b (a + 6) 2,
      score := leAt b (a + 8) 2, cls := leAt b (a + 10) 2 }
  let sample (i : Nat) : Nat × List Nat :=
    let a := 64 + 12 * n + 68 * i
    (leAt b a 4, (List.range 32).map (fun c => leAt b (a + 4 + 2 * c) 2))
  { set := leAt b 4 2, valid := (leAt b 6 2).testBit 0, truncated := (leAt b 6 2).testBit 1, window := toSigned 64 (leAt b 8 8),
    digest := leAt b 16 8, truncScore := leAt b 28 2, boxes := (List.range n).map box, samples := (List.range k).map sample }

/-! Building a signature. -/

/-- q(x × mul / div): half to even, then saturation (R439). What a NaN gives is open. -/
def quantise (lo hi : Int) (x : FVal) (mul div : Nat) : Int :=
  match x with
  | .nan => clampInt lo hi (Config.realFn fnSig32 []).toInt
  | .inf neg => if neg then lo else hi
  | .fin neg m e =>
    let a : Int := ((m * mul * 2 ^ e.toNat : Nat) : Int)
    clampInt lo hi (divRne (if neg then -a else a) (div * 2 ^ (-e).toNat))

/-- min(max(score, 0), 1). -/
def unitClamp (v : FVal) : FVal :=
  if v.lt (.fin false 0 0) then .fin false 0 0 else if (FVal.fin false 1 0).lt v then .fin false 1 0 else v

/-- The quantised form of an NMS record (R354, R439). -/
def sigBoxOf (t : Tolerances) (r : List Byte) : SigBox :=
  let v (i : Nat) : FVal := f32 (leAt r i 4)
  { x := quantise (-32768) 32767 (v 0) 1000 t.posQ, y := quantise (-32768) 32767 (v 4) 1000 t.posQ
    l := (quantise 0 65535 (v 8) 1000 t.sizeQ).toNat, w := (quantise 0 65535 (v 12) 1000 t.sizeQ).toNat
    score := (quantise 0 65535 (unitClamp (v 20)) 65535 1).toNat, cls := leAt r 24 2 }

/-- The FP16 pattern of a channel value: nearest even, held at ±65,504 (R440). -/
def sampleChannel (v : FVal) : Nat :=
  let top : FVal := .fin false 65504 0
  fp16.enc (if v.isNan then v else if top.lt v then top else if v.lt top.neg then top.neg else v)

/-- The cell and the block of sample i of window k (R440). -/
def samplePlace (k : Int) (i w h cb : Nat) : Nat × Nat × Nat :=
  let x := keyHash (ofSigned 48 k * 65536 + i)
  ((x >>> 32) % w, getBits x 16 16 % h, i % cb)

/-- The samples of a map (R440), read one after the other: none where a read fails. -/
def State.samplesOf (s : State) (o : Origin) (m : CMap) (k : Int) : List Nat → State × Option (List (Nat × List Nat))
  | [] => (s, some [])
  | i :: r =>
    let (u, v, cb) := samplePlace k i (max 1 m.width) (max 1 m.height) (max 1 m.cBlocks)
    match s.mapCell o m u v cb with
    | (s, .error _) => (s, none)
    | (s, .ok vals) =>
      match s.samplesOf o m k r with
      | (s, none) => (s, none)
      | (s, some l) => (s, some ((u + v * 4096 + cb * 16777216, vals.map sampleChannel) :: l))

/-- The tolerances of the registers (R450). -/
def State.regTolerances (s : State) : Tolerances :=
  { posTol := s.rdN Fld.twnTolBox_pos_tol, sizeTol := s.rdN Fld.twnTolBox_size_tol,
    posQ := max 1 (s.rdN Fld.twnTolBox_pos_q), sizeQ := max 1 (s.rdN Fld.twnTolBox_size_q),
    scoreTol := s.rdN Fld.twnTolScore_score_tol, missScore := s.rdN Fld.twnTolScore_miss_score,
    bevRel := BitVec.ofNat 32 (s.rdN Fld.twnTolBev_bev_rel), bevAbs := BitVec.ofNat 32 (s.rdN Fld.twnTolBev_bev_abs) }

/-- The tolerances that a package's frames are compared with: its own, or the registers' (R450). -/
def State.tolerances (s : State) (p : Option Package) : Tolerances := (p.bind (·.ownTol)).getD s.regTolerances

/-- The first n bytes of a package's digest, as its field in a signature (R438). -/
def digest8 (d : List Byte) : Nat := leAt d 0 8

/-- Firmware builds the signature of a frame (R437 to R440): from the boxes of the NMS output that the package declares and its map.
Outputs that cannot be read are not valid. -/
def State.buildSignature (s : State) (c : Cmd) (r : Run) (p : Package) (valid : Bool) (boxes : List (List Byte)) (map : Option Nat) :
    State × Signature :=
  let t := s.tolerances (some p)
  let keep := min 512 (s.rdN Fld.twnSig_sig_boxes)
  let bs := (boxes.take keep).map (sigBoxOf t)
  let trunc := decide (boxes.length > keep)
  let n := min 64 (s.rdN Fld.twnSig_sig_samples)
  let (s, samples) := match map.bind s.map? with
    | some m => s.samplesOf c.origin m r.window.k (List.range n)
    | none => (s, some [])
  (s, { set := r.set, valid := valid && samples.isSome, truncated := trunc, window := r.window.k, digest := digest8 p.digest,
        truncScore := if trunc then ((bs.getLast?).map (·.score)).getD 0 else 0, boxes := bs, samples := samples.getD [] })

/-! Comparison (R441). -/

/-- |a − b|. -/
def gap (a b : Int) : Nat := (a - b).natAbs

/-- Whether box b is a candidate for box a (R441). -/
def boxFits (t : Tolerances) (a b : SigBox) : Bool :=
  a.cls == b.cls && decide (gap a.x b.x * t.posQ ≤ t.posTol) && decide (gap a.y b.y * t.posQ ≤ t.posTol)
    && decide (gap a.l b.l * t.sizeQ ≤ t.sizeTol) && decide (gap a.w b.w * t.sizeQ ≤ t.sizeTol)
    && decide (gap a.score b.score ≤ t.scoreTol)

/-- The squared distance of two boxes in quantised steps. -/
def boxDist (a b : SigBox) : Nat := gap a.x b.x ^ 2 + gap a.y b.y ^ 2

/-- The candidate of least distance among the unmatched boxes, the lower index on ties: its place in the list. -/
def bestBox (t : Tolerances) (a : SigBox) (bs : List (Nat × SigBox)) : Option (Nat × SigBox) :=
  bs.foldl (fun best b =>
    if !boxFits t a b.2 then best
    else match best with
      | none => some b
      | some c => if boxDist a b.2 < boxDist a c.2 then some b else some c) none

/-- Boxes of list A are matched in order: the unmatched boxes of A, and those of B. -/
def matchBoxes (t : Tolerances) : List SigBox → List (Nat × SigBox) → List SigBox × List (Nat × SigBox)
  | [], bs => ([], bs)
  | a :: r, bs =>
    match bestBox t a bs with
    | some b => matchBoxes t r (bs.filter (fun x => x.1 != b.1))
    | none =>
      let (ua, ub) := matchBoxes t r bs
      (a :: ua, ub)

/-- Whether an unmatched box counts, given the other list's signature (R441). -/
def missCounts (t : Tolerances) (e : SigBox) (other : Signature) : Bool :=
  decide (t.missScore ≤ e.score) && !(other.truncated && decide (e.score ≤ other.truncScore + t.scoreTol))

/-- The mismatches of one channel of a sample pair. -/
def channelDiffers (t : Tolerances) (a b : Nat) : Bool :=
  let va := fp16.dec a
  let vb := fp16.dec b
  let top := if va.abs.lt vb.abs then vb.abs else va.abs
  va.isNan || vb.isNan || ((f32 t.bevAbs.toNat).add ((f32 t.bevRel.toNat).mul top)).lt (va.sub vb).abs

/-- The mismatch count of two signatures: A is the lead's (R441). -/
def mismatches (t : Tolerances) (a b : Signature) : Nat :=
  if !(a.valid && b.valid) || a.digest != b.digest then 1
  else
    let (ua, ub) := matchBoxes t a.boxes ((List.range b.boxes.length).zip b.boxes)
    let boxes := (ua.filter (fun e => missCounts t e b)).length + (ub.filter (fun e => missCounts t e.2 a)).length
    let chans := (a.samples.zip b.samples).map (fun p => ((p.1.2.zip p.2.2).filter (fun c => channelDiffers t c.1 c.2)).length)
    boxes + chans.sum

end Sys2Proof.Machine
end

