-- ==== Sys2Proof/Machine/TwinLink.lean ====
section
/-! DEFINITION. The twin unit: the handshake, synchronisation, loss, detach and re-pairing (R429 to R436, R445 to R447). The byte
layouts of messages whose content the spec names without a layout are the model's own. -/
namespace Sys2Proof.Machine

/-- TWIN_DISAGREE, TWIN_ALONE, TWIN_AUTH, TWIN_CONFIG, TWIN_SYNC, TWIN_NO_LINK, TWIN_SIG_FORMAT (R449). -/
def stTwinDisagree : Half := 0x0901
def stTwinAlone : Half := 0x0902
def stTwinAuth : Half := 0x0940
def stTwinConfig : Half := 0x0941
def stTwinSync : Half := 0x0942
def stTwinNoLink : Half := 0x0944
def stTwinSigFormat : Half := 0x0945

/-- States of the twin unit (R429). -/
def twWaitLink : Nat := 1
def twHandshake : Nat := 2
def twSync : Nat := 3
def twPaired : Nat := 4
def twSolo : Nat := 5
def twDetaching : Nat := 6

/-- The state and the role of the twin unit. -/
def State.twinState (s : State) : Nat := s.rdN Fld.twnStatus_state
def State.twinRole (s : State) : Nat := s.rdN Fld.twnStatus_role

/-- Whether the twin link is UP. -/
def State.twinUp (s : State) : Bool :=
  match s.twinLink with | some l => s.rdN Fld.wblLinkStatus_state l == 2 | none => false

/-- The first compared window (R436). -/
def State.k0 (s : State) : Int := (s.rd Fld.twnFirstFrame_k0).toInt

/-! HELLO. -/

/-- A package of the physical function's partition. -/
def State.pairPackage? (s : State) (h : Nat) : Option Package := s.package? (s.partOf 0) h

/-- What a paired stream set's digest is taken over: its settings, the calibration tables of its contexts and the parse programs
(R432). -/
def State.setMaterial (s : State) (n : Nat) : List Byte :=
  match s.set? n with
  | none => []
  | some x =>
    let c := x.cfg
    let nums := (s.ingest.ctxs.filter (fun k => k.set == n)).map (fun k => k.calib)
    let cal := s.ingest.calibs.filter (fun k => nums.contains k.num)
    natToBytes 1 c.depth ++ natToBytes 1 c.poseSource ++ natToBytes 4 c.periodUs ++ natToBytes 4 c.phaseUs ++ natToBytes 2 c.graceUs
      ++ natToBytes 1 c.maxAuto ++ natToBytes 4 c.maxPoints
      ++ cal.flatMap (fun k => natToBytes 2 k.num ++ natToBytes 4 k.azStep.toNat ++ natToBytes 4 k.rangeUnitUm.toNat
        ++ k.entries.flatMap (fun e => natToBytes 4 e.1.toNat ++ natToBytes 4 e.2.1.toNat ++ natToBytes 4 e.2.2.1.toNat
          ++ natToBytes 4 e.2.2.2.toNat))
      ++ s.ingest.store.flatMap (fun w => natToBytes 2 w.1 ++ natToBytes 8 w.2.toNat)

/-- A SOLO chip with at least one RUN of a paired stream set running (R431). -/
def State.soloRunning (s : State) : Bool :=
  s.twin.wasSolo && s.queues.runs.any (fun r => s.twin.list.any (fun p => p.1 == r.set))

/-- The HELLO message (R432): subtype, chip, nonce, flags, firmware digest, then stream set, package digest and settings digest of
each pair. -/
def State.hello (s : State) (nonce : List Byte) : List Byte :=
  [0x40] ++ natToBytes 2 s.chipId ++ slice nonce 0 32
    ++ natToBytes 1 ((if s.rdB Fld.twnCfg_prefer_lead then 1 else 0) + (if s.soloRunning then 2 else 0))
    ++ slice (nth [] s.security.measure 1) 0 64 ++ natToBytes 1 s.twin.list.length
    ++ s.twin.list.flatMap (fun p => natToBytes 2 p.1
      ++ slice (((s.pairPackage? p.2).map (·.digest)).getD []) 0 64 ++ slice (Config.sha3 (s.setMaterial p.1)) 0 64)

/-- Fields of a HELLO. -/
def helloChip (b : List Byte) : Nat := leAt b 1 2
def helloPrefers (b : List Byte) : Bool := (leAt b 35 1).testBit 0
def helloSolo (b : List Byte) : Bool := (leAt b 35 1).testBit 1
def helloFirmware (b : List Byte) : List Byte := slice b 36 64
def helloCount (b : List Byte) : Nat := leAt b 100 1
def helloSet (b : List Byte) (i : Nat) : Nat := leAt b (101 + 130 * i) 2
def helloPackage (b : List Byte) (i : Nat) : List Byte := slice b (103 + 130 * i) 64
def helloSettings (b : List Byte) (i : Nat) : List Byte := slice b (167 + 130 * i) 64

/-! Certificates and proofs. -/

/-- A certificate is well formed (R499), of a given kind. -/
def certOk (b : List Byte) (kind : Nat) : Bool :=
  b.length == 7315 && leAt b 0 4 == 0x4E435254 && leAt b 4 1 == 1 && leAt b 5 1 == kind

/-- A certificate's subject key, issuer digest and signature (R499). -/
def certKey (b : List Byte) : List Byte := slice b 96 2592
def certIssuer (b : List Byte) : List Byte := slice b 32 64
def certSig (b : List Byte) : List Byte := slice b 2688 4627

/-- The root slot of the verified signer key, where it is not revoked (R495, R496). -/
def State.signerSlot (s : State) : Option Nat :=
  let d := Config.sha3 s.security.signerKey
  (List.range 4).find? (fun i => nth [] s.security.otp.rootDigests i == d && !s.security.otp.revoked.testBit i)

/-- Whether an identity chain verifies (R499): the subject key of its device certificate. -/
def State.chainKey (s : State) (chain : List Byte) : Option (List Byte) :=
  let ca := chain.take 7315
  let dev := chain.drop 7315
  if certOk ca 0 && certOk dev 1 && certIssuer ca == Config.sha3 s.security.signerKey && s.signerSlot.isSome
      && Config.mldsaVerify s.security.signerKey (ca.take 2688) (certSig ca)
      && certIssuer dev == Config.sha3 (certKey ca) && Config.mldsaVerify (certKey ca) (dev.take 2688) (certSig dev)
  then some (certKey dev) else none

/-- The digest of both HELLO messages, the lower chip ID first (R432). -/
def State.helloDigest (s : State) : List Byte :=
  let a := s.twin.ownHello
  let b := s.twin.peerHello
  Config.sha3 (if helloChip a ≤ helloChip b then a ++ b else b ++ a)

/-- TWN_PEER_DIGEST as 64 bytes (R450). -/
def State.peerPin (s : State) : List Byte := (List.range 8).flatMap (fun i => natToBytes 8 (s.rdN Fld.twnPeerDigest_digest i))

/-! Loss and re-pairing. -/

/-- The handshake or the synchronisation has ended without a pair (R433, R434): WAIT_LINK, the command's status, and Bark hears of it. -/
def State.pairEnds (s : State) (st : Half) (detail : Nat) : State :=
  let s := if st == stTwinAuth then s.count Fld.twnCnt_count 1 6 else s
  let s := ((s.wrN Fld.twnStatus_state twWaitLink).setTwinRole 0).forgetPartner
  let s := s.report { source := 0x1C, detail := BitVec.ofNat 64 detail }
  let s := match s.twin.pairCmd with
    | some id => ({ s with twin := { s.twin with pairCmd := none } }).finish id st (BitVec.ofNat 32 detail)
    | none => s
  s

/-- A check of this chip's, or its time for SYNC, ends the pairing on both chips (R433, R434): the partner hears of it in a LEAVING with
reason 0. DESIGN CHOICE: its layout, the status in bytes 2 and 3 and the detail in byte 4. -/
def State.pairFails (s : State) (st : Half) (detail : Nat) : State :=
  (s.sendTwin ([0x48, 0] ++ natToBytes 2 st.toNat ++ natToBytes 1 detail)).pairEnds st detail

/-- The first check of the configuration that fails (R433): 0 firmware, 1 package, 2 stream set, 3 list. -/
def configFault (a b : List Byte) : Option Nat :=
  let n := helloCount a
  let idx := List.range (min n (helloCount b))
  if helloFirmware a != helloFirmware b then some 0
  else if idx.any (fun i => helloSet a i == helloSet b i && helloPackage a i != helloPackage b i) then some 1
  else if idx.any (fun i => helloSet a i == helloSet b i && helloSettings a i != helloSettings b i) then some 2
  else if n != helloCount b || idx.any (fun i => helloSet a i != helloSet b i) then some 3
  else none

/-- The role that the chip of HELLO a takes against the chip of HELLO b (R431): 1 lead, 2 shadow. -/
def roleOf (a b : List Byte) : Nat :=
  if helloSolo a != helloSolo b then (if helloSolo a then 1 else 2)
  else if helloPrefers a != helloPrefers b then (if helloPrefers a then 1 else 2)
  else if helloChip a = 0 then 1 else 2

/-- Contexts of the paired stream sets (R434). -/
def State.pairedCtxs (s : State) : List Ctx := s.ingest.ctxs.filter (fun c => s.twin.list.any (fun p => p.1 == c.set))

/-- The prior tables bound to the paired packages. -/
def State.pairedTables (s : State) : List Nat :=
  ((s.gather.binds.filter (fun b => s.twin.list.any (fun p => p.2 == b.1))).map (fun b => b.2.2)).eraseDups

/-- The generation of a table's CURRENT version. -/
def State.currentGen (s : State) (t : Nat) : Option Nat :=
  (s.prior? t).bind (fun p => (p.versions.find? (fun v => v.state == .current)).map (·.gen))

/-- The lead carries its state to the shadow (R434): kind 0 a context, kind 1 the end of them, kind 2 the generation of a table, kind 3
the end. -/
def State.sendSync (s : State) : State :=
  let s := s.pairedCtxs.foldl (fun s c => s.sendTwin ([0x44, 0] ++ c.bytes.take 80)) s
  let s := s.sendTwin [0x44, 1]
  let s := s.pairedTables.foldl (fun s t =>
    match s.currentGen t with
    | some g => s.sendTwin ([0x44, 2] ++ natToBytes 1 t ++ natToBytes 4 g)
    | none => s) s
  s.sendTwin [0x44, 3]

/-- The handshake has passed: SYNC, with the agreed role (R429 to R431, R434). -/
def State.enterSync (s : State) : State :=
  let role := s.twin.ownRole
  let s := (s.wrN Fld.twnStatus_state twSync).setTwinRole role
  let t := s.twin
  let s := { s with twin := { t with wasShadow := role == 2, syncKeys := [], syncGens := [], syncContexts := false,
                                     syncVersions := false, syncTime := false, syncDone := false,
                                     syncAt := s.time.uptime, syncHeard := false, copied := [] } }
  if role == 1 then s.sendSync else s

/-- The certificate check and the pin (R433): the failing detail, or the partner's key. -/
def State.certCheck (s : State) : Except Nat (List Byte) :=
  match s.chainKey s.twin.peerCert with
  | none => .error 0
  | some k => if s.rdB Fld.twnCfg_pin_enable && slice (Config.sha3 k) 0 64 != s.peerPin then .error 1 else .ok k

/-- The last step: the role messages agree (R433). -/
def State.roleCheck (s : State) : State :=
  let t := s.twin
  if !t.checked || t.peerRole == 0 then s
  else if t.ownRole + t.peerRole == 3 then s.enterSync
  else s.pairFails stTwinConfig 4

/-- The proof and the configuration (R433); then this chip says which role it takes. -/
def State.proofCheck (s : State) : State :=
  let t := s.twin
  if t.checked || t.peerKey == [] || t.peerProof == [] || t.peerHello == [] then s.roleCheck
  else if !Config.mldsaVerify t.peerKey s.helloDigest (t.peerProof.drop 1) then s.pairFails stTwinAuth 2
  else match configFault t.ownHello t.peerHello with
    | some k => s.pairFails stTwinConfig k
    | none =>
      let role := roleOf t.ownHello t.peerHello
      let s := { s with twin := { t with checked := true, ownRole := role } }
      (s.sendTwin [0x43, BitVec.ofNat 8 role]).roleCheck

/-- The handshake goes as far as the messages that have arrived allow, its checks in order (R433). -/
def State.advanceHandshake (s : State) : State :=
  if s.twinState != twHandshake then s
  else
    let s := if s.twin.peerHello != [] && !s.twin.proofSent then
        let sig := Config.mldsaSign s.security.otp.identitySeed s.helloDigest
        ({ s with twin := { s.twin with proofSent := true } }).sendTwin ([0x42] ++ slice sig 0 4627)
      else s
    if s.twin.peerKey == [] && s.twin.peerCert != [] then
      match s.certCheck with
      | .error d => s.pairFails stTwinAuth d
      | .ok k => ({ s with twin := { s.twin with peerKey := k } }).proofCheck
    else s.proofCheck

/-- A handshake begins on the twin link, which is UP (R429, R432, R498): HELLO and the identity chain are sent. -/
def State.startHandshake (s : State) : State :=
  let solo := s.twinState == twSolo
  let s := (s.wrN Fld.twnStatus_state twHandshake).setTwinRole 0
  let (a, s) := s.draw
  let (b, s) := s.draw
  let (c, s) := s.draw
  let (d, s) := s.draw
  let nonce := [a, b, c, d].flatMap (fun w => natToBytes 8 w.toNat)
  let s := { s with twin := { s.twin with wasSolo := solo, returning := false } }
  let s := s.wrN Fld.twnStatus_partner_chip (1 - s.chipId)
  if !s.security.identity then s.pairFails stTwinAuth 0
  else
    let h := s.hello nonce
    let s := { s with twin := { s.twin with ownHello := h } }
    ((s.sendTwin h).sendTwin ([0x41] ++ s.security.chain)).advanceHandshake

/-- A pairing order is accepted: the handshake begins once the twin link is UP (R429, R446). -/
def State.acceptPair (s : State) (cmd : Option Nat) (list : List (Nat × Nat)) : State :=
  let s := { s with twin := { s.twin with pairCmd := cmd, list := list, lastList := list } }
  if s.twinUp then s.startHandshake else s

/-- SOLO (R136, R445), from PAIRED, SYNC or DETACHING: the chip is lead, frames that wait complete without a partner, and orders that wait
end. A TWIN_PAIR that reached DETACHING takes effect (R446). -/
def State.goSolo (s : State) (reason : Nat) : State :=
  let st := s.twinState
  if st != twPaired && st != twSync && st != twDetaching then s
  else
    let s := (s.wrN Fld.twnStatus_state twSolo).wrN Fld.twnStatus_lost_reason reason
    let s := s.forgetPartner.upstreamLost.setTwinRole 1
    let s := s.wrB Fld.twnStatus_reenable_pending false
    let s := if reason == 5 then s else s.report { source := 0x1C, detail := BitVec.ofNat 64 reason }
    let t := s.twin
    let s := { s with twin := { t with pairCmd := none, detachCmd := none, nextPair := none, lateRun := 0 } }
    let s := s.releaseFrames 4 (fun x => combine x (stTwinAlone, BitVec.ofNat 32 reason))
    let s := match t.pairCmd with | some id => s.finish id stTwinState (BitVec.ofNat 32 twSolo) | none => s
    let s := match t.detachCmd with | some id => s.finish id stSuccess | none => s
    match t.nextPair with
    | some (id, l) => s.acceptPair (some id) l
    | none => s

/-- A chip that left its pairing for the safe state pairs again once Bark has released it and the twin link is UP, with the list of its last
accepted TWIN_PAIR (R445, R459). -/
def State.returnToPair (s : State) : State :=
  if s.twin.returning && s.twinState == twWaitLink && s.mode != modeSafe && s.twinUp then s.acceptPair none s.twin.lastList else s

/-- The twin link came UP (R429, R433, R445, R446): a pairing order that waits begins its handshake; with auto_pair a SOLO chip pairs again,
and so does one whose last handshake failed; and one that returns from the safe state does. -/
def State.twinLinkUp (s : State) : State :=
  let s := s.wrN Fld.twnStatus_partner_chip (1 - s.chipId)
  let st := s.twinState
  if st == twWaitLink && s.twin.pairCmd.isSome then s.startHandshake
  else if st == twSolo && s.twin.pairCmd.isSome then s.startHandshake
  else if (st == twSolo || (st == twWaitLink && s.mode != modeSafe)) && s.rdB Fld.twnCfg_auto_pair && s.twin.lastList != [] then
    s.acceptPair none s.twin.lastList
  else s.returnToPair

/-- The twin link went DOWN (R429, R445): a handshake falls back to WAIT_LINK, its order waiting. -/
def State.twinLinkDown (s : State) : State :=
  if s.twinState == twHandshake then (s.wrN Fld.twnStatus_state twWaitLink).forgetPartner
  else s.goSolo 1

/-- The detach is done at a frame boundary: LEAVING is sent, and the chip is SOLO (R446). -/
def State.endDetach (s : State) : State := (s.sendTwin [0x48, 3]).goSolo 5

/-- Whether a frame of a paired stream set is running or waits for its comparison. -/
def State.pairedFrameRuns (s : State) : Bool :=
  s.twin.frames != [] || s.queues.runs.any (fun r => r.frameActive && s.twin.list.any (fun p => p.1 == r.set))

/-- Whether a detach waits for no frame any longer: its boundary is here (R446). -/
def State.detachDue (s : State) : Bool := s.twinState == twDetaching && s.twin.detachCmd.isSome && !s.pairedFrameRuns

/-- PAIRED (R429, R436, R447): TWIN_PAIR completes with k0. -/
def State.enterPaired (s : State) : State :=
  let s := s.wrN Fld.twnStatus_state twPaired
  let s := (s.wrN Fld.twnStatus_window_disputes 0).wrB Fld.twnStatus_diverged false
  let s := { s with twin := { s.twin with disputes := [], lateRun := 0, judged := [] } }
  match s.twin.pairCmd with
  | some id => ({ s with twin := { s.twin with pairCmd := none } }).finish id stSuccess
      (BitVec.ofNat 32 (s.rdN Fld.twnFirstFrame_k0))
  | none => s

/-! The commands. -/

/-- The pairing list that a TWIN_PAIR names (R447). -/
def pairList (n : Nat) (b : List Byte) : List (Nat × Nat) := (List.range n).map (fun i => (leAt b (4 * i) 2, leAt b (4 * i + 2) 2))

/-- TWIN_PAIR (R429, R433, R446, R447). -/
def execTwinPair (cmd : Nat) (s : State) : Host.Outcome State Fault Refusal :=
  answer s true (s.onStart cmd 0x0 0x90 (fun s c =>
    if s.twinLink.isNone then s.finish cmd stTwinNoLink
    else match s.basicLoad c (c.b 24 8) (4 * c.b 16 1) with
      | (s, .error e) => s.failAcc cmd e
      | (s, .ok b) =>
        let l := pairList (c.b 16 1) b
        let st := s.twinState
        match l.find? (fun p => (s.set? p.1).isNone) with
        | some p => s.finish cmd stSetUndefined (BitVec.ofNat 32 p.1)
        | none =>
          if l.any (fun p => (s.package? c.part p.2).isNone) then s.finish cmd stOwnership 24
          else if st == twDetaching && s.twin.nextPair.isNone then
            ({ s with twin := { s.twin with nextPair := some (cmd, l) } }).wrB Fld.twnStatus_reenable_pending true
          else if (st == twWaitLink || st == twSolo) && s.twin.pairCmd.isNone then s.acceptPair (some cmd) l
          else s.finish cmd stTwinState (BitVec.ofNat 32 st)))

/-- TWIN_DETACH (R446, R447): at once where no paired frame runs, else at the end of the one that does. -/
def execTwinDetach (cmd : Nat) (s : State) : Host.Outcome State Fault Refusal :=
  answer s true (s.onStart cmd 0x0 0x91 (fun s _ =>
    if s.twinLink.isNone then s.finish cmd stTwinNoLink
    else if s.twinState != twPaired then s.finish cmd stTwinState (BitVec.ofNat 32 s.twinState)
    else
      let s := ({ s with twin := { s.twin with detachCmd := some cmd } }).wrN Fld.twnStatus_state twDetaching
      if s.pairedFrameRuns then s else s.endDetach))

/-! Messages of the partner. -/

/-- The meaning of a row that a message of the partner is: nothing where it is another message or the twin link is not UP. -/
def State.onMessage (s : State) (subtype : Byte) (m : List Byte) (f : State → State) : State :=
  if m.head? != some subtype || !s.twinUp then s
  else f { s with twin := { s.twin with arrived := s.twin.arrived.erase m } }

/-- Whether the twin unit listens to messages of a handshake. -/
def State.listens (s : State) : Bool := s.twinState == twWaitLink || s.twinState == twHandshake || s.twinState == twSolo

/-- HELLO (R432). -/
def execHello (message : List Byte) (s : State) : Host.Outcome State Fault Refusal :=
  answer s true (s.onMessage 0x40 message (fun s =>
    if s.listens then ({ s with twin := { s.twin with peerHello := message } }).advanceHandshake else s))

/-- CERT (R432, R433). -/
def execCert (message : List Byte) (s : State) : Host.Outcome State Fault Refusal :=
  answer s true (s.onMessage 0x41 message (fun s =>
    if s.listens then ({ s with twin := { s.twin with peerCert := message.drop 1 } }).advanceHandshake else s))

/-- PROOF (R432, R433). -/
def execProof (message : List Byte) (s : State) : Host.Outcome State Fault Refusal :=
  answer s true (s.onMessage 0x42 message (fun s =>
    if s.twinState == twHandshake then ({ s with twin := { s.twin with peerProof := message } }).advanceHandshake else s))

/-- ROLE (R431, R433). -/
def execRole (message : List Byte) (s : State) : Host.Outcome State Fault Refusal :=
  answer s true (s.onMessage 0x43 message (fun s =>
    if s.twinState == twHandshake then ({ s with twin := { s.twin with peerRole := leAt message 1 1 } }).advanceHandshake else s))

/-- The shadow writes a context of the lead to the context of the same key, creating it where it is needed (R434). -/
def State.syncContext (s : State) (image : List Byte) : State :=
  let x := ctxOf 0 (s.partOf 0) image
  let s := { s with twin := { s.twin with syncKeys := s.twin.syncKeys ++ [image.take 28] } }
  match s.ingest.ctxs.find? (fun o => o.key == x.key && o.template == x.template && o.set == x.set) with
  | some o => s.updCtx o.id (fun o => o.overwrite x)
  | none =>
    if s.freeCtx.isNone then s
    else
      let (id, s) := s.takeCtxId
      s.putCtx { x with id := id }

/-- Contexts whose key the lead lacks become DISABLED, and the contexts are confirmed (R434). -/
def State.syncContextsEnd (s : State) : State :=
  let keys := s.twin.syncKeys.map (fun b => (ctxOf 0 0 b).key)
  let lacks (c : Ctx) : Bool := s.twin.list.any (fun p => p.1 == c.set) && !keys.contains c.key
  let s := ((s.ingest.ctxs.filter lacks).map (·.id)).foldl (fun s id => s.updCtx id (fun c => { c with state := .disabled })) s
  ({ s with twin := { s.twin with syncContexts := true } }).sendTwin [0x44, 4, 0]

/-- Whether the shadow's CURRENT versions carry the lead's generations (R434). -/
def State.gensAgree (s : State) : Bool := s.twin.syncGens.all (fun g => s.currentGen g.1 == some g.2)

/-- What the shadow can confirm now of versions and time (R434). -/
def State.syncConfirm (s : State) : State :=
  let s := if !s.twin.syncVersions && s.gensAgree then
      ({ s with twin := { s.twin with syncVersions := true } }).sendTwin [0x44, 4, 1]
    else s
  if !s.twin.syncTime && decide (s.time.phaseErr.natAbs ≤ 1000) then
    ({ s with twin := { s.twin with syncTime := true } }).sendTwin [0x44, 4, 2]
  else s

/-- The first window of a stream set that starts at least one period from now (R163, R436). -/
def State.nextWindow (s : State) (x : StreamSet) : Int :=
  let t : Int := x.cfg.periodUs * 1000
  let from_ : Int := (s.now.toNat : Int) + t - x.cfg.phaseUs * 1000
  let k : Int := -(floorDiv (-from_) (max 1 t))
  k

/-- The first window that starts at least one period from now in each of the paired stream sets (R436); 0 where none is defined. -/
def State.firstWindow (s : State) : Int :=
  ((s.twin.list.filterMap (fun p => s.set? p.1)).foldl (fun k x => match k with
    | none => some (s.nextWindow x)
    | some k => some (max k (s.nextWindow x))) none).getD 0

/-- A confirmation reaches the lead; with the last one it fixes k0 (R434, R436). -/
def State.syncConfirmed (s : State) (i : Nat) : State :=
  let t := s.twin
  let t := if i == 0 then { t with syncContexts := true } else if i == 1 then { t with syncVersions := true } else { t with syncTime := true }
  let s := { s with twin := t }
  if t.syncContexts && t.syncVersions && t.syncTime && !t.syncDone then
    let k := s.firstWindow
    let s := ({ s with twin := { s.twin with syncDone := true } }).wr Fld.twnFirstFrame_k0 (BitVec.ofInt 64 k)
    s.sendTwin ([0x45] ++ natToBytes 8 (ofSigned 64 k))
  else s

/-- Whether the shadow can confirm versions or time now and has not (R434): it has the lead's state, and its host has published its
versions, or its phase error is small enough. -/
def State.canConfirm (s : State) : Bool :=
  s.twinState == twSync && s.twinRole == 2 && s.twin.syncHeard
    && ((!s.twin.syncVersions && s.gensAgree) || (!s.twin.syncTime && decide (s.time.phaseErr.natAbs ≤ 1000)))

/-- SYNC_DATA (R434): the lead's state reaches the shadow, or a confirmation the lead. At the end of the lead's state the shadow confirms
what it can; the rest it confirms once it can. -/
def execSyncData (message : List Byte) (s : State) : Host.Outcome State Fault Refusal :=
  answer s true (s.onMessage 0x44 message (fun s =>
    if s.twinState != twSync then s
    else
      let kind := leAt message 1 1
      if s.twinRole == 1 then (if kind == 4 then s.syncConfirmed (leAt message 2 1) else s)
      else if kind == 0 then s.syncContext (slice message 2 80)
      else if kind == 1 then s.syncContextsEnd
      else if kind == 2 then
        { s with twin := { s.twin with syncGens := s.twin.syncGens ++ [(leAt message 2 1, leAt message 3 4)] } }
      else if kind == 3 then ({ s with twin := { s.twin with syncHeard := true } }).syncConfirm
      else s))

/-- SYNC_DONE: k0 reaches the shadow (R436). -/
def execSyncDone (message : List Byte) (s : State) : Host.Outcome State Fault Refusal :=
  answer s true (s.onMessage 0x45 message (fun s =>
    if s.twinState == twSync && s.twinRole == 2 then
      ({ s with twin := { s.twin with syncDone := true } }).wrN Fld.twnFirstFrame_k0 (leAt message 1 8)
    else s))

/-- LEAVING (R433, R434, R445): a pair is over; a handshake falls back to WAIT_LINK, and with reason 0 the pairing has failed at the
partner. -/
def execLeaving (message : List Byte) (s : State) : Host.Outcome State Fault Refusal :=
  answer s true (s.onMessage 0x48 message (fun s =>
    if leAt message 1 1 = 0 ∧ (s.twinState = twHandshake ∨ (s.twinState = twSync ∧ !s.twin.syncDone)) then
      s.pairEnds (BitVec.ofNat 16 (leAt message 2 2)) (leAt message 4 1)
    else if s.twinState == twHandshake then (s.wrN Fld.twnStatus_state twWaitLink).forgetPartner
    else s.goSolo 3))

/-- SYNC_TIMEOUT: sync_timeout_s has passed in SYNC (R434): the detail names the first part that was not confirmed. -/
def execSyncTimeout (s : State) : Host.Outcome State Fault Refusal :=
  answer s true (
    let t := s.twin
    if s.twinState != twSync || t.syncDone || !s.passed t.syncAt (1000000000 * max 1 (s.rdN Fld.twnTimeouts_sync_timeout_s)) then s
    else s.pairFails stTwinSync (if !t.syncContexts then 0 else if !t.syncVersions then 1 else 2))

/-- TWIN_FAULT_IN: TWIN_FAULT_IN_N goes low (R445). -/
def execTwinFaultIn (s : State) : Host.Outcome State Fault Refusal :=
  answer s true (({ s with twin := { s.twin with faultIn := true } }).goSolo 2)

/-- The copy of a history buffer of window k is in the buffer of the same parity of the RUN on a stream set (R435, R436). -/
def State.takeHistory (s : State) (c : Cmd) (r : Run) (x : StreamSet) (k : Int) (bytes : List Byte) : State :=
  let m : Option CMap := ((s.package? r.part r.handle).bind (·.history)).bind (fun h => (r.buffer h k).bind s.map?)
  let s := match m with
    | some m => s.writeRows c.origin m (m.places.zipIdx.map (fun (p : (Nat × Nat × Nat) × Nat) => (p.1.1, p.1.2.1, p.1.2.2, slice bytes (m.rs * p.2) m.rs)))
    | none => s
  s.noteHistory { set := r.set, handle := r.handle, cmd := r.cmd, window := k, tRef := x.cfg.start k,
                  ref := match s.history? r with
                    | some h => if h.window = k then h.ref else none
                    | none => ((x.window? k).bind (fun w => w.refPose)).map (fun (f : List DWord × Bool) => f.1),
                  valid := true }

/-- HISTORY_COPY_ARRIVE (R436): the lead's history buffer of frame k0 − 1 of a stream set has reached this shadow, which enters PAIRED
with the first of them. The message holds the stream set and its window, and then the buffer. -/
def execHistoryCopyArrive (message : List Byte) (s : State) : Host.Outcome State Fault Refusal :=
  answer s true (
    let n := leAt message 0 2
    let k := toSigned 64 (leAt message 2 8)
    match s.twin.list.find? (fun p => p.1 == n), s.set? n with
    | some p, some x =>
      if s.twinRole != 2 || !s.twin.syncDone || k + 1 != s.k0 || (s.twinState != twSync && s.twinState != twPaired) then s
      else
        let s := { s with twin := { s.twin with copied := s.twin.copied ++ [n] } }
        let s := match s.queues.runs.find? (fun r => r.set == n && r.handle == p.2) with
          | some r => (match s.cmd? r.cmd with | some c => s.takeHistory c r x k (message.drop 10) | none => s)
          | none => s
        if s.twinState == twSync then s.enterPaired else s
    | _, _ => s)

end Sys2Proof.Machine
end

