-- ==== Sys2Proof/Machine/TwinFrames.lean ====
section
/-! DEFINITION. Comparison of paired frames, its outcomes and what follows a dispute (R436 to R444), the frames of a RUN as they end
(R116, R437), and the expert descriptors (R448). -/
namespace Sys2Proof.Machine

/-- The twin unit's ID (R512). -/
def twinUnit : Nat := unitId 10 0 0

/-- The verdict of a dispute (R443): 1 every tile passed, 2 failed and grafted, 3 failed with no spare. -/
def verdictOf (x : SampleSet) : Nat := if x.lost.isSome then 3 else if x.failures > 0 then 2 else 1

/-- Both verdicts of the latest dispute are known: it counts as transient, or as resolved by a graft (R443, R450). -/
def State.settleVerdicts (s : State) : State :=
  let a := s.rdN Fld.twnVerdict_local_verdict
  let b := s.rdN Fld.twnVerdict_partner_verdict
  if a == 0 || b == 0 then s
  else if a == 1 && b == 1 then s.count Fld.twnCnt_count 1 3
  else if a == 2 || b == 2 then s.count Fld.twnCnt_count 1 4
  else s

/-- Bark has finished a dispute's Core Samples: the verdict is recorded and sent (R443). -/
def State.giveVerdict (s : State) (v : Nat) : State :=
  ((s.wrN Fld.twnVerdict_local_verdict v).settleVerdicts).sendTwin [0x47, BitVec.ofNat 8 v]

/-- VERDICT (R443): the partner's verdict of the latest dispute. -/
def execVerdict (message : List Byte) (s : State) : Host.Outcome State Fault Refusal :=
  answer s true (s.onMessage 0x47 message (fun s =>
    let v := leAt message 1 1
    if v == 0 || v > 3 then s
    else (s.wrN Fld.twnVerdict_partner_verdict v).settleVerdicts))

/-- A dispute hands its tiles, those that are in service, to Bark, at the head of the Core Sample queue (R443, R466). -/
def State.startDispute (s : State) (window : Int) (tiles : List (Nat × Nat)) : State :=
  let s := (s.wr Fld.twnLastDispute_window (BitVec.ofInt 64 window)).wrN Fld.twnVerdict_local_verdict 0
  let s := s.wrN Fld.twnVerdict_partner_verdict 0
  let tiles := tiles.filter (fun t => !s.bark.lostTiles.contains t)
  if tiles.isEmpty then s.giveVerdict 1
  else { s with bark := { s.bark with sampleSets := s.bark.sampleSets ++ [({ cmd := none, tiles := tiles } : SampleSet)] } }

/-- One frame has been compared, or its partner's signature is late: the counts, the divergence flag and the outcome (R442, R444, R445). -/
def State.judge (s : State) (mism : Nat) (late : Bool) : State × Nat :=
  let dispute := late || mism > 0
  let m := max 1 (s.rdN Fld.twnDiverge_window_m)
  let n := max 1 (s.rdN Fld.twnDiverge_count_n)
  let ds := (dispute :: s.twin.disputes).take m
  let k := (ds.filter (fun d => d)).length
  let was := s.rdB Fld.twnStatus_diverged
  let outcome := if was || (dispute && decide (k ≥ n)) then 3 else if dispute then 2 else 1
  let s := { s with twin := { s.twin with disputes := ds, lateRun := if late then s.twin.lateRun + 1 else 0 } }
  let s := s.count Fld.twnCnt_count 1 0
  let s := if mism == 0 && !late then s.count Fld.twnCnt_count 1 1 else s
  let s := if dispute then s.count Fld.twnCnt_count 1 2 else s
  let s := if late then s.count Fld.twnCnt_count 1 5 else s
  let s := s.wrN Fld.twnStatus_window_disputes (satTo 8 k)
  let s := if k < n then s.wrB Fld.twnStatus_diverged false
    else if dispute && !was then (s.wrB Fld.twnStatus_diverged true).report { source := 0x1B, detail := BitVec.ofNat 64 k }
    else s
  (s, outcome)

/-- What a comparison adds to the counter record of the command it belongs to (R442, R518). -/
def State.twinCounts (s : State) (cmd : Nat) (mism boxes : Nat) (sent : DWord) : State :=
  let s := s.serve cmd twinUnit
  ((s.tally (some cmd) twinUnit 0x0900 mism).tally (some cmd) twinUnit 0x0901 boxes).tally (some cmd) twinUnit 0x0902 (s.time.uptime - sent).toNat

/-- The status of a compared frame (R17, R442). -/
def outcomeStatus (st : Half × Word) (outcome mism : Nat) : Half × Word :=
  if outcome ≥ 2 then combine st (stTwinDisagree, satDetail mism) else st

/-- The tiles that a signature exchange names (R448). -/
def State.exchangeTiles (s : State) (id : Nat) : List (Nat × Nat) := match s.cmd? id with | some c => tilesOf c.tileMasks | none => []

/-- The tolerances of the package of a frame, or the registers' for a signature exchange (R450). -/
def State.waitTolerances (s : State) (w : SigWait) : Tolerances :=
  match w.cmd, s.twin.frames.find? (fun f => f.set == w.set && f.window == w.window) with
  | none, some f => s.tolerances ((s.run? f.cmd).bind (fun r => s.package? r.part r.handle))
  | _, _ => s.regTolerances

/-- A signature exchange ends (R448): the partner's signature is stored, and the completion carries outcome and count. -/
def State.endExchange (s : State) (id outcome mism : Nat) (peer : Option (List Byte)) : State :=
  match s.cmd? id with
  | none => s
  | some c =>
    let s := s.updCmd id (fun c => { c with twinOutcome := outcome })
    let done (s : State) : State :=
      s.finish id (if outcome ≥ 2 then stTwinDisagree else stSuccess) (satDetail mism)
    match peer with
    | none => done s
    | some b =>
      match s.store c.origin (c.b 30 6) (slice b 0 10560) with
      | (s, some e) => s.failAcc id e
      | (s, none) => done s

/-- A frame of the pair has ended: a detach that no other frame's comparison holds is done (R446). -/
def State.detachBoundary (s : State) : State := if s.twinState == twDetaching && s.twin.frames == [] then s.endDetach else s

/-- A wait of this chip ends in a comparison or late (R441 to R445). Enough consecutive late frames make the chip SOLO, and then this
frame too has lost its partner. -/
def State.endWait (s : State) (w : SigWait) (mism boxes : Nat) (late : Bool) (peer : Option (List Byte)) : State :=
  let frame := if w.cmd.isSome then none else s.twin.frames.find? (fun f => f.set == w.set && f.window == w.window)
  let owner := w.cmd.or (frame.map (·.cmd))
  let s := match owner with | some id => s.twinCounts id mism boxes w.sentNs | none => s
  let (s, outcome) := s.judge mism late
  let tiles := match frame with
    | some f => tilesOfPackage f.tiles
    | none => (w.cmd.map s.exchangeTiles).getD []
  let s := if late || mism > 0 then s.startDispute w.window tiles else s
  if late && s.twin.lateRun ≥ max 1 (s.rdN Fld.twnTimeouts_lost_frames) then s.goSolo 4
  else
    let t := s.twin
    let s : State := { s with twin := { t with
      own := t.own.erase w,
      peer := t.peer.filter (fun x => !(x.set == w.set && x.window ≤ w.window)),
      judged := t.judged.filter (fun j => j.1 != w.set) ++ [(w.set, w.window)],
      frames := match frame with | some f => t.frames.erase f | none => t.frames } }
    let s := match frame with
      | some f => s.frameDone f.cmd (outcomeStatus (f.status, f.detail) outcome mism) outcome
      | none => s
    let s := match w.cmd with | some id => s.endExchange id outcome mism peer | none => s
    s.detachBoundary

/-- The two signatures of one frame meet: the lead's is list A (R441). -/
def State.compareWait (s : State) (w p : SigWait) : State :=
  let mine := signatureOf w.bytes
  let theirs := signatureOf p.bytes
  let t := s.waitTolerances w
  let m := if s.twinRole == 1 then mismatches t mine theirs else mismatches t theirs mine
  s.endWait w m theirs.boxes.length false (some p.bytes)

/-- The oldest wait of this chip whose partner's signature has arrived is compared. -/
def State.tryCompare (s : State) (set : Nat) (window : Int) : State :=
  match s.twin.own.find? (fun w => w.set == set && w.window == window), s.twin.peer.find? (fun w => w.set == set && w.window == window) with
  | some w, some p => s.compareWait w p
  | _, _ => s

/-- Whether frames are exchanged in the state of the twin unit. -/
def State.exchanges (s : State) : Bool := s.twinState == twPaired || s.twinState == twDetaching || s.twinState == twSync

/-- SIGNATURE: a partner's signature arrives; one of a frame that has been judged, or that breaks R438, is dropped (R441). -/
def execSignature (message : List Byte) (s : State) : Host.Outcome State Fault Refusal :=
  answer s true (s.onMessage 0x46 message (fun s =>
    let b := message.drop 1
    let g := signatureOf b
    let judged := s.twin.judged.any (fun j => j.1 == g.set && decide (g.window ≤ j.2))
    if !s.exchanges || judged || (signatureFault b).isSome then s
    else
      let w : SigWait := { set := g.set, window := g.window, bytes := b }
      let rest := s.twin.peer.filter (fun x => !(x.set == g.set && x.window == g.window))
      ({ s with twin := { s.twin with peer := rest ++ [w] } }).tryCompare g.set g.window))

/-- SIG_WAIT_TIMEOUT: sig_wait_us has passed since the oldest signature that waits was sent (R442). -/
def execSigWaitTimeout (s : State) : Host.Outcome State Fault Refusal :=
  answer s true (match s.twin.own with
    | w :: _ => if s.passed w.sentNs (1000 * max 1 (s.rdN Fld.twnTimeouts_sig_wait_us)) then s.endWait w 0 0 true none else s
    | [] => s)

/-- A signature of this chip is sent, and waits for the partner's (R437, R441). -/
def State.sendSignature (s : State) (set : Nat) (window : Int) (bytes : List Byte) (cmd : Option Nat) : State :=
  let w : SigWait := { set := set, window := window, bytes := bytes, cmd := cmd, sentNs := s.time.uptime }
  let s := s.sendTwin ([0x46] ++ bytes)
  ({ s with twin := { s.twin with own := s.twin.own ++ [w] } }).tryCompare set window

/-- The lead sends the history buffer of its frame (R436). -/
def State.copyHistory (s : State) (c : Cmd) (r : Run) (p : Package) (h : HistoryFacts) : State :=
  match (r.buffer h r.window.k).bind s.map? with
  | none => s
  | some m => match s.readRows c.origin m with
    | (s, some b) => s.emit (.historyCopy r.set p.digest r.window.k b)
    | (s, none) => s

/-- A chip in SYNC is PAIRED from now on. -/
def State.joinPair (s : State) : State := if s.twinState == twSync then s.enterPaired else s

/-- The lead copies the history buffer of its frame k0 − 1 of each paired stream set to the shadow, where that frame's outputs are valid;
with the first of these frames it is PAIRED (R436). -/
def State.joinFrame (s : State) (c : Cmd) (r : Run) (p : Package) (valid : Bool) : State :=
  if (s.twinState != twSync && s.twinState != twPaired) || !s.twin.syncDone || r.window.k + 1 < s.k0 then s
  else if r.window.k + 1 == s.k0 then
    if s.twinRole == 1 then
      (match valid, p.history with | true, some h => s.copyHistory c r p h | _, _ => s).joinPair
    else s
  else s.joinPair

/-- Whether a frame of a RUN is compared (R436, R446). -/
def State.isCompared (s : State) (r : Run) : Bool :=
  (s.twinState == twPaired || s.twinState == twDetaching) && s.twin.list.any (fun p => p.1 == r.set) && decide (s.k0 ≤ r.window.k)

/-- Whether a stream set was in the list of the last accepted TWIN_PAIR, and the chip runs it alone (R429). -/
def State.runsAlone (s : State) (r : Run) : Bool :=
  let st := s.twinState
  s.twin.lastList.any (fun p => p.1 == r.set) && (st == twSolo || ((st == twHandshake || st == twSync) && s.twin.wasSolo))

/-- Whether the shadow's frame holds its warp (R436): it is frame k0 of a paired stream set, and the copy of the lead's history buffer is
still to come (none has come for the set). Whether the lead's frame before it was valid, so that one comes, this chip's state does not say. -/
def State.awaitsCopy (s : State) (r : Run) (p : Package) : State × Bool :=
  if (s.twinState == twSync || s.twinState == twPaired) && s.twinRole == 2 && s.twin.syncDone
      && s.twin.list.any (fun x => x.1 == r.set) && !s.twin.copied.contains r.set && r.window.k == s.k0 && p.history.isSome then
    let (k, s) := s.choose 2
    (s, k == 1)
  else (s, false)

/-- RUN_FRAME_COMPLETE: a frame's outputs are visible; what it produced, and the tiles that ran it, are the environment's (R37, R116, R185,
R329, R429, R436, R437): nothing ends before the frame's points are in its voxel table, nor with a status that the device does not have
(R17, R18). A paired frame's signature is sent, and its record waits for the comparison; any other frame ends here. -/
def execRunFrameComplete (cmd : Nat) (facts : FrameFacts) (s : State) : Host.Outcome State Fault Refusal :=
  answer s true (match s.run? cmd, s.cmd? cmd with
    | some r, some c =>
      if !r.frameActive || c.phase != .running || s.twin.frames.any (fun f => f.cmd == cmd) then s
      else if !frameStatusOk facts.status || !s.pointsIn r || !r.nms.all (fun o => o.keeps facts.boxes) then s
      else match s.package? r.part r.handle with
        | none => s
        | some p =>
          let (s, holds) := s.awaitsCopy r p
          if holds then s
          else
          let (s, st) := s.closeFrame c r p facts
          let valid := !isFailure st.1
          let alone := s.runsAlone r
          let paired := s.twin.list.any (fun x => x.1 == r.set)
          let s := if paired then s.joinFrame c r p valid else s
          if s.isCompared r then
            let (s, g) := s.buildSignature c r p valid facts.boxes facts.map
            let f : FrameWait := { cmd := cmd, set := r.set, window := r.window.k, status := st.1, detail := st.2, tiles := facts.tiles }
            ({ s with twin := { s.twin with frames := s.twin.frames ++ [f] } }).sendSignature r.set r.window.k g.bytes none
          else if alone then
            s.frameDone cmd (combine st (stTwinAlone, BitVec.ofNat 32 (s.rdN Fld.twnStatus_lost_reason))) 4
          else
            let s := s.frameDone cmd st 0
            if paired then s.detachBoundary else s
    | _, _ => s)

/-- TWN_SIG_EXCHANGE (R448): the caller's signature is read, checked and sent. -/
def execTwnSigExchange (cmd : Nat) (s : State) : Host.Outcome State Fault Refusal :=
  answer s true (s.onStart cmd 0x9 0x01 (fun s c =>
    if s.twinState != twPaired then s.finish cmd stTwinState (BitVec.ofNat 32 s.twinState)
    else match s.load c.origin (c.b 24 6) 10560 with
      | (s, .error e) => s.failAcc cmd e
      | (s, .ok b) =>
        match signatureFault b with
        | some off => s.finish cmd stTwinSigFormat (BitVec.ofNat 32 off)
        | none =>
          let g := signatureOf b
          s.sendSignature g.set g.window g.bytes (some cmd)))

/-- TWN_COPY (R448): local bytes go to the partner, which checks them against the submitting partition. -/
def execTwnCopy (cmd : Nat) (s : State) : Host.Outcome State Fault Refusal :=
  answer s true (s.onStart cmd 0x9 0x02 (fun s c =>
    if s.twinState != twPaired then s.finish cmd stTwinState (BitVec.ofNat 32 s.twinState)
    else match s.load c.origin (c.b 24 6) (c.b 36 4) with
      | (s, .error e) => s.failAcc cmd e
      | (s, .ok b) => s.finishStore c ((1 - s.chipId) * 2 ^ 48 + c.b 30 6) b stSuccess))

end Sys2Proof.Machine
end

