-- ==== Sys2Proof/Machine/FabricLinks.lean ====
section
/-! DEFINITION. The links of the fabric (R396 to R403, R407, R410, R411, R415, R419): flits, training, lanes, and the end of a link's
service. -/
namespace Sys2Proof.Machine

/-- States of a link (R427). -/
def lkOff : Nat := 0
def lkTraining : Nat := 1
def lkUp : Nat := 2
def lkDown : Nat := 3
def lkMismatch : Nat := 4
def lkWiring : Nat := 5
def lkService : Nat := 6

/-- The state of a link. -/
def State.linkState (s : State) (l : Nat) : Nat := s.rdN Fld.wblLinkStatus_state l

/-- A link beyond its registers, and a change to it. -/
def State.link (s : State) (l : Nat) : Link := nth {} s.fabric.links l
def State.updLink (s : State) (l : Nat) (f : Link → Link) : State :=
  { s with fabric := { s.fabric with links := updAt s.fabric.links l f } }

/-- A count of a link goes up (R427): 0 flits_tx, 1 flits_rx, 2 fec_corrected, 3 crc_replays, 4 discards. -/
def State.linkCount (s : State) (l i n : Nat) : State := s.count Fld.wblLinkCnt_count n (5 * l + i)

/-! Packets as bytes (R404). -/

/-- Units that a packet takes. -/
def Packet.units (p : Packet) : Nat := ceilDiv (16 + p.payload.length) 16

/-- The virtual channel of a packet (R407). -/
def Packet.vc (p : Packet) : Nat := p.cls * 2 + p.dl

/-- The bytes of a packet, to a whole number of units. -/
def Packet.bytes (p : Packet) : List Byte :=
  let h := natToBytes 2 p.dst ++ natToBytes 2 p.src ++ natToBytes 1 (p.dl + 2 * p.cls + 8 * p.type)
    ++ natToBytes 1 (p.hops + 64 * p.epoch) ++ natToBytes 2 (p.payload.length + 1024 * p.part) ++ natToBytes 1 p.crit ++ [0]
    ++ natToBytes 2 p.tag ++ natToBytes 2 p.stream ++ [0, 0]
  slice (h ++ p.payload) 0 (16 * p.units)

/-- The packet whose header bytes begin with. -/
def packetOf (b : List Byte) : Packet :=
  let c := leAt b 4 1
  let h := leAt b 5 1
  let w := leAt b 6 2
  { dst := leAt b 0 2, src := leAt b 2 2, cls := getBits c 1 2, dl := getBits c 0 1, type := getBits c 3 5, hops := getBits h 0 6,
    epoch := getBits h 6 1, part := getBits w 10 6, crit := getBits (leAt b 8 1) 0 2, tag := leAt b 10 2, stream := leAt b 12 2,
    payload := slice b 16 (getBits w 0 10) }

/-- Packets are taken off the front of received units: what is left is the start of a packet that goes on in the next flit. A unit of
zeros where a header would start ends the data. -/
def takePackets : Nat → List Byte → List Packet × List Byte
  | 0, b => ([], b)
  | k + 1, b =>
    if b.length < 16 ∨ (b.take 16).all (fun x => x == 0) then ([], [])
    else
      let p := packetOf b
      if b.length < 16 * p.units then ([], b)
      else
        let (ps, rest) := takePackets k (b.drop (16 * p.units))
        (p :: ps, rest)

/-! Sending. -/

/-- The virtual channels that units are owed to the peer on. -/
def Link.owing (k : Link) : List Nat := (List.range 8).filter (fun v => nth 0 k.owed v != 0)

/-- The check bytes of a flit's bytes 0 to 231: 12 of code 0, then 12 of code 1 (R397). -/
def fecBytes (b : List Byte) : List Byte := slice (Config.fecCheck 0 b) 0 12 ++ slice (Config.fecCheck 1 b) 0 12

/-- A flit of a link goes out (R397): its header acknowledges what has been received and returns credits. -/
def State.sendFlit (s : State) (l seq : Nat) (units : List Byte) : State :=
  let k := s.link l
  let (i, s) := s.choose (max 1 k.owing.length)
  let v := nth 0 k.owing i
  let n := min 31 (nth 0 k.owed v)
  let s := s.updLink l (fun k => { k with owed := updAt k.owed v (fun x => x - n) })
  let w := seq + 4096 * ((k.rxSeq + 4095) % 4096) + 2 ^ 24 * v + 2 ^ 27 * n
  let b := natToBytes 4 w ++ slice units 0 224
  let b := b ++ natToBytes 4 (crc32c b)
  ((s.emit (.packet l (b ++ fecBytes b))).worked (unitId 9 0 l)).linkCount l 0 1

/-- The flits of a packet: 14 units each, the last with zeros. -/
def Packet.flits (p : Packet) : List (List Byte) :=
  (List.range (ceilDiv p.units 14)).map (fun i => slice p.bytes (224 * i) 224)

/-- The bytes in a partition's bucket at a link output now (R478): it fills at fab_rate bytes a nanosecond, up to fab_burst KiB. -/
def State.tokens (s : State) (part l : Nat) : Int :=
  let full : Int := 1024 * s.rdN Fld.brkPartCfg_fab_burst part
  match s.fabric.buckets.find? (fun b => b.part == part && b.link == l) with
  | none => full
  | some b => min full (b.bytes + s.rdN Fld.brkPartCfg_fab_rate part * (s.time.uptime - b.at_).toNat)

/-- Whether a partition may send at a link output (R478): it has no limit there, or its bucket is not empty. DESIGN CHOICE: a bucket is
empty while it owes bytes, so that a packet goes whole. -/
def State.bucketOpen (s : State) (part l : Nat) : Bool := s.rdN Fld.brkPartCfg_fab_rate part == 0 || decide (0 ≤ s.tokens part l)

/-- A packet takes its bytes from its partition's bucket. -/
def State.takeTokens (s : State) (l : Nat) (p : Packet) : State :=
  if s.rdN Fld.brkPartCfg_fab_rate p.part == 0 then s
  else
    let b : Bucket := { part := p.part, link := l, bytes := s.tokens p.part l - (16 * p.units : Nat), at_ := s.time.uptime }
    { s with fabric := { s.fabric with buckets := s.fabric.buckets.filter (fun x => !(x.part == p.part && x.link == l)) ++ [b] } }

/-- Whether a link can take a packet now: it is UP, the peer's channel has room for the whole of it, and so has the replay buffer, and its
partition has tokens (R398, R410, R478). -/
def State.canSend (s : State) (l : Nat) (p : Packet) : Bool :=
  s.linkState l == lkUp && s.bucketOpen p.part l && decide (p.units ≤ nth 0 (s.link l).credits p.vc)
    && decide ((s.link l).replay.length + p.flits.length ≤ 64)

/-- A packet goes out on a link. -/
def State.sendPacket (s : State) (l : Nat) (p : Packet) : State :=
  let s := (s.takeTokens l p).updLink l (fun k => { k with
    credits := updAt k.credits p.vc (fun x => x - p.units), ackAt := if k.replay.isEmpty then s.time.uptime else k.ackAt })
  let fs := p.flits
  (List.range fs.length).foldl (fun s i =>
    let seq := (s.link l).txSeq
    let units := nth [] fs i
    let f : ReplayFlit := { seq := seq, units := units, packet := p, last := i + 1 == fs.length }
    (s.updLink l (fun k => { k with txSeq := (k.txSeq + 1) % 4096, replay := k.replay ++ [f] })).sendFlit l seq units) s

/-! Requests that end. -/

/-- LINK_LOST, FABRIC_TIMEOUT, ROUTE_LOOP, ROUTE_CYCLIC, ROUTE_STATE, ALIAS_FULL, NOT_ROOT, LINK_STATE (R426). -/
def stLinkLost : Half := 0x0841
def stFabricTimeout : Half := 0x0842
def stRouteLoop : Half := 0x0843
def stRouteCyclic : Half := 0x0845
def stRouteState : Half := 0x0846
def stAliasFull : Half := 0x0847
def stNotRoot : Half := 0x0848
def stLinkState : Half := 0x0849

/-- The address that a request was about. -/
def ReqKind.address : ReqKind → Nat
  | .piece a off => gLocal a + off
  | .load a _ _ _ => a
  | .store a => a
  | .atomic a _ => a
  | _ => 0

/-- The detail of a failure that a target answered: the address, or for OWNERSHIP of a Knot the byte of the descriptor that names it (R119); of a fabric failure the chip (R426). -/
def Request.detail (r : Request) (st : Half) : Word :=
  if 0x0840 ≤ st.toNat ∧ st.toNat ≤ 0x0849 then BitVec.ofNat 32 r.dst
  else match r.kind with
    | .knot _ => if st = stOwnership then 18 else 0
    | k => addrDetail k.address

/-- The thread that a request belongs to. -/
def State.ownerThread (s : State) (stem tile slot cmd : Nat) : Option Thread :=
  s.compute.threads.find? (fun t => t.stem == stem && t.tile == tile && t.slot == slot && t.cmd == cmd)

/-- A request is over. -/
def State.dropRequest (s : State) (r : Request) : State :=
  ({ s with fabric := { s.fabric with requests := s.fabric.requests.filter (fun x => x.tag != r.tag) } }).pumpRequests

/-- A command ends because a request of it failed; one that has failed already keeps its status (R418). -/
def State.ownerFails (s : State) (id : Nat) (st : Half) (d : Word) : State :=
  match s.cmd? id with
  | some c =>
    if c.phase == .finished && isFailure c.status then s
    else if c.killed then s
    else (s.dropWork id).finish id st d
  | none => s

/-- A request fails (R405, R415, R418). -/
def State.requestFails (s : State) (r : Request) (st : Half) (d : Word) : State :=
  let s := s.dropRequest r
  match r.kind, r.owner with
  | .fetch id, _ => s.answerFetch id (.failed st d)
  | .put, .command id => s.putReply id (.failed st d)
  | _, .thread cmd stem tile slot =>
    (match s.ownerThread stem tile slot cmd with
     | none => s
     | some t =>
       match r.kind with
       | .knot n => if st = stOwnership then s.threadFails t stTwigKnot (BitVec.ofNat 32 n) else s.threadFails t st d
       | k => s.accessFails t k.address (st, d))
  | _, .command id => s.ownerFails id st d
  | _, .firmware => s

/-- The request that an answer with a tag belongs to. -/
def State.requestOf (s : State) (tag : Nat) : Option Request := s.fabric.requests.find? (fun r => r.tag == tag)

/-- A failure that an answer brings: the link of a chip that discarded a packet is not in its answer (R415). -/
def State.answerFails (s : State) (r : Request) (src : Nat) (st : Half) : State :=
  if st = stLinkLost then
    let (l, s) := s.choose 6
    s.requestFails r st (BitVec.ofNat 32 (src * 8 + l))
  else if st = stRouteLoop then s.requestFails r st (BitVec.ofNat 32 src)
  else s.requestFails r st (r.detail st)

/-! Discards (R409, R415). -/

/-- A packet that this chip cannot send on is discarded: whoever waits for it hears of it. -/
def State.refuse (s : State) (p : Packet) (st : Half) (d : Word) : State :=
  if p.cls == 3 then s
  else
    let asker := if p.cls == 1 then p.dst else p.src
    if asker == s.chipId then
      match s.requestOf p.tag with
      | some r => if p.src == s.chipId || p.cls == 1 then s.requestFails r st d else s
      | none => s
    else s.respond asker p.tag p.part p.crit p.stream 0x09 (ackPayload st 0)

/-- A packet is discarded at a link (R415). -/
def State.discard (s : State) (l : Nat) (p : Packet) : State :=
  (s.linkCount l 4 1).refuse p stLinkLost (BitVec.ofNat 32 (s.chipId * 8 + l))

/-- A packet for a destination that cannot be reached any more is discarded, as for a DOWN link (R419). -/
def State.discardUnreachable (s : State) (p : Packet) : State :=
  let (l, s) := s.choose 6
  s.refuse p stLinkLost (BitVec.ofNat 32 (s.chipId * 8 + l))

/-- Units of an input buffer are free again: they are owed to the peer (R410). -/
def State.oweUnits (s : State) (l vc n : Nat) : State :=
  if l < 6 then s.updLink l (fun k => { k with owed := updAt k.owed vc (fun x => x + n) }) else s

/-- A packet leaves an input buffer, and with it the units that it took (R410); those that copies of a multicast packet hold together, with
the last of them (R413). -/
def State.leaveInbox (s : State) (x : InPacket) : State :=
  let s := { s with fabric := { s.fabric with inbox := s.fabric.inbox.erase x } }
  match x.held with
  | none => s.oweUnits x.link x.packet.vc x.packet.units
  | some h => if s.fabric.inbox.any (fun y => y.held == some h) then s else s.oweUnits h.2.1 h.2.2.1 h.2.2.2

/-! The end of a link's service. -/

/-- A route change is abandoned: the chip injects with the old epoch (R419). -/
def State.abandonChange (s : State) : State :=
  if s.rdB Fld.wblFabricStatus_change_active then
    (s.wrB Fld.wblFabricStatus_change_active false).wrN Fld.wblFabricStatus_epoch (1 - s.epoch)
  else s

/-- The fabric root: the acting root while one is in force, and else the chip whose fabric_role is 1 (R422). -/
def State.rootChip (s : State) : Nat :=
  if s.fabric.acting then s.rdN Fld.wblFabricStatus_acting_root
  else if s.rdN Fld.timCtrl_fabric_role == 1 then s.chipId else Config.fabricRoot

/-- Whether no link that is UP leads on along the route to the fabric root (R422). -/
def State.rootCut (s : State) : Bool :=
  match s.nextHop s.epoch s.rootChip with
  | .here => false
  | .link l => s.linkState l != lkUp
  | .unreachable => true

/-- A follower of the fabric whose upstream path is cut has lost it (R135). A twin's shadow loses its path with its link. -/
def State.checkUpstream (s : State) : State :=
  if s.timeRole == 2 && s.twinLink.isNone && s.rootCut then s.upstreamLost else s

/-- The root's firmware hears that a link is DOWN while a route change may be in progress: it is abandoned on every chip (R419). -/
def State.abandonAll (s : State) (changing : Bool) : State :=
  if changing then (s.reachable.filter (fun c => c != s.chipId)).foldl (fun s c => s.sendMgmt .abandon c) s.abandonChange else s

/-- The fabric root hears of a link that is DOWN (R415); in a twin pair there is none beside the partner. -/
def State.tellRoot (s : State) (l : Nat) (changing : Bool) : State :=
  if s.twinLink.isSome then s
  else if s.rootChip == s.chipId then s.abandonAll changing
  else s.sendMgmt (.linkDown s.chipId l) s.rootChip

/-- A link goes DOWN (R135, R415, R419, R445): Bark and the fabric root hear of it, its replay buffer is discarded, a route change is
abandoned, and the twin unit and the time unit lose what came by it. -/
def State.linkDown (s : State) (l : Nat) : State :=
  if s.linkState l == lkDown then s
  else
    let lost := ((s.link l).replay.filter (fun f => f.last)).map (fun f => f.packet)
    let s := (s.wrN Fld.wblLinkStatus_state lkDown l).report { source := 0x19, logical := l, physical := l }
    let s := s.updLink l (fun k => { k with replay := [], partialRx := [] })
    let s := lost.foldl (fun s p => s.discard l p) s
    let changing := s.rdB Fld.wblFabricStatus_change_active
    let s := s.checkUpstream.abandonChange.tellRoot l changing
    if s.rdN Fld.wblLinkCfg_role l == 2 then s.twinLinkDown else s

/-- 256 flit times of 256 bytes at 896 Gb/s (R397, R398), in whole ns. -/
def replayNs : Nat := 586

/-- REPLAY_TIMEOUT: ack has not advanced for 256 flit times (R398). A flit that has been resent 8 times ends the link's service; else the
sender resends from the first unacknowledged flit. -/
def execReplayTimeout (link : Nat) (s : State) : Host.Outcome State Fault Refusal :=
  answer s (isLink link) (
    let k := s.link link
    if s.linkState link != lkUp || k.replay.isEmpty || !s.passed k.ackAt replayNs then s
    else if k.replay.any (fun f => decide (f.resends ≥ 8)) then s.linkDown link
    else
      let s := s.updLink link (fun k => { k with
        replay := k.replay.map (fun f => { f with resends := f.resends + 1 }), ackAt := s.time.uptime })
      let s := k.replay.foldl (fun s f => s.sendFlit link f.seq f.units) s
      s.linkCount link 3 k.replay.length)

/-- The interval of heartbeats (R415). -/
def heartbeatNs : Nat := 1000000

/-- HEARTBEAT_MISS: three heartbeats of a neighbour are missing (R415). -/
def execHeartbeatMiss (link : Nat) (s : State) : Host.Outcome State Fault Refusal :=
  answer s (isLink link)
    (if s.linkState link == lkUp && s.passed (s.link link).heardAt (3 * heartbeatNs) then s.linkDown link else s)

/-- The heartbeat for a link's neighbour (R405, R415). -/
def State.heartbeat (s : State) (l : Nat) : Packet :=
  { dst := s.rdN Fld.wblLinkStatus_nbr_chip l, src := s.chipId, cls := 3, type := 0x18, hops := 1, epoch := s.epoch,
    payload := Config.firmwareBytes .heartbeat }

/-- HEARTBEAT_TX: a heartbeat goes out on every UP link, once a millisecond (R415). -/
def execHeartbeatTx (s : State) : Host.Outcome State Fault Refusal :=
  answer s true (
    if !s.duePeriod s.fabric.beatAt heartbeatNs then s
    else
      let s := { s with fabric := { s.fabric with beatAt := some s.time.uptime } }
      (List.range 6).foldl (fun s l => if s.canSend l (s.heartbeat l) then s.sendPacket l (s.heartbeat l) else s) s)

/-- The spare lane takes the place of a lane: it is recorded, logged and reported as a lane spared and as a graft (R399, R469). -/
def State.spareLane (s : State) (l lane : Nat) : State :=
  let s := s.wrN Fld.wblLinkStatus_spared_lane lane l
  let s := (s.logUnit 1 0x18 0 l 8).logUnit 2 0x18 0 l lane
  (s.report { source := 0x18, logical := l, physical := lane }).report { source := 0x13, logical := l, physical := lane }

/-- Bark has decided that a lane is failing; a second one on a link ends its service (R399). -/
def State.switchLane (s : State) (link lane : Nat) : State :=
  if s.linkState link != lkUp then s
  else if s.rdN Fld.wblLinkStatus_spared_lane link == 0xF then s.spareLane link lane
  else if s.rdN Fld.wblLinkStatus_spared_lane link == lane then s
  else s.linkDown link

/-- LANE_SPARE_SWITCH (R399). -/
def execLaneSpareSwitch (link lane : Nat) (s : State) : Host.Outcome State Fault Refusal :=
  answer s (isLink link && decide (lane < 9)) (s.switchLane link lane)

/-! Training. -/

/-- The credit limits of a link per class: request, response, multicast, management (R427). -/
def State.creditLimits (s : State) (l : Nat) : List Nat :=
  [s.rdN Fld.wblLinkCredit_req l, s.rdN Fld.wblLinkCredit_resp l, s.rdN Fld.wblLinkCredit_mcast l, s.rdN Fld.wblLinkCredit_mgmt l]

/-- Whether credit limits meet R411. -/
def creditsOk (cs : List Nat) : Bool := cs.all (fun c => decide (34 ≤ c)) && decide (2 * cs.sum ≤ 1024)

/-- The dimensions as the two ends exchange them. -/
def State.dimsWord (s : State) : Nat :=
  s.rdN Fld.wblFabricCfg_dx_m1 + 32 * s.rdN Fld.wblFabricCfg_dy_m1 + 1024 * s.rdN Fld.wblFabricCfg_dz_m1

/-- The chip that must stand at the other end of a fabric link (R402): none in a dimension of size 1. -/
def State.wiredChip (s : State) (l : Nat) : Option Nat :=
  let a := l / 2
  let d := s.dim a
  let x := coord s.chipId a
  let y := if l % 2 = 0 then (x + 1) % d else (x + d - 1) % d
  if d = 1 then none else some (putBits s.chipId (5 * a) 5 y)

/-- Whether the neighbour is the one that R402 and R403 require: a twin pair has no other link, and a torus no twin link. -/
def State.wiredRight (s : State) (l : Nat) (f : TrainFacts) : Bool :=
  if s.rdN Fld.wblLinkCfg_role l == 2 then
    s.dimsWord == 0 && decide (s.chipId ≤ 1) && f.chip == 1 - s.chipId
      && (List.range 6).all (fun k => k == l || s.rdN Fld.wblLinkCfg_role k == 0)
  else s.twinLink.isNone && s.wiredChip l == some f.chip && f.link == (if l % 2 = 0 then l + 1 else l - 1)

/-- The state that training ends in (R400, R411). -/
def State.trainingOutcome (s : State) (l : Nat) (f : TrainFacts) : Nat :=
  if f.dims != s.dimsWord || f.standby != s.rdB Fld.wblFabricCfg_standby || f.role != s.rdN Fld.wblLinkCfg_role l
      || f.digest != slice (nth [] s.security.measure 1) 0 64 || !creditsOk (s.creditLimits l) then lkMismatch
  else if !s.wiredRight l f then lkWiring
  else lkUp

/-- A link comes UP: both ends start afresh, with the whole of the peer's buffers free (R410). -/
def State.linkUp (s : State) (l : Nat) (f : TrainFacts) : State :=
  let cs := (s.creditLimits l).flatMap (fun c => [c, c])
  let s := ((s.wrN Fld.wblLinkStatus_state lkUp l).wrN Fld.wblLinkStatus_nbr_chip f.chip l).wrN Fld.wblLinkStatus_nbr_link f.link l
  let s := s.updLink l (fun k => { credits := cs, ackAt := s.time.uptime, heardAt := s.time.uptime, serviceCmd := k.serviceCmd })
  if s.rdN Fld.wblLinkCfg_role l == 2 then s.twinLinkUp else s

/-- LINK_TRAINING_DONE: the lanes have equalised and the ends have exchanged what R400 names. A link leaves TRAINING only under the
set-up lock and with a fabric configuration that R420 allows. -/
def execLinkTrainingDone (link : Nat) (facts : TrainFacts) (s : State) : Host.Outcome State Fault Refusal :=
  answer s (isLink link) (
    if s.linkState link != lkTraining || !s.locked || s.rdB Fld.wblFabricStatus_cfg_error then s
    else
      let o := s.trainingOutcome link facts
      if o == lkUp then s.linkUp link facts
      else (s.wrN Fld.wblLinkStatus_state o link).updLink link (fun k => { k with failedAt := s.time.uptime }))

/-- LINK_TRAINING_RETRY: a second has passed in MISMATCH or WIRING (R400). -/
def execLinkTrainingRetry (link : Nat) (s : State) : Host.Outcome State Fault Refusal :=
  answer s (isLink link)
    (if (s.linkState link == lkMismatch || s.linkState link == lkWiring) && s.passed (s.link link).failedAt 1000000000 then s.wrN Fld.wblLinkStatus_state lkTraining link else s)

/-! Receiving. -/

/-- The code of a flit's byte (R397): 0 for the even bytes and its 12 check bytes, 1 for the odd ones. -/
def fecCode (pos : Nat) : Nat := if pos < 232 then pos % 2 else if pos < 244 then 0 else 1

/-- Positions with an error in a code. -/
def FlitIn.wrong (f : FlitIn) (code : Nat) : List (Nat × Byte) :=
  f.errors.filter (fun e => e.2 != 0 && decide (e.1 < 256) && fecCode e.1 == code)

/-- The bytes 0 to 231 of a flit after error correction: a code corrects up to 6 byte errors, and leaves more as they are (R397). -/
def FlitIn.corrected (f : FlitIn) : List Byte :=
  let bad := [0, 1].flatMap (fun c => if (f.wrong c).length ≤ 6 then [] else f.wrong c)
  bad.foldl (fun b e => updAt b e.1 (fun x => x ^^^ e.2)) (slice f.sent 0 232)

/-- Corrections that a flit took. -/
def FlitIn.corrections (f : FlitIn) : Nat := ([0, 1].filter (fun c => (f.wrong c) != [] && decide ((f.wrong c).length ≤ 6))).length

/-- An acknowledgement drops flits from a replay buffer up to the one it names. -/
def ackReplay (fs : List ReplayFlit) (ack : Nat) : List ReplayFlit :=
  if fs.any (fun f => f.seq == ack) then (fs.dropWhile (fun f => f.seq != ack)).drop 1 else fs

/-- FLIT_RX: a flit arrives (R397, R398, R410): corrected, checked, and taken where it is the next in order. Its packets join the input
buffers. -/
def execFlitRx (link : Nat) (flit : FlitIn) (s : State) : Host.Outcome State Fault Refusal :=
  answer s (isLink link) (
    if s.linkState link != lkUp then s
    else
      let b := flit.corrected
      let s := (s.linkCount link 1 1).linkCount link 2 flit.corrections
      let w := leAt b 0 4
      if crc32c (b.take 228) != leAt b 228 4 || getBits w 0 12 != (s.link link).rxSeq then s
      else
        let k := s.link link
        let (ps, rest) := takePackets 64 (k.partialRx ++ (b.drop 4).take 224)
        let beat := ps.any (fun p => p.type == 0x18 && Config.firmwareMsg p.payload == .heartbeat)
        let kept := ackReplay k.replay (getBits w 12 12)
        let s := (s.worked (unitId 9 0 link)).updLink link (fun k => { k with
          rxSeq := (k.rxSeq + 1) % 4096
          replay := kept
          ackAt := if kept.length < k.replay.length then s.time.uptime else k.ackAt
          heardAt := if beat then s.time.uptime else k.heardAt
          credits := updAt k.credits (getBits w 24 3) (fun n => n + getBits w 27 5)
          partialRx := rest })
        { s with fabric := { s.fabric with
            inbox := s.fabric.inbox ++ ps.map (fun p => ({ link := link, packet := p } : InPacket)) } })

end Sys2Proof.Machine
end

