-- ==== Sys2Proof/Machine/Spares.lean ====
section
/-! DEFINITION. Spare positions and spare engines, grafts and lost units (R57, R307, R360, R443, R465, R467 to R470), and the wear monitors. -/
namespace Sys2Proof.Machine

/-! Positions. -/

/-- The physical position of a logical tile (R25): its own number until a move. -/
def State.posOf (s : State) (stem tile : Nat) : Nat :=
  ((s.bark.placed.find? (fun p => p.1 == stem && p.2.1 == tile)).map (fun p => p.2.2)).getD tile

/-- The logical tile moves to a position. -/
def State.standAt (s : State) (stem tile pos : Nat) : State :=
  { s with bark := { s.bark with
      placed := s.bark.placed.filter (fun p => !(p.1 == stem && p.2.1 == tile)) ++ (if pos == tile then [] else [(stem, tile, pos)]) } }

/-- Whether a position is retired. -/
def State.posRetired (s : State) (stem pos : Nat) : Bool := s.bark.retiredPos.contains ⟨stem, pos⟩

/-- Positions of a Stem that hold no tile in service. -/
def State.sparePositions (s : State) (stem : Nat) : List Nat :=
  (List.range 68).filter (fun p => !s.posRetired stem p
    && !(List.range 64).any (fun t => !s.tileLost stem t && s.posOf stem t == p))

/-- Spare positions that no Core Sample is using (R462). -/
def State.freePositions (s : State) (stem : Nat) : List Nat :=
  (s.sparePositions stem).filter (fun p =>
    !s.bark.samples.any (fun x => x.stem == stem && x.kind == .rotation && x.spare == p))

/-- SAP_STEMn_STATUS.spare_positions follows the positions (R462, R465). -/
def State.noteSpares (s : State) (stem : Nat) : State :=
  s.wrN Fld.sapStemStatus_spare_positions (s.sparePositions stem).length stem

/-- A position is retired for good. -/
def State.retirePos (s : State) (stem pos : Nat) : State :=
  (if s.posRetired stem pos then s
   else { s with bark := { s.bark with retiredPos := s.bark.retiredPos ++ [⟨stem, pos⟩] } }).noteSpares stem

/-! The twin and the requested sets (R443, R466, R483). -/

/-- Sets whose tiles have all been sampled end: a command with the number of failures or with UNIT_LOST, a dispute with its verdict. -/
def State.settleSets (s : State) : State :=
  let excess := s.bark.sampleSets.filter (fun x => x.tiles.isEmpty)
  let s := { s with bark := { s.bark with sampleSets := s.bark.sampleSets.filter (fun x => !x.tiles.isEmpty) } }
  excess.foldl (fun s x =>
    match x.cmd with
    | none => s.giveVerdict (verdictOf x)
    | some id =>
      match x.lost with
      | some t => s.finish id stUnitLost (BitVec.ofNat 32 (t.1 * 256 + t.2))
      | none => s.finish id stSuccess (BitVec.ofNat 32 x.failures)) s

/-- A tile leaves every set that names it. -/
def State.leaveSets (s : State) (stem tile : Nat) (failed lost : Bool) : State :=
  let names (x : SampleSet) : Bool := x.tiles.contains (stem, tile)
  ({ s with bark := { s.bark with
      sampleSets := updWhere s.bark.sampleSets names (fun x => { x with
        tiles := x.tiles.erase (stem, tile)
        failures := if failed then x.failures + 1 else x.failures
        lost := if lost then x.lost.or (some (stem, tile)) else x.lost }) } }).settleSets

/-! Lost units (R470). -/

/-- What the detail of a unit's report and log record holds: its unit ID (R512). -/
def unitDetail (unit : Nat) : DWord := BitVec.ofNat 64 unit

/-- Commands end because a unit that they need is lost. -/
def State.failLost (s : State) (ids : List Nat) (stem num : Nat) : State :=
  ids.foldl (fun s id => match s.cmd? id with
    | some c => if c.phase == .running then (s.dropWork id).finish id stUnitLost (BitVec.ofNat 32 (stem * 256 + num)) else s
    | none => s) s

/-- Commands in flight that cannot go on without a tile: their items, or the threads of their program, are there. -/
def State.needTile (s : State) (stem tile : Nat) : List Nat :=
  let items := s.compute.items.filter (fun w => !w.done && w.stem == stem
    && (s.itemTiles w).contains tile && (s.itemTiles w).all (fun t => s.tileLost stem t))
  let progs := s.compute.programs.filter (fun p => (nth 0 p.tiles stem).testBit tile)
  (items.map (·.cmd) ++ progs.map (·.cmd)).eraseDups

/-- A logical tile is lost: it is removed from service and reported under the given source (R465, R470). -/
def State.loseTile (s : State) (stem tile source : Nat) : State :=
  if s.tileLost stem tile then s
  else
    let pos := s.posOf stem tile
    let s := { s with bark := { s.bark with
        lostTiles := s.bark.lostTiles ++ [(stem, tile)]
        graftDue := s.bark.graftDue.erase (.tile stem tile)
        samples := s.bark.samples.filter (fun x => !(x.stem == stem && x.tile == tile)) } }
    let s := s.retirePos stem pos
    let d := unitDetail (unitId 5 stem tile)
    let s := s.logUnit 3 source stem tile pos d
    let s := s.report { source := source, stem := stem, logical := tile, physical := pos, detail := d }
    (s.failLost (s.needTile stem tile) stem tile).leaveSets stem tile false true

/-! Grafts of tiles (R461, R469). -/

/-- Programs with threads on a tile that are not suspended there (R307). -/
def State.threadsOn (s : State) (stem tile : Nat) : Bool :=
  s.compute.programs.any (fun p => p.started && (nth 0 p.tiles stem).testBit tile && !p.suspended.contains (stem, tile)
    && s.compute.threads.any (fun t => t.cmd == p.cmd && t.stem == stem && t.tile == tile && t.state != .exited))

/-- A tile moves at its pass boundary, once the threads on it are suspended: until then they are asked to (R307). -/
def State.atBoundary (s : State) (stem tile : Nat) (f : State → State) : State :=
  if s.threadsOn stem tile then s.suspendOn [(stem, tile)] (fun _ => true) else f s

/-- A graft is traced and in Bark's Rings (R521). -/
def State.graftEvent (s : State) (logical physical : Nat) : State :=
  s.event barkUnit 0x09 {} (natToBytes 2 logical ++ natToBytes 2 physical)

/-- A logical tile has been grafted from one position to another, which a source made necessary: the old one is retired, both are
logged, and the graft is reported (R465, R469, R471). -/
def State.graftedTile (s : State) (stem tile old pos source : Nat) : State :=
  let s := (s.standAt stem tile pos).retirePos stem old
  let s := { s with bark := { s.bark with graftDue := s.bark.graftDue.filter (fun g => match g with
      | .tile j t => !(j == stem && t == tile)
      | .bank j t _ => !(j == stem && t == tile)
      | _ => true) } }
  let d := unitDetail (unitId 5 stem tile)
  let s := (s.logUnit 1 source stem tile pos d).logUnit 2 source stem tile old d
  (s.graftEvent tile pos).report { source := 0x13, stem := stem, logical := tile, physical := pos, detail := d }

/-- A spare position that is free, of the Bark's choice. -/
def State.choosePos (s : State) (stem : Nat) : Option Nat × State :=
  let l := s.freePositions stem
  let (k, s) := s.choose l.length
  (l[k]?, s)

/-- A graft of a logical tile (R467, R469, R470): it takes a sample's move as its own, waits for a position that a lane uses, or moves the
tile; `lose` says what happens where the Stem has no spare position. -/
def State.graftTile (s : State) (stem tile : Nat) (lose : State → State) : State :=
  let here (x : Sample) : Bool := x.stem == stem && x.tile == tile
  if s.tileLost stem tile || !s.stemOn stem then s
  else match s.bark.samples.find? here with
  | some x =>
    if x.kind == .rotation && x.step == .copying then
      { s with bark := { s.bark with samples := updWhere s.bark.samples here (fun x => { x with asGraft := true }) } }
    else s
  | none =>
    if (s.sparePositions stem).isEmpty then lose s
    else if (s.freePositions stem).isEmpty then s
    else s.atBoundary stem tile (fun s =>
      let old := s.posOf stem tile
      match s.choosePos stem with
      | (some p, s) => s.graftedTile stem tile old p 0x13
      | (none, s) => s)

/-! Engines. -/

/-- The bit of a kind in BRK_SPARESn, and the unit kind of R512. -/
def EngineKind.bit : EngineKind → Nat
  | .vhe => 0 | .kme => 1 | .sort => 2 | .gather => 3 | .canopy => 4
def EngineKind.unit : EngineKind → Nat
  | .vhe => 3 | .kme => 4 | .sort => 7 | .gather => 8 | .canopy => 6

/-- The physical number of an engine: the spare's is the count of the active ones. -/
def State.enginePos (s : State) (stem : Nat) (k : EngineKind) (num : Nat) : Nat :=
  if s.bark.onSpare.contains (stem, k, num) then k.active else num

/-- Commands in flight that a Sort or Canopy engine of a Stem serves. -/
def State.needEngine (s : State) (stem : Nat) : EngineKind → List Nat
  | .sort => (s.sort.runs.filter (fun r => r.stems.contains stem)).map (·.cmd)
  | .canopy => (s.canopy.runs.filter (fun r => match s.cmd? r.cmd with
      | some c => (s.mapNeeds c).any (fun n => match s.map? n.map with | some m => m.stems.contains stem | none => false)
      | none => false)).map (·.cmd)
  | _ => []

/-- An engine is lost (R470). A VHE, KME or Gather Engine's number is served by another; of the others the Stem has none left. -/
def State.loseEngine (s : State) (stem : Nat) (k : EngineKind) (num : Nat) : State :=
  let pos := s.enginePos stem k num
  let s := { s with bark := { s.bark with
      lostEngines := s.bark.lostEngines ++ [(stem, k, num)]
      graftDue := s.bark.graftDue.erase (.engine stem k num) } }
  let s := s.wrN Fld.brkSpares_lost (setBit (s.rdN Fld.brkSpares_lost stem) k.bit) stem
  let d := unitDetail (unitId k.unit stem num)
  let s := s.logUnit 3 0x14 stem num pos d
  let s := s.report { source := 0x14, stem := stem, logical := num, physical := pos, detail := d }
  s.failLost (s.needEngine stem k) stem num

/-- A graft of an engine: its queues and state move to the spare of its kind, or the engine is lost (R469, R470). -/
def State.graftEngine (s : State) (stem : Nat) (k : EngineKind) (num : Nat) : State :=
  if num ≥ k.active || !s.stemOn stem || s.bark.lostEngines.contains (stem, k, num) then s
  else if !(s.rdN Fld.brkSpares_spare stem).testBit k.bit then s.loseEngine stem k num
  else
    let s := s.wrN Fld.brkSpares_spare (clearBit (s.rdN Fld.brkSpares_spare stem) k.bit) stem
    let s := { s with bark := { s.bark with
        onSpare := s.bark.onSpare ++ [(stem, k, num)]
        graftDue := s.bark.graftDue.erase (.engine stem k num) } }
    let d := unitDetail (unitId k.unit stem num)
    let s := (s.logUnit 1 0x13 stem num k.active d).logUnit 2 0x13 stem num num d
    let s := if k == .sort then s.restartRows stem none else if k == .gather then s.clearHash (2 * stem + num) none else s
    (s.graftEvent num k.active).report { source := 0x13, stem := stem, logical := num, physical := k.active, detail := d }

/-! Commands. -/

/-- A graft at its unit's boundary (R469). A bank takes its whole tile with it; where no position is left, it is retired in place by
BANK_RETIRE (R57). -/
def State.graft (s : State) : GraftTarget → State
  | .tile stem tile => s.graftTile stem tile (fun s => s.loseTile stem tile 0x14)
  | .bank stem tile _ => s.graftTile stem tile id
  | .engine stem k num => s.graftEngine stem k num
  | .lane link lane =>
    let s := { s with bark := { s.bark with graftDue := s.bark.graftDue.erase (.lane link lane) } }
    s.switchLane link lane

/-- GRAFT: Bark's order reaches the unit's boundary (R467, R469, R470). -/
def execGraft (target : GraftTarget) (s : State) : Host.Outcome State Fault Refusal :=
  answer s target.isUnit (if s.barkRuns then s.graft target else s)

/-- The Stem of a unit. -/
def GraftTarget.stem? : GraftTarget → Option Nat
  | .tile j _ => some j
  | .bank j _ _ => some j
  | .engine j _ _ => some j
  | .lane _ _ => none

/-- The logical number of a unit, and its unit ID. -/
def GraftTarget.number : GraftTarget → Nat × Nat
  | .tile j t => (t, unitId 5 j t)
  | .bank j t b => (t * 16 + b, unitId 5 j t)
  | .engine j k n => (n, unitId k.unit j n)
  | .lane l _ => (l, unitId 9 0 l)

/-- A reading of one unit: its counts past the thresholds, a warning from the third on, and a graft that falls due (R468). -/
def State.wearOf (s : State) (r : WearReading) : State :=
  let old := (s.bark.wear.find? (fun w => w.unit == r.unit)).getD { unit := r.unit, warn := 0, graft := 0 }
  let warn := if r.increase > s.rdN Fld.brkWearCfg_warn_pm then old.warn + 1 else 0
  let graft := if r.increase > s.rdN Fld.brkWearCfg_graft_pm then old.graft + 1 else 0
  let due := s.bark.graftDue
  let s := { s with bark := { s.bark with
      wear := s.bark.wear.filter (fun w => w.unit != r.unit) ++ [({ unit := r.unit, warn := min warn 3, graft := min graft 3 } : WearCount)]
      graftDue := if graft ≥ 3 && !due.contains r.unit then due ++ [r.unit] else due } }
  if warn ≥ 3 then
    s.report { source := 0x12, stem := (r.unit.stem?).getD 0, logical := r.unit.number.1, detail := unitDetail r.unit.number.2 }
  else s

/-- WEAR_SAMPLE: Bark reads the delay monitors, once in sample_ms (R468). A unit without a reading in the list stood below both thresholds; monitors of a Stem
that is OFF are skipped (R546). -/
def execWearSample (readings : List WearReading) (s : State) : Host.Outcome State Fault Refusal :=
  answer s (readings.all (fun r => r.unit.isUnit)) (
    if !s.barkRuns || !s.duePeriod s.bark.wearAt (1000000 * max 1 (s.rdN Fld.brkWearCfg_sample_ms)) then s
    else
      let s := { s with bark := { s.bark with wearAt := some s.time.uptime } }
      let on (r : WearReading) : Bool := match r.unit.stem? with | some j => s.stemOn j | none => true
      let rs := readings.filter on
      let s := { s with bark := { s.bark with wear := s.bark.wear.filter (fun w => rs.any (fun r => r.unit == w.unit)) } }
      rs.foldl (fun s r => s.wearOf r) s)

end Sys2Proof.Machine
end

