-- ==== Sys2Proof/Machine/Samples.lean ====
section
/-! DEFINITION. Core Samples (R461 to R467, R483): the lanes of a Stem, the steps of a sample, what a failure does, and requested sets. -/
namespace Sys2Proof.Machine

/-- Whether start-up has left stage SAMPLES behind (R466, R487). -/
def State.samplesPast (s : State) : Bool := s.stage == 5 || s.stage == 7

/-- Whether Bark starts a new step of a sample on a Stem: the Stem is ON and its clamp does not hold (R461, R546). -/
def State.stepsOn (s : State) (stem : Nat) : Bool :=
  s.barkRuns && s.stemOn stem && s.samplesPast && !s.rdB Fld.pwrStemStatus_clamp stem

/-- BRK_CS_STEMn shows the lanes in use (R462). -/
def State.noteLanes (s : State) (stem : Nat) : State :=
  let n (k : SampleKind) : Nat := (s.bark.samples.filter (fun x => x.stem == stem && x.kind == k)).length
  (s.wrN Fld.brkCsStem_rotation_lanes (n .rotation) stem).wrN Fld.brkCsStem_inplace_lanes (n .inPlace) stem

/-- The sample of a tile. -/
def State.sample? (s : State) (stem tile : Nat) : Option Sample := s.bark.samples.find? (fun x => x.stem == stem && x.tile == tile)

/-- A change to the sample of a tile. -/
def State.updSample (s : State) (stem tile : Nat) (f : Sample → Sample) : State :=
  { s with bark := { s.bark with samples := updWhere s.bark.samples (fun x => x.stem == stem && x.tile == tile) f } }

/-- When a tile was last sampled. -/
def State.sampleTime (s : State) (stem tile : Nat) : SampleTime :=
  (s.bark.lastSample.find? (fun x => x.stem == stem && x.tile == tile)).getD { stem := stem, tile := tile, last := 0, pass := 0 }

/-- A tile has been sampled now, with a pass or not. -/
def State.noteSample (s : State) (stem tile : Nat) (pass : Bool) : State :=
  let x := s.sampleTime stem tile
  let y : SampleTime := { x with last := s.now, pass := if pass then s.now else x.pass }
  { s with bark := { s.bark with
      lastSample := s.bark.lastSample.filter (fun x => !(x.stem == stem && x.tile == tile)) ++ [y] } }

/-- Tiles of a Stem that no sample runs on and that are in service. -/
def State.unsampled (s : State) (stem : Nat) : List Nat :=
  (List.range 64).filter (fun t => !s.tileLost stem t && (s.sample? stem t).isNone)

/-- The tile whose last sample is oldest (R462): the lowest number among equals. -/
def State.oldestTile (s : State) (stem : Nat) : Option Nat :=
  (s.unsampled stem).foldl (fun a t => match a with
    | none => some t
    | some b => if (s.sampleTime stem t).last.toNat < (s.sampleTime stem b).last.toNat then some t else some b) none

/-- The tiles of the requested sets on a Stem, in the order of the requests and then of their numbers (R466). -/
def State.setTiles (s : State) (stem : Nat) : List Nat :=
  s.bark.sampleSets.flatMap (fun x => (x.tiles.filter (fun t => t.1 == stem)).map (·.2))

/-- The tile that the next lane of a Stem takes: while a set runs there, one of it alone (R462, R466). -/
def State.nextTile (s : State) (stem : Nat) : Option Nat :=
  let set := s.setTiles stem
  if set.isEmpty then (if s.rdB Fld.brkCsCfg_enable then s.oldestTile stem else none)
  else set.find? (fun t => (s.sample? stem t).isNone && !s.tileLost stem t)

/-- CORE_SAMPLE_START: a lane takes a tile. It runs in rotation where a spare position is free, and else in place; while a set runs on a
Stem that has a spare position, it waits for one (R461, R462, R463, R466). -/
def execCoreSampleStart (stem : Nat) (s : State) : Host.Outcome State Fault Refusal :=
  answer s (isStem stem) (
    let busy := (s.bark.samples.filter (fun x => x.stem == stem)).length
    if !s.stepsOn stem || busy > s.rdN Fld.brkCsCfg_lanes_m1 then s
    else match s.nextTile stem with
    | none => s
    | some t =>
      let add (s : State) (x : Sample) : State :=
        ({ s with bark := { s.bark with samples := s.bark.samples ++ [x] } }).noteLanes stem
      match s.choosePos stem with
      | (some p, s) => add s { stem := stem, tile := t, kind := .rotation, step := .copying, spare := p }
      | (none, s) =>
        if !(s.setTiles stem).isEmpty && !(s.sparePositions stem).isEmpty then s
        else add s { stem := stem, tile := t, kind := .inPlace, step := .waitingIdle, since := s.time.uptime })

/-- A sample is over: the lane is free. -/
def State.endSample (s : State) (stem tile : Nat) : State :=
  ({ s with bark := { s.bark with samples := s.bark.samples.filter (fun x => !(x.stem == stem && x.tile == tile)) } }).noteLanes stem

/-- CORE_SAMPLE_SWITCH: at the tile's pass boundary it moves to the spare position, and the golden vectors run on the old one; where a graft
has taken the move, the old position is retired instead (R461, R467). -/
def execCoreSampleSwitch (stem tile : Nat) (s : State) : Host.Outcome State Fault Refusal :=
  answer s (isStem stem && isTile tile) (match s.sample? stem tile with
    | none => s
    | some x =>
      if x.kind != .rotation || x.step != .copying || !s.stepsOn stem then s
      else s.atBoundary stem tile (fun s =>
        let old := s.posOf stem tile
        if x.asGraft then (s.endSample stem tile).graftedTile stem tile old x.spare 0x13
        else (s.standAt stem tile x.spare).updSample stem tile (fun x => { x with step := .testing, spare := old })))

/-- Whether a tile is idle between work items (R463). -/
def State.tileIdle (s : State) (stem tile : Nat) : Bool :=
  (s.occupant stem tile).isNone && (s.arrayHolder stem tile).isNone && !s.threadsOn stem tile

/-- IN_PLACE_SAMPLE_TAKE: an in-place lane takes its tile, idle or at the pass boundary that Bark has requested (R463). -/
def execInPlaceSampleTake (stem tile : Nat) (s : State) : Host.Outcome State Fault Refusal :=
  answer s (isStem stem && isTile tile) (match s.sample? stem tile with
    | none => s
    | some x =>
      let take (s : State) : State := s.updSample stem tile (fun x => { x with step := .testing })
      if !s.stepsOn stem then s
      else match x.step with
      | .waitingIdle => if s.tileIdle stem tile then take s else s
      | .waitingBoundary => s.atBoundary stem tile take
      | _ => s)

/-- IN_PLACE_LAG_EXPIRE: lag_us has passed, and Bark requests the tile's next pass boundary (R463). -/
def execInPlaceLagExpire (stem tile : Nat) (s : State) : Host.Outcome State Fault Refusal :=
  answer s (isStem stem && isTile tile) (match s.sample? stem tile with
    | some x =>
      if x.step == .waitingIdle && s.barkRuns && s.passed x.since (1000 * s.rdN Fld.brkCsCfg_lag_us) then
        s.updSample stem tile (fun x => { x with step := .waitingBoundary })
      else s
    | none => s)

/-- The record of kind 6 of a failed sample: its count is the interval since the tile's last pass, in µs (R465, R471). -/
def State.logSampleFailure (s : State) (source stem tile pos : Nat) : State :=
  s.logFault { seq := 0, time := s.leaf barkIsland, source := source, cls := sourceClass source, reaction := s.rdN Fld.brkSrcCfg_reaction source,
               kind := 6, stem := stem, logical := tile, physical := pos,
               count := satTo 32 ((s.now - (s.sampleTime stem tile).pass).toNat / 1000), detail := unitDetail (unitId 5 stem tile) }

/-- A sample fails: in rotation, or at start-up with a free position, the position is retired; in place the tile is grafted, or lost
(R465, R490). The tile stands elsewhere already where `moved` holds. -/
def State.sampleFails (s : State) (stem tile pos : Nat) (moved : Bool) : State :=
  let s := s.countSat Fld.brkCsStem_failures 1 stem
  let told (s : State) : State :=
    (s.logSampleFailure 0x10 stem tile pos).report
      { source := 0x10, stem := stem, logical := tile, physical := pos, detail := unitDetail (unitId 5 stem tile) }
  if moved then
    ((told s).retirePos stem pos).logUnit 2 0x10 stem tile pos (unitDetail (unitId 5 stem tile))
  else match s.choosePos stem with
    | (some p, s) => (told s).graftedTile stem tile pos p 0x10
    | (none, s) => (s.logSampleFailure 0x11 stem tile pos).loseTile stem tile 0x11

/-- A round of a Stem ends once each of its tiles has been sampled in it (R462, R485). -/
def State.settleRound (s : State) (stem : Nat) : State :=
  let start := nth 0 s.bark.roundStart stem
  let fresh (t : Nat) : Bool := s.tileLost stem t || decide (start.toNat < (s.sampleTime stem t).last.toNat)
  if (List.range 64).all fresh then
    let s := s.wrN Fld.brkCsStem_last_round_us (satTo 16 ((s.now - start).toNat / 1000)) stem
    { s with bark := { s.bark with roundStart := s.bark.roundStart.set stem s.now } }
  else s

/-- CORE_SAMPLE_COMPLETE: the golden run of a sample ends, and its signature passes or fails (R461 to R466). -/
def execCoreSampleComplete (stem tile : Nat) (pass : Bool) (s : State) : Host.Outcome State Fault Refusal :=
  answer s (isStem stem && isTile tile) (match s.sample? stem tile with
    | none => s
    | some x =>
      if x.step != .testing || !s.barkRuns then s
      else
        let rotation := x.kind == .rotation
        let pos := if rotation then x.spare else s.posOf stem tile
        let s := s.endSample stem tile
        let s := if pass then s else s.sampleFails stem tile pos rotation
        let lost := s.tileLost stem tile
        let s := (s.noteSample stem tile pass).leaveSets stem tile (!pass) lost
        s.settleRound stem)

/-- BRK_CS_REQUEST: a set of tiles goes to the head of the Core Sample queues (R466, R470, R483). -/
def execBrkCsRequest (cmd : Nat) (s : State) : Host.Outcome State Fault Refusal :=
  answer s true (s.onStart cmd 0xA 0x01 (fun s c =>
    let ts := tilesOf c.tileMasks
    match s.tilesFault ts with
    | some e => s.finish cmd e.1 e.2
    | none =>
      ({ s with bark := { s.bark with sampleSets := s.bark.sampleSets ++ [({ cmd := some cmd, tiles := ts } : SampleSet)] } }).settleSets))

end Sys2Proof.Machine
end

