-- ==== Sys2Proof/Machine/BarkCommands.lean ====
section
/-! DEFINITION. Bark's own resets (R452), the release of the safe state (R459, R594), reading the log (R482), its flash mirror (R472) and
the time partitions (R479). -/
namespace Sys2Proof.Machine

/-- Bark is reset by a failure of its own: the pins go low in hardware, and it will find the device SAFE (R452). -/
def State.barkStops (s : State) (source : Nat) : State :=
  if !s.barkRuns then s
  else
    let enters := s.mode != modeSafe && s.mode != modeMaint
    let s := s.markSafe source
    { s with bark := { s.bark with stopped := some (source, enters) } }

/-- LOCKSTEP_MISMATCH: Bark's cores disagree (R452). -/
def execLockstepMismatch (s : State) : Host.Outcome State Fault Refusal := answer s true (s.barkStops 0x00)

/-- BARK_CLOCK_LOST: Bark's oscillator has stopped (R452). -/
def execBarkClockLost (s : State) : Host.Outcome State Fault Refusal := answer s true (s.barkStops 0x01)

/-- BARK_RESTART: Bark runs again: what stopped it is reported, and an entry into the safe state that it began is completed
(R452, R457). -/
def execBarkRestart (s : State) : Host.Outcome State Fault Refusal :=
  answer s true (match s.bark.stopped with
    | none => s
    | some (source, enters) =>
      let s := { s with bark := { s.bark with stopped := none } }
      let s := s.barkReport { source := source }
      if enters then s.applySafe source else s)

/-- MGMT_HEARTBEAT_MISS: a Crown management core has missed its heartbeat (R452). -/
def execMgmtHeartbeatMiss (core : Nat) (s : State) : Host.Outcome State Fault Refusal :=
  answer s (isCore core) (s.report { source := 0x02, logical := core })

/-! The release of the safe state. -/

/-- Whether the condition of a source has cleared (R594). -/
def State.cleared (s : State) (source : Nat) : Bool :=
  if source == 0x05 then (List.range 4).all (fun n => !s.rdB Fld.pwrStemStatus_clamp n)
  else if source == 0x1B then !s.rdB Fld.twnStatus_diverged
  else if source == 0x1D then s.timeState == tsLocked || s.timeState == tsFollower
  else !s.bark.handling.any (fun h => h.source == source)

/-- What blocks a release: the detail of RELEASE_REFUSED under the first check of R459 that fails. -/
def State.releaseBlock (s : State) : Option Word :=
  let src := s.rdN Fld.brkStatus_safe_source
  let recent : Option Nat := s.bark.lastReaction2.bind (fun r => if s.passed r.2 100000000 then none else some r.1)
  if !s.rdB Fld.brkSafeCfg_release_host then some 0x100
  else if s.stage != 7 then some 0x101
  else match s.bark.fatalSeen with
  | f :: _ => some (BitVec.ofNat 32 f)
  | [] =>
    match recent with
    | some r => some (BitVec.ofNat 32 r)
    | none => if s.cleared src then none else some (BitVec.ofNat 32 src)

/-- The safe state is released: the pins go high, the latched orders are withdrawn, the rings stay in ERROR, and a twin pairs again
(R445, R459). -/
def State.leaveSafe (s : State) : State :=
  let src := s.rdN Fld.brkStatus_safe_source
  let s := (s.wrN Fld.brkStatus_mode modeOperational).wrB Fld.brkStatus_latched false
  let s := (s.driveFault false).driveTwinFault false
  (({ s with queues := { s.queues with latched := [] } }).logMode 5 src).returnToPair

/-- SAFE_RELEASE (R459, R460). It waits for Bark where Bark is being reset. -/
def execSafeRelease (cmd : Nat) (s : State) : Host.Outcome State Fault Refusal :=
  answer s true (s.onCmd cmd 0x0 0xA0 (fun c =>
    if s.mode != modeSafe then s.finish cmd stSuccess
    else if !s.barkRuns then s
    else match s.releaseBlock with
    | some d => s.finish cmd stReleaseRefused d
    | none => ((s.order barkUnit (orderSource c.fn) c.ev (natToBytes 1 c.opcode)).leaveSafe).finish cmd stSuccess))

/-! The log. -/

/-- FAULT_LOG_READ: records of a section, from a sequence number on, are copied to host memory (R482). -/
def execFaultLogRead (cmd : Nat) (s : State) : Host.Outcome State Fault Refusal :=
  answer s true (s.onCmd cmd 0x0 0xA1 (fun c =>
    let all := if c.b 16 1 = 0 then s.bark.graftLog else s.bark.faultLog
    let rs := (all.filter (fun r => decide (c.b 20 4 ≤ r.seq.toNat))).take (c.b 32 4)
    match s.basicStore c (c.b 24 8) (rs.flatMap logBytes) with
    | (s, some e) => s.failAcc cmd e
    | (s, none) => s.finish cmd stSuccess (BitVec.ofNat 32 rs.length)))

/-- LOG_FLASH_WRITE: the log's records are in its flash mirror (R472). -/
def execLogFlashWrite (s : State) : Host.Outcome State Fault Refusal :=
  answer s true (if s.barkRuns && s.security.flash.present then
      { s with bark := { s.bark with flashGraft := s.bark.graftLog, flashFault := s.bark.faultLog } }
    else s)

/-! Time partitions. -/

/-- The slot of a Stem at the present time (R479). -/
def State.slotNow (s : State) (stem : Nat) : Nat :=
  (s.now.toNat / (1000 * max 100 (s.rdN Fld.brkTdmaCfg_slot_us stem))) % (s.rdN Fld.brkTdmaCfg_slots_m1 stem + 1)

/-- Work on a Stem whose partition the slot excludes is preempted: items at their pass boundary, programs by suspension (R89, R307,
R479). -/
def State.preemptExcluded (s : State) (stem : Nat) : State :=
  let out (w : WorkItem) : Bool := w.active && w.stem == stem
    && (match s.cmd? w.cmd with | some c => !s.slotAdmits stem c.part | none => false)
  let s1 := (s.compute.items.zipIdx.filter (fun x => out x.1)).foldl (fun t x =>
    t.event (unitId 5 stem (x.1.tile.getD 0)) 0x04 (((s.cmd? x.1.cmd).map Cmd.eventOf).getD {}) (natToBytes 4 x.2)) s
  let s1 := { s1 with compute := { s1.compute with items := updWhere s1.compute.items out (fun w => { w with suspended := true }) } }
  s1.suspendOn ((List.range 64).map (fun t => (stem, t))) (fun p => !s.slotAdmits stem p.part)

/-- TDMA_SLOT_CHANGE: a slot of a Stem begins (R479). -/
def execTdmaSlotChange (stem : Nat) (s : State) : Host.Outcome State Fault Refusal :=
  answer s (isStem stem) (
    if !s.rdB Fld.brkTdmaCfg_enable stem then s
    else ({ s with bark := { s.bark with slots := s.bark.slots.set stem (s.slotNow stem) } }).preemptExcluded stem)

end Sys2Proof.Machine
end

