-- ==== Sys2Proof/Machine/Images.lean ====
section
/-! DEFINITION. The boot directory (R493), image manifests and their verification (R494, R496), and the statuses of 16_security_startup.md
(R509). -/
namespace Sys2Proof.Machine

def stSigInvalid : Half := 0x0B40
def stKeyRevoked : Half := 0x0B41
def stRollback : Half := 0x0B42
def stImageFormat : Half := 0x0B43
def stDebugDisabled : Half := 0x0B44
def stDebugMode : Half := 0x0B45
def stChallengeStale : Half := 0x0B46
def stDebugLockout : Half := 0x0B47
def stOtpRefused : Half := 0x0B48
def stMeasureRange : Half := 0x0B49
def stIdeStream : Half := 0x0B4A
def stFwBusy : Half := 0x0B4B
def stFlashError : Half := 0x0B4C
def stIdentityAbsent : Half := 0x0B4D

/-! The directory. -/

/-- Bytes 0 to 11 of a directory copy (R493). -/
def Directory.bytes (d : Directory) : List Byte :=
  let b := natToBytes 4 d.seq.toNat ++ natToBytes 1 (if d.preferredB then 1 else 0)
    ++ natToBytes 1 ((if d.trial then 1 else 0) + (if d.validA then 2 else 0) + (if d.validB then 4 else 0)) ++ [0, 0]
  b ++ natToBytes 4 (crc32c b)

/-- Whether copy 0 is the one in use: a correct CRC and the higher sequence number (R493). -/
def Flash.firstUsed (f : Flash) : Bool :=
  f.dir0.crcOk && (!f.dir1.crcOk || decide (f.dir1.seq.toNat ≤ f.dir0.seq.toNat))

/-- The directory copy in use: none where neither has a correct CRC. -/
def Flash.dir? (f : Flash) : Option Directory :=
  if f.firstUsed then some f.dir0 else if f.dir1.crcOk then some f.dir1 else none

/-- The older copy is written with a higher sequence number (R493). -/
def Flash.writeDir (f : Flash) (d : Directory) : Flash :=
  let seq : Word := ((f.dir?).map (fun x => x.seq + 1)).getD 1
  let d := { d with seq := seq, crcOk := true }
  if f.firstUsed then { f with dir1 := d } else { f with dir0 := d }

/-- A change to the directory in use, written as a new copy. -/
def State.updDir (s : State) (f : Directory → Directory) : State :=
  { s with security := { s.security with flash := s.security.flash.writeDir (f ((s.security.flash.dir?).getD {})) } }

/-- The image in a slot (R492): true for slot B. -/
def Flash.slot (f : Flash) (b : Bool) : List Byte := if b then f.slotB else f.slotA

/-- A slot takes an image. -/
def State.putSlot (s : State) (b : Bool) (img : List Byte) : State :=
  let f := s.security.flash
  { s with security := { s.security with flash := if b then { f with slotB := img } else { f with slotA := img } } }

/-- Whether the directory marks a slot valid, and the directory with that mark changed. -/
def Directory.valid (d : Directory) (b : Bool) : Bool := if b then d.validB else d.validA
def Directory.mark (d : Directory) (b v : Bool) : Directory := if b then { d with validB := v } else { d with validA := v }

/-! Manifests (R494). -/

/-- A stage of an image. -/
structure StageEntry where
  offset : Nat
  length : Nat
  kind : Nat
  digest : List Byte
  deriving DecidableEq, Repr

def imgKeySlot (b : List Byte) : Nat := getBits (leAt b 5 1) 0 2
def imgSecVersion (b : List Byte) : Nat := leAt b 6 1
def imgStageCount (b : List Byte) : Nat := leAt b 7 1
def imgSigner (b : List Byte) : List Byte := slice b 16 2592

/-- The stage table of an image. -/
def imgStages (b : List Byte) : List StageEntry :=
  (List.range (imgStageCount b)).map (fun i =>
    let o := 2608 + 80 * i
    { offset := leAt b o 4, length := leAt b (o + 4) 4, kind := leAt b (o + 8) 1, digest := slice b (o + 16) 64 })

/-- Bytes that the signature of an image covers, and the whole manifest. -/
def imgSigned (b : List Byte) : List Byte := slice b 0 (2608 + 80 * imgStageCount b)
def imgManifest (b : List Byte) : List Byte := slice b 0 (2608 + 80 * imgStageCount b + 4627)
def imgSignature (b : List Byte) : List Byte := slice b (2608 + 80 * imgStageCount b) 4627

/-- Size of a slot (R492). -/
def slotBytes : Nat := 0x4000000

/-- Check 1 of R496: the offset of the first field that is wrong. -/
def imgFormatFault (b : List Byte) : Option Nat :=
  let st := imgStages b
  let n := imgStageCount b
  if leAt b 0 4 ≠ 0x4E465731 then some 0
  else if leAt b 4 1 ≠ 1 then some 4
  else if n = 0 ∨ n > 16 then some 7
  else
    let bad (i : Nat) : Bool := match st[i]? with
      | none => false
      | some x => decide (x.offset + x.length > slotBytes)
        || (List.range i).any (fun j => match st[j]? with
            | some y => decide (x.offset < y.offset + y.length) && decide (y.offset < x.offset + x.length)
            | none => false)
    ((List.range n).find? bad).map (fun i => 2608 + 80 * i)

/-- Checks 1 to 5 of R496: the status and detail of the first that fails. -/
def State.manifestFault (s : State) (b : List Byte) : Option (Half × Word) :=
  let o := s.security.otp
  let k := imgKeySlot b
  match imgFormatFault b with
  | some off => some (stImageFormat, BitVec.ofNat 32 off)
  | none =>
    if Config.sha3 (imgSigner b) != nth [] o.rootDigests k then some (stSigInvalid, 0xFF)
    else if o.revoked.testBit k then some (stKeyRevoked, BitVec.ofNat 32 k)
    else if imgSecVersion b < o.rollback then some (stRollback, BitVec.ofNat 32 o.rollback)
    else if !Config.mldsaVerify (imgSigner b) (imgSigned b) (imgSignature b) then some (stSigInvalid, 0xFF)
    else none

/-- Check 6 of R496 for the stages of some kinds: the index of the first whose digest differs. -/
def stageFault (b : List Byte) (kinds : Nat → Bool) : Option (Half × Word) :=
  let bad (x : StageEntry × Nat) : Bool := kinds x.1.kind && Config.sha3 (slice b x.1.offset x.1.length) != x.1.digest
  ((imgStages b).zipIdx.find? bad).map (fun x => (stSigInvalid, BitVec.ofNat 32 x.2))

/-- Every check of R496. -/
def State.imageFault (s : State) (b : List Byte) : Option (Half × Word) :=
  (s.manifestFault b).or (stageFault b (fun _ => true))

/-- A measurement register is extended with the digests of the stages of some kinds, in stage order (R500). -/
def State.measureStages (s : State) (r : Nat) (b : List Byte) (kinds : Nat → Bool) : State :=
  ((imgStages b).filter (fun x => kinds x.kind)).foldl (fun s x => s.extendMeasure r x.digest) s

end Sys2Proof.Machine
end

