-- ==== Sys2Proof/Machine/Boot.lean ====
section
/-! DEFINITION. Start-up (R487 to R493, R496, R498, R500, R585), resets (R584, R586), the retirement of recorded units (R472) and the
rails' monitors (R581). -/
namespace Sys2Proof.Machine

/-! Resets. -/

/-- What a reset leaves of the registers: SEC_TRIAL_SEEN, which Bark's always-on domain holds (R510, R586). -/
def keptRegs (l : List (RegKey × DWord)) : List (RegKey × DWord) := l.filter (fun kv => kv.1.reg == .secTrialSeen)

/-- The device in reset: PERST# resets every part of it but Bark's always-on domain, OTP and flash (R586). Host memory and what has left
the device are outside it. -/
def State.inReset (s : State) : State :=
  { State.reset with
    pending := s.pending
    variant := s.variant
    revision := s.revision
    regs := keptRegs s.regs
    host := s.host
    security := { otp := s.security.otp, flash := s.security.flash, chain := s.security.chain }
    bark := { graftLog := s.bark.graftLog, faultLog := s.bark.faultLog, graftSeq := s.bark.graftSeq, faultSeq := s.bark.faultSeq,
              flashGraft := s.bark.flashGraft, flashFault := s.bark.flashFault }
    free := s.free
    out := s.out }

/-- PERST_ASSERT: PERST# is asserted (R584, R586). -/
def execPerstAssert (s : State) : Host.Outcome State Fault Refusal := answer s true s.inReset

/-- VDD_BARK_POWER_ON: Bark's always-on domain is cleared; of the log, its flash mirror is left (R472, R548, R586). -/
def execVddBarkPowerOn (s : State) : Host.Outcome State Fault Refusal :=
  answer s true { s with
    regs := s.regs.filter (fun kv => kv.1.reg != .secTrialSeen)
    bark := { s.bark with graftLog := s.bark.flashGraft, faultLog := s.bark.flashFault } }

/-- RAIL_TRIP: a rail's monitor trips while PERST# is released: a main rail's is reported, and a Bark rail's resets Bark
(R581, R584, R590). -/
def execRailTrip (rail : Nat) (s : State) : Host.Outcome State Fault Refusal :=
  answer s (isRail rail) (
    if s.security.perst then s
    else if rail ≥ 8 then s.barkStops 0x03
    else s.report { source := 0x03, logical := rail, detail := BitVec.ofNat 64 rail })

/-! The ROM. -/

/-- The stage changes (R487). -/
def State.toStage (s : State) (n : Nat) : State := s.wrN Fld.secBootStatus_stage n

/-- The boot mode as it acts: under boot_mode_lock every value but 0 and 1 acts as 0 (R491). -/
def State.actingMode (s : State) : Nat :=
  let m := s.security.bootMode
  if s.security.otp.bootModeLock && m > 1 then 0 else m

/-- The device enters HALT with an error. -/
def State.halt (s : State) (st : Half) : State := (s.wrN Fld.secBootStatus_error st.toNat).toStage 15

/-- PERST_RELEASE: PERST# is released: the boot mode is latched and acted on, and the identity is derived (R487, R491, R498, R505). A rail
that came up out of order keeps the device from starting (R585). -/
def execPerstRelease (bootMode outOfOrder : Nat) (s : State) : Host.Outcome State Fault Refusal :=
  answer s true (if !s.security.perst then s
    else
      let x := s.security
      let s := { s with security := { x with
          perst := false, bootMode := bootMode % 8, releasedAt := s.now, failures := 0
          identity := x.otp.lifecycle != .decommissioned } }
      let s := if x.otp.lifecycle == .manufacture then s.wrN Fld.secDebugStatus_unlocked 3 else s
      let bad := outOfOrder % 1024
      if bad ≠ 0 then
        (s.halt 0).logFault { seq := 0, time := s.leaf barkIsland, source := 0x03, cls := 2, reaction := 2, kind := 0, detail := BitVec.ofNat 64 bad }
      else
        let m := s.actingMode
        if m = 2 then s.toStage 14
        else if m = 4 ∨ m = 5 ∨ m = 6 then s.halt stImageFormat
        else if m = 7 ∧ x.otp.lifecycle ≠ .manufacture then s.toStage 15
        else s)

/-- The measurement registers return to zero (R490). -/
def State.clearMeasures (s : State) : State :=
  { s with security := { s.security with measure := List.replicate 16 (List.replicate 64 0) } }

/-- A firmware stage fails (R490): from BARK on Bark hears of it; the first failure restarts the ROM with the other slot, and a second, or
one that leaves no other slot, ends the start-up. -/
def State.bootFails (s : State) (st : Half) (final : Bool := false) : State :=
  let n := s.security.failures
  let s := if s.stage ≥ 1 then s.report { source := 0x06, detail := BitVec.ofNat 64 st.toNat } else s
  let s := if n = 0 then s.wrN Fld.secBootStatus_error st.toNat else s
  let s := { s.clearMeasures with security := { s.clearMeasures.security with failures := n + 1, signerKey := [] } }
  if n = 0 ∧ !final then s.toStage 0
  else if s.security.otp.bootModeLock then s.toStage 15 else s.toStage 14

/-- The slot that the ROM boots, and the state in which it has chosen it: true for slot B (R491, R493). A restart takes the other slot. -/
def State.chooseSlot (s : State) : Option Bool × State :=
  if s.security.failures > 0 then
    (some (s.rdN Fld.secBootStatus_slot == 0), s.wrB Fld.secBootStatus_trial false)
  else if s.actingMode = 1 then (some true, s)
  else match s.security.flash.dir? with
  | none => (none, s)
  | some d =>
    if !d.trial then (some d.preferredB, s)
    else
      let slot := if d.preferredB then 1 else 0
      if s.rdB Fld.secTrialSeen_seen && s.rdN Fld.secTrialSeen_trial_seq == d.seq.toNat && s.rdN Fld.secTrialSeen_trial_slot == slot then
        (some !d.preferredB, s.updDir (fun d => { d with preferredB := !d.preferredB, trial := false }))
      else
        let s := (s.wrN Fld.secTrialSeen_trial_seq d.seq.toNat).wrN Fld.secTrialSeen_trial_slot slot
        (some d.preferredB, (s.wrB Fld.secTrialSeen_seen true).wrB Fld.secBootStatus_trial true)

/-- What the ROM measures first (R500). -/
def State.romInfo (s : State) : List Nat :=
  let o := s.security.otp
  [lifecycleCode o.lifecycle, s.security.bootMode, b2n o.bootModeLock, b2n o.debugDisable, o.rollback]

/-- BOOT_ROM_COMPLETE: the ROM has read the directory and the manifest and has loaded and verified Bark's firmware, or fails
(R487, R490 to R493, R496, R500). -/
def execBootRomComplete (s : State) : Host.Outcome State Fault Refusal :=
  answer s true (if s.security.perst || s.stage != 0 || s.actingMode = 7 then s
    else
      let s := { s with pcie := { s.pcie with configReady := true } }
      let s := s.extendMeasure 0 (Config.sha3 (Config.romBlock s.romInfo))
      if !s.security.flash.present then s.bootFails stFlashError true
      else match s.chooseSlot with
      | (none, s) => s.bootFails stFlashError true
      | (some b, s) =>
        let s := s.wrB Fld.secBootStatus_slot b
        let img := s.security.flash.slot b
        match (s.manifestFault img).or (stageFault img (fun k => k == 0)) with
        | some e => s.bootFails e.1 (s.actingMode = 1)
        | none =>
          let s := s.extendMeasure 1 (Config.sha3 (imgManifest img))
          let s := s.measureStages 1 img (fun k => k == 0)
          let s := (s.wrN Fld.secBootStatus_sec_version (imgSecVersion img)).wrN Fld.secBootStatus_key_slot (imgKeySlot img)
          ({ s with security := { s.security with signerKey := imgSigner img } }).toStage 1)

/-- The image that the device is starting from. -/
def State.runningImage (s : State) : List Byte := s.security.flash.slot (s.rdB Fld.secBootStatus_slot)

/-- BARK_FIRMWARE_COMPLETE: Bark firmware has loaded and verified the management cores' firmware, measures what follows and starts them; or
a read of the flash has failed (R487, R490, R496, R500). -/
def execBarkFirmwareComplete (ok : Bool) (s : State) : Host.Outcome State Fault Refusal :=
  answer s true (if s.security.perst || s.stage != 1 then s
    else if !ok then s.bootFails stFlashError
    else
      let img := s.runningImage
      match stageFault img (fun k => k == 1) with
      | some e => s.bootFails e.1
      | none =>
        let s := s.measureStages 2 img (fun k => k == 1 || k == 2 || k == 3)
        let s := s.extendMeasure 3 (Config.sha3 (((s.security.flash.dir?).getD {}).bytes))
        s.toStage 2)

/-! The recorded units. -/

/-- The kind of engine that a unit ID names. -/
def engineOfUnit (u : Nat) : Option EngineKind :=
  match u / 4096 with
  | 3 => some .vhe
  | 4 => some .kme
  | 6 => some .canopy
  | 7 => some .sort
  | 8 => some .gather
  | _ => none

/-- A record about a tile or an engine is applied: its source is a sample's, a graft's or a loss's, and its detail is the unit's ID. -/
def State.applyUnit (s : State) (r : LogRecord) : State :=
  let u := r.detail.toNat
  match engineOfUnit u with
  | some k =>
    if r.kind = 1 then
      let s := s.wrN Fld.brkSpares_spare (clearBit (s.rdN Fld.brkSpares_spare r.stem) k.bit) r.stem
      { s with bark := { s.bark with onSpare := s.bark.onSpare ++ [(r.stem, k, r.logical)] } }
    else if r.kind = 3 then
      let s := s.wrN Fld.brkSpares_lost (setBit (s.rdN Fld.brkSpares_lost r.stem) k.bit) r.stem
      { s with bark := { s.bark with lostEngines := s.bark.lostEngines ++ [(r.stem, k, r.logical)] } }
    else s
  | none =>
    if r.kind = 1 then s.standAt r.stem r.logical r.physical
    else if r.kind = 2 then s.retirePos r.stem r.physical
    else if r.kind = 3 then
      ({ s with bark := { s.bark with lostTiles := s.bark.lostTiles ++ [(r.stem, r.logical)] } }).retirePos r.stem r.physical
    else s

/-- A record of the graft section is applied at start-up (R471, R472): a bank, a pseudo-channel or a lane is retired, or a tile or an
engine. Rows are repaired as HBM trains. -/
def State.applyRecord (s : State) (r : LogRecord) : State :=
  if r.kind = 7 then s
  else if r.source = 0x0F then
    let b : BankId := ⟨r.stem, r.logical / 16, r.logical % 16⟩
    let s := (s.setBank b bankOff).countSat Fld.sapStemStatus_retired_banks 1 r.stem
    { s with mem := { s.mem with retired := s.mem.retired ++ [b] } }
  else if r.source = 0x0B then
    let s := s.wrN Fld.hbmStackStatus_retired_pc_mask (setBit (s.rdN Fld.hbmStackStatus_retired_pc_mask r.stem) r.physical) r.stem
    s.wrN Fld.hbmStackStatus_usable_slices (s.rdN Fld.hbmStackStatus_usable_slices r.stem - 1) r.stem
  else if r.source = 0x18 then
    (if r.kind = 2 then s.wrN Fld.wblLinkStatus_spared_lane r.physical r.logical else s)
  else s.applyUnit r

/-- A tile in service whose position is retired takes the first free one (R465, R472); where there is none it is lost. -/
def State.reseat (s : State) (stem tile : Nat) : State :=
  if s.tileLost stem tile || !s.posRetired stem (s.posOf stem tile) then s
  else match s.freePositions stem with
  | p :: _ => (s.standAt stem tile p).noteSpares stem
  | [] => s.loseTile stem tile 0x14

/-- Every tile that needs another position is given one. -/
def State.reseatAll (s : State) : State :=
  (List.range 4).foldl (fun s j => (List.range 64).foldl (fun s t => s.reseat j t) s) s

/-- GRAFT_LOG_APPLIED: the graft section has been read from flash, and every recorded unit is retired (R472, R487). -/
def execGraftLogApplied (s : State) : Host.Outcome State Fault Refusal :=
  answer s true (if s.security.perst || s.stage != 2 then s
    else ((s.bark.flashGraft.foldl (fun s r => s.applyRecord r) s).reseatAll).toStage 3)

/-! Memory and samples. -/

/-- MEMORY_STAGE_COMPLETE: HBM has been trained with its hard repairs, Sapwood tested and the time tree calibrated, and the golden vectors
are verified; stacks of a mask did not train (R132, R487, R490, R496). -/
def execMemoryStageComplete (ok : Bool) (deadStacks : Nat) (s : State) : Host.Outcome State Fault Refusal :=
  answer s true (if s.security.perst || s.stage != 3 then s
    else if !ok then s.bootFails stFlashError
    else match stageFault s.runningImage (fun k => k == 2 || k == 3) with
    | some e => s.bootFails e.1
    | none =>
      let s := (bitList 4 deadStacks).foldl (fun s n =>
        (s.wrN Fld.hbmStackStatus_usable_slices 0 n).report { source := 0x0C, stem := n, logical := n }) s
      (s.wrB Fld.timStatus_tree_calibrated true).toStage 4)

/-- A position fails its sample at start-up (R465, R490): it is retired, and the tile that stood there moves or is lost. -/
def State.positionFails (s : State) (p : Position) : State :=
  match (List.range 64).find? (fun t => !s.tileLost p.stem t && s.posOf p.stem t == p.pos) with
  | some t =>
    (match (s.freePositions p.stem) with
     | q :: _ => (s.standAt p.stem t q).sampleFails p.stem t p.pos true
     | [] => s.sampleFails p.stem t p.pos false)
  | none =>
    let s := s.countSat Fld.brkCsStem_failures 1 p.stem
    let d := unitDetail (unitId 5 p.stem 0x3FF)
    let s := (s.retirePos p.stem p.pos).logUnit 2 0x10 p.stem 0xFFFF p.pos d
    s.report { source := 0x10, stem := p.stem, logical := 0xFFFF, physical := p.pos, detail := d }

/-- Every position of a Stem that is ON has been sampled: each logical tile's last sample is now. -/
def State.sampledAll (s : State) (stem : Nat) (failed : List Position) : State :=
  let s := (failed.filter (fun p => p.stem == stem && !s.posRetired stem p.pos)).foldl (fun s p => s.positionFails p) s
  let s := (List.range 64).foldl (fun s t => if s.tileLost stem t then s else s.noteSample stem t true) s
  { s with bark := { s.bark with roundStart := s.bark.roundStart.set stem s.now } }

/-- SAMPLES_STAGE_COMPLETE: every position has been sampled; some have failed (R487, R490). -/
def execSamplesStageComplete (failed : List Position) (s : State) : Host.Outcome State Fault Refusal :=
  answer s (failed.all (fun p => p.isPosition)) (
    if s.security.perst || s.stage != 4 then s
    else
      let s := (List.range 4).foldl (fun s j => s.sampledAll j failed) s
      if s.locked then s.becomeReady else s.toStage 5)

end Sys2Proof.Machine
end

