-- ==== Sys2Proof/Machine/Dense.lean ====
section
/-! DEFINITION. Dense layers on maps and their passes (R323 to R326, R339, R340). -/
namespace Sys2Proof.Machine

/-- What a dense layer is asked to do. Lists hold the numbers of the x and y axes. -/
structure DenseArgs where
  inMap : Nat
  outMap : Nat
  extent : List Nat
  stride : List Nat
  dilation : List Nat
  transposed : Bool
  bias : Bool
  relu : Bool
  sparse : Bool
  residual : Bool
  coutBlocks : Nat
  first : Nat
  wFmt : Nat
  weights : Nat
  biasBase : Nat
  resMap : Nat
  partialOff : Nat

def Cmd.denseArgs (c : Cmd) : DenseArgs :=
  let axis (lo w : Nat) : List Nat := [18, 19].map (fun b => c.f 0 b lo w + 1)
  let bit (i : Nat) : Bool := c.f 0 20 i 1 == 1
  { inMap := c.b 16 1, outMap := c.b 17 1, extent := axis 0 3, stride := axis 3 2, dilation := axis 5 2, transposed := bit 0,
    bias := bit 1, relu := bit 2, sparse := bit 3, residual := bit 4, coutBlocks := c.f 0 21 0 5 + 1, first := c.f 0 22 0 5,
    wFmt := c.f 0 23 0 4, weights := c.b 24 6, biasBase := c.b 30 6, resMap := c.b 36 1, partialOff := c.e 4 3 }

/-- Whether the sizes of a layer's maps agree (R323). -/
def DenseArgs.sizesOk (a : DenseArgs) (i o : CMap) : Bool :=
  let sx := nth 1 a.stride 0
  let sy := nth 1 a.stride 1
  if a.transposed then o.width == sx * i.width && o.height == sy * i.height
  else o.width * sx == i.width && o.height * sy == i.height

/-- Why a dense layer cannot start: geometry, formats, mask and tiles, partial areas (R262, R323, R326, R340). -/
def State.denseFault (s : State) (c : Cmd) (a : DenseArgs) : Option (Half × Word) :=
  match s.map? a.inMap, s.map? a.outMap with
  | some i, some o =>
    let bad (m : CMap) : Option (Half × Word) := some (stMapGeometry, BitVec.ofNat 32 m.id)
    let resBad (m : CMap) : Bool := m.width != o.width || m.height != o.height || decide (m.cBlocks < a.first + a.coutBlocks)
    let ts := tilesOf c.tileMasks
    if !a.sizesOk i o || o.cBlocks < a.first + a.coutBlocks then bad o
    else match (if a.residual then (s.map? a.resMap).filter resBad else none) with
    | some m => bad m
    | none =>
      if !formatPairOk i.fmt a.wFmt o.fmt then some (stFormatPair, formatDetail i.fmt a.wFmt o.fmt)
      else if ts.isEmpty then some (stTilePlacement, 4)
      else match s.tilesFault ts with
      | some f => some f
      | none =>
        if !s.partialsOk c.part a.partialOff ts then some (stTilePlacement, 3)
        -- the engine schedules the work items (R545, R470)
        else s.engineFault .canopy o.stems
  | _, _ => none

/-- The work items of a dense layer: each tile takes its own in ascending q, and in ascending block within q (R324). -/
def denseItems (id : Nat) (a : DenseArgs) (o : CMap) (ts : List (Nat × Nat)) : List WorkItem :=
  (List.range (o.width / 16 * (o.height / 16))).flatMap (fun q =>
    let t := nth (0, 0) ts (q % ts.length)
    (List.range a.coutBlocks).map (fun nb =>
      ({ cmd := id, kind := .dense q nb, stem := t.1, tile := none, fixedTile := some t.2 } : WorkItem)))

/-- CNP_DENSE (R323, R324). -/
def execCnpDense (cmd : Nat) (s : State) : Host.Outcome State Fault Refusal :=
  answer s true (s.onCmd cmd 0x5 0x04 (fun c =>
    let a := c.denseArgs
    if c.started then s
    else s.startMaps c (s.denseFault c a) (fun s =>
      match s.map? a.outMap with
      | some o => o.stems.foldl (fun s j => s.serve cmd (unitId 6 j 0)) (s.addItems (denseItems cmd a o (tilesOf c.tileMasks)))
      | none => s)))

/-! Passes. -/

/-- Offsets (kx, ky) in order: y fastest. -/
def DenseArgs.offsets (a : DenseArgs) : List (Int × Int) :=
  let range (i : Nat) : List Int :=
    let e := nth 1 a.extent i
    let lo : Int := -(((e - 1) / 2 : Nat) : Int)
    (List.range e).map (fun j => lo + (j : Nat))
  (range 0).flatMap (fun x => (range 1).map (fun y => (x, y)))

/-- The input position that an output cell and an offset read (R323): none where nothing is broadcast. -/
def DenseArgs.inputAt (a : DenseArgs) (i : CMap) (u v : Nat) (k : Int × Int) : Option (Int × Int) :=
  let s (x : Nat) : Nat := nth 1 a.stride x
  let d (x : Nat) : Int := (nth 1 a.dilation x : Nat)
  if a.transposed then
    match exactDiv (u - d 0 * k.1) (s 0), exactDiv (v - d 1 * k.2) (s 1) with
    | some x, some y => if i.holds? x y then some (x, y) else none
    | _, _ => none
  else some ((s 0 : Nat) * u + d 0 * k.1, (s 1 : Nat) * v + d 1 * k.2)

/-- Input blocks of a broadcast group. -/
def DenseArgs.groupBlocks (a : DenseArgs) (i : CMap) (g : Nat) : List Nat :=
  let b := (cadence i.fmt a.wFmt a.sparse).1
  ((List.range b).map (fun x => g * b + x)).filter (fun kb => decide (kb < i.cBlocks))

/-- A broadcast: group, offset number, entry and input position. -/
structure DenseCast where
  g : Nat
  k : Nat
  entry : Nat
  at_ : Int × Int

/-- The broadcasts of an item in order (R324). -/
def DenseArgs.casts (a : DenseArgs) (i : CMap) (tu tv : Nat) : List DenseCast :=
  (List.range (ceilDiv i.cBlocks (cadence i.fmt a.wFmt a.sparse).1)).flatMap (fun g =>
    a.offsets.zipIdx.flatMap (fun k => (List.range 256).filterMap (fun e =>
      (a.inputAt i (16 * tu + e % 16) (16 * tv + e / 16) k.1).map (fun p => ({ g := g, k := k.2, entry := e, at_ := p } : DenseCast)))))

/-- The input vector of a position over the blocks of a group: zeros outside the map. -/
def State.denseVector (s : State) (o : Origin) (i : CMap) (p : Int × Int) : List Nat → State × Except AccErr (List FVal)
  | [] => (s, .ok [])
  | cb :: rest =>
    match (if i.holds? p.1 p.2 then s.mapCell o i p.1.toNat p.2.toNat cb else (s, .ok (List.replicate 32 (.fin false 0 0)))) with
    | (s, .error e) => (s, .error e)
    | (s, .ok vs) =>
      match s.denseVector o i p rest with
      | (s, .error e) => (s, .error e)
      | (s, .ok more) => (s, .ok (vs ++ more))

/-- The columns of a group and an offset: as they stand, or loaded. -/
def State.denseColumns (s : State) (c : Cmd) (stem : Nat) (a : DenseArgs) (i : CMap) (nb g k : Nat)
    (have_ : Option (Nat × Nat × List (List (Option FVal)))) : State × Except AccErr (List (List (Option FVal))) :=
  let load_ := s.loadWeights c stem a.wFmt a.sparse a.weights (fun _ => 32)
    ((a.groupBlocks i g).map (fun cb => ((k * a.coutBlocks + nb) * i.cBlocks + cb, cb)))
  match have_ with
  | some (g', k', cols) => if g' = g ∧ k' = k then (s, .ok cols) else load_
  | none => load_

/-- Broadcasts one after the other. -/
def State.denseRun (s : State) (c : Cmd) (stem : Nat) (a : DenseArgs) (i : CMap) (nb : Nat) : List DenseCast →
    Option (Nat × Nat × List (List (Option FVal))) → List (List Nat) → PassCounts → State × Except AccErr (List (List Nat) × PassCounts)
  | [], _, acc, n => (s, .ok (acc, n))
  | x :: rest, have_, acc, n =>
    match s.denseColumns c stem a i nb x.g x.k have_ with
    | (s, .error e) => (s, .error e)
    | (s, .ok cols) =>
      match s.denseVector c.origin i x.at_ (a.groupBlocks i x.g) with
      | (s, .error e) => (s, .error e)
      | (s, .ok xs) =>
        let (e, sat) := broadcast s.isA0 (isIntFmt i.fmt) xs cols (nth [] acc x.entry)
        s.denseRun c stem a i nb rest (some (x.g, x.k, cols)) (acc.set x.entry e)
          { n with macs := n.macs + 1024 * (a.groupBlocks i x.g).length, saturated := n.saturated + sat }

/-- The value of an output channel before its conversion (R326): bias, then the residual, then ReLU. -/
def denseValue (int relu : Bool) (acc : Nat) (bias : Option Nat) (res : Option FVal) : FVal :=
  let v := if int then fp32.round (FVal.ofInt (toSigned 32 acc)) else f32 acc
  let v := match bias with | some b => add32 v (f32 b) | none => v
  let v := match res with | some r => add32 v r | none => v
  if relu then reluVal v else v

/-- The epilogue of an item's entries in order, up to the first access that fails (R326). -/
def State.denseRows (s : State) (c : Cmd) (w : WorkItem) (tile : Nat) (a : DenseArgs) (int : Bool) (o : CMap) (tu tv nb : Nat)
    (bias : Option (List Nat)) : List (List Nat × Nat) → PassCounts → State × Except AccErr PassCounts
  | [], n => (s, .ok n)
  | (acc, e) :: rest, n =>
    let u := 16 * tu + e % 16
    let v := 16 * tv + e / 16
    let cb := a.first + nb
    match (match (if a.residual then s.map? a.resMap else none) with
      | some m => (match s.mapCell c.origin m u v cb with
        | (s, .error x) => (s, Except.error x)
        | (s, .ok r) => (s, .ok (some r)))
      | none => (s, .ok none)) with
    | (s, .error x) => (s, .error x)
    | (s, .ok res) =>
      let vs := acc.zipIdx.map (fun x => denseValue int a.relu x.1 (bias.map (fun b => nth 0 b x.2)) (res.map (fun r => nth .nan r x.2)))
      let (s, draws) := s.draws32 c w.stem tile (s.partStoch c.part && stochFmt o.fmt)
      let b := convertBlock o.fmt vs draws
      match s.storeBlock c.origin o.fmt 32 (o.addr u v cb) 0 b with
      | (s, some x) => (s, .error x)
      | (s, none) => s.denseRows c w tile a int o tu tv nb bias rest
          { n with outSaturated := n.outSaturated + b.saturated, nonfinite := n.nonfinite + b.nonfinite }

/-- The end of a pass: an unfinished item saves its image, a finished one writes its rows. -/
def State.endDense (s : State) (c : Cmd) (index : Nat) (w : WorkItem) (tile : Nat) (a : DenseArgs) (i o : CMap) (tu tv nb k : Nat)
    (complete : Bool) (acc : List (List Nat)) (n : PassCounts) : State :=
  let s := s.putAcc w tile acc
  if complete then
    match s.loadBias c a.bias a.biasBase nb with
    | (s, .error e) => s.failPass index w e
    | (s, .ok bias) =>
      match s.denseRows c w tile a (isIntFmt i.fmt) o tu tv nb bias acc.zipIdx n with
      | (s, .error e) => s.failPass index w e
      | (s, .ok n) => s.commitPass index w tile k n true
  else
    match s.saveImage c w tile a.partialOff with
    | (s, some e) => s.failPass index w e
    | (s, none) => s.commitPass index w tile k n false

/-- A pass of an item of a dense layer. -/
def State.densePass (s : State) (index : Nat) (c : Cmd) (w : WorkItem) (tile q nb : Nat) : State :=
  let a := c.denseArgs
  match s.map? a.inMap, s.map? a.outMap with
  | some i, some o =>
    let tu := q % (o.width / 16)
    let tv := q / (o.width / 16)
    let all := a.casts i tu tv
    let n := passLength all.length w.broadcasts (cadence i.fmt a.wFmt a.sparse).2
    match s.beginPass c w tile 256 a.partialOff with
    | (s, .error e) => s.failPass index w e
    | (s, .ok acc) =>
      match s.denseRun c w.stem a i nb ((all.drop w.broadcasts).take n) none acc {} with
      | (s, .error e) => s.failPass index w e
      | (s, .ok (acc, cnt)) =>
        (s.endDense c index w tile a i o tu tv nb n (decide (w.broadcasts + n = all.length)) acc cnt).endItems c.id
  | _, _ => s

/-- DENSE_PASS (R324 to R326). -/
def execDensePass (index : Nat) (s : State) : Host.Outcome State Fault Refusal :=
  answer s true (s.onPass index (fun c w tile =>
    match w.kind with
    | .dense q nb => s.densePass index c w tile q nb
    | _ => s))

end Sys2Proof.Machine
end

