-- ==== Sys2Proof/Machine/SecurityCommands.lean ====
section
/-! DEFINITION. The security commands (R497, R500, R506 to R508) and PCIe IDE (R503). -/
namespace Sys2Proof.Machine

/-! Firmware images. -/

/-- FIRMWARE_STAGE: the first time it takes the slot that is not running, which is not valid from then on; the second time the image has been
written, and it is verified and marked (R506, R507). -/
def execFirmwareStage (cmd : Nat) (s : State) : Host.Outcome State Fault Refusal :=
  answer s true (s.onCmd cmd 0x0 0xB0 (fun c =>
    let b := !s.rdB Fld.secBootStatus_slot
    if !s.security.flash.present then s.finish cmd stFlashError
    else if !c.started then
      if s.security.staging.isSome then s.finish cmd stFwBusy
      else
        let s := (s.updCmd cmd (fun c => { c with started := true })).updDir (fun d => d.mark b false)
        { s with security := { s.security with staging := some cmd } }
    else
      let s := { s with security := { s.security with staging := none } }
      match s.basicLoad c (c.b 24 8) (c.b 32 4) with
      | (s, .error e) => s.failAcc cmd e
      | (s, .ok img) =>
        let s := s.putSlot b img
        match s.imageFault img with
        | some e => s.finish cmd e.1 e.2
        | none => (s.updDir (fun d => d.mark b true)).finish cmd stSuccess))

/-- A FIRMWARE_ACTIVATE command in flight with its action. -/
def State.onActivate (s : State) (cmd action : Nat) (f : State) : State :=
  s.onCmd cmd 0x0 0xB1 (fun c =>
    if c.b 16 1 != action then s
    else if !s.security.flash.present then s.finish cmd stFlashError
    else f)

/-- FIRMWARE_ACTIVATE_TRIAL: the staged slot is preferred, on trial, from the next reset (R493, R506, R507). -/
def execFirmwareActivateTrial (cmd : Nat) (s : State) : Host.Outcome State Fault Refusal :=
  answer s true (s.onActivate cmd 0 (
    let b := !s.rdB Fld.secBootStatus_slot
    if !((s.security.flash.dir?).getD {}).valid b then s.finish cmd stImageFormat
    else (s.updDir (fun d => { d with preferredB := b, trial := true })).finish cmd stSuccess))

/-- FIRMWARE_ACTIVATE_COMMIT: the running slot is committed: the trial flag and SEC_TRIAL_SEEN.seen clear (R493, R506). -/
def execFirmwareActivateCommit (cmd : Nat) (s : State) : Host.Outcome State Fault Refusal :=
  answer s true (s.onActivate cmd 1 (
    let s := s.updDir (fun d => { d with preferredB := s.rdB Fld.secBootStatus_slot, trial := false })
    ((s.wrB Fld.secTrialSeen_seen false).wrB Fld.secBootStatus_trial false).finish cmd stSuccess))

/-! OTP. -/

/-- Whether an order to revoke a slot is accepted (R497). -/
def State.orderOk (s : State) (b : List Byte) : Bool :=
  let o := s.security.otp
  let slot := leAt b 5 1
  let signer := leAt b 6 1
  let serial := leAt b 8 8
  let key := slice b 16 2592
  b.length == 7235 && leAt b 0 4 == 0x4E4F5450 && leAt b 4 1 == 0 && decide (slot < 4) && decide (signer < 4) && signer != slot
    && !o.revoked.testBit signer && Config.sha3 key == nth [] o.rootDigests signer
    && Config.mldsaVerify key (b.take 2608) (b.drop 2608)
    && (serial == 0 || serial == o.serial.toNat) && slot != s.rdN Fld.secBootStatus_key_slot
    && (List.range 4).any (fun k => !(setBit o.revoked slot).testBit k)

/-- OTP_ORDER: a root slot is revoked, or no fuse changes (R497). -/
def execOtpOrder (cmd : Nat) (s : State) : Host.Outcome State Fault Refusal :=
  answer s true (s.onCmd cmd 0x0 0xB2 (fun c =>
    match s.basicLoad c (c.b 24 8) (c.b 32 4) with
    | (s, .error e) => s.failAcc cmd e
    | (s, .ok b) =>
      if s.orderOk b then
        let x := s.security
        ({ s with security := { x with otp := { x.otp with revoked := setBit x.otp.revoked (leAt b 5 1) } } }).finish cmd stSuccess
      else s.finish cmd stOtpRefused (BitVec.ofNat 32 (leAt b 5 1))))

/-- ROLLBACK_COMMIT: rollback bits are blown up to the running image's security version, not while the trial flag is set (R497). -/
def execRollbackCommit (cmd : Nat) (s : State) : Host.Outcome State Fault Refusal :=
  answer s true (s.onCmd cmd 0x0 0xB3 (fun _ =>
    if ((s.security.flash.dir?).getD {}).trial then s.finish cmd stOtpRefused 0xFF
    else
      let x := s.security
      let v := max x.otp.rollback (s.rdN Fld.secBootStatus_sec_version)
      ({ s with security := { x with otp := { x.otp with rollback := v } } }).finish cmd stSuccess))

/-! Measurements and hashes. -/

/-- MEASURE_EXTEND: a host measurement register is extended with a digest (R500, R506). -/
def execMeasureExtend (cmd : Nat) (s : State) : Host.Outcome State Fault Refusal :=
  answer s true (s.onCmd cmd 0x0 0xB4 (fun c =>
    let r := c.b 16 1
    if r < 9 ∨ r > 15 then s.finish cmd stMeasureRange (BitVec.ofNat 32 r)
    else match s.basicLoad c (c.b 24 8) 64 with
    | (s, .error e) => s.failAcc cmd e
    | (s, .ok d) => (s.extendMeasure r d).finish cmd stSuccess))

/-- SEC_HASH: SHA3-512 of a local region (R508). -/
def execSecHash (cmd : Nat) (s : State) : Host.Outcome State Fault Refusal :=
  answer s true (s.onCmd cmd 0xB 0x01 (fun c =>
    match s.load c.origin (c.b 24 6) (c.b 36 4) with
    | (s, .error e) => s.failAcc cmd e
    | (s, .ok b) =>
      match s.store c.origin (c.b 30 6) (slice (Config.sha3 b) 0 64) with
      | (s, some e) => s.failAcc cmd e
      | (s, none) => s.finish cmd stSuccess))

/-- SEC_VERIFY: an ML-DSA-87 signature is checked; the detail says 0 when it verifies and 1 when it does not (R508). -/
def execSecVerify (cmd : Nat) (s : State) : Host.Outcome State Fault Refusal :=
  answer s true (s.onCmd cmd 0xB 0x02 (fun c =>
    match s.load c.origin (c.b 24 6) 2592 with
    | (s, .error e) => s.failAcc cmd e
    | (s, .ok key) =>
      match s.load c.origin (c.b 30 6) (c.b 36 4) with
      | (s, .error e) => s.failAcc cmd e
      | (s, .ok msg) =>
        match s.load c.origin (c.b 40 6) 4627 with
        | (s, .error e) => s.failAcc cmd e
        | (s, .ok sig) => s.finish cmd stSuccess (if Config.mldsaVerify key msg sig then 0 else 1)))

/-! PCIe IDE (R503). -/

/-- An error is logged in a function's AER. -/
def State.aerNonFatal (s : State) (fn : Nat) : State := s.updFn fn (fun f => { f with aerNonFatal := f.aerNonFatal + 1 })
def State.aerCorrectable (s : State) (fn : Nat) : State := s.updFn fn (fun f => { f with aerCorrectable := f.aerCorrectable + 1 })

/-- IDE_INTEGRITY_FAILURE: a stream fails integrity and is Insecure; a command that loses a host access by it fails (R503). -/
def execIdeIntegrityFailure (stream : Nat) (cmd : Option Nat) (s : State) : Host.Outcome State Fault Refusal :=
  answer s (isIdeStream stream) (
    if nth .disabled s.security.ide stream != .secure then s
    else
      let s := { s with security := { s.security with ide := s.security.ide.set stream .insecure } }
      let s := (s.count Fld.secIdeFail_failures 1).aerNonFatal 0
      match cmd.bind s.cmd? with
      | some c => if c.phase == .running then (s.dropWork c.id).finish c.id stIdeStream (BitVec.ofNat 32 stream) else s
      | none => s)

/-- SPDM_MESSAGE: a message arrives over DOE. SPDM and IDE_KM are other documents', so what a message does to the streams is a free choice:
nothing, keys that make one stream Secure, or the end of one (R499, R503). Streams are Secure in FLIT mode alone. -/
def execSpdmMessage (message : List Byte) (s : State) : Host.Outcome State Fault Refusal :=
  answer s true (if message.isEmpty || s.security.perst then s
    else
      let (k, s) := s.choose 17
      let set (i : Nat) (x : IdeState) : State := { s with security := { s.security with ide := s.security.ide.set i x } }
      if k = 0 then s
      else if k ≤ 8 then (if s.rdB Fld.pciLinkStatus_flit_mode && s.security.identity then set (k - 1) .secure else s)
      else set (k - 9) .disabled)

/-- PCIE_LINK_RETRAIN: the link trains to a speed and a width (R503, R554, R556). A retrain that changes either is a correctable error. -/
def execPcieLinkRetrain (speed width : Nat) (s : State) : Host.Outcome State Fault Refusal :=
  answer s true (
    let ok := (speed == 1 || speed == 4 || speed == 5 || speed == 6) && (width == 4 || width == 8 || width == 16)
    if !ok then s
    else
      let was := s.rdN Fld.pciLinkStatus_speed
      let changed := was != 0 && (was != speed || s.rdN Fld.pciLinkStatus_width != width)
      let flit := speed == 6
      let s := (s.wrN Fld.pciLinkStatus_speed speed).wrN Fld.pciLinkStatus_width width
      let s := (s.wrB Fld.pciLinkStatus_flit_mode flit).wrB Fld.pciLinkStatus_degraded (speed != 6 || width != 16)
      let s := if flit then s else
        { s with security := { s.security with ide := s.security.ide.map (fun x => if x == .secure then .insecure else x) } }
      if changed then s.aerCorrectable 0 else s)

end Sys2Proof.Machine
end

