-- ==== Sys2Proof/Machine/Mailbox.lean ====
section
/-! DEFINITION. The management mailbox (R501): attestation (R502), the identity chain (R499), debug unlock (R504, R505) and recovery. -/
namespace Sys2Proof.Machine

/-- An argument of a function's request. -/
def State.mboxArg (s : State) (fn i : Nat) : Nat := s.rdN Fld.secMboxArg_arg i fn

/-- The request of a function with an opcode, where it is the one that is served: the first in the queue; in HALT no firmware serves any
(R487, R501). -/
def State.onMailbox (s : State) (fn op : Nat) (f : State) : State :=
  if s.security.perst || s.stage == 15 || s.pcie.mailboxQueue.head? != some fn || s.rdN Fld.secMboxCmd_opcode 0 fn != op then s else f

/-- A request ends with a status, and refused ones behind it with theirs. -/
def State.mboxEnds (s : State) (fn : Nat) (st : Half) : State := (s.mboxDone fn st).settleMailbox 64

/-- A request ends with bytes for its function: they are written under R44, or the status says that they could not be. -/
def State.mboxWrites (s : State) (fn addr : Nat) (b : List Byte) : State :=
  if s.holds fn then s.mboxEnds fn stAddress
  else (s.hostStore fn addr b).mboxEnds fn stSuccess

/-- Bytes that a request names in host memory are read for its function (R44). -/
def State.mboxReads (s : State) (fn addr n : Nat) : State × Option (List Byte) :=
  if s.holds fn then (s, none) else (s.emit (.hostRead fn addr n), some (memRead s.host addr n))

/-- The signed part of an attestation report (R502). -/
def State.reportBody (s : State) (fn : Nat) (nonce : List Byte) (mask : Nat) : List Byte :=
  let o := s.security.otp
  natToBytes 4 0x4E415452 ++ [1] ++ natToBytes 1 s.mode ++ natToBytes 1 (lifecycleCode o.lifecycle)
    ++ natToBytes 1 (s.rdN Fld.secBootStatus_key_slot) ++ natToBytes 8 o.serial.toNat ++ natToBytes 8 (s.leaf coresIsland).toNat
    ++ natToBytes 1 (s.rdN Fld.secBootStatus_sec_version) ++ natToBytes 1 o.rollback ++ natToBytes 2 s.chipId ++ natToBytes 2 fn
    ++ [0, 0] ++ slice nonce 0 64 ++ natToBytes 2 mask ++ List.replicate 6 0
    ++ (bitList 16 mask).flatMap (fun r => slice (nth [] s.security.measure r) 0 64)

/-- ATTEST (R498, R501, R502). -/
def execAttest (fn : Nat) (s : State) : Host.Outcome State Fault Refusal :=
  answer s (isFn fn) (s.onMailbox fn 1 (
    if !s.security.identity then s.mboxEnds fn stIdentityAbsent
    else match s.mboxReads fn (s.mboxArg fn 0) 64 with
    | (s, none) => s.mboxEnds fn stAddress
    | (s, some nonce) =>
      let b := s.reportBody fn nonce (s.mboxArg fn 2 % 65536)
      s.mboxWrites fn (s.mboxArg fn 1) (b ++ slice (Config.mldsaSign s.security.otp.identitySeed b) 0 4627)))

/-- CERT_READ (R498, R499, R501). -/
def execCertRead (fn : Nat) (s : State) : Host.Outcome State Fault Refusal :=
  answer s (isFn fn) (s.onMailbox fn 2 (
    if !s.security.identity then s.mboxEnds fn stIdentityAbsent
    else s.mboxWrites fn (s.mboxArg fn 1) (slice s.security.chain 0 14630)))

/-! Debug unlock. -/

/-- 32 random bytes of the security block. -/
def State.random32 (s : State) : List Byte × State :=
  (List.range 4).foldl (fun (b, s) _ =>
    let (w, s) := s.draw
    (b ++ natToBytes 8 w.toNat, s)) ([], s)

/-- DEBUG_CHALLENGE: a challenge is issued, which voids the one before (R504). -/
def execDebugChallenge (fn : Nat) (s : State) : Host.Outcome State Fault Refusal :=
  answer s (isFn fn) (s.onMailbox fn 3 (
    let scope := s.mboxArg fn 2 % 4
    let (r, s) := s.random32
    let o := s.security.otp
    let b := r ++ natToBytes 8 o.serial.toNat ++ natToBytes 8 (s.leaf coresIsland).toNat ++ natToBytes 1 scope
      ++ natToBytes 1 (lifecycleCode o.lifecycle) ++ List.replicate 14 0
    let s := { s with security := { s.security with challenge := some (b, scope), challengeAt := s.time.uptime } }
    s.mboxWrites fn (s.mboxArg fn 1) b))

/-- CHALLENGE_EXPIRE: 60 s have passed since the challenge was issued (R504). -/
def execChallengeExpire (s : State) : Host.Outcome State Fault Refusal :=
  answer s true (
    if s.passed s.security.challengeAt 60000000000 then { s with security := { s.security with challenge := none } } else s)

/-- Why a debug response is refused, and whether the refusal counts as a failure (R499, R504, R505). -/
def State.debugRefusal (s : State) (b : List Byte) : Option (Half × Bool) :=
  let x := s.security
  let cert := slice b 80 7315
  let content := slice b 0 80
  if x.otp.debugDisable || x.otp.lifecycle == .decommissioned then some (stDebugDisabled, false)
  else if s.mode != modeBoot && s.mode != modeSafe then some (stDebugMode, false)
  else if s.rdB Fld.secDebugStatus_lockout then some (stDebugLockout, false)
  else match x.challenge with
  | none => some (stChallengeStale, true)
  | some (ch, scope) =>
    if slice b 0 64 != ch then some (stChallengeStale, true)
    else if b.length != 12022 || leAt b 64 8 != x.otp.serial.toNat || leAt b 72 1 != scope || leAt b 73 7 != 0
        || !certOk cert 2 || x.signerKey.isEmpty || certIssuer cert != Config.sha3 x.signerKey
        || !Config.mldsaVerify x.signerKey (cert.take 2688) (certSig cert)
        || !Config.mldsaVerify (certKey cert) content (slice b 7395 4627) then some (stSigInvalid, true)
    else if x.otp.revoked.testBit (s.rdN Fld.secBootStatus_key_slot) then some (stKeyRevoked, true)
    else none

/-- A refused response is counted, and the third in a row locks debug out (R505). -/
def State.countRefusal (s : State) : State :=
  let s := s.countSat Fld.secDebugStatus_failures 1
  if s.rdN Fld.secDebugStatus_failures ≥ 3 then s.wrB Fld.secDebugStatus_lockout true else s

/-- The device moves to MAINT, which only a reset leaves (R453, R460, R505). -/
def State.enterMaint (s : State) : State := ((s.wrN Fld.brkStatus_mode modeMaint).driveFault true).driveTwinFault true

/-- DEBUG_RESPONSE: a response unlocks its scope, or is refused (R500, R504, R505). -/
def execDebugResponse (fn : Nat) (s : State) : Host.Outcome State Fault Refusal :=
  answer s (isFn fn) (s.onMailbox fn 4 (
    match s.mboxReads fn (s.mboxArg fn 0) (s.mboxArg fn 1 % 65536) with
    | (s, none) => s.mboxEnds fn stAddress
    | (s, some b) =>
      match s.debugRefusal b with
      | some (st, counts) => (if counts then s.countRefusal else s).mboxEnds fn st
      | none =>
        let s := (s.wrN Fld.secDebugStatus_failures 0).extendMeasure 4 (Config.sha3 b)
        let s := s.wrN Fld.secDebugStatus_unlocked (s.rdN Fld.secDebugStatus_unlocked ||| leAt b 72 1)
        s.enterMaint.mboxEnds fn stSuccess))

/-! Recovery. -/

/-- A slot with some bytes of it replaced. -/
def patchSlot (img : List Byte) (off : Nat) (b : List Byte) : List Byte := slice img 0 off ++ b ++ img.drop (off + b.length)

/-- RECOVERY_BLOCK: data goes to slot B; with the last block the ROM verifies the slot and prefers it on trial (R496, R501). -/
def execRecoveryBlock (fn : Nat) (s : State) : Host.Outcome State Fault Refusal :=
  answer s (isFn fn) (s.onMailbox fn 5 (
    let off := s.mboxArg fn 1
    let n := s.mboxArg fn 2
    if n > 1048576 ∨ off + n > slotBytes then s.mboxEnds fn stBadValue
    else if !s.security.flash.present then s.mboxEnds fn stFlashError
    else match s.mboxReads fn (s.mboxArg fn 0) n with
    | (s, none) => s.mboxEnds fn stAddress
    | (s, some b) =>
      let img := patchSlot s.security.flash.slotB off b
      let s := s.putSlot true img
      if s.mboxArg fn 3 % 2 = 0 then s.mboxEnds fn stSuccess
      else match s.imageFault img with
      | some e => s.mboxEnds fn e.1
      | none => (s.updDir (fun d => { d.mark true true with preferredB := true, trial := true })).mboxEnds fn stSuccess))

end Sys2Proof.Machine
end

