-- ==== Sys2Proof/Machine/Observe.lean ====
section
/-! DEFINITION. Trace orders (R520 to R523, R532), watchdogs and hung units (R526, R527), and dumps (R528, R529). -/
namespace Sys2Proof.Machine

/-! Trace. -/

/-- A TRACE_CTRL command in flight with its action: it fails where there is no trace region, and else its order is written to the Queue
Manager's Rings and carried out (R103, R532). -/
def State.onTraceCtrl (s : State) (cmd action : Nat) (f : State → Cmd → State) : State :=
  s.onCmd cmd 0x0 0xE0 (fun c =>
    if c.b 16 1 != action then s
    else if s.rdN Fld.trcSize_size_mib == 0 then s.finish cmd stResource
    else (f s c).finish cmd stSuccess)

/-- A trace order reaches the Queue Manager. -/
def State.traceOrder (s : State) (c : Cmd) : State :=
  s.order qmUnit (orderSource c.fn) c.ev (natToBytes 1 c.opcode ++ natToBytes 1 (c.b 16 1))

/-- TRACE_START (R522, R532). -/
def execTraceStart (cmd : Nat) (s : State) : Host.Outcome State Fault Refusal :=
  answer s true (s.onTraceCtrl cmd 0 (fun s c => (s.traceOrder c).traceStart))

/-- TRACE_STOP (R522, R532). -/
def execTraceStop (cmd : Nat) (s : State) : Host.Outcome State Fault Refusal :=
  answer s true (s.onTraceCtrl cmd 1 (fun s c => (s.traceOrder c).traceStop))

/-- TRACE_TRIGGER_NOW: in mode TRIGGER the order becomes the trigger, unless there has been one (R523). -/
def execTraceTriggerNow (cmd : Nat) (s : State) : Host.Outcome State Fault Refusal :=
  answer s true (s.onTraceCtrl cmd 2 (fun s c =>
    s.event qmUnit 0x0A { c.ev with traced := true } (natToBytes 1 c.opcode ++ natToBytes 1 2) true (orderSource c.fn) 0))

/-- TRACE_SET_MODE (R532). -/
def execTraceSetMode (cmd : Nat) (s : State) : Host.Outcome State Fault Refusal :=
  answer s true (s.onTraceCtrl cmd 3 (fun s c => (s.traceOrder c).wrN Fld.trcCtrl_mode (c.b 17 1)))

/-- TRACE_MARK: a marker is emitted (R520, R532). -/
def execTraceMark (cmd : Nat) (s : State) : Host.Outcome State Fault Refusal :=
  answer s true (s.onCmd cmd 0x0 0xE1 (fun c => (s.event qmUnit 0x0B c.ev (natToBytes 12 (c.b 20 12))).finish cmd stSuccess))

/-! Dumps. -/

/-- DUMP_REQUEST: Bark captures a dump with reason 2, where a slot is free (R527, R528, R532). It waits for Bark where Bark is being
reset. -/
def execDumpRequest (cmd : Nat) (s : State) : Host.Outcome State Fault Refusal :=
  answer s true (s.onCmd cmd 0x0 0xE2 (fun _ =>
    if !s.barkRuns then s
    else
      let room := s.rdN Fld.trcDumpBase_base != 0 && s.freeDumpSlot.isSome
      let seq := s.observe.dumpSeq
      let s := s.captureDump 2 0
      if room then s.finish cmd stSuccess seq else s.finish cmd stResource))

/-- The units that count (R512), in ascending unit ID. -/
def allUnits : List Nat :=
  let crown (k n : Nat) : List Nat := (List.range n).map (fun i => unitId k 0 i)
  let stems (k n : Nat) : List Nat := (List.range 4).flatMap (fun j => (List.range n).map (fun i => unitId k j i))
  crown 0 1 ++ crown 1 16 ++ crown 2 256 ++ stems 3 4 ++ stems 4 4 ++ stems 5 64 ++ stems 6 1 ++ stems 7 1 ++ stems 8 2 ++ crown 9 6
    ++ crown 10 1 ++ crown 11 1 ++ crown 12 1 ++ crown 13 1 ++ (List.range 4).map (fun j => unitId 14 j j)

/-- The physical number of a unit (R25). -/
def State.unitPos (s : State) (u : Nat) : Nat :=
  let stem := getBits u 10 2
  let n := u % 1024
  match engineOfUnit u with
  | some k => s.enginePos stem k n
  | none => if u / 4096 = 5 then s.posOf stem n else n

/-- The 16 bytes of a Rings record (R525). -/
def ringsBytes (r : RingsRecord) : List Byte :=
  natToBytes 6 r.time ++ natToBytes 1 r.event ++ natToBytes 1 (r.source % 8 + 8 * (r.place % 32)) ++ natToBytes 2 r.opId ++ slice r.param 0 6

/-- The section of the Rings (R529): of each unit a header and its 64 records, oldest first; records it has not written yet are zero. -/
def State.dumpRings (s : State) : List Byte :=
  allUnits.flatMap (fun u =>
    let rs := ((s.observe.rings.find? (fun r => r.1 == u)).map (·.2)).getD []
    natToBytes 2 u ++ natToBytes 2 (s.unitPos u) ++ natToBytes 4 0 ++ natToBytes 8 (s.leaf (unitIsland u)).toNat
      ++ List.replicate (16 * (64 - rs.length)) 0 ++ rs.reverse.flatMap ringsBytes)

/-- The section of the counters (R529): the free-running values of every unit's list (R513, R518). -/
def State.dumpCounters (s : State) : List Byte :=
  allUnits.flatMap (fun u => (kindCodes (u / 4096)).flatMap (fun k =>
    entryBytes { unit := u, code := k,
                 value := ((s.observe.counters.find? (fun x => x.1 == u && x.2.1 == k)).map (·.2.2)).getD 0 }))

/-- The section of the queues (R529), in a layout of the model's own: of each ring its number and both copies of its count, and of each
insert queue and receive FIFO the same. -/
def State.dumpQueues (s : State) : List Byte :=
  let one (kind n a b : Nat) : List Byte := natToBytes 2 kind ++ natToBytes 2 n ++ natToBytes 4 0 ++ natToBytes 4 a ++ natToBytes 4 b
  s.queues.sqs.flatMap (fun q => one 0 q.num q.fetched.toNat q.fetchedCopy.toNat)
    ++ s.queues.cqs.flatMap (fun q => one 1 q.num q.posted.toNat q.postedCopy.toNat)
    ++ s.compute.tables.flatMap (fun t => one 2 t.id t.accepted t.acceptedCopy)
    ++ (List.range 16).flatMap (fun p => one 3 p (nth {} s.ingest.fifos p).wr (nth {} s.ingest.fifos p).wrCopy)

/-- The section of the threads (R299, R529). -/
def State.dumpThreads (s : State) : List Byte :=
  (List.range 4).flatMap (fun j => (List.range 64).flatMap (fun t => (List.range 16).flatMap (fun k => s.threadStatus j t k)))

/-- The section of Bark's log (R471, R529): the fault records of the second before the trigger, the latest that fit. -/
def State.dumpLog (s : State) (at_ : DWord) (room : Nat) : List Byte :=
  let rs := s.bark.faultLog.filter (fun r => decide (r.time.toNat ≤ (s.leaf barkIsland).toNat) && decide (at_.toNat ≤ r.time.toNat + 1000000000))
  (rs.drop (rs.length - room / 32)).flatMap logBytes

/-- A dump's bytes (R529). -/
def State.dumpBytes (s : State) (d : Dump) : List Byte :=
  let a := [s.dumpRings, s.dumpCounters, s.dumpQueues, s.dumpThreads]
  let used := 64 + 80 + (a.map List.length).sum
  let secs := a ++ [s.dumpLog d.time (0x400000 - used)]
  let dir := (List.range 5).flatMap (fun i =>
    let off := 144 + ((secs.take i).map List.length).sum
    natToBytes 1 (i + 1) ++ [0, 0, 0] ++ natToBytes 4 off ++ natToBytes 4 (nth [] secs i).length ++ natToBytes 4 0)
  natToBytes 4 0x4E444D50 ++ natToBytes 4 d.seq.toNat ++ natToBytes 1 d.reason ++ [0] ++ natToBytes 2 d.unit ++ natToBytes 4 0
    ++ natToBytes 8 d.time.toNat ++ natToBytes 2 5 ++ List.replicate 38 0 ++ dir ++ secs.flatMap (fun x => x)

/-- DUMP_WRITTEN: the oldest dump stands in its slot; it is copied to the host and the vector is raised (R528). -/
def execDumpWritten (s : State) : Host.Outcome State Fault Refusal :=
  answer s true (match s.observe.dumps with
    | [] => s
    | d :: rest =>
      if !s.barkRuns then s
      else
        let b := s.dumpBytes d
        let at_ := s.rdN Fld.trcDumpBase_base * 4096 + d.slot * 0x400000
        let host := s.rdN Fld.trcDumpHost_host * 4096
        let s := { s with
          hbm := memWrite s.hbm at_ b
          observe := { s.observe with dumps := rest } }
        let s := s.wrN Fld.trcDumpStatus_slot_full (setBit (s.rdN Fld.trcDumpStatus_slot_full) d.slot)
        let s := if host == 0 || s.holds 0 then s else s.hostStore 0 (host + d.slot * 0x400000) b
        s.barkVector)

/-! Watchdogs. -/

/-- Commands with an item in the input queue of a unit, the voxel engines' apart: work that the unit has taken or that waits at it. -/
def State.queuedAt (s : State) (u : Nat) : List Nat :=
  let stem := getBits u 10 2
  let n := u % 1024
  let onStem (t : Nat) : Bool := match s.table? t with | some t => t.cfg.stems.contains stem | none => false
  match u / 4096 with
  | 0 => (s.queues.cmds.filter (fun c => c.phase == .waiting)).map (·.id)
  | 4 => (s.compute.convs.filter (fun v => onStem v.inTable || onStem v.outTable)).map (·.cmd)
  | 5 =>
    (s.compute.items.filter (fun w => !w.done && w.stem == stem && w.tile.or w.fixedTile == some n)).map (·.cmd)
      ++ (s.compute.programs.filter (fun p => (nth 0 p.tiles stem).testBit n)).map (·.cmd)
  | 6 => s.needEngine stem .canopy
  | 7 => s.needEngine stem .sort
  | 8 => (s.gather.runs.filter (fun r => r.positions.any (fun p => p.engine == stem * 2 + n))).map (·.cmd)
  | _ => []

/-- A command fails because a queue that held an item of it was reset (R480). -/
def State.failQueued (s : State) (id : Nat) : State :=
  match s.cmd? id with
  | some c =>
    if c.phase == .finished || c.recorded then s
    else ((s.dropWork id).updCmd id (fun c => { c with startNs := if c.phase == .waiting then s.now else c.startNs })).finish id stQueueReset
  | none => s

/-- Bark resets a unit's input queue: it empties, and each command with an item in it fails (R480). A voxel engine's queues are those of
the tables that have batches waiting on its Stem; the Doorbell Watch's reads and a link's packets are dropped. -/
def State.resetInputQueue (s : State) (u : Nat) : State :=
  let stem := getBits u 10 2
  let n := u % 1024
  let told (s : State) : State := s.queueReset u { source := 0x16, stem := stem, logical := n, detail := unitDetail u }
  match u / 4096 with
  | 3 =>
    let ts := s.compute.tables.filter (fun t => t.cfg.stems.contains stem && !t.queue.isEmpty)
    if ts.isEmpty then told s else ts.foldl (fun s t => s.resetInsertQueue t) s
  | 9 => (s.fabric.inbox.filter (fun x => x.link == n)).foldl (fun s x => s.leaveInbox x) (told s)
  | 12 => told { s with queues := { s.queues with lines := updWhere s.queues.lines (fun _ => true) (fun l => { l with reading := false }) } }
  | _ => told ((s.queuedAt u).eraseDups.foldl (fun s id => s.failQueued id) s)

/-- Whether the watchdog of a unit runs: watchdogs skip a Stem that is not ON (R526, R546). -/
def State.watched (s : State) (u : Nat) : Bool :=
  s.rdB Fld.trcWdCfg_enable && (decide (u / 4096 < 3) || decide (8 < u / 4096) || s.stemOn (getBits u 10 2))

/-- Whether a unit holds accepted work whose time counts (R526): commands that only wait on a Knot or for a completion slot, work that a
TDMA slot excludes and suspended programs do not. -/
def State.holdsWork (s : State) (u : Nat) : Bool :=
  let stem := getBits u 10 2
  let n := u % 1024
  match u / 4096 with
  | 0 => s.queues.sqs.any (fun q => q.reading != 0) || s.queues.cmds.any (fun c => s.ready c && s.slotReady c)
  | 3 => s.compute.tables.any (fun t => t.cfg.stems.contains stem && (!t.queue.isEmpty || !t.inserts.isEmpty || !t.orders.isEmpty))
  | 5 =>
    s.compute.items.any (fun w => w.active && w.stem == stem && w.tile == some n
        && (match s.cmd? w.cmd with | some c => s.slotAdmits stem c.part | none => true))
      || s.compute.programs.any (fun p => p.started && (nth 0 p.tiles stem).testBit n && !p.suspended.contains (stem, n))
  | 9 => s.fabric.inbox.any (fun x => x.link == n) || !(nth {} s.fabric.links n).replay.isEmpty
  | 12 => s.queues.lines.any (fun l => l.reading)
  | _ => !(s.queuedAt u).isEmpty

/-- wd_us as it acts, in ns (R533). -/
def State.wdNs (s : State) : Nat := 1000 * max 1000 (s.rdN Fld.trcWdCfg_wd_us)

/-- Whether a unit has committed nothing for wd_us: since it last did, took up a command, or hung. -/
def State.silentFor (s : State) (u : Nat) : Bool :=
  s.duePeriod ((s.observe.workAt.find? (fun x => x.1 == u)).map (·.2)) s.wdNs

/-- UNIT_HANG: a unit has held accepted work and committed none for wd_us: the hang stands in its Rings, a dump is captured, and its input
queue is reset (R526, R527). -/
def execUnitHang (unit : Nat) (s : State) : Host.Outcome State Fault Refusal :=
  answer s (isWatched unit) (
    if !s.watched unit || !s.barkRuns || s.observe.hung.contains unit || !s.holdsWork unit || !s.silentFor unit then s
    else
      let s := (s.ring unit 0x10 0 0 0 []).noteWork unit
      let s := { s with observe := { s.observe with hung := s.observe.hung ++ [unit] } }
      (s.captureDump 0 unit).resetInputQueue unit)

/-- What a graft of a unit moves: tiles and engines have spares (R469, R470). -/
def graftOfUnit (u : Nat) : Option GraftTarget :=
  match engineOfUnit u with
  | some k => some (.engine (getBits u 10 2) k (u % 1024))
  | none => if u / 4096 = 5 then some (.tile (getBits u 10 2) (u % 1024)) else none

/-- HANG_GRAFT_TIMEOUT: the hung unit has committed nothing for a further wd_us, and is grafted or lost (R469, R470, R527). A graft that
must wait stays due. -/
def execHangGraftTimeout (unit : Nat) (s : State) : Host.Outcome State Fault Refusal :=
  answer s (isWatched unit) (
    if !s.observe.hung.contains unit || !s.barkRuns || !s.silentFor unit then s
    else
      let s := { s with observe := { s.observe with hung := s.observe.hung.erase unit } }
      match graftOfUnit unit with
      | none => s
      | some g =>
        let due := s.bark.graftDue
        let s := if due.contains g then s else { s with bark := { s.bark with graftDue := due ++ [g] } }
        s.graft g)

end Sys2Proof.Machine
end

