-- ==== Sys2Proof/Machine/Power.lean ====
section
/-! DEFINITION. Pollard (R538 to R542), the thermal limits (R543, R544), whole-Stem power-down (R481, R545 to R547) and the device power
states (R548 to R550). -/
namespace Sys2Proof.Machine

/-! Pollard. Ceilings are in units of 25 MHz: 14 is 0.35 GHz, 40 is 1.0 GHz, 48 is 1.2 GHz and 56 is 1.4 GHz (R536). -/

/-- The Stems that are ON. -/
def State.onStems (s : State) : List Nat := (List.range 4).filter (fun j => s.stemOn j)

/-- Pollard's ceilings of a Stem's tiles and engines. -/
def State.tileCeil (s : State) (j : Nat) : Nat := nth 48 s.power.tileCeil j
def State.engineCeil (s : State) (j : Nat) : Nat := nth 40 s.power.engineCeil j

/-- The tile ceilings, or the engine ceilings, of every ON Stem change alike. -/
def State.mapTiles (s : State) (f : Nat → Nat) : State :=
  { s with power := { s.power with tileCeil := (List.range 4).map (fun j => if s.stemOn j then f (s.tileCeil j) else s.tileCeil j) } }
def State.mapEngines (s : State) (f : Nat → Nat) : State :=
  { s with power := { s.power with engineCeil := (List.range 4).map (fun j => if s.stemOn j then f (s.engineCeil j) else s.engineCeil j) } }

/-- tile_floor as it acts (R552). -/
def State.tileFloor (s : State) : Nat := max 14 (min 48 (s.rdN Fld.pwrCtrl_tile_floor))

/-- The highest tile ceiling of a Stem (R536, R541). -/
def State.tileTop (s : State) (j : Nat) : Nat := if s.boosts j then 56 else 48

/-- Tile ceilings beyond what a Stem may have now come down to it (R541). -/
def State.clipTiles (s : State) : State :=
  { s with power := { s.power with tileCeil := (List.range 4).map (fun j => min (s.tileTop j) (s.tileCeil j)) } }

/-- A loop with power beyond the cap lowers the first ceiling that can still fall, by up to 200 MHz: how the step follows the excess is a
free choice; where every ceiling stands at 0.35 GHz the cap is unmet (R539, R540). -/
def State.lowerCeilings (s : State) : State :=
  let on := s.onStems
  let floor := s.tileFloor
  let (k, s) := s.choose 8
  let down (to_ n : Nat) : Nat := if n ≤ to_ then n else max to_ (n - (k + 1))
  if on.any (fun j => decide (s.tileCeil j > floor)) then s.mapTiles (down floor)
  else if on.any (fun j => decide (s.engineCeil j > 14)) then s.mapEngines (down 14)
  else if on.any (fun j => decide (s.tileCeil j > 14)) then s.mapTiles (down 14)
  else s.wrB Fld.pwrStatus_cap_unmet true

/-- A loop with power below 97 % of the cap raises ceilings in the reverse order, by 50 MHz (R539, R541). -/
def State.raiseCeilings (s : State) : State :=
  let on := s.onStems
  let floor := s.tileFloor
  let up (to_ n : Nat) : Nat := if to_ ≤ n then n else min to_ (n + 2)
  if on.any (fun j => decide (s.tileCeil j < floor)) then s.mapTiles (up floor)
  else if on.any (fun j => decide (s.engineCeil j < 40)) then s.mapEngines (up 40)
  else { s with power := { s.power with
      tileCeil := (List.range 4).map (fun j => if s.stemOn j then up (s.tileTop j) (s.tileCeil j) else s.tileCeil j) } }

/-- PWR_STEMn_THROTTLE counts the time that has passed with a tile ceiling below 1.2 GHz (R552). -/
def State.noteThrottle (s : State) : State :=
  let dt := (s.now - s.power.throttleAt).toNat
  let s := s.onStems.foldl (fun s j =>
    if s.tileCeiling j < 48 then s.count Fld.pwrStemThrottle_throttle_ns dt j else s) s
  { s with power := { s.power with throttleAt := s.now } }

/-- A reading of the rail monitors over 100 µs reaches PWR_STATUS and PWR_ENERGY (R538, R552). -/
def State.notePower (s : State) (mw : Nat) : State :=
  let recent := (mw :: s.power.recent).take 10
  let e := s.power.energyRem + mw
  let s := { s with power := { s.power with recent := recent, energyRem := e % 10 } }
  (s.wrN Fld.pwrStatus_power_mw (satTo 32 (recent.sum / recent.length))).count Fld.pwrEnergy_energy_uj (e / 10)

/-- POLLARD_LOOP: the power averaged over the last 100 µs is compared with the cap, and ceilings move (R538 to R541). -/
def execPollardLoop (milliwatts : Nat) (s : State) : Host.Outcome State Fault Refusal :=
  answer s true (
    let s := s.noteThrottle.notePower milliwatts
    if !s.rdB Fld.pwrCtrl_pollard_enable then s
    else
      let cap := 1000 * s.capWatts
      let room := decide (100 * milliwatts < 97 * cap)
      let s := if milliwatts < cap then s.wrB Fld.pwrStatus_cap_unmet false else s
      let s := { s with power := { s.power with headroom := room } }.clipTiles
      if milliwatts > cap then s.lowerCeilings else if room then s.raiseCeilings else s)

/-- POWER_CAP: a new cap (R538, R551). -/
def execPowerCap (cmd : Nat) (s : State) : Host.Outcome State Fault Refusal :=
  answer s true (s.onCmd cmd 0x0 0xF0 (fun c => (s.wrN Fld.pwrCap_cap_w (c.b 16 2)).finish cmd stSuccess))

/-! Temperature. -/

/-- The hottest tile among readings and its temperature: the lowest number among equals. -/
def hottest (ts : List Nat) : Nat × Nat :=
  (List.range ts.length).foldl (fun m i => if nth 0 ts i > m.2 then (i, nth 0 ts i) else m) (0, nth 0 ts 0)

/-- throttle_c as it acts (R552). -/
def State.throttleC (s : State) : Nat := min 100 (s.rdN Fld.pwrCtrl_throttle_c)

/-- The readings of a Stem's tiles move its thermal ceiling (R543) and its clamp (R544). -/
def State.stemTemps (s : State) (j : Nat) (ts : List Nat) : State :=
  let (tile, top) := hottest ts
  let s := (s.wrN Fld.pwrStemStatus_max_temp_c top j).wrN Fld.pwrStemStatus_hottest_tile tile j
  let c := s.rdN Fld.pwrStemStatus_thermal_ceiling j
  let s := if top ≥ s.throttleC then s.wrN Fld.pwrStemStatus_thermal_ceiling (max 14 (c - 4)) j
    else if top + 5 < s.throttleC then s.wrN Fld.pwrStemStatus_thermal_ceiling (min 56 (c + 1)) j
    else s
  if top ≥ 105 ∧ !s.rdB Fld.pwrStemStatus_clamp j then
    (s.wrB Fld.pwrStemStatus_clamp true j).report
      { source := 0x05, stem := j, logical := tile, physical := s.posOf j tile, detail := unitDetail (unitId 5 j tile) }
  else if top < 100 then s.wrB Fld.pwrStemStatus_clamp false j
  else s

/-- THERMAL_SAMPLE: the temperature of every tile is read; a Stem that is OFF has no reading (R543, R544, R546). -/
def execThermalSample (temps : List (List Nat)) (s : State) : Host.Outcome State Fault Refusal :=
  answer s (isTemps temps) (
    let s := s.noteThrottle
    (List.range 4).foldl (fun s j =>
      if s.rdN Fld.pwrStemStatus_state j == 0 then s else s.stemTemps j (nth [] temps j)) s)

/-! Whole-Stem power-down. -/

/-- The states of a Stem are those of a bank (R59, R545). -/
def State.stemState (s : State) (j : Nat) : Nat := s.rdN Fld.pwrStemStatus_state j
def State.setStem (s : State) (j st : Nat) : State := s.wrN Fld.pwrStemStatus_state st j

/-- Whether a command in flight has work or resources on a Stem (R545): work items, engine work, table regions, map bands. -/
def State.worksOn (s : State) (j : Nat) (c : Cmd) : Bool :=
  let onStem (t : Nat) : Bool := match s.table? t with | some t => t.cfg.stems.contains j | none => false
  let k := s.compute
  k.items.any (fun w => w.cmd == c.id && !w.done && w.stem == j)
    || k.programs.any (fun p => p.cmd == c.id && nth 0 p.tiles j != 0)
    || k.convs.any (fun v => v.cmd == c.id && (onStem v.inTable || onStem v.outTable))
    || k.tables.any (fun t => t.cfg.stems.contains j && (t.pins.contains c.id || t.heldBy == some c.id || t.firmware == some c.id
        || t.queue.any (fun b => b.cmd == some c.id) || t.inserts.any (fun i => i.1 == c.id) || t.orders.any (fun o => o.cmd == c.id)))
    || s.canopy.maps.any (fun m => m.firmware == some c.id && m.stems.contains j)
    || (s.mapNeeds c).any (fun n => match s.map? n.map with | some m => m.stems.contains j | none => false)
    || s.sort.runs.any (fun r => r.cmd == c.id && r.stems.contains j)
    || s.gather.runs.any (fun r => r.cmd == c.id && r.positions.any (fun p => p.engine / 2 == j))
    || s.queues.runs.any (fun r => r.cmd == c.id && s.queues.packages.any (fun p =>
        p.part == r.part && p.handle == r.handle && nth 0 p.tiles j != 0))
    || (c.engineClass == 7 && s.gather.allocs.any (fun a => a.stem == j && a.part == c.part))

/-- Partitions that own Sapwood of a Stem: those that a window onto it names; one for any partition names the lowest. -/
def State.stemOwners (s : State) (j : Nat) : List Nat :=
  let lo := sliceBase j 0
  let hi := lo + 0x100000000
  ((List.range 64).map (fun w => (4 + j) * 64 + w)).filterMap (fun i =>
    if s.rdB Fld.brkFwCtl_enable i && decide (s.winBase i < hi) && decide (lo < s.winLimit i) && decide (s.winBase i < s.winLimit i) then
      some (if s.rdB Fld.brkFwCtl_any_partition i then 0 else s.rdN Fld.brkFwCtl_partition i)
    else none)

/-- The lowest partition that an off order of a Stem concerns (R545). -/
def State.stemConcern (s : State) (j : Nat) : Option Nat :=
  let ps := s.stemOwners j ++ ((s.queues.cmds.filter (fun c => c.phase != .waiting && s.worksOn j c)).map (·.part))
  match ps with
  | [] => none
  | p :: r => some (r.foldl min p)

/-- Commands that wait for a Stem end. -/
def State.endStemCmds (s : State) (j : Nat) (off : Bool) (st : Half) (detail : Word) : State :=
  let l := if off then s.power.offCmds else s.power.onCmds
  let rest := l.filter (fun x => x.1 != j)
  let s := { s with power := if off then { s.power with offCmds := rest } else { s.power with onCmds := rest } }
  (l.filter (fun x => x.1 == j)).foldl (fun s x => s.finish x.2 st detail) s

/-- A command waits for a Stem's OFF, or for its ON. -/
def State.awaitOff (s : State) (j cmd : Nat) : State :=
  { s with power := { s.power with offCmds := s.power.offCmds ++ [(j, cmd)] } }
def State.awaitOn (s : State) (j cmd : Nat) : State :=
  { s with power := { s.power with onCmds := s.power.onCmds ++ [(j, cmd)] } }

/-- An off order acts on a Stem that is ON: it begins to drain, or the commands that asked for it fail (R545). -/
def State.drainStem (s : State) (j : Nat) : State :=
  match s.stemConcern j with
  | some p => s.endStemCmds j true stOwnership (BitVec.ofNat 32 p)
  | none => s.setStem j bankDraining

/-- The order of a STEM_POWER command in flight with its direction, which takes effect once. -/
def State.onStemPower (s : State) (cmd dir : Nat) (f : State → Nat → State) : State :=
  match s.running cmd 0x0 0xF1 with
  | none => s
  | some c =>
    if c.b 17 1 != dir || c.started then s
    else
      let s := s.updCmd cmd (fun c => { c with started := true })
      let s := s.order qmUnit (orderSource c.fn) c.ev (natToBytes 1 c.opcode ++ natToBytes 1 dir ++ natToBytes 1 (c.f 0 16 0 2))
      f s (c.f 0 16 0 2)

/-- STEM_POWER_OFF (R481, R545, R547, R551). -/
def execStemPowerOff (cmd : Nat) (s : State) : Host.Outcome State Fault Refusal :=
  answer s true (s.onStemPower cmd 0 (fun s j =>
    let st := s.stemState j
    if st == bankOff then s.finish cmd stSuccess
    else if st == bankOn then (s.awaitOff j cmd).drainStem j
    else if st == bankStarting then
      let s := s.awaitOff j cmd
      if s.power.downPending.contains j then s
      else { s with power := { s.power with downPending := s.power.downPending ++ [j] } }
    else
      -- DRAINING: a pending re-enable is cleared, and what asked for it has been replaced
      ((s.wrB Fld.pwrStemStatus_reenable_pending false j).endStemCmds j false stSuccess 0).awaitOff j cmd))

/-- STEM_POWER_ON (R481, R547, R551). -/
def execStemPowerOn (cmd : Nat) (s : State) : Host.Outcome State Fault Refusal :=
  answer s true (s.onStemPower cmd 1 (fun s j =>
    let st := s.stemState j
    if st == bankOn then s.finish cmd stSuccess
    else if st == bankOff then (s.awaitOn j cmd).setStem j bankStarting
    else if st == bankStarting then
      -- a pending off order is cancelled, and what asked for it has been replaced
      ({ s with power := { s.power with downPending := s.power.downPending.erase j } }.endStemCmds j true stSuccess 0).awaitOn j cmd
    else (s.wrB Fld.pwrStemStatus_reenable_pending true j).awaitOn j cmd))

/-- A Stem's banks are OFF and their contents lost; its Core Samples and wear counts end, and requested sets skip its tiles (R58, R546). -/
def State.darken (s : State) (j : Nat) : State :=
  let s := (List.range 64).foldl (fun s t =>
    (s.wrN Fld.sapTilePwrState_bank_state 0 (tileIdx j t)).wrN Fld.sapTilePwrState_reenable_pending 0 (tileIdx j t)) s
  let s := s.zeroSap (sliceBase j 0) (sliceBase j 64)
  let s := { s with
    mem := { s.mem with downPending := s.mem.downPending.filter (fun b => b.stem != j) }
    bark := { s.bark with
      samples := s.bark.samples.filter (fun x => x.stem != j)
      wear := s.bark.wear.filter (fun w => w.unit.stem? != some j)
      sampleSets := updWhere s.bark.sampleSets (fun _ => true) (fun x => { x with tiles := x.tiles.filter (fun t => t.1 != j) }) } }
  (s.noteLanes j).settleSets.settleBanks

/-- STEM_OFF_DONE: a draining Stem is OFF; with reenable_pending it passes to STARTING (R481, R545 to R547). -/
def execStemOffDone (stem : Nat) (s : State) : Host.Outcome State Fault Refusal :=
  answer s (isStem stem) (
    if s.stemState stem != bankDraining then s
    else
      let s := ((s.darken stem).setStem stem bankOff).endStemCmds stem true stSuccess 0
      if s.rdB Fld.pwrStemStatus_reenable_pending stem then
        (s.wrB Fld.pwrStemStatus_reenable_pending false stem).setStem stem bankStarting
      else s)

/-- STEM_START_DONE: a starting Stem has been calibrated, every physical position has been sampled, and it is ON; a pending off order takes
effect (R481, R490, R547). -/
def execStemStartDone (stem : Nat) (failed : List Position) (s : State) : Host.Outcome State Fault Refusal :=
  answer s (isStem stem && failed.all (fun p => p.isPosition)) (
    if s.stemState stem != bankStarting then s
    else
      let s := ((s.setStem stem bankOn).sampledAll stem failed).endStemCmds stem false stSuccess 0
      if s.power.downPending.contains stem then
        ({ s with power := { s.power with downPending := s.power.downPending.erase stem } }).drainStem stem
      else s)

/-! Device power states. -/

/-- The submission rings of a function. -/
def State.fnSqs (s : State) (fn : Nat) : List Nat := (s.queues.sqs.filter (fun q => q.fn == fn)).map (·.num)

/-- Every ring of a function is killed, and the commands that can retire do (R107, R549). -/
def State.quiesce (s : State) (fn : Nat) : State :=
  let s := ((s.fnSqs fn).filter (fun n => ((s.sq? n).map (fun (q : Sq) => q.state == .off)) != some true)).foldl (fun s n =>
    (s.order qmUnit (orderSource fn) {} (natToBytes 2 0x0203 ++ natToBytes 2 n)).killRing n) s
  (s.queues.cmds.filter (fun c => c.fn == fn)).foldl (fun s c => s.retire c.id) s

/-- Whether every ring of a function is OFF. -/
def State.ringsOff (s : State) (fn : Nat) : Bool := s.queues.sqs.all (fun q => q.fn != fn || q.state == .off)

/-- A Wober link goes down with the device. -/
def State.closeLink (s : State) (l : Nat) : State :=
  if s.linkState l == lkUp then s.linkDown l
  else if s.linkState l == 0 then s
  else s.wrN Fld.wblLinkStatus_state lkDown l

/-- The physical function's entry into D3hot gates the Stems, releases the ownership of their banks, which are lost, and takes ports and
links down (R548, R549). -/
def State.gateStems (s : State) : State :=
  let was := (List.range 4).filter (fun j => s.stemState j == bankOn || s.stemState j == bankStarting)
  let s := (List.range 4).foldl (fun s j =>
    let s := ((s.darken j).setStem j bankOff).endStemCmds j true stSuccess 0
    (s.endStemCmds j false stSuccess 0).wrB Fld.pwrStemStatus_reenable_pending false j) s
  let s := { s with
    power := { s.power with wasOn := was, downPending := [] }
    mem := { s.mem with given := s.mem.given.filter (fun g => decide (g.target < 4)) } }
  let s := (List.range 16).foldl (fun s p => s.wrB Fld.siuPortCfg_link_up false p) s
  (List.range 6).foldl (fun s l => s.closeLink l) s

/-- PMCSR_D3HOT: the function's rings are killed, and once they are OFF it enters D3hot (R548, R549). -/
def execPmcsrD3hot (fn : Nat) (s : State) : Host.Outcome State Fault Refusal :=
  answer s (isFn fn) (
    if !s.answers fn then s
    else
      let s := s.quiesce fn
      if !s.ringsOff fn then s
      else
        let s := s.updFn fn (fun f => { f with dstate := .d3hot })
        if fn == 0 then s.gateStems else s)

/-- PMCSR_D0: the function returns from D3hot, and what was held for it is sent; the physical function's Stems start again, and ports and
links retrain (R548, R550, R595). -/
def execPmcsrD0 (fn : Nat) (s : State) : Host.Outcome State Fault Refusal :=
  answer s (isFn fn) (
    if !s.fnOn fn || s.answers fn then s
    else
      let s := s.updFn fn (fun f => { f with dstate := .d0 })
      let s := if fn == 0 then
          let s := s.power.wasOn.foldl (fun s j => s.setStem j bankStarting) s
          let s := { s with power := { s.power with wasOn := [] } }
          (List.range 6).foldl (fun s l => if s.linkState l == 0 then s else s.wrN Fld.wblLinkStatus_state lkTraining l) s
        else s
      s.releaseHeld fn)

end Sys2Proof.Machine
end

