-- ==== Sys2Proof/Machine/Endpoint.lean ====
section
/-! DEFINITION. The PCIe endpoint: configuration requests (R488, R557), virtual functions (R558), Function Level Reset (R560), BAR2 (R561,
R563, R564) and the MSI-X masks (R565). -/
namespace Sys2Proof.Machine

/-! Configuration space. -/

/-- What configuration space holds at an offset, where R557 gives it. The offsets are those of the standard header. -/
def State.configWord (s : State) (fn offset : Nat) : Option Nat :=
  if offset = 0x00 then some (0x1FE1 + 65536 * (if fn = 0 then 0x5E10 else 0x5E11))
  else if offset = 0x08 then some (0x12000000 + (match s.revision with | .a0 => 0 | .b0 => 1))
  else if offset = 0x2C then some 0x00001FE1
  else none

/-- BAR2 of the physical function, or of every virtual function, takes one of the sizes of R561: 2^n MiB. -/
def State.sizeBar2 (s : State) (vfs : Bool) (n : Nat) : State :=
  if n < 10 ∨ n > (if vfs then 14 else 17) then s
  else
    let size := 2 ^ (20 + n)
    let fns := updWhere s.pcie.fns (fun f => (f.num != 0) == vfs) (fun f => { f with bar2Bytes := size })
    { s with pcie := { s.pcie with fns := fns, vfBar2Bytes := if vfs then size else s.pcie.vfBar2Bytes } }

/-- A configuration write at an aligned offset: bus mastering (R595), MSI-X Enable and Function Mask (R565), the sizes of BAR2 (R561). What
else it may write stands in the commands for it. -/
def State.configWrite (s : State) (fn at_ : Nat) (v : Word) : State :=
  if at_ = 0x04 then
    (s.updFn fn (fun f => { f with busMaster := v.getLsbD 2 })).releaseHeld fn
  else if at_ = Config.cfgOffset 0 then
    (s.updFn fn (fun f => { f with msixEnable := v.getLsbD 31, fnMask := v.getLsbD 30 })).flushVectors fn
  else if fn = 0 ∧ at_ = Config.cfgOffset 1 then s.sizeBar2 false (getBits v.toNat 8 6)
  else if fn = 0 ∧ at_ = Config.cfgOffset 2 then s.sizeBar2 true (getBits v.toNat 8 6)
  else s

/-- A configuration request is completed: a read returns what R557 states, or a value that the spec leaves open. -/
def State.configDone (s : State) (fn offset : Nat) (write : Bool) (v : Word) : State :=
  if !s.fnOn fn then s.emit (.completion fn 3 [])
  else if write then (s.configWrite fn (offset / 4 * 4) v).emit (.completion fn 0 [])
  else match s.configWord fn (offset / 4 * 4) with
  | some w => s.emit (.completion fn 0 (natToBytes 4 w))
  | none =>
    let (w, s) := s.draw
    s.emit (.completion fn 0 (natToBytes 4 w.toNat))

/-- PCIE_CONFIG_REQUEST: until the ROM has loaded the configuration defaults, within 20 ms of the release of PERST#, the answer is Request
Retry Status; after that the request is completed (R488). -/
def execPcieConfigRequest (fn offset : Nat) (write : Bool) (value : Word) (s : State) : Host.Outcome State Fault Refusal :=
  answer s (isFn fn) (
    if s.security.perst then s
    else
      let late := decide (20000000 ≤ (s.now - s.security.releasedAt).toNat)
      let (k, s) := if s.pcie.configReady || late then (1, s) else s.choose 2
      if k = 0 then s.emit (.completion fn 2 [])
      else ({ s with pcie := { s.pcie with configReady := true } }).configDone fn offset write value)

/-! Function Level Reset. -/

/-- A reset of a function is applied, as a Crown firmware order: it is no requester any more, its rings are killed, and nothing is written
for its commands (R103, R560). -/
def State.resetFn (s : State) (fn : Nat) : State :=
  match s.fn? fn with
  | none => s
  | some f =>
    if f.resetting then s
    else
      let s := s.order qmUnit 2 {} (natToBytes 2 fn)
      let s := s.updFn fn (fun f => { f with resetting := true })
      let s := { s with queues := { s.queues with
        cmds := updWhere s.queues.cmds (fun c => c.fn == fn) (fun c => { c with silent := true }) } }
      (s.fnSqs fn).foldl (fun s n => s.killRing n) s

/-- VF Enable clears: the same reset is applied to every virtual function (R560). -/
def State.clearVfs (s : State) : State :=
  if !s.pcie.vfEnable then s
  else
    let vfs := (List.range 64).filter (fun n => n != 0 && (s.fn? n).isSome)
    let s := { s with pcie := { s.pcie with vfEnable := false } }
    vfs.foldl (fun s n => s.resetFn n) s

/-- FUNCTION_LEVEL_RESET (R560). -/
def execFunctionLevelReset (fn : Nat) (s : State) : Host.Outcome State Fault Refusal :=
  answer s (isFn fn) (
    if !s.fnOn fn then s
    else
      let s := s.resetFn fn
      if fn == 0 then s.clearVfs else s)

/-- What a function had in the queues is gone: rings, groups and their lines, held writes, events and Knot arms (R560). -/
def Queues.without (q : Queues) (fn : Nat) : Queues :=
  let rings := (q.sqs.filter (fun x => x.fn == fn)).map (·.num)
  let groups := (q.groups.filter (fun g => g.fn == fn)).map (·.num)
  { q with
    sqs := q.sqs.filter (fun x => x.fn != fn)
    cqs := q.cqs.filter (fun x => x.fn != fn)
    groups := q.groups.filter (fun g => g.fn != fn)
    lines := q.lines.filter (fun l => !groups.contains l.group)
    events := q.events.filter (fun e => e.fn != fn)
    arms := q.arms.filter (fun a => a.fn != fn)
    held := q.held.filter (fun h => h.fn != fn)
    latched := q.latched.filter (fun n => !rings.contains n) }

/-- A function as it is created: what its configuration space and its MSI-X table hold after a reset; a reset keeps its BAR2 size and its
error log. -/
def Fn.fresh (f : Fn) : Fn :=
  { num := f.num, dstate := f.dstate, bar2Bytes := f.bar2Bytes, aerNonFatal := f.aerNonFatal, aerCorrectable := f.aerCorrectable }

/-- FLR_COMPLETE: the last command of the function has retired, and the function returns to reset; a virtual function that is not enabled
any more is gone (R560). -/
def execFlrComplete (fn : Nat) (s : State) : Host.Outcome State Fault Refusal :=
  answer s (isFn fn) (match s.fn? fn with
    | none => s
    | some f =>
      if !f.resetting || s.queues.cmds.any (fun c => c.fn == fn) then s
      else
        let p := s.pcie
        let stays := fn == 0 || (p.vfEnable && decide (fn ≤ p.numVfs))
        let fns := if stays then updWhere p.fns (fun x => x.num == fn) Fn.fresh else p.fns.filter (fun x => x.num != fn)
        let s := s.resetFnRegs fn
        ({ s with
            queues := s.queues.without fn
            pcie := { p with fns := fns, mailboxQueue := p.mailboxQueue.erase fn } }).settleMailbox 64)

/-- VF_ENABLE_WRITE: NumVFs is taken while VF Enable is 0; setting VF Enable creates functions, with their per-function registers at reset,
and clearing it resets them all (R558, R560). -/
def execVfEnableWrite (enable : Bool) (numVfs : Nat) (s : State) : Host.Outcome State Fault Refusal :=
  answer s true (
    if !enable then
      let was := s.pcie.vfEnable
      let s := s.clearVfs
      if was || numVfs > 63 then s else { s with pcie := { s.pcie with numVfs := numVfs } }
    else if s.pcie.vfEnable || numVfs > 63 then s
    else
      let fresh := ((List.range numVfs).map (· + 1)).filter (fun n => (s.fn? n).isNone)
      let s := fresh.foldl (fun s n => s.resetFnRegs n) s
      { s with pcie := { s.pcie with numVfs := numVfs, vfEnable := true, fns := s.pcie.fns ++ fresh.map (fun n => ({ num := n, bar2Bytes := s.pcie.vfBar2Bytes } : Fn)) } })

/-! BAR2. -/

/-- The local address of an offset of a function's BAR2 (R563). -/
def State.bar2Addr (s : State) (fn offset : Nat) : Nat := s.rdN Fld.pciBar2Base_base fn * 0x40000000 + offset

/-- Whether BAR2 gives no way to a local address: engine and register space and the host memory window (R564). -/
def State.bar2Shuts (s : State) (a n : Nat) : Bool :=
  let shut (p : Place) : Bool := match p with | .regs => true | .hostWin => true | _ => false
  shut (s.place a) || shut (s.place (a + n - 1))

/-- Whether a request hits the BAR2 of a function that takes requests. -/
def State.bar2Hit (s : State) (fn offset len : Nat) : Bool :=
  s.answers fn && (match s.fn? fn with | some f => decide (offset + len ≤ f.bar2Bytes) | none => false)

/-- BAR2_READ: a read reaches local space, or completes with Completer Abort and is logged in AER (R563, R564). One that no BAR2 claims
is an Unsupported Request. -/
def execBar2Read (fn offset len : Nat) (s : State) : Host.Outcome State Fault Refusal :=
  answer s (isFn fn) (
    if s.security.perst || len = 0 || len > 4096 then s
    else if !s.bar2Hit fn offset len then s.emit (.completion fn 3 [])
    else
      let a := s.bar2Addr fn offset
      if s.bar2Shuts a len then (s.aerNonFatal fn).emit (.completion fn 1 [])
      else match s.loadWhole (s.bar2Origin fn) a len with
      | (s, .ok b) => s.emit (.completion fn 0 b)
      | (s, .error _) => (s.aerNonFatal fn).emit (.completion fn 1 []))

/-- BAR2_WRITE: a write reaches local space, or is dropped and logged in AER (R563, R564). -/
def execBar2Write (fn offset : Nat) (data : List Byte) (s : State) : Host.Outcome State Fault Refusal :=
  answer s (isFn fn) (
    if s.security.perst || data.isEmpty || !s.bar2Hit fn offset data.length then s
    else
      let a := s.bar2Addr fn offset
      if s.bar2Shuts a data.length then s.aerNonFatal fn
      else match s.storeWhole (s.bar2Origin fn) a data with
      | (s, none) => s
      | (s, some _) => s.aerNonFatal fn)

/-! MSI-X. -/

/-- MSIX_UNMASK: a vector's mask clears, or MSI-X is enabled with the Function Mask clear, and what is pending is sent (R565). -/
def execMsixUnmask (fn : Nat) (vector : Option Nat) (s : State) : Host.Outcome State Fault Refusal :=
  answer s (isFn fn) (
    match vector with
    | some v =>
      if !s.answers fn || v ≥ 2048 then s
      else (s.updFn fn (fun f => { f with unmasked := if f.unmasked.contains v then f.unmasked else f.unmasked ++ [v] })).flushVectors fn
    | none =>
      if !s.fnOn fn then s
      else (s.updFn fn (fun f => { f with fnMask := false, msixEnable := true })).flushVectors fn)

end Sys2Proof.Machine
end

