-- ==== Sys2Proof/Machine/Fabric.lean ====
section
/-! DEFINITION. Packets at a chip (R404 to R414, R418, R419): forwarding and its arbitration, requests served here, answers that arrive,
multicast, compression, and the timeout of a request. -/
namespace Sys2Proof.Machine

/-! Forwarding. -/

/-- The next hop of a packet here. -/
def State.hopOf (s : State) (p : Packet) : Hop := s.nextHop p.epoch p.dst

/-- Whether a hop crosses its ring's wrap link (R402). -/
def State.wraps (s : State) (l : Nat) : Bool :=
  let a := l / 2
  s.rdN Fld.wblLinkCfg_role l == 1 && coord s.chipId a == (if l % 2 = 0 then s.dim a - 1 else 0)

/-- A packet as it leaves on a link: its dateline class and its hops (R404, R407). -/
def State.onHop (s : State) (x : InPacket) (l : Nat) : Packet :=
  let dl := if s.wraps l then 1 else if x.link ≥ 6 ∨ x.link / 2 ≠ l / 2 then 0 else x.packet.dl
  { x.packet with dl := dl, hops := x.packet.hops + 1 }

/-- The packets that could leave on an output now, oldest first, as they would leave: of each channel the oldest whose peer has room. -/
def State.contenders (s : State) (l : Nat) : List Packet :=
  let out := (s.fabric.inbox.filter (fun x => s.hopOf x.packet == .link l)).map (fun x => s.onHop x l)
  ((List.range 8).filterMap (fun v => out.find? (fun p => p.vc == v))).filter (fun p => s.canSend l p)

/-- Arbitrations that a channel has lost in a row at an output. -/
def State.lossesOf (s : State) (l v : Nat) : Nat :=
  ((s.fabric.losses.find? (fun x => x.1 == l && x.2.1 == v)).map (fun x => x.2.2)).getD 0

/-- The rank of a class in arbitration at an output (R412): management, then response, then request and multicast, which alternate. -/
def State.classRank (s : State) (l cls : Nat) : Nat :=
  match cls with
  | 3 => 4
  | 1 => 3
  | c => if (c == 0) == s.fabric.requestLast.contains l then 1 else 2

/-- Whether a contender wins the output (R412): one that has lost 1,024 times first, then by rank; between the dateline classes of one
class the order is open, and the lower goes first. -/
def State.winsOutput (s : State) (l : Nat) (p : Packet) : Bool :=
  let key (q : Packet) : Nat := (if s.lossesOf l q.vc ≥ 1024 then 1000 else 0) + 10 * s.classRank l q.cls + (1 - q.dl)
  (s.contenders l).all (fun q => q.vc == p.vc || decide (key q < key p) || (key q == key p && decide (p.vc < q.vc)))

/-- The channels that contended remember that they lost; the winner starts again. -/
def State.noteLosses (s : State) (l : Nat) (p : Packet) : State :=
  let cs := s.contenders l
  let others := s.fabric.losses.filter (fun x => x.1 != l || !cs.any (fun q => q.vc == x.2.1))
  let lost := (cs.filter (fun q => q.vc != p.vc)).map (fun q => (l, q.vc, s.lossesOf l q.vc + 1))
  let rq := s.fabric.requestLast.filter (fun x => x != l)
  { s with fabric := { s.fabric with
      losses := others ++ lost,
      requestLast := if p.cls == 0 then rq ++ [l] else if p.cls == 2 then rq else s.fabric.requestLast } }

/-- Whether a packet is the oldest of its channel at an output. -/
def State.oldestOfChannel (s : State) (index l : Nat) (p : Packet) : Bool :=
  !((s.fabric.inbox.take index).any (fun x => s.hopOf x.packet == .link l && (s.onHop x l).vc == p.vc))

/-- A packet that would cross more than 63 links (R409). -/
def State.hopLimit (s : State) (p : Packet) : State :=
  let s := (s.count Fld.wblDrops_hop_limit_drops 1).report { source := 0x1A }
  if p.cls == 0 then s.refuse p stRouteLoop (BitVec.ofNat 32 s.chipId) else s

/-- PACKET_FORWARD: the packet at a place of the input buffers goes on to its next hop (R406 to R412, R415, R419), where it is its turn. -/
def execPacketForward (index : Nat) (s : State) : Host.Outcome State Fault Refusal :=
  answer s true (match s.fabric.inbox[index]? with
    | none => s
    | some x =>
      match s.hopOf x.packet with
      | .here => s
      | .unreachable => (s.leaveInbox x).discardUnreachable x.packet
      | .link l =>
        let p := s.onHop x l
        if p.hops > 63 then (s.leaveInbox x).hopLimit x.packet
        else if s.linkState l == lkUp then
          if s.canSend l p && s.oldestOfChannel index l p && s.winsOutput l p then
            ((s.noteLosses l p).leaveInbox x).sendPacket l p
          else s
        else if s.linkState l == lkTraining then s
        else (s.leaveInbox x).discard l x.packet)

/-! Packets for this chip. -/

/-- A packet meets its target, which says whether it leaves the input buffer: nothing where it is not for this chip or is no packet of
the type, and it waits while an earlier packet of its source and class does (R416). -/
def State.onArrival (s : State) (type : Nat) (p : Packet) (f : Option InPacket → State) : State :=
  if p.type != type || p.dst != s.chipId then s
  else
    let earlier := s.fabric.inbox.takeWhile (fun x => x.packet != p)
    match s.fabric.inbox.find? (fun x => x.packet == p) with
    | some x =>
      if earlier.any (fun y => y.packet.src == p.src && y.packet.cls == p.cls && y.packet.dst == p.dst) then s
      else f (some x)
    | none => f none

/-- A packet is taken from the input buffers by its target. -/
def State.onPacket (s : State) (type : Nat) (p : Packet) (f : State → State) : State :=
  s.onArrival type p (fun x => f (match x with | some x => s.leaveInbox x | none => s))

/-- The origin that a packet carries (R405, R473). -/
def Packet.origin (p : Packet) : Origin := { part := p.part, crit := p.crit, stream := p.stream }

/-- An ACK to the source of a request. -/
def State.ackTo (s : State) (p : Packet) (st : Half) (prev : DWord := 0) : State :=
  s.respond p.src p.tag p.part p.crit p.stream 0x09 (ackPayload st prev)

/-! Requests served here. -/

/-- READ (R405, R414): the data, or the status of the access. -/
def execRead (packet : Packet) (s : State) : Host.Outcome State Fault Refusal :=
  answer s true (s.onPacket 0x01 packet (fun s =>
    let w := leAt packet.payload 6 2
    let n := getBits w 0 9 + 1
    let comp := getBits w 9 2
    match s.loadWhole packet.origin (leAt packet.payload 0 6) n with
    | (s, .error e) => s.ackTo packet e.status
    | (s, .ok d) =>
      if comp ≠ 0 ∧ !wholeGroups comp n then s.ackTo packet stCompression
      else s.respond packet.src packet.tag packet.part packet.crit packet.stream 0x08 (packed comp d)))

/-- WRITE (R405, R414). -/
def execWrite (packet : Packet) (s : State) : Host.Outcome State Fault Refusal :=
  answer s true (s.onPacket 0x02 packet (fun s =>
    let comp := getBits (leAt packet.payload 6 2) 9 2
    let body := packet.payload.drop 8
    match unpacked comp body with
    | none => s.ackTo packet stCompression
    | some d =>
      match s.storeWhole packet.origin (leAt packet.payload 0 6) d with
      | (s, some e) => s.ackTo packet e.status
      | (s, none) => s.ackTo packet stSuccess))

/-- The operation of an ATOMIC. -/
def atomicOf (n : Nat) : Option AtomicOp :=
  match n with
  | 0 => some .add | 1 => some .minS | 2 => some .minU | 3 => some .maxS | 4 => some .maxU | 5 => some .swap | 6 => some .cas
  | _ => none

/-- ATOMIC (R63, R64, R405): the previous value travels back. -/
def execAtomic (packet : Packet) (s : State) : Host.Outcome State Fault Refusal :=
  answer s true (s.onPacket 0x03 packet (fun s =>
    let b := packet.payload
    match atomicOf (getBits (leAt b 6 2) 0 3) with
    | none => s.ackTo packet stBadValue
    | some op =>
      match s.atomic packet.origin op (leAt b 0 6) (BitVec.ofNat 64 (leAt b 8 8)) (BitVec.ofNat 64 (leAt b 16 8)) with
      | (s, .error e) => s.ackTo packet e.status
      | (s, .ok old) => s.ackTo packet stSuccess old))

/-- A KNOT_SIGNAL packet (R99, R100, R405): the Knot must belong to the packet's partition. -/
def execKnotSignalPacket (packet : Packet) (s : State) : Host.Outcome State Fault Refusal :=
  answer s true (s.onPacket 0x04 packet (fun s =>
    let k := leAt packet.payload 0 2
    if !s.ownsKnot packet.part k then s.ackTo packet stOwnership
    else
      let (s, _) := s.signalKnot k (BitVec.ofNat 64 (leAt packet.payload 8 8)) { part := packet.part, traced := false }
      s.ackTo packet stSuccess))

/-! Answers. -/

/-- A response without a request: it came after the request's timeout (R418). -/
def State.lateAnswer (s : State) : State := s.count Fld.wblDrops_timeouts 1

/-- A thread's load or atomic has its value (R293). -/
def State.threadValue (s : State) (cmd stem tile slot rd : Nat) (v : DWord) : State :=
  match s.ownerThread stem tile slot cmd with
  | some t => s.updThread t (fun t => t.stall rd v)
  | none => s

/-- READ_DATA (R405): the data, out of the form that its request named (R414). -/
def execReadData (packet : Packet) (s : State) : Host.Outcome State Fault Refusal :=
  answer s true (s.onPacket 0x08 packet (fun s =>
    match s.requestOf packet.tag with
    | none => s.lateAnswer
    | some r =>
      match unpacked r.comp packet.payload with
      | none => s.requestFails r stCompression (r.detail stCompression)
      | some d =>
        let s := s.dropRequest r
        match r.kind, r.owner with
        | .piece a off, .command id =>
          let mine (x : RemoteRead) : Bool := x.cmd == id && x.addr == a
          { s with fabric := { s.fabric with
              reads := updWhere s.fabric.reads mine (fun x => { x with got := x.got ++ [(off, d)] }) } }
        | .load _ rd n signed, .thread cmd stem tile slot =>
          let b := slice d 0 n
          let v : DWord := if signed then BitVec.ofInt 64 (toSigned (8 * n) (bytesToNat b)) else BitVec.ofNat 64 (bytesToNat b)
          s.threadValue cmd stem tile slot rd v
        | .fetch id, _ => s.answerFetch id (.found d)
        | _, _ => s))

/-- A request is answered without data. -/
def State.acked (s : State) (r : Request) (src : Nat) (st : Half) (prev : DWord) : State :=
  match r.kind, r.owner with
  | .put, .command id =>
    let s := s.dropRequest r
    if st = stSuccess then s.putReply id .stored
    else if st = stPutReplaced then s.putReply id .replaced
    else if st = stPutRefused then s.putReply id .refused
    else s.putReply id (.failed st (r.detail st))
  | .publish, .command id => if st = stVersionMismatch ∨ st = stResource then (s.dropRequest r).orderReply id r.dst false
    else if st ≠ stSuccess then s.answerFails r src st
    else (s.dropRequest r).orderReply id r.dst true
  | k, o =>
    if st ≠ stSuccess then s.answerFails r src st
    else match k, o with
      | .fetch id, _ => (s.dropRequest r).answerFetch id .missing
      | .substituted, .command id =>
        let s := s.dropRequest r
        if s.awaited id then s else s.finish id stSuccess
      | .atomic _ rd, .thread cmd stem tile slot => (s.dropRequest r).threadValue cmd stem tile slot rd prev
      | .mcast, _ =>
        if r.left ≤ 1 then s.dropRequest r
        else { s with fabric := { s.fabric with
            requests := updWhere s.fabric.requests (fun x => x.tag == r.tag) (fun x => { x with left := x.left - 1 }) } }
      | _, _ => s.dropRequest r

/-- ACK (R405). -/
def execAck (packet : Packet) (s : State) : Host.Outcome State Fault Refusal :=
  answer s true (s.onPacket 0x09 packet (fun s =>
    match s.requestOf packet.tag with
    | none => s.lateAnswer
    | some r => s.acked r packet.src (BitVec.ofNat 16 (leAt packet.payload 0 2)) (BitVec.ofNat 64 (leAt packet.payload 8 8))))

/-! Multicast (R413). -/

/-- The coordinates of one axis of a box, from low to high and past D − 1. -/
def State.boxRange (s : State) (box a : Nat) : List Nat :=
  let lo := getBits box (10 * a) 5
  let hi := getBits box (10 * a + 5) 5
  let d := s.dim a
  (List.range ((hi + d - lo) % d + 1)).map (fun i => (lo + i) % d)

/-- The chip with another coordinate on an axis. -/
def withCoord (chip a x : Nat) : Nat := putBits chip (5 * a) 5 x

/-- The chips that a copy goes to next from here: along Y from the chips of the source's X line, and along Z from those of its plane. -/
def State.mcastNext (s : State) (p : Packet) : List Nat :=
  let box := leAt p.payload 0 4
  let me := s.chipId
  let along (a : Nat) : List Nat := ((s.boxRange box a).filter (fun x => x != coord me a)).map (withCoord me a)
  let onX := coord me 1 == coord p.src 1 && coord me 2 == coord p.src 2
  let onPlane := coord me 2 == coord p.src 2
  (if onX then along 1 else []) ++ (if onPlane then along 2 else [])

/-- Whether this chip lies in a box. -/
def State.inBox (s : State) (box : Nat) : Bool := [0, 1, 2].all (fun a => (s.boxRange box a).contains (coord s.chipId a))

/-- A multicast packet goes on in copies; the input buffer that it came by keeps it until the last of them has left (R413). -/
def State.copyOn (s : State) (p : Packet) (x : Option InPacket) : State :=
  let next := s.mcastNext p
  let held : Option (Nat × Nat × Nat × Nat) := x.bind (fun x => if x.link < 6 then some (s.fabric.copied, x.link, p.vc, p.units) else none)
  let copy (d : Nat) : InPacket := { link := 6, packet := { p with dst := d }, held := if next.isEmpty then none else held }
  let s := match x, next, held with
    | some x, _ :: _, some _ => { s with fabric := { s.fabric with inbox := s.fabric.inbox.erase x, copied := s.fabric.copied + 1 } }
    | some x, _, _ => s.leaveInbox x
    | none, _, _ => s
  { s with fabric := { s.fabric with inbox := s.fabric.inbox ++ next.map copy } }

/-- MCAST_WRITE: a copy arrives; it is written here where the chip lies in the box, its own copies go on, and the source is answered
(R413). -/
def execMcastWrite (packet : Packet) (s : State) : Host.Outcome State Fault Refusal :=
  answer s true (s.onArrival 0x10 packet (fun x =>
    let s := s.copyOn packet x
    if !s.inBox (leAt packet.payload 0 4) then s
    else match s.storeWhole packet.origin (leAt packet.payload 8 6) (packet.payload.drop 16) with
      | (s, some e) => s.ackTo packet e.status
      | (s, none) => s.ackTo packet stSuccess))

/-! Management packets (R405, R432). -/

/-- The entry of the alias table that a lost ID has. -/
def State.aliasOf (s : State) (lost : Nat) : Option Nat :=
  (List.range 64).find? (fun i => s.rdB Fld.wblAlias_valid i && s.rdN Fld.wblAlias_lost i == lost)

/-- A lost ID gets a substitute in the alias table, or loses its entry where that is 0xFFFF (R421): none where the table is full. -/
def State.setAlias (s : State) (lost sub : Nat) : Option State :=
  if sub = 0xFFFF then
    match s.aliasOf lost with
    | some i => some (((s.wrB Fld.wblAlias_valid false i).wrN Fld.wblAlias_lost 0 i).wrN Fld.wblAlias_substitute 0 i)
    | none => some s
  else
    ((s.aliasOf lost).or ((List.range 64).find? (fun i => !s.rdB Fld.wblAlias_valid i))).map (fun i =>
      ((s.wrB Fld.wblAlias_valid true i).wrN Fld.wblAlias_lost lost i).wrN Fld.wblAlias_substitute sub i)

/-- A fragment of a twin message, or a whole one, arrives: a message that is complete waits for its row. -/
def State.twinFragment (s : State) (b : List Byte) : State :=
  let sub := leAt b 0 1
  let cur := s.twin.rx.find? (fun f => f.subtype == sub)
  if b.length ≤ 512 ∧ cur.isNone then { s with twin := { s.twin with arrived := s.twin.arrived ++ [b] } }
  else
    let off := leAt b 2 4
    let total := leAt b 6 4
    let f : Fragments := cur.getD { subtype := sub, total := total }
    let f := { f with bytes := f.bytes.filter (fun x => x.1 != off) ++ [(off, b.drop 16)] }
    let rest := s.twin.rx.filter (fun x => x.subtype != sub)
    let got := (f.bytes.map (fun x => x.2.length)).sum
    if got < total then { s with twin := { s.twin with rx := rest ++ [f] } }
    else
      let m := (List.range (ceilDiv total 512)).flatMap (fun i => ((f.bytes.find? (fun x => x.1 == 512 * i)).map (·.2)).getD [])
      { s with twin := { s.twin with rx := rest, arrived := s.twin.arrived ++ [m] } }

/-- MGMT: a twin message's packet is gathered; any other is the firmware's (R405, R415, R419, R421, R432). On a twin link a subtype that is
neither's is reserved: the packet is discarded and reported. -/
def execMgmt (packet : Packet) (s : State) : Host.Outcome State Fault Refusal :=
  answer s true (s.onPacket 0x18 packet (fun s =>
    let sub := leAt packet.payload 0 1
    if s.twinLink.isSome ∧ 0x40 ≤ sub ∧ sub ≤ 0x48 then s.twinFragment packet.payload
    else match Config.firmwareMsg packet.payload with
    | .heartbeat => s
    | .linkDown _ _ => if s.rootChip == s.chipId then s.abandonAll (s.rdB Fld.wblFabricStatus_change_active) else s
    | .abandon => s.abandonChange
    | .substituted lost sub =>
      (match s.setAlias lost sub with
       | some s => s.ackTo packet stSuccess
       | none => s.ackTo packet stAliasFull)
    | .other => if s.twinLink.isSome then s.report { source := 0x1A } else s))

/-- The packet types of R405. -/
def knownType (t : Nat) : Bool := [0x01, 0x02, 0x03, 0x04, 0x08, 0x09, 0x10, 0x18].contains t

/-- RESERVED_PACKET_TYPE: a packet of another type is discarded and reported (R405). -/
def execReservedPacketType (packet : Packet) (s : State) : Host.Outcome State Fault Refusal :=
  answer s true (if knownType packet.type then s
    else s.onPacket packet.type packet (fun s => s.report { source := 0x1A }))

/-- req_timeout_us as it acts, in ns (R427). -/
def State.requestNs (s : State) : Nat := 1000 * max 1 (s.rdN Fld.wblTimeout_req_timeout_us)

/-- REQUEST_TIMEOUT: the request at a place of the list has had no answer for req_timeout_us (R418). -/
def execRequestTimeout (index : Nat) (s : State) : Host.Outcome State Fault Refusal :=
  answer s true (match s.fabric.requests[index]? with
    | some r => if s.passed r.issued s.requestNs then s.requestFails r stFabricTimeout (BitVec.ofNat 32 r.dst) else s
    | none => s)

end Sys2Proof.Machine
end

