-- ==== Sys2Proof/Machine/FabricRoutes.lean ====
section
/-! DEFINITION. Route changes, the acting root and the fabric commands (R408, R417, R419, R421, R422, R425). -/
namespace Sys2Proof.Machine

/-! The root. -/

/-- Whether this chip is the fabric root, or acts as it (R422). -/
def State.isRoot (s : State) : Bool :=
  if s.fabric.acting then s.rdN Fld.wblFabricStatus_acting_root == s.chipId else s.rdN Fld.timCtrl_fabric_role == 1

/-- ACTING_ROOT_TIMEOUT: the root has been lost for 1 s (R422); this chip is none while it is alive. Which of the other reachable chips have root_eligible set, this chip's state
does not say; its own counts by its register. -/
def execActingRootTimeout (s : State) : Host.Outcome State Fault Refusal :=
  answer s true (
    if s.isRoot then s
    else
    let mine := s.rdB Fld.wblFabricCfg_root_eligible
    let cs := s.reachable.filter (fun c => if c == s.chipId then mine else !mine || decide (c < s.chipId))
    if cs.isEmpty then s
    else
      let (k, s) := s.choose cs.length
      let s := s.wrN Fld.wblFabricStatus_acting_root (nth 0 cs k)
      { s with fabric := { s.fabric with acting := true } })

/-! Route changes. -/

/-- The inactive bank takes a table (R417). -/
def State.writeInactive (s : State) (t : List RouteEntry) : State :=
  let f := s.fabric
  { s with fabric := if s.epoch = 0 then { f with bank1 := t, loaded := true } else { f with bank0 := t, loaded := true } }

/-- The chip injects with the new epoch (R416, R417 step 3). -/
def State.startChange (s : State) : State :=
  (s.wrN Fld.wblFabricStatus_epoch (1 - s.epoch)).wrB Fld.wblFabricStatus_change_active true

/-- DETOUR_COMMIT: the root's firmware has written this chip's inactive bank, has checked the banks, and orders the new epoch (R417). An order
that meets a change in progress waits for its end. -/
def execDetourCommit (tables : List RouteEntry) (s : State) : Host.Outcome State Fault Refusal :=
  answer s true (if s.rdB Fld.wblFabricStatus_change_active then s else ((s.writeInactive tables).startChange).pumpRequests.checkUpstream)

/-- A link is taken out of service (R425): the twin unit loses it as it loses any link that is not UP (R429). A return that was ordered
meanwhile takes it straight on to TRAINING (R481). -/
def State.takeOut (s : State) (l cmd : Nat) : State :=
  let back := (s.link l).reenable
  let s := s.updLink l (fun k => { k with serviceCmd := none, reenable := false, replay := [], partialRx := [] })
  let s := (s.wrN Fld.wblLinkStatus_state (if back then lkTraining else lkService) l).finish cmd stSuccess
  if s.rdN Fld.wblLinkCfg_role l == 2 then s.twinLinkDown else s.checkUpstream

/-- Whether packets or requests of the old epoch remain at this chip. -/
def State.oldEpochLeft (s : State) : Bool :=
  s.fabric.inbox.any (fun x => x.packet.epoch != s.epoch) || s.fabric.requests.any (fun r => r.epoch != s.epoch)
    || s.fabric.links.any (fun k => k.replay.any (fun f => f.packet.epoch != s.epoch))

/-- ROUTE_CHANGE_DRAINED: no packet of the old epoch remains in the fabric (R417 step 4): the change is over, and what waited for it ends or
goes on. -/
def execRouteChangeDrained (s : State) : Host.Outcome State Fault Refusal :=
  answer s true (
    if !s.rdB Fld.wblFabricStatus_change_active || s.oldEpochLeft then s
    else
      let s := s.wrB Fld.wblFabricStatus_change_active false
      let cmds := s.fabric.routeCmds
      let s := { s with fabric := { s.fabric with loaded := false, routeCmds := [] } }
      let s := cmds.foldl (fun s id => s.finish id stSuccess) s
      (List.range 6).foldl (fun s l =>
        match (s.link l).serviceCmd with
        | some id => if s.linkState l == lkTraining then s else s.takeOut l id
        | none => s) s)

/-! Commands. -/

/-- LINK_SERVICE taking a link out (R425): the detours are committed first; a link that trains is taken out once it is UP (R481). -/
def execLinkServiceOut (cmd : Nat) (s : State) : Host.Outcome State Fault Refusal :=
  answer s true (match s.running cmd 0x0 0x80 with
    | none => s
    | some c =>
      if c.started || c.b 17 1 != 0 then s
      else
        let l := c.f 0 16 0 3
        let s := s.updCmd cmd (fun c => { c with started := true })
        if (s.linkState l != lkUp && s.linkState l != lkTraining) || (s.link l).serviceCmd.isSome then
          s.finish cmd stLinkState (BitVec.ofNat 32 (s.linkState l))
        else s.updLink l (fun k => { k with serviceCmd := some cmd }))

/-- LINK_SERVICE returning a link: it trains again (R425). One that is still to be taken out will do so after that (R481). -/
def execLinkServiceReturn (cmd : Nat) (s : State) : Host.Outcome State Fault Refusal :=
  answer s true (match s.running cmd 0x0 0x80 with
    | none => s
    | some c =>
      if c.b 17 1 != 1 then s
      else
        let l := c.f 0 16 0 3
        if (s.link l).serviceCmd.isSome then (s.updLink l (fun k => { k with reenable := true })).finish cmd stSuccess
        else if s.linkState l != lkService then s.finish cmd stLinkState (BitVec.ofNat 32 (s.linkState l))
        else (s.wrN Fld.wblLinkStatus_state lkTraining l).finish cmd stSuccess)

/-- A command waits for the end of a route change. -/
def State.awaitRoutes (s : State) (cmd : Nat) : State :=
  { s with fabric := { s.fabric with routeCmds := s.fabric.routeCmds ++ [cmd] } }

/-- ROUTE_REBUILD: firmware computes, checks and commits tables; DETOUR_COMMIT brings them (R425). -/
def execRouteRebuild (cmd : Nat) (s : State) : Host.Outcome State Fault Refusal :=
  answer s true (s.onStart cmd 0x0 0x81 (fun s _ => s.awaitRoutes cmd))

/-- The table that 32 KiB of bytes hold (R408): entries that override. -/
def routeTable (b : List Byte) : List RouteEntry :=
  b.zipIdx.filterMap (fun x => if x.1.toNat &&& 0x17 = 7 then none else some { chip := x.2, entry := x.1.toNat })

/-- WBL_ROUTE_LOAD (R425). -/
def execWblRouteLoad (cmd : Nat) (s : State) : Host.Outcome State Fault Refusal :=
  answer s true (s.onCmd cmd 0x8 0x01 (fun c =>
    if s.rdB Fld.wblFabricStatus_change_active then s.finish cmd stRouteState
    else match s.load c.origin (c.b 24 6) 32768 with
      | (s, .error e) => s.failAcc cmd e
      | (s, .ok b) => (s.writeInactive (routeTable b)).finish cmd stSuccess))

/-- A command of the root alone (R425). -/
def State.onRoot (s : State) (c : Cmd) (f : State → State) : State :=
  if s.isRoot then f s else s.finish c.id stNotRoot (BitVec.ofNat 32 (s.rdN Fld.wblFabricStatus_acting_root))

/-- WBL_ROUTE_COMMIT (R417, R425): whether the union of the banks of every chip has a cycle, and where, this chip's state does not say. -/
def execWblRouteCommit (cmd : Nat) (s : State) : Host.Outcome State Fault Refusal :=
  answer s true (s.onStart cmd 0x8 0x02 (fun s c => s.onRoot c (fun s =>
    if s.rdB Fld.wblFabricStatus_change_active then s.finish cmd stRouteState
    else
      let (cyclic, s) := s.choose 2
      if cyclic = 1 then
        let (k, s) := s.choose 0x8000
        s.finish cmd stRouteCyclic (BitVec.ofNat 32 k)
      else ((s.startChange).awaitRoutes cmd).pumpRequests)))

/-- The chips that the root tells of an alias: those it reaches, but for itself and for the chips that are lost. -/
def State.aliasChips (s : State) (lost : Nat) : List Nat :=
  s.reachable.filter (fun c => c != s.chipId && c != lost && (s.aliasOf c).isNone)

/-- WBL_ALIAS_SET: the alias stands in this chip's table, and every other chip is told of it; the command completes when the last has
answered (R421, R425). -/
def execWblAliasSet (cmd : Nat) (s : State) : Host.Outcome State Fault Refusal :=
  answer s true (s.onStart cmd 0x8 0x03 (fun s c => s.onRoot c (fun s =>
    let lost := c.b 16 2
    let sub := c.b 18 2
    match s.setAlias lost sub with
    | none => s.finish cmd stAliasFull
    | some s =>
      let cs := s.aliasChips lost
      if cs.isEmpty then s.finish cmd stSuccess
      else cs.foldl (fun s chip => s.request c.origin (.command cmd) .substituted chip 0x18 (Config.firmwareBytes (.substituted lost sub))) s)))

/-- A WBL_LINK_ORDER of an action, accepted at the root (R425). -/
def State.linkOrder (s : State) (cmd action : Nat) (ok : State → Nat → Bool) (f : State → Nat → State) : State :=
  s.onCmd cmd 0x8 0x04 (fun c =>
    if c.b 17 1 != action then s
    else s.onRoot c (fun s =>
      let l := c.f 0 16 0 3
      if ok s l then (f s l).finish cmd stSuccess else s.finish cmd stLinkState (BitVec.ofNat 32 (s.linkState l))))

/-- LINK_RETRAIN_ORDER: a link that is up, down or mismatched trains again. -/
def execLinkRetrainOrder (cmd : Nat) (s : State) : Host.Outcome State Fault Refusal :=
  answer s true (s.linkOrder cmd 0
    (fun s l => let st := s.linkState l; st != lkOff && st != lkTraining && st != lkService)
    (fun s l =>
      let s := if s.linkState l == lkUp then s.linkDown l else s
      s.wrN Fld.wblLinkStatus_state lkTraining l))

/-- LINK_FORCE_SPARE: the spare lane is forced in. Which lane it replaces the order does not name. -/
def execLinkForceSpare (cmd : Nat) (s : State) : Host.Outcome State Fault Refusal :=
  answer s true (s.linkOrder cmd 1
    (fun s l => s.linkState l == lkUp && s.rdN Fld.wblLinkStatus_spared_lane l == 0xF)
    (fun s l =>
      let (k, s) := s.choose 8
      s.spareLane l k))

/-- LINK_DOWN_ORDER (R415, R425). -/
def execLinkDownOrder (cmd : Nat) (s : State) : Host.Outcome State Fault Refusal :=
  answer s true (s.linkOrder cmd 2 (fun s l => s.linkState l == lkUp) (fun s l => s.linkDown l))

end Sys2Proof.Machine
end

