-- ==== Sys2Proof/Machine/Dispatch.lean ====
section
/-! DEFINITION. The dispatch: one arm for each command, a direct call of its meaning. -/
namespace Sys2Proof.Machine

/-- A command's effect on everything but the queue of waiting commands. -/
def exec (i : Instr) (s : State) : Host.Outcome State Fault Refusal :=
  match i with
  | .registerWrite fn off bytes value => Sys2Proof.Machine.execRegisterWrite fn off bytes value s
  | .sensorPortLinkUp port => Sys2Proof.Machine.execSensorPortLinkUp port s
  | .barkReport report => Sys2Proof.Machine.execBarkReport report s
  | .barkVectorHoldExpire => Sys2Proof.Machine.execBarkVectorHoldExpire s
  | .patrolScrub addr found => Sys2Proof.Machine.execPatrolScrub addr found s
  | .softPprComplete stack row => Sys2Proof.Machine.execSoftPprComplete stack row s
  | .vacatedAck stack => Sys2Proof.Machine.execVacatedAck stack s
  | .retireMigrationDone stack => Sys2Proof.Machine.execRetireMigrationDone stack s
  | .sapTilePwrReqWrite stem tile value => Sys2Proof.Machine.execSapTilePwrReqWrite stem tile value s
  | .bankPowerUpDone stem tile bank => Sys2Proof.Machine.execBankPowerUpDone stem tile bank s
  | .bankDrainDone stem tile bank => Sys2Proof.Machine.execBankDrainDone stem tile bank s
  | .bankRetire stem tile bank => Sys2Proof.Machine.execBankRetire stem tile bank s
  | .sapwoodScrubDone index => Sys2Proof.Machine.execSapwoodScrubDone index s
  | .hbmZeroDone index => Sys2Proof.Machine.execHbmZeroDone index s
  | .adminCfgEnable fn value => Sys2Proof.Machine.execAdminCfgEnable fn value s
  | .doorbellPoll group => Sys2Proof.Machine.execDoorbellPoll group s
  | .lineIdleTimeout group => Sys2Proof.Machine.execLineIdleTimeout group s
  | .doorbellReadReturn group ok stores => Sys2Proof.Machine.execDoorbellReadReturn group ok stores s
  | .descriptorFetchReturn sq ok stores => Sys2Proof.Machine.execDescriptorFetchReturn sq ok stores s
  | .commandDispatch cmd => Sys2Proof.Machine.execCommandDispatch cmd s
  | .commandRetire cmd => Sys2Proof.Machine.execCommandRetire cmd s
  | .headLineReadReturn cq ok stores => Sys2Proof.Machine.execHeadLineReadReturn cq ok stores s
  | .cqStallTimeout cmd => Sys2Proof.Machine.execCqStallTimeout cmd s
  | .cqCoalesceTimeout cq => Sys2Proof.Machine.execCqCoalesceTimeout cq s
  | .knotWaitTimeout cmd => Sys2Proof.Machine.execKnotWaitTimeout cmd s
  | .busMasterChange fn on => Sys2Proof.Machine.execBusMasterChange fn on s
  | .sqCreate cmd => Sys2Proof.Machine.execSqCreate cmd s
  | .cqCreate cmd => Sys2Proof.Machine.execCqCreate cmd s
  | .ringEnable cmd => Sys2Proof.Machine.execRingEnable cmd s
  | .ringStartReadReturn sq ok stores => Sys2Proof.Machine.execRingStartReadReturn sq ok stores s
  | .ringDrain cmd ok stores => Sys2Proof.Machine.execRingDrain cmd ok stores s
  | .ringKill cmd => Sys2Proof.Machine.execRingKill cmd s
  | .ringDeleteSq cmd => Sys2Proof.Machine.execRingDeleteSq cmd s
  | .ringDeleteCq cmd => Sys2Proof.Machine.execRingDeleteCq cmd s
  | .groupAlloc cmd => Sys2Proof.Machine.execGroupAlloc cmd s
  | .groupFree cmd => Sys2Proof.Machine.execGroupFree cmd s
  | .packageLoad cmd facts => Sys2Proof.Machine.execPackageLoad cmd facts s
  | .packageUnload cmd => Sys2Proof.Machine.execPackageUnload cmd s
  | .run cmd => Sys2Proof.Machine.execRun cmd s
  | .runFrameComplete cmd facts => Sys2Proof.Machine.execRunFrameComplete cmd facts s
  | .bankPower cmd => Sys2Proof.Machine.execBankPower cmd s
  | .nop cmd => Sys2Proof.Machine.execNop cmd s
  | .knotSignal cmd => Sys2Proof.Machine.execKnotSignal cmd s
  | .knotReset cmd => Sys2Proof.Machine.execKnotReset cmd s
  | .knotArm cmd => Sys2Proof.Machine.execKnotArm cmd s
  | .ppsInEdge err => Sys2Proof.Machine.execPpsInEdge err s
  | .timeInputLoss => Sys2Proof.Machine.execTimeInputLoss s
  | .holdoverExpired => Sys2Proof.Machine.execHoldoverExpired s
  | .timNextSecWrite value => Sys2Proof.Machine.execTimNextSecWrite value s
  | .todConflictClear => Sys2Proof.Machine.execTodConflictClear s
  | .timNowLowRead => Sys2Proof.Machine.execTimNowLowRead s
  | .ppsOutEdge out => Sys2Proof.Machine.execPpsOutEdge out s
  | .ppsOutFall out => Sys2Proof.Machine.execPpsOutFall out s
  | .ptpSyncTx port => Sys2Proof.Machine.execPtpSyncTx port s
  | .ptpAnnounceTx port => Sys2Proof.Machine.execPtpAnnounceTx port s
  | .ptpDelayReq port peer stamp => Sys2Proof.Machine.execPtpDelayReq port peer stamp s
  | .ptpAnnounceRx port fromPartner => Sys2Proof.Machine.execPtpAnnounceRx port fromPartner s
  | .ptpPassiveTimeout port => Sys2Proof.Machine.execPtpPassiveTimeout port s
  | .treeCalibrated => Sys2Proof.Machine.execTreeCalibrated s
  | .followerDelayMeasure t1 t2 t3 t4 rootClass => Sys2Proof.Machine.execFollowerDelayMeasure t1 t2 t3 t4 rootClass s
  | .sensorFrameRx port frame fcsOk => Sys2Proof.Machine.execSensorFrameRx port frame fcsOk s
  | .contextFetchDone ctx => Sys2Proof.Machine.execContextFetchDone ctx s
  | .frameParse port => Sys2Proof.Machine.execFrameParse port s
  | .pointDeskew => Sys2Proof.Machine.execPointDeskew s
  | .contextAgeingCheck ctx => Sys2Proof.Machine.execContextAgeingCheck ctx s
  | .discoveryHoldoffExpire key => Sys2Proof.Machine.execDiscoveryHoldoffExpire key s
  | .ingestHeadLineRead ok stores => Sys2Proof.Machine.execIngestHeadLineRead ok stores s
  | .batchTimeout set => Sys2Proof.Machine.execBatchTimeout set s
  | .batchPush set => Sys2Proof.Machine.execBatchPush set s
  | .windowClose set => Sys2Proof.Machine.execWindowClose set s
  | .windowFrameReady set => Sys2Proof.Machine.execWindowFrameReady set s
  | .streamSetConfig cmd => Sys2Proof.Machine.execStreamSetConfig cmd s
  | .sensorAdd cmd => Sys2Proof.Machine.execSensorAdd cmd s
  | .sensorRemove cmd => Sys2Proof.Machine.execSensorRemove cmd s
  | .templateSet cmd => Sys2Proof.Machine.execTemplateSet cmd s
  | .calibLoad cmd => Sys2Proof.Machine.execCalibLoad cmd s
  | .poseSourceConfig cmd => Sys2Proof.Machine.execPoseSourceConfig cmd s
  | .posePush cmd => Sys2Proof.Machine.execPosePush cmd s
  | .ingestQueues cmd => Sys2Proof.Machine.execIngestQueues cmd s
  | .sensorRead cmd => Sys2Proof.Machine.execSensorRead cmd s
  | .ctxWrite cmd => Sys2Proof.Machine.execCtxWrite cmd s
  | .ctxRead cmd => Sys2Proof.Machine.execCtxRead cmd s
  | .programLoad cmd => Sys2Proof.Machine.execProgramLoad cmd s
  | .setWrite cmd => Sys2Proof.Machine.execSetWrite cmd s
  | .vheBatchAccept table => Sys2Proof.Machine.execVheBatchAccept table s
  | .vheChunk table => Sys2Proof.Machine.execVheChunk table s
  | .voxelGridSet cmd => Sys2Proof.Machine.execVoxelGridSet cmd s
  | .voxelAdmitCheck cmd => Sys2Proof.Machine.execVoxelAdmitCheck cmd s
  | .vheCreate cmd => Sys2Proof.Machine.execVheCreate cmd s
  | .vheClear cmd => Sys2Proof.Machine.execVheClear cmd s
  | .vheClearEffect table => Sys2Proof.Machine.execVheClearEffect table s
  | .vheInsert cmd => Sys2Proof.Machine.execVheInsert cmd s
  | .vheFinalise cmd => Sys2Proof.Machine.execVheFinalise cmd s
  | .vheFinaliseEffect table => Sys2Proof.Machine.execVheFinaliseEffect table s
  | .vheLookup cmd => Sys2Proof.Machine.execVheLookup cmd s
  | .vheDestroy cmd => Sys2Proof.Machine.execVheDestroy cmd s
  | .maxprobeRead stem => Sys2Proof.Machine.execMaxprobeRead stem s
  | .sparseAdmitCheck cmd => Sys2Proof.Machine.execSparseAdmitCheck cmd s
  | .spillPoolSet cmd => Sys2Proof.Machine.execSpillPoolSet cmd s
  | .kmeConv cmd => Sys2Proof.Machine.execKmeConv cmd s
  | .kmeMapWrite cmd => Sys2Proof.Machine.execKmeMapWrite cmd s
  | .kmeSiteChunk cmd stem => Sys2Proof.Machine.execKmeSiteChunk cmd stem s
  | .sitePhaseEnd cmd => Sys2Proof.Machine.execSitePhaseEnd cmd s
  | .kmeGroup cmd stem => Sys2Proof.Machine.execKmeGroup cmd stem s
  | .spillChunkClaim cmd stem group => Sys2Proof.Machine.execSpillChunkClaim cmd stem group s
  | .spillReadback cmd stem group => Sys2Proof.Machine.execSpillReadback cmd stem group s
  | .spillUseRead stem => Sys2Proof.Machine.execSpillUseRead stem s
  | .workItemStart index => Sys2Proof.Machine.execWorkItemStart index s
  | .convPass index => Sys2Proof.Machine.execConvPass index s
  | .gemm cmd => Sys2Proof.Machine.execGemm cmd s
  | .convert cmd => Sys2Proof.Machine.execConvert cmd s
  | .tileGemm cmd => Sys2Proof.Machine.execTileGemm cmd s
  | .tileConvert cmd => Sys2Proof.Machine.execTileConvert cmd s
  | .gemmPass index => Sys2Proof.Machine.execGemmPass index s
  | .twigRun cmd => Sys2Proof.Machine.execTwigRun cmd s
  | .programRun cmd => Sys2Proof.Machine.execProgramRun cmd s
  | .twigThreadsStart cmd => Sys2Proof.Machine.execTwigThreadsStart cmd s
  | .twigIntegerOp thread => Sys2Proof.Machine.execTwigIntegerOp thread s
  | .twigMuldiv thread => Sys2Proof.Machine.execTwigMuldiv thread s
  | .twigLoad thread => Sys2Proof.Machine.execTwigLoad thread s
  | .twigLoadReturn thread => Sys2Proof.Machine.execTwigLoadReturn thread s
  | .twigStore thread => Sys2Proof.Machine.execTwigStore thread s
  | .twigAmo thread => Sys2Proof.Machine.execTwigAmo thread s
  | .twigCsrRead thread => Sys2Proof.Machine.execTwigCsrRead thread s
  | .twigFence thread => Sys2Proof.Machine.execTwigFence thread s
  | .fenceI thread => Sys2Proof.Machine.execFenceI thread s
  | .ecallEbreak thread => Sys2Proof.Machine.execEcallEbreak thread s
  | .twigIllegalInstruction thread => Sys2Proof.Machine.execTwigIllegalInstruction thread s
  | .twAcq thread => Sys2Proof.Machine.execTwAcq thread s
  | .twRel thread => Sys2Proof.Machine.execTwRel thread s
  | .twYield thread => Sys2Proof.Machine.execTwYield thread s
  | .twExit thread => Sys2Proof.Machine.execTwExit thread s
  | .twTime thread => Sys2Proof.Machine.execTwTime thread s
  | .twTid thread => Sys2Proof.Machine.execTwTid thread s
  | .knotSig thread => Sys2Proof.Machine.execKnotSig thread s
  | .knotWait thread => Sys2Proof.Machine.execKnotWait thread s
  | .knotRd thread => Sys2Proof.Machine.execKnotRd thread s
  | .twCas thread => Sys2Proof.Machine.execTwCas thread s
  | .twigSuspendDone cmd => Sys2Proof.Machine.execTwigSuspendDone cmd s
  | .twigResume cmd => Sys2Proof.Machine.execTwigResume cmd s
  | .twigWatchdog cmd => Sys2Proof.Machine.execTwigWatchdog cmd s
  | .historyReset cmd => Sys2Proof.Machine.execHistoryReset cmd s
  | .historyLimit cmd => Sys2Proof.Machine.execHistoryLimit cmd s
  | .cnpMapDefine cmd => Sys2Proof.Machine.execCnpMapDefine cmd s
  | .cnpMapFree cmd => Sys2Proof.Machine.execCnpMapFree cmd s
  | .cnpFold cmd => Sys2Proof.Machine.execCnpFold cmd s
  | .cnpDense cmd => Sys2Proof.Machine.execCnpDense cmd s
  | .cnpWarp cmd => Sys2Proof.Machine.execCnpWarp cmd s
  | .cnpDevox cmd => Sys2Proof.Machine.execCnpDevox cmd s
  | .canopyUnit cmd stem => Sys2Proof.Machine.execCanopyUnit cmd stem s
  | .densePass index => Sys2Proof.Machine.execDensePass index s
  | .sort cmd => Sys2Proof.Machine.execSort cmd s
  | .topk cmd => Sys2Proof.Machine.execTopk cmd s
  | .merge cmd => Sys2Proof.Machine.execMerge cmd s
  | .nms cmd => Sys2Proof.Machine.execNms cmd s
  | .nmsOverride cmd => Sys2Proof.Machine.execNmsOverride cmd s
  | .srtSort cmd => Sys2Proof.Machine.execSrtSort cmd s
  | .srtTopk cmd => Sys2Proof.Machine.execSrtTopk cmd s
  | .srtMerge cmd => Sys2Proof.Machine.execSrtMerge cmd s
  | .srtNms cmd => Sys2Proof.Machine.execSrtNms cmd s
  | .sortChunk cmd stem => Sys2Proof.Machine.execSortChunk cmd stem s
  | .priorLoad cmd => Sys2Proof.Machine.execPriorLoad cmd s
  | .priorBind cmd => Sys2Proof.Machine.execPriorBind cmd s
  | .burlSize cmd => Sys2Proof.Machine.execBurlSize cmd s
  | .gthTableCreate cmd => Sys2Proof.Machine.execGthTableCreate cmd s
  | .gthVersionBuild cmd => Sys2Proof.Machine.execGthVersionBuild cmd s
  | .gthPut cmd => Sys2Proof.Machine.execGthPut cmd s
  | .putRecordAtOwner record => Sys2Proof.Machine.execPutRecordAtOwner record s
  | .gthPublish cmd => Sys2Proof.Machine.execGthPublish cmd s
  | .publishOrder order => Sys2Proof.Machine.execPublishOrder order s
  | .gthGather cmd => Sys2Proof.Machine.execGthGather cmd s
  | .gatherChunk cmd engine => Sys2Proof.Machine.execGatherChunk cmd engine s
  | .priorFetchRequest request => Sys2Proof.Machine.execPriorFetchRequest request s
  | .gatherFetchReturn fetch => Sys2Proof.Machine.execGatherFetchReturn fetch s
  | .burlWindowExpire stem => Sys2Proof.Machine.execBurlWindowExpire stem s
  | .versionUnpinReport report => Sys2Proof.Machine.execVersionUnpinReport report s
  | .gthBurlSet cmd => Sys2Proof.Machine.execGthBurlSet cmd s
  | .gthTableDestroy cmd => Sys2Proof.Machine.execGthTableDestroy cmd s
  | .flitRx link flit => Sys2Proof.Machine.execFlitRx link flit s
  | .replayTimeout link => Sys2Proof.Machine.execReplayTimeout link s
  | .laneSpareSwitch link lane => Sys2Proof.Machine.execLaneSpareSwitch link lane s
  | .linkTrainingDone link facts => Sys2Proof.Machine.execLinkTrainingDone link facts s
  | .linkTrainingRetry link => Sys2Proof.Machine.execLinkTrainingRetry link s
  | .packetForward index => Sys2Proof.Machine.execPacketForward index s
  | .read packet => Sys2Proof.Machine.execRead packet s
  | .write packet => Sys2Proof.Machine.execWrite packet s
  | .atomic packet => Sys2Proof.Machine.execAtomic packet s
  | .knotSignalPacket packet => Sys2Proof.Machine.execKnotSignalPacket packet s
  | .readData packet => Sys2Proof.Machine.execReadData packet s
  | .ack packet => Sys2Proof.Machine.execAck packet s
  | .mcastWrite packet => Sys2Proof.Machine.execMcastWrite packet s
  | .mgmt packet => Sys2Proof.Machine.execMgmt packet s
  | .reservedPacketType packet => Sys2Proof.Machine.execReservedPacketType packet s
  | .heartbeatTx => Sys2Proof.Machine.execHeartbeatTx s
  | .heartbeatMiss link => Sys2Proof.Machine.execHeartbeatMiss link s
  | .requestTimeout index => Sys2Proof.Machine.execRequestTimeout index s
  | .detourCommit tables => Sys2Proof.Machine.execDetourCommit tables s
  | .routeChangeDrained => Sys2Proof.Machine.execRouteChangeDrained s
  | .actingRootTimeout => Sys2Proof.Machine.execActingRootTimeout s
  | .linkServiceOut cmd => Sys2Proof.Machine.execLinkServiceOut cmd s
  | .linkServiceReturn cmd => Sys2Proof.Machine.execLinkServiceReturn cmd s
  | .routeRebuild cmd => Sys2Proof.Machine.execRouteRebuild cmd s
  | .wblRouteLoad cmd => Sys2Proof.Machine.execWblRouteLoad cmd s
  | .wblRouteCommit cmd => Sys2Proof.Machine.execWblRouteCommit cmd s
  | .wblAliasSet cmd => Sys2Proof.Machine.execWblAliasSet cmd s
  | .linkRetrainOrder cmd => Sys2Proof.Machine.execLinkRetrainOrder cmd s
  | .linkForceSpare cmd => Sys2Proof.Machine.execLinkForceSpare cmd s
  | .linkDownOrder cmd => Sys2Proof.Machine.execLinkDownOrder cmd s
  | .twinPair cmd => Sys2Proof.Machine.execTwinPair cmd s
  | .twinDetach cmd => Sys2Proof.Machine.execTwinDetach cmd s
  | .twnSigExchange cmd => Sys2Proof.Machine.execTwnSigExchange cmd s
  | .twnCopy cmd => Sys2Proof.Machine.execTwnCopy cmd s
  | .hello message => Sys2Proof.Machine.execHello message s
  | .cert message => Sys2Proof.Machine.execCert message s
  | .proof message => Sys2Proof.Machine.execProof message s
  | .role message => Sys2Proof.Machine.execRole message s
  | .syncData message => Sys2Proof.Machine.execSyncData message s
  | .syncDone message => Sys2Proof.Machine.execSyncDone message s
  | .signature message => Sys2Proof.Machine.execSignature message s
  | .verdict message => Sys2Proof.Machine.execVerdict message s
  | .leaving message => Sys2Proof.Machine.execLeaving message s
  | .syncTimeout => Sys2Proof.Machine.execSyncTimeout s
  | .historyCopyArrive message => Sys2Proof.Machine.execHistoryCopyArrive message s
  | .sigWaitTimeout => Sys2Proof.Machine.execSigWaitTimeout s
  | .twinFaultIn => Sys2Proof.Machine.execTwinFaultIn s
  | .lockstepMismatch => Sys2Proof.Machine.execLockstepMismatch s
  | .barkClockLost => Sys2Proof.Machine.execBarkClockLost s
  | .barkRestart => Sys2Proof.Machine.execBarkRestart s
  | .mgmtHeartbeatMiss core => Sys2Proof.Machine.execMgmtHeartbeatMiss core s
  | .safeRelease cmd => Sys2Proof.Machine.execSafeRelease cmd s
  | .faultLogRead cmd => Sys2Proof.Machine.execFaultLogRead cmd s
  | .brkCsRequest cmd => Sys2Proof.Machine.execBrkCsRequest cmd s
  | .coreSampleStart stem => Sys2Proof.Machine.execCoreSampleStart stem s
  | .coreSampleSwitch stem tile => Sys2Proof.Machine.execCoreSampleSwitch stem tile s
  | .inPlaceSampleTake stem tile => Sys2Proof.Machine.execInPlaceSampleTake stem tile s
  | .inPlaceLagExpire stem tile => Sys2Proof.Machine.execInPlaceLagExpire stem tile s
  | .coreSampleComplete stem tile pass => Sys2Proof.Machine.execCoreSampleComplete stem tile pass s
  | .csCfgWrite value => Sys2Proof.Machine.execCsCfgWrite value s
  | .srcCfgWrite source value => Sys2Proof.Machine.execSrcCfgWrite source value s
  | .wearSample readings => Sys2Proof.Machine.execWearSample readings s
  | .graft target => Sys2Proof.Machine.execGraft target s
  | .logFlashWrite => Sys2Proof.Machine.execLogFlashWrite s
  | .tdmaSlotChange stem => Sys2Proof.Machine.execTdmaSlotChange stem s
  | .perstRelease bootMode outOfOrder => Sys2Proof.Machine.execPerstRelease bootMode outOfOrder s
  | .perstAssert => Sys2Proof.Machine.execPerstAssert s
  | .pcieConfigRequest fn offset write value => Sys2Proof.Machine.execPcieConfigRequest fn offset write value s
  | .bootRomComplete => Sys2Proof.Machine.execBootRomComplete s
  | .barkFirmwareComplete ok => Sys2Proof.Machine.execBarkFirmwareComplete ok s
  | .graftLogApplied => Sys2Proof.Machine.execGraftLogApplied s
  | .memoryStageComplete ok deadStacks => Sys2Proof.Machine.execMemoryStageComplete ok deadStacks s
  | .samplesStageComplete failed => Sys2Proof.Machine.execSamplesStageComplete failed s
  | .firmwareStage cmd => Sys2Proof.Machine.execFirmwareStage cmd s
  | .firmwareActivateTrial cmd => Sys2Proof.Machine.execFirmwareActivateTrial cmd s
  | .firmwareActivateCommit cmd => Sys2Proof.Machine.execFirmwareActivateCommit cmd s
  | .otpOrder cmd => Sys2Proof.Machine.execOtpOrder cmd s
  | .rollbackCommit cmd => Sys2Proof.Machine.execRollbackCommit cmd s
  | .measureExtend cmd => Sys2Proof.Machine.execMeasureExtend cmd s
  | .secHash cmd => Sys2Proof.Machine.execSecHash cmd s
  | .secVerify cmd => Sys2Proof.Machine.execSecVerify cmd s
  | .attest fn => Sys2Proof.Machine.execAttest fn s
  | .certRead fn => Sys2Proof.Machine.execCertRead fn s
  | .debugChallenge fn => Sys2Proof.Machine.execDebugChallenge fn s
  | .debugResponse fn => Sys2Proof.Machine.execDebugResponse fn s
  | .recoveryBlock fn => Sys2Proof.Machine.execRecoveryBlock fn s
  | .challengeExpire => Sys2Proof.Machine.execChallengeExpire s
  | .ideIntegrityFailure stream cmd => Sys2Proof.Machine.execIdeIntegrityFailure stream cmd s
  | .spdmMessage message => Sys2Proof.Machine.execSpdmMessage message s
  | .traceStart cmd => Sys2Proof.Machine.execTraceStart cmd s
  | .traceStop cmd => Sys2Proof.Machine.execTraceStop cmd s
  | .traceTriggerNow cmd => Sys2Proof.Machine.execTraceTriggerNow cmd s
  | .traceSetMode cmd => Sys2Proof.Machine.execTraceSetMode cmd s
  | .traceMark cmd => Sys2Proof.Machine.execTraceMark cmd s
  | .dumpRequest cmd => Sys2Proof.Machine.execDumpRequest cmd s
  | .unitHang unit => Sys2Proof.Machine.execUnitHang unit s
  | .hangGraftTimeout unit => Sys2Proof.Machine.execHangGraftTimeout unit s
  | .dumpWritten => Sys2Proof.Machine.execDumpWritten s
  | .dumpSlotFree slot => Sys2Proof.Machine.execDumpSlotFree slot s
  | .pertRegisterWrite fn off bytes value => Sys2Proof.Machine.execPertRegisterWrite fn off bytes value s
  | .pollardLoop milliwatts => Sys2Proof.Machine.execPollardLoop milliwatts s
  | .thermalSample temps => Sys2Proof.Machine.execThermalSample temps s
  | .powerCap cmd => Sys2Proof.Machine.execPowerCap cmd s
  | .stemPowerOff cmd => Sys2Proof.Machine.execStemPowerOff cmd s
  | .stemPowerOn cmd => Sys2Proof.Machine.execStemPowerOn cmd s
  | .stemOffDone stem => Sys2Proof.Machine.execStemOffDone stem s
  | .stemStartDone stem failed => Sys2Proof.Machine.execStemStartDone stem failed s
  | .pmcsrD3hot fn => Sys2Proof.Machine.execPmcsrD3hot fn s
  | .pmcsrD0 fn => Sys2Proof.Machine.execPmcsrD0 fn s
  | .pcieLinkRetrain speed width => Sys2Proof.Machine.execPcieLinkRetrain speed width s
  | .functionLevelReset fn => Sys2Proof.Machine.execFunctionLevelReset fn s
  | .flrComplete fn => Sys2Proof.Machine.execFlrComplete fn s
  | .vfEnableWrite enable numVfs => Sys2Proof.Machine.execVfEnableWrite enable numVfs s
  | .bar2Read fn offset len => Sys2Proof.Machine.execBar2Read fn offset len s
  | .bar2Write fn offset data => Sys2Proof.Machine.execBar2Write fn offset data s
  | .msixUnmask fn vector => Sys2Proof.Machine.execMsixUnmask fn vector s
  | .setupLockWrite fn value => Sys2Proof.Machine.execSetupLockWrite fn value s
  | .fnLockWrite fn value => Sys2Proof.Machine.execFnLockWrite fn value s
  | .railTrip rail => Sys2Proof.Machine.execRailTrip rail s
  | .vddBarkPowerOn => Sys2Proof.Machine.execVddBarkPowerOn s
  | .timeInputsReturn => Sys2Proof.Machine.execTimeInputsReturn s
  | .windowStart set => Sys2Proof.Machine.execWindowStart set s
  | .sensorPortLinkDown port => Sys2Proof.Machine.execSensorPortLinkDown port s

end Sys2Proof.Machine
end

