-- ==== Sys2Proof/Machine/Tick.lean ====
section
/-! DEFINITION. What the block does by itself when no command waits: an error report on its way reaches Bark, a twin's shadow
confirms what it can, a detach is done, and else a nanosecond passes. -/
namespace Sys2Proof.Machine

/-- One nanosecond passes (R122). While a phase error is left, the count gains or loses a nanosecond as often as slew_ppm
allows (R127), so it never goes back (R124). -/
def State.passNs (s : State) : State :=
  let ppm := max 1 (s.rdN Fld.timCtrl_slew_ppm)
  let t : Time := { s.time with uptime := s.time.uptime + 1 }
  if t.phaseErr = 0 then { s with time := { t with now := t.now + 1 } }
  else
    let acc := t.slewAcc + ppm
    if acc < 1000000 then { s with time := { t with now := t.now + 1, slewAcc := acc } }
    else if t.phaseErr > 0 then
      { s with time := { t with slewAcc := acc - 1000000, phaseErr := t.phaseErr - 1 } }
    else { s with time := { t with now := t.now + 2, slewAcc := acc - 1000000, phaseErr := t.phaseErr + 1 } }

/-- An idle step without a report for Bark: a shadow confirms what it can confirm now (R434); a detach whose frames are gone is done
(R446); else time passes. -/
def State.idle (s : State) : State := if s.canConfirm then s.syncConfirm else if s.detachDue then s.endDetach else s.passNs

/-- An idle step: the oldest report on its way reaches Bark (R455); where there is none, the block goes on by itself. -/
def tick (s : State) : State :=
  match s.reports with
  | r :: rest => if s.barkRuns then ({ s with reports := rest }).barkReport r else s.idle
  | [] => s.idle

end Sys2Proof.Machine
end

