-- ==== Sys2Proof/Safety.lean ====
section
/-! DEFINITION. What counts as a safe run and a completed command, and what a command leaves alone, in the terms that claims use. -/
namespace Sys2Proof

/-- Every command that waits names units that exist. -/
def Machine.State.QueueOk (s : Machine.State) : Prop := ∀ c ∈ s.pending, wellFormed c = true

/-- The four memories have their canonical form (Machine/Mem.lean). -/
def Machine.State.MemOk (s : Machine.State) : Prop :=
  Machine.memWf s.hbm = true ∧ Machine.memWf s.sap = true ∧ Machine.memWf s.host = true ∧ Machine.memWf s.acc = true

/-- The list of Knots that do not read 0 is strictly rising and holds no 0, from a least number on. -/
def Machine.knotsOkFrom : Nat → List (Nat × DWord) → Bool
  | _, [] => true
  | lo, (n, v) :: r => decide (lo ≤ n) && decide (v ≠ 0) && Machine.knotsOkFrom (n + 1) r

/-- The Knots are kept in their canonical form. -/
def Machine.State.KnotsOk (s : Machine.State) : Prop := Machine.knotsOkFrom 0 s.queues.knots = true

/-- A command answers a next state in a state, and a property holds of it. -/
def Completes (c : Instr) (s : Machine.State) (p : Machine.State → Prop) : Prop :=
  ∃ t, Machine.exec c s = .next t ∧ p t

/-- A command in flight has ended its engine work with a status and a detail, and retires next (R90). -/
def Machine.State.Ended (s : Machine.State) (id : Nat) (st : Half) (d : Word) : Prop :=
  ∃ c, s.cmd? id = some c ∧ c.phase = .finished ∧ c.status = st ∧ c.detail = d

/-- The components of the state. -/
inductive Component where
  | pending | variant | revision | regs | hbm | sap | host | acc | mem | queues | pcie | time | ingest | compute | canopy
  | sort | gather | fabric | twin | bark | security | observe | power | reports | free | out
  deriving DecidableEq, Repr

/-- A component is the same in two states. -/
def Component.same (s t : Machine.State) : Component → Prop
  | .pending => t.pending = s.pending
  | .variant => t.variant = s.variant
  | .revision => t.revision = s.revision
  | .regs => t.regs = s.regs
  | .hbm => t.hbm = s.hbm
  | .sap => t.sap = s.sap
  | .host => t.host = s.host
  | .acc => t.acc = s.acc
  | .mem => t.mem = s.mem
  | .queues => t.queues = s.queues
  | .pcie => t.pcie = s.pcie
  | .time => t.time = s.time
  | .ingest => t.ingest = s.ingest
  | .compute => t.compute = s.compute
  | .canopy => t.canopy = s.canopy
  | .sort => t.sort = s.sort
  | .gather => t.gather = s.gather
  | .fabric => t.fabric = s.fabric
  | .twin => t.twin = s.twin
  | .bark => t.bark = s.bark
  | .security => t.security = s.security
  | .observe => t.observe = s.observe
  | .power => t.power = s.power
  | .reports => t.reports = s.reports
  | .free => t.free = s.free
  | .out => t.out = s.out

/-- The second state differs from the first in the listed components at most. -/
def OnlyIn (l : List Component) (s t : Machine.State) : Prop := ∀ p : Component, p ∉ l → p.same s t

/-- Every register field but the listed ones reads the same in both states. -/
def RegsBut (l : List Machine.RegKey) (s t : Machine.State) : Prop :=
  ∀ f i n, Machine.Field.key f i n ∉ l → t.rd f i n = s.rd f i n

/-- Every command in flight but one is the same in both states. -/
def CmdsBut (id : Nat) (s t : Machine.State) : Prop := ∀ j, j ≠ id → t.cmd? j = s.cmd? j

/-- Every byte outside n bytes at an address reads the same in both memories. -/
def BytesBut (a n : Nat) (m m' : List Host.Cell) : Prop :=
  ∀ b, b < a ∨ a + n ≤ b → Machine.memGet m' b = Machine.memGet m b

/-- The slot with a number holds a thread that is not suspended, of a program that runs. -/
def Machine.State.HoldsThread (s : Machine.State) (n : Nat) (t : Machine.Thread) : Prop := ∃ p, s.thread? n = some (t, p)

/-- A thread has had its turn to issue on its tile (R294). -/
def Machine.State.turned (s : Machine.State) (t : Machine.Thread) : Machine.State :=
  s.setTwig { s.twigOf t.stem t.tile with issued := t.slot }

/-- The slot with a number holds a READY thread that can issue and is the next of its tile in round-robin order, and its next instruction,
which the tile's instruction cache holds, decodes as an issue says (R292 to R294). -/
def Machine.State.Issues (s : Machine.State) (n : Nat) (i : Machine.Issue) : Prop :=
  ∃ p, n < 4096 ∧ s.thread? n = some (i.t, p) ∧ s.cmd? i.t.cmd = some i.c ∧ s.issuable i.t p = true ∧ s.issuesNext i.t = true ∧
    i.t.yielded = false ∧ s.isHere i.t.pc.toNat = true ∧
    s.cachedInstr i.t (Machine.gLocal i.t.pc.toNat) = .ok i.word ∧ (i.op, i.len) = Machine.decodeTwig i.word ∧
    i.o = { i.c.origin with thread := some (i.t.stem, i.t.tile, p.arrayAccess) }

/-- What an instruction that retires makes of its thread: the pc is at the next instruction, and the instruction is counted. -/
def Machine.Issue.next (i : Machine.Issue) (t : Machine.Thread) : Machine.Thread :=
  { t with pc := i.t.pc + BitVec.ofNat 64 i.len, instret := i.t.instret + 1 }

/-- The maps that a command names let it be dispatched: none has become another's or is absent, none is on both sides, and it reads
valid blocks only (R317, R318). A command that names no map passes. -/
def Machine.State.MapsGo (s : Machine.State) (c : Machine.Cmd) : Prop :=
  s.mapsForeign c = none ∧ (∀ n ∈ s.mapNeeds c, (s.map? n.map).isSome = true) ∧ Machine.mapAlias (s.mapNeeds c) = none ∧
    s.invalidBlock (s.mapNeeds c) = none

/-- A command of the Sort engines passes its checks, whose outcome is given, gets the engines of some Stems and, where it is a basic-level
SORT, its scratch areas; every row is short enough, and the counts have been read (R348, R357, R362, R363). -/
def Machine.State.SortStarts (s : Machine.State) (c : Machine.Cmd) (basic one : Bool) (mask rows n counts : Nat)
    (check : Option (Half × Word)) (stems : List Nat) (scratch : List Machine.ScratchArea) (t : Machine.State) : Prop :=
  n ≤ 1048576 ∧ check = none ∧ t.sort = s.sort ∧ ∃ u v : Machine.State,
    (if basic then s.chooseEngines one = (u, stems) ∧ stems ≠ [] else stems = Machine.bitList 4 mask ∧ s.sortEngines stems = (u, none)) ∧
    u.countsFault c.origin counts n (if counts = 0 then [] else List.range rows) = (v, none) ∧ v.scratchFor c stems = (t, some scratch)

/-- A packet of a type is for this chip and it is its turn: no earlier packet of its source and class waits (R416); the second
state is the first without it in the input buffers. -/
def Machine.State.TakesPacket (s : Machine.State) (type : Nat) (p : Machine.Packet) (t : Machine.State) : Prop :=
  p.type = type ∧ p.dst = s.chipId ∧
    ((∃ x, s.fabric.inbox.find? (fun x => x.packet == p) = some x ∧ t = s.leaveInbox x ∧
        ∀ y ∈ s.fabric.inbox.takeWhile (fun x => x.packet != p),
          ¬(y.packet.src = p.src ∧ y.packet.cls = p.cls ∧ y.packet.dst = p.dst)) ∨
      ((∀ x ∈ s.fabric.inbox, x.packet ≠ p) ∧ t = s))

/-- A message of the partner reaches the twin unit, and is no longer among those that wait for it (R432). -/
def Machine.State.hears (s : Machine.State) (m : List Byte) : Machine.State :=
  { s with twin := { s.twin with arrived := s.twin.arrived.erase m } }

/-- The fields of a signature fit their widths (R438 to R440). -/
def Machine.Signature.Fits (g : Machine.Signature) : Prop :=
  g.set < 65536 ∧ -(2 ^ 63) ≤ g.window ∧ g.window < 2 ^ 63 ∧ g.digest < 2 ^ 64 ∧ g.truncScore < 65536 ∧ g.boxes.length ≤ 512 ∧
    g.samples.length ≤ 64 ∧ (∀ b ∈ g.boxes, -32768 ≤ b.x ∧ b.x < 32768 ∧ -32768 ≤ b.y ∧ b.y < 32768 ∧ b.l < 65536 ∧ b.w < 65536 ∧
      b.score < 65536 ∧ b.cls < 65536) ∧ (∀ p ∈ g.samples, p.1 < 2 ^ 29 ∧ p.2.length = 32 ∧ ∀ v ∈ p.2, v < 65536)

/-- The fields of a packet fit their widths in a header (R404), and its type is not 0. -/
def Machine.Packet.Fits (p : Machine.Packet) : Prop :=
  p.dst < 65536 ∧ p.src < 65536 ∧ p.cls < 4 ∧ p.dl < 2 ∧ 0 < p.type ∧ p.type < 32 ∧ p.hops < 64 ∧ p.epoch < 2 ∧ p.part < 64 ∧
    p.crit < 4 ∧ p.tag < 65536 ∧ p.stream < 65536 ∧ p.payload.length < 1024

end Sys2Proof
end

