-- ==== Sys2Proof/Certificates/Slice0/Obligations.lean ====
section
/-! DEFINITION. The statements for the provers. Each says which rules of the spec it formalises. -/
open Sys2Proof Sys2Proof.Machine

/-- A step runs the command at the front of the queue on the state with the queue's rest.
For every command c and state s, a step of s with c put in front of its queue is exec of c on s: the command is taken from the
front, first in first out, and acts on everything but the queue. The queue of commands is the model's own (log entry 1).
(00_scope.md, 01_architecture.md) -/
def Obligations.StepRunsTheFrontCommand : Prop :=
  ∀ (c : Instr) (s : State), step { s with pending := c :: s.pending } = exec c s

/-- With no command waiting, a step is one tick of the block.
On an empty queue a step answers a next state with the queue still empty. Where no report is on its way to Bark and the twin
unit has nothing to confirm and no detach to end, exactly one nanosecond of the reference passes and nothing but time changes:
with no phase error left to slew the count rises by 1, with one left by 0, 1 or 2, so it never goes back. Where a shadow can
confirm, the step confirms; where a detach has no frame left to wait for, the step ends it. Where a report is on its way and
Bark runs, the step brings it there. That a step on an empty queue ticks is the model's choice (log entry 2). (R28, R122,
R127, R446, R455) -/
def Obligations.IdleStepTicks : Prop :=
  (∀ s : State, s.pending = [] → ∃ t, step s = .next t ∧ t.pending = []) ∧
  (∀ s : State, s.pending = [] → s.reports = [] → s.canConfirm = false → s.detachDue = false → s.time.phaseErr = 0 →
    step s = .next { s with time := { s.time with now := s.time.now + 1, uptime := s.time.uptime + 1 } }) ∧
  (∀ s : State, s.pending = [] → s.reports = [] → s.canConfirm = false → s.detachDue = false →
    ∃ t, step s = .next t ∧ OnlyIn [.time] s t ∧ t.time.uptime = s.time.uptime + 1 ∧
      (t.now = s.now ∨ t.now = s.now + 1 ∨ t.now = s.now + 2)) ∧
  (∀ s : State, s.pending = [] → s.reports = [] → s.canConfirm = true → step s = .next s.syncConfirm) ∧
  (∀ s : State, s.pending = [] → s.reports = [] → s.canConfirm = false → s.detachDue = true → step s = .next (s.after s.endDetach)) ∧
  (∀ (s : State) (r : Report) (rest : List Report), s.pending = [] → s.reports = r :: rest → s.barkRuns = true →
    step s = .next (s.after (({ s with reports := rest }).barkReport r)))

/-- From every state whose waiting commands name existing units, a step answers a next state, keeps that and keeps what the part is.
Inv s says that every command that waits in s names units that exist (log entry 6 names the fault that other commands meet).
For every state s with Inv s, step s is neither a fault nor a refusal: it answers a next state t with Inv t, whose queue is
the queue of s without its front command, and whose variant and silicon revision are those of s. No command can change what
the part is, and no operand value that names existing units stops the machine. (R1, R22, R24, 00_scope.md) -/
def Obligations.EveryStepAnswersAndKeepsTheQueue : Prop :=
  ∀ s : State, s.QueueOk →
    ∃ t, step s = .next t ∧ t.QueueOk ∧ t.pending = s.pending.tail ∧ t.variant = s.variant ∧ t.revision = s.revision

/-- After reset the invariants hold and the registers hold the spec's reset values.
The state after reset meets the invariant of EveryStepAnswersAndKeepsTheQueue and the four memories have their canonical form;
the mode is BOOT, start-up stage 0, no report waits, every Knot reads 0, Sapwood reads 0, every bank of the variant is ON, the
default reactions of the error sources stand, and each function's partition is its own number. Bytes of HBM, of the host's
memory and of the accumulator files read 0 by the model's choice (log entry 11) and have no clause here; the power-up contents
of Sapwood are the spec's. It also rests on choices and readings of the model: log entries 13 and 14. (R58, R61, R99, R453,
R487, R526, R558) -/
def Obligations.ResetIsAsTheSpecSays : Prop :=
  State.reset.QueueOk ∧ State.reset.MemOk ∧ State.reset.mode = modeBoot ∧ State.reset.stage = 0 ∧
  State.reset.reports = [] ∧
  (∀ n, State.reset.knot n = 0) ∧
  (∀ a, memGet State.reset.sap a = 0) ∧
  (∀ (j t b : Nat), b < sliceBanks State.reset.variant → State.reset.bankState ⟨j, t, b⟩ = bankOn) ∧
  (∀ source, State.reset.rdN Fld.brkSrcCfg_reaction source = defaultReaction source) ∧
  (∀ fn, fn < 64 → State.reset.rdN Fld.pciFnPart_partition fn = fn)

/-- A command that names a unit of the block that does not exist faults, and no other command does.
A command's operands name units that exist exactly when the command answers a next state; else it answers the fault
noSuchUnit. That such an event is a fault is the model's choice (log entry 6): the spec gives the block no such unit. (R22,
R24, R43, R71) -/
def Obligations.CommandsNamingAbsentUnitsFault : Prop :=
  (∀ (c : Instr) (s : State), wellFormed c = false → exec c s = .fault .noSuchUnit) ∧
  (∀ (c : Instr) (s : State), wellFormed c = true → ∃ t, exec c s = .next t)

/-- What a PPS_IN edge, the loss of the inputs, their return and the end of a hold-over do to the time unit.
A follower ignores the inputs. On any other chip an edge more than 1,000 ns off is rejected and counted, and the third such
edge running loses the inputs at once (the model's choice: it waits no further 2 s); before a sensor port has been up, though,
a time of day that waits while the unit is not in FREERUN sets the count at the next edge, wherever that lies, and leaves no
phase error. An edge within the bound sets the phase error to remove in LOCKING and LOCKED, and changes nothing but the count
of rejected edges running in FREERUN and HOLDOVER. In LOCKING the 16th edge running within 20 ns makes the unit LOCKED with
clock class 6 and holdover_expired clear. Losing the inputs in LOCKED gives HOLDOVER with class 7, in LOCKING before any lock
FREERUN with class 248, in other states nothing but the note that they are missing. With source_sel 1 their return gives
LOCKING with class 248 from FREERUN and from HOLDOVER, and in other states only the note that they are there. The expiry of a
hold-over, holdover_max_s after it began and no earlier, sets holdover_expired and class 248 and reports source 0x1D, once.
Each of these changes registers of the time unit, its state and reports at most. It also rests on choices and readings of the
model: log entries 5, 45 and 46. (04_time_reference.md, R124, R125, R126, R127, R134) -/
def Obligations.PpsEdgesLockTheTimeUnit : Prop :=
  (∀ (s : State) (err : Int), s.timeRole = 2 → exec (.ppsInEdge err) s = .next s) ∧
  (∀ (s : State) (err : Int), s.timeRole ≠ 2 → (s.time.nextSecPending = false ∨ s.timeState = tsFreerun ∨ s.time.portsUp = true) →
    (err > 1000 ∨ err < -1000) → s.time.badEdges < 2 →
    exec (.ppsInEdge err) s = .next
      { s.count Fld.timPpsInStat_rejected 1 with
          time := { s.time with badEdges := s.time.badEdges + 1, goodEdges := 0 } }) ∧
  (∀ (s : State) (err : Int), s.timeRole ≠ 2 → (s.time.nextSecPending = false ∨ s.time.portsUp = true) →
    (err > 1000 ∨ err < -1000) → s.time.badEdges = 2 → s.timeState = tsLocked →
    Completes (.ppsInEdge err) s fun t => t.timeState = tsHoldover ∧ t.rdN Fld.timStatus_clock_class = 7 ∧
      t.rd Fld.timPpsInStat_rejected = (s.rd Fld.timPpsInStat_rejected + 1) &&& lowMask 32 ∧ t.time.inputsPresent = false ∧
      OnlyIn [.regs, .time] s t) ∧
  (∀ (s : State) (err : Int), s.timeRole ≠ 2 → -1000 ≤ err → err ≤ 1000 →
    s.timeState = tsFreerun ∨ (s.timeState = tsHoldover ∧ s.time.nextSecPending = false) →
    exec (.ppsInEdge err) s = .next { s with time := { s.time with badEdges := 0 } }) ∧
  (∀ (s : State) (err : Int), s.timeRole ≠ 2 → -1000 ≤ err → err ≤ 1000 → s.time.nextSecPending = false →
    s.timeState = tsLocked →
    exec (.ppsInEdge err) s = .next { s with time := { s.time with badEdges := 0, phaseErr := satPhase err } }) ∧
  (∀ (s : State) (err : Int), s.timeRole ≠ 2 → -20 < err → err < 20 → s.time.nextSecPending = false →
    s.timeState = tsLocking → s.time.goodEdges = 15 →
    Completes (.ppsInEdge err) s fun t => t.timeState = tsLocked ∧ t.rdN Fld.timStatus_clock_class = 6 ∧
      t.rdB Fld.timStatus_holdover_expired = false ∧ t.time.phaseErr = satPhase err ∧ t.time.reachedLocked = true ∧
      OnlyIn [.regs, .time] s t) ∧
  (∀ (s : State) (err : Int), s.timeRole ≠ 2 → s.time.nextSecPending = true → s.time.portsUp = false → s.timeState ≠ tsFreerun →
    Completes (.ppsInEdge err) s fun t => t.now = BitVec.ofNat 64 (s.rdN Fld.timNextSec_next_sec * 1000000000) ∧
      t.time.nextSecPending = false ∧ t.time.phaseErr = 0 ∧ t.time.badEdges = 0 ∧ OnlyIn [.regs, .time] s t) ∧
  (∀ s : State, s.timeRole ≠ 2 → s.timeState = tsLocked →
    Completes .timeInputLoss s fun t => t.timeState = tsHoldover ∧ t.rdN Fld.timStatus_clock_class = 7 ∧
      t.time.inputsPresent = false ∧ OnlyIn [.regs, .time] s t) ∧
  (∀ s : State, s.timeRole ≠ 2 → s.timeState = tsLocking → s.time.reachedLocked = false →
    Completes .timeInputLoss s fun t => t.timeState = tsFreerun ∧ t.rdN Fld.timStatus_clock_class = 248 ∧
      t.time.inputsPresent = false ∧ OnlyIn [.regs, .time] s t) ∧
  (∀ s : State, s.timeRole = 2 ∨ (s.timeState ≠ tsLocked ∧ s.timeState ≠ tsLocking) →
    exec .timeInputLoss s = .next { s with time := { s.time with inputsPresent := false, goodEdges := 0, badEdges := 0 } }) ∧
  (∀ s : State, s.timeRole ≠ 2 → s.rdN Fld.timCtrl_source_sel = 1 → (s.timeState = tsHoldover ∨ s.timeState = tsFreerun) →
    Completes .timeInputsReturn s fun t => t.timeState = tsLocking ∧ t.rdN Fld.timStatus_clock_class = 248 ∧
      t.time.inputsPresent = true ∧ OnlyIn [.regs, .time] s t) ∧
  (∀ s : State, s.timeRole = 2 ∨ s.rdN Fld.timCtrl_source_sel ≠ 1 ∨ (s.timeState ≠ tsHoldover ∧ s.timeState ≠ tsFreerun) →
    exec .timeInputsReturn s = .next { s with time := { s.time with inputsPresent := true, badEdges := 0 } }) ∧
  (∀ s : State, s.timeState = tsHoldover → s.rdB Fld.timStatus_holdover_expired = false →
    1000000000 * s.rdN Fld.timCtrl_holdover_max_s ≤ (s.time.uptime - s.time.holdoverAt).toNat →
    Completes .holdoverExpired s fun t => t.rdB Fld.timStatus_holdover_expired = true ∧
      t.rdN Fld.timStatus_clock_class = 248 ∧ t.timeState = tsHoldover ∧ t.reports = s.reports ++ [{ source := 0x1D }] ∧
      OnlyIn [.regs, .reports] s t) ∧
  (∀ s : State, s.timeState ≠ tsHoldover ∨ s.rdB Fld.timStatus_holdover_expired = true ∨
      (s.time.uptime - s.time.holdoverAt).toNat < 1000000000 * s.rdN Fld.timCtrl_holdover_max_s → exec .holdoverExpired s = .next s)

/-- No clock island's count goes back between steps, and no two lie more than 2 ns apart.
Whatever the free corrections are: at one instant the counts of two islands differ by at most 2 ns, each lies within 2 ns of
the Crown network's count, and between two steps of the count none goes back as the Crown network's goes on. (R32, R124,
04_time_reference.md) -/
def Obligations.IslandsStayWithinTwoNanoseconds : Prop :=
  (∀ epoch i j t : Nat, leafCount epoch i t ≤ leafCount epoch j t + 2) ∧
  (∀ epoch i t : Nat, leafCount epoch i t ≤ t + 2 ∧ t ≤ leafCount epoch i t + 2) ∧
  (∀ epoch i t u : Nat, t ≤ u → leafCount epoch i t ≤ leafCount epoch i u) ∧
  (∀ (s : State) (i : Nat), s.now.toNat + 2 < 2 ^ 64 → (s.leaf i).toNat ≤ s.now.toNat + 2 ∧ s.now.toNat ≤ (s.leaf i).toNat + 2)

/-- Setting the time of day, reading TIM_NOW and driving the PPS outputs.
A write of TIM_NEXT_SEC that the device takes while a sensor port has been up sets next_sec where it names the next second and
else sets tod_conflict; before, it is kept until the next edge or boundary. Writing 1 to tod_conflict clears it. A read of the
low half of TIM_NOW answers that half and latches the high one. At a whole second an enabled PPS output rises, unless it has
already given that second's edge, and it falls when its width has passed (a width of 0, or of 1,000,000 or more, counts as
100), no earlier. No other register changes. It also rests on choices and readings of the model: log entry 216. (R126, R131,
R137, 04_time_reference.md) -/
def Obligations.TimeOfDayAndPpsOutputs : Prop :=
  (∀ (s : State) (v : DWord), s.takesRegs 0 = true → s.time.portsUp = true → v.toNat % 2 ^ 48 = s.now.toNat / 1000000000 + 1 →
    Completes (.timNextSecWrite v) s fun t => t.rdN Fld.timNextSec_next_sec = v.toNat % 2 ^ 48 ∧ OnlyIn [.regs] s t ∧
      RegsBut [Fld.timNextSec_next_sec.key 0 0] s t) ∧
  (∀ (s : State) (v : DWord), s.takesRegs 0 = true → s.time.portsUp = true → v.toNat % 2 ^ 48 ≠ s.now.toNat / 1000000000 + 1 →
    Completes (.timNextSecWrite v) s fun t => t.rdB Fld.timStatus_tod_conflict = true ∧ OnlyIn [.regs] s t ∧
      RegsBut [Fld.timStatus_tod_conflict.key 0 0] s t) ∧
  (∀ (s : State) (v : DWord), s.takesRegs 0 = true → s.time.portsUp = false →
    Completes (.timNextSecWrite v) s fun t => t.rdN Fld.timNextSec_next_sec = v.toNat % 2 ^ 48 ∧ t.time.nextSecPending = true ∧
      t.now = s.now ∧ OnlyIn [.regs, .time] s t) ∧
  (∀ s : State, Completes .todConflictClear s fun t => t.rdB Fld.timStatus_tod_conflict = false ∧ OnlyIn [.regs] s t ∧
    RegsBut [Fld.timStatus_tod_conflict.key 0 0] s t) ∧
  (∀ s : State, Completes .timNowLowRead s fun t => t.out = .completion 0 0 (natToBytes 4 s.now.toNat) :: s.out ∧
    t.time.latchedHigh = some (BitVec.ofNat 32 (s.now.toNat / 2 ^ 32)) ∧ t.now = s.now ∧ OnlyIn [.time, .out] s t) ∧
  (∀ (s : State) (o : Nat), o < 2 → atWholeSecond s.now.toNat = true → s.timeState ≠ tsFreerun →
    s.rdB Fld.timPpsOut_enable o = true → (if o = 0 then s.time.lastEdge0 else s.time.lastEdge1) ≠ some s.nearestSec →
    Completes (.ppsOutEdge o) s fun t => (if o = 0 then t.time.ppsOut0 else t.time.ppsOut1) = true ∧
      (if o = 0 then t.time.ppsOut1 = s.time.ppsOut1 else t.time.ppsOut0 = s.time.ppsOut0) ∧
      (if o = 0 then t.time.ppsRise0 else t.time.ppsRise1) = s.now ∧ OnlyIn [.time] s t) ∧
  (∀ (s : State) (o : Nat), o < 2 → atWholeSecond s.now.toNat = true → s.timeState ≠ tsFreerun →
    (if o = 0 then s.time.lastEdge0 else s.time.lastEdge1) = some s.nearestSec → exec (.ppsOutEdge o) s = .next s) ∧
  (∀ s : State, s.ppsWidth 0 ≤ (s.now - s.time.ppsRise0).toNat →
    exec (.ppsOutFall 0) s = .next { s with time := { s.time with ppsOut0 := false } }) ∧
  (∀ s : State, s.ppsWidth 1 ≤ (s.now - s.time.ppsRise1).toNat →
    exec (.ppsOutFall 1) s = .next { s with time := { s.time with ppsOut1 := false } }) ∧
  (∀ s : State, (s.now - s.time.ppsRise0).toNat < s.ppsWidth 0 → exec (.ppsOutFall 0) s = .next s) ∧
  (∀ s : State, (s.now - s.time.ppsRise1).toNat < s.ppsWidth 1 → exec (.ppsOutFall 1) s = .next s) ∧
  (∀ (s : State) (o : Nat), (s.rdN Fld.timPpsOut_width_us o = 0 ∨ 1000000 ≤ s.rdN Fld.timPpsOut_width_us o → s.ppsWidth o = 100000) ∧
    (s.rdN Fld.timPpsOut_width_us o ≠ 0 → s.rdN Fld.timPpsOut_width_us o < 1000000 →
      s.ppsWidth o = 1000 * s.rdN Fld.timPpsOut_width_us o))

/-- What a sensor port sends as a PTP grandmaster, when it falls silent, and what a follower takes from its upstream neighbour.
An enabled port that is up and not PASSIVE sends, in the transport of its profile (layer 2 in all but profile 0), a Sync and a
Follow_Up stamped with its transmit latency, 2^sync_rate times a second, and an Announce with the clock class and priority2,
once a second; before the interval has passed, and while PASSIVE, it sends none of these. A delay request of the port's
profile is answered with its stamp less the receive latency. A foreign Announce is counted; one from the twin partner makes
the port PASSIVE, until the partner's Announces have stopped for three of their intervals. Calibration sets tree_calibrated. A
follower that measures its upstream link takes half the round trip as the link's delay and the remaining error as the phase
error to slew. What a port sends leaves the rest of the device unchanged. It also rests on choices and readings of the model:
log entries 5, 15, 44 and 48. (R128, R129, R130, R132, R134, R135, R136) -/
def Obligations.PtpPortsServeTime : Prop :=
  (∀ (s : State) (p : Nat), p < 16 → s.ptpOn p = true → s.rdB Fld.timPortStat_passive p = false →
    s.duePeriod (nth none s.time.syncSent p) (1000000000 / 2 ^ s.rdN Fld.timPortCfg_sync_rate p) = true →
    exec (.ptpSyncTx p) s = .next
      { s with time := { s.time with syncSent := s.time.syncSent.set p (some s.time.uptime) }
               out := .ptp p (s.rdN Fld.timPortCfg_profile p) (decide (s.rdN Fld.timPortCfg_profile p ≠ 0)) 0x8
                          (s.leaf siuIsland + BitVec.ofNat 64 (s.rdN Fld.timPortCfg_tx_latency_ns p)) []
                        :: .ptp p (s.rdN Fld.timPortCfg_profile p) (decide (s.rdN Fld.timPortCfg_profile p ≠ 0)) 0x0 0 [] :: s.out }) ∧
  (∀ (s : State) (p : Nat), p < 16 → s.rdB Fld.timPortStat_passive p = true →
    exec (.ptpSyncTx p) s = .next s ∧ exec (.ptpAnnounceTx p) s = .next s) ∧
  (∀ (s : State) (p : Nat), p < 16 →
    s.duePeriod (nth none s.time.syncSent p) (1000000000 / 2 ^ s.rdN Fld.timPortCfg_sync_rate p) = false → exec (.ptpSyncTx p) s = .next s) ∧
  (∀ (s : State) (p : Nat), p < 16 → s.duePeriod (nth none s.time.announced p) 1000000000 = false →
    exec (.ptpAnnounceTx p) s = .next s) ∧
  (∀ (s : State) (p : Nat), p < 16 → s.ptpOn p = true → s.rdB Fld.timPortStat_passive p = false →
    s.duePeriod (nth none s.time.announced p) 1000000000 = true →
    exec (.ptpAnnounceTx p) s = .next
      { s with time := { s.time with announced := s.time.announced.set p (some s.time.uptime) }
               out := .ptp p (s.rdN Fld.timPortCfg_profile p) (decide (s.rdN Fld.timPortCfg_profile p ≠ 0)) 0xB s.now [s.rdN Fld.timStatus_clock_class, s.priority2] :: s.out }) ∧
  (∀ (s : State) (p : Nat) (stamp : DWord), p < 16 → s.ptpOn p = true → s.rdN Fld.timPortCfg_profile p ≠ 2 →
    exec (.ptpDelayReq p false stamp) s = .next
      { s with out := .ptp p (s.rdN Fld.timPortCfg_profile p) (decide (s.rdN Fld.timPortCfg_profile p ≠ 0)) 0x9 (stamp - BitVec.ofNat 64 (s.rdN Fld.timPortCfg_rx_latency_ns p)) [] :: s.out }) ∧
  (∀ (s : State) (p : Nat), p < 16 → Completes (.ptpAnnounceRx p true) s fun t =>
    t.rdB Fld.timPortStat_passive p = true ∧ nth 0 t.time.partnerHeard p = (if p < s.time.partnerHeard.length then s.time.uptime else 0) ∧
    OnlyIn [.regs, .time] s t ∧ RegsBut [Fld.timPortStat_passive.key p 0] s t) ∧
  (∀ (s : State) (p : Nat), p < 16 → Completes (.ptpAnnounceRx p false) s fun t =>
    t.rdN Fld.timPortStat_foreign_announce p
      = min (s.rdN Fld.timPortStat_foreign_announce p + 1) (2 ^ Fld.timPortStat_foreign_announce.width - 1) ∧
    OnlyIn [.regs] s t ∧ RegsBut [Fld.timPortStat_foreign_announce.key p 0] s t) ∧
  (∀ (s : State) (p : Nat), p < 16 → s.passed (nth 0 s.time.partnerHeard p) 3000000000 = false →
    exec (.ptpPassiveTimeout p) s = .next s) ∧
  (∀ (s : State) (p : Nat), p < 16 → s.passed (nth 0 s.time.partnerHeard p) 3000000000 = true →
    Completes (.ptpPassiveTimeout p) s fun t =>
    t.rdB Fld.timPortStat_passive p = false ∧ OnlyIn [.regs] s t ∧ RegsBut [Fld.timPortStat_passive.key p 0] s t) ∧
  (∀ s : State, Completes .treeCalibrated s fun t =>
    t.rdB Fld.timStatus_tree_calibrated = true ∧ OnlyIn [.regs] s t ∧ RegsBut [Fld.timStatus_tree_calibrated.key 0 0] s t) ∧
  (∀ (s : State) (t1 t2 t3 t4 : DWord) (k : Nat), s.timeRole = 2 → k < 256 →
    Completes (.followerDelayMeasure t1 t2 t3 t4 k) s fun t =>
      t.timeState = tsFollower ∧ t.rdN Fld.timStatus_clock_class = k ∧
      t.time.linkDelayNs = (floorDiv (stampDiff t4 t1 - stampDiff t3 t2) 2).toNat ∧
      t.time.phaseErr = satPhase (floorDiv (stampDiff t1 t2 + stampDiff t4 t3) 2) ∧ t.now = s.now ∧ OnlyIn [.regs, .time] s t)

/-- Patrol scrub, soft repair and pseudo-channel retirement count, record and report.
With patrol scrub enabled, a word found with a correctable error is corrected, counted in its stack and reported as source
0x08; one found with an uncorrectable error is counted, its address kept, and reported as source 0x0A; disabled, patrol does
nothing to HBM. At a Sapwood address the row gives the word an error and counts nothing (the model's choice: patrol reads HBM
alone). A soft repair that completes is counted, recorded as kind 7 with source 0x0B and reported; the owner's answer that a
stack's slice is vacated starts its migration; a migration that completes retires the pseudo-channel, clears retire_pending
and reports, and starts the oldest queued retirement of the stack. Each changes the registers, lists and reports named here at
most. It also rests on choices and readings of the model: log entries 25 and 28. (R47, R48, R49, R50, R51, R454) -/
def Obligations.HbmErrorsAndRepairs : Prop :=
  (∀ (s : State) (a st p : Nat), s.rdB Fld.hbmPatrolCtrl_enable = true → s.hbmPlace (a / 8 * 8) = some (st, p) →
    Completes (.patrolScrub a (some .corrected)) s fun t =>
      t.rd Fld.hbmStackEccCe_ce_count st = s.rd Fld.hbmStackEccCe_ce_count st + 1 ∧ t.errAt (a / 8 * 8) = none ∧
      t.reports = s.reports ++ [{ source := 0x08, stem := st, logical := st, detail := BitVec.ofNat 64 (a / 8 * 8) }] ∧
      OnlyIn [.regs, .mem, .reports] s t ∧ RegsBut [Fld.hbmStackEccCe_ce_count.key st 0] s t) ∧
  (∀ (s : State) (a st p : Nat), s.rdB Fld.hbmPatrolCtrl_enable = true → s.hbmPlace (a / 8 * 8) = some (st, p) →
    Completes (.patrolScrub a (some .uncorrectable)) s fun t =>
      t.rd Fld.hbmStackEccUe_ue_count st = s.rd Fld.hbmStackEccUe_ue_count st + 1 ∧
      t.rdN Fld.hbmStackErrAddr_ue_addr st = (a / 8 * 8) % 2 ^ Fld.hbmStackErrAddr_ue_addr.width ∧
      t.errAt (a / 8 * 8) = some .uncorrectable ∧
      t.reports = s.reports ++ [{ source := 0x0A, stem := st, logical := st, detail := BitVec.ofNat 64 (a / 8 * 8) }] ∧
      OnlyIn [.regs, .mem, .reports] s t) ∧
  (∀ (s : State) (a : Nat) (k : Option EccKind), s.rdB Fld.hbmPatrolCtrl_enable = false → (s.hbmPlace (a / 8 * 8)).isSome →
    exec (.patrolScrub a k) s = .next s) ∧
  (∀ (s : State) (a : Nat) (k : EccKind), 0x100000000000 ≤ a → a < 0x200000000000 →
    Completes (.patrolScrub a (some k)) s fun t => t.errAt (a / 8 * 8) = some k ∧ OnlyIn [.mem] s t) ∧
  (∀ (s : State) (st row : Nat), st < 4 → (st, row) ∈ s.mem.softPpr → s.bark.graftLog.length < graftCapacity →
    Completes (.softPprComplete st row) s fun t =>
      t.rdN Fld.hbmStackStatus_soft_ppr_count st = min (s.rdN Fld.hbmStackStatus_soft_ppr_count st + 1) 65535 ∧
      (∃ r : LogRecord, t.bark.graftLog = s.bark.graftLog ++ [r] ∧ r.kind = 7 ∧ r.source = 0x0B ∧ r.time = s.leaf barkIsland ∧
        r.detail = rowDetail st row) ∧
      t.reports = s.reports ++ [{ source := 0x0B, stem := st, logical := st, detail := rowDetail st row }] ∧
      OnlyIn [.regs, .mem, .bark, .reports] s t ∧ RegsBut [Fld.hbmStackStatus_soft_ppr_count.key st 0] s t) ∧
  (∀ (s : State) (st : Nat), st < 4 → s.takesRegs 0 = true → s.rdB Fld.hbmStackStatus_retire_pending st = true →
    st ∉ s.mem.migrating →
    exec (.vacatedAck st) s = .next { s with mem := { s.mem with migrating := s.mem.migrating ++ [st] } }) ∧
  (∀ (s : State) (st : Nat), st < 4 → st ∈ s.mem.migrating → (∀ q ∈ s.mem.retireQueue, q.1 ≠ st) →
    Completes (.retireMigrationDone st) s fun t =>
      t.rdB Fld.hbmStackStatus_retire_pending st = false ∧
      (t.rdN Fld.hbmStackStatus_retired_pc_mask st).testBit (s.rdN Fld.hbmStackStatus_pending_pc st) = decide (s.rdN Fld.hbmStackStatus_pending_pc st < 32) ∧
      t.reports = s.reports ++ [{ source := 0x0B, stem := st, logical := s.rdN Fld.hbmStackStatus_pending_pc st, physical := s.rdN Fld.hbmStackStatus_pending_pc st }] ∧
      OnlyIn [.regs, .mem, .bark, .reports] s t) ∧
  (∀ (s : State) (st pc : Nat) (rest : List (Nat × Nat)), st < 4 → pc < 32 → st ∈ s.mem.migrating →
    s.mem.retireQueue = (st, pc) :: rest →
    Completes (.retireMigrationDone st) s fun t =>
      t.rdB Fld.hbmStackStatus_retire_pending st = true ∧ t.rdN Fld.hbmStackStatus_pending_pc st = pc ∧
      t.mem.retireQueue = rest ∧ OnlyIn [.regs, .mem, .bark, .reports] s t)

/-- How a Sapwood bank is powered up, drained, powered down, retired and scrubbed.
A bank in STARTING comes to ON, or to DRAINING where a power-down waits, and reads as zero in every byte; a drained bank comes
to OFF, or to STARTING where a power-up has been asked for, and reads as zero. Before the set-up lock a write of
SAP_TILE_PWR_REQ sets every bank of a tile that was ON and is not asked for to DRAINING and leaves the others ON; after it the
write does nothing. BANK_POWER down drains the banks of its list that are ON, and ends in SUCCESS when the last is OFF. On a
Stem without a spare position a bank is retired in place: it is OFF, counted in retired_banks, recorded and reported as source
0x0F. A scrub or a zeroing that completes leaves its region zero and ends the hand-over. A firewall window of HBM that takes
over a range which another partition was last given waits for its zeroing, and a window that waits admits nothing. It also
rests on choices and readings of the model: log entries 27 and 218. (R57, R58, R59, R60, R66, R67) -/
def Obligations.SapwoodBanksChangePower : Prop :=
  (∀ (s : State) (j k b : Nat), j < 4 → k < 64 → b < 12 → s.bankState ⟨j, k, b⟩ = bankStarting →
    Completes (.bankPowerUpDone j k b) s fun t =>
      t.bankState ⟨j, k, b⟩ = (if ⟨j, k, b⟩ ∈ s.mem.downPending then bankDraining else bankOn) ∧
      (∀ i, i < 0x20000 → memGet t.sap (bankBase ⟨j, k, b⟩ + i) = 0) ∧
      BytesBut (bankBase ⟨j, k, b⟩) 0x20000 s.sap t.sap ∧ OnlyIn [.regs, .sap, .mem, .queues] s t) ∧
  (∀ (s : State) (j k b : Nat), j < 4 → k < 64 → b < 12 → s.bankState ⟨j, k, b⟩ = bankDraining →
    Completes (.bankDrainDone j k b) s fun t =>
      t.bankState ⟨j, k, b⟩ = (if s.bankReenable ⟨j, k, b⟩ then bankStarting else bankOff) ∧
      (∀ i, i < 0x20000 → memGet t.sap (bankBase ⟨j, k, b⟩ + i) = 0) ∧
      BytesBut (bankBase ⟨j, k, b⟩) 0x20000 s.sap t.sap ∧ OnlyIn [.regs, .sap, .mem, .queues] s t) ∧
  (∀ (s : State) (j k : Nat) (v : Word), j < 4 → k < 64 → s.locked = false → s.takesRegs 0 = true →
    (∀ b, b < 12 → s.bankState ⟨j, k, b⟩ = bankOn ∧ ⟨j, k, b⟩ ∉ s.mem.retired) →
    Completes (.sapTilePwrReqWrite j k v) s fun t =>
      (∀ b, b < sliceBanks s.variant →
        t.bankState ⟨j, k, b⟩ = if v.toNat.testBit b then bankOn else bankDraining) ∧
      t.rdN Fld.sapTilePwrReq_bank_on (tileIdx j k) = v.toNat % 2 ^ sliceBanks s.variant ∧
      OnlyIn [.regs, .queues] s t) ∧
  (∀ (s : State) (j k : Nat) (v : Word), j < 4 → k < 64 → s.locked = true →
    exec (.sapTilePwrReqWrite j k v) s = .next s) ∧
  (∀ (s : State) (cmd b : Nat) (c : Cmd), s.running cmd 0 9 = some c → c.started = false → c.b 20 1 = 0 → b < sliceBanks s.variant →
    c.bankList = [⟨c.f 0 16 0 2, c.f 0 17 0 6, b⟩] → s.bankState ⟨c.f 0 16 0 2, c.f 0 17 0 6, b⟩ = bankOn →
    ⟨c.f 0 16 0 2, c.f 0 17 0 6, b⟩ ∉ s.mem.retired →
    Completes (.bankPower cmd) s fun t => t.bankState ⟨c.f 0 16 0 2, c.f 0 17 0 6, b⟩ = bankDraining ∧
      (∃ d, t.cmd? cmd = some d ∧ d.started = true ∧ d.phase = .running)) ∧
  (∀ (s : State) (cmd j k b : Nat) (c : Cmd), j < 4 → k < 64 → b < 12 → s.running cmd 0 9 = some c → c.started = true → c.b 20 1 = 0 →
    c.bankList = [⟨j, k, b⟩] → s.bankState ⟨j, k, b⟩ = bankDraining → s.bankReenable ⟨j, k, b⟩ = false →
    Completes (.bankDrainDone j k b) s fun t => t.Ended cmd stSuccess c.detail) ∧
  (∀ (s : State) (j k b : Nat), j < 4 → k < 64 → b < sliceBanks s.variant → ⟨j, k, b⟩ ∉ s.mem.retired →
    s.rdN Fld.sapStemStatus_spare_positions j = 0 → s.bark.graftLog.length < graftCapacity →
    Completes (.bankRetire j k b) s fun t =>
      t.bankState ⟨j, k, b⟩ = bankOff ∧ ⟨j, k, b⟩ ∈ t.mem.retired ∧
      (∃ r : LogRecord, t.bark.graftLog = s.bark.graftLog ++ [r] ∧ r.kind = 2 ∧ r.source = 0x0F) ∧
      (∃ r : Report, t.reports = s.reports ++ [r] ∧ r.source = 0x0F ∧ r.stem = j) ∧
      OnlyIn [.regs, .sap, .mem, .queues, .bark, .reports] s t) ∧
  (∀ (s : State) (i : Nat) (b : BankId) (p : Option Nat) (ws : List Nat), s.mem.handOvers[i]? = some ⟨.bank b, p, ws⟩ →
    s.bankState b = bankOn →
    Completes (.sapwoodScrubDone i) s fun t =>
      t.mem.handOvers = s.mem.handOvers.erase ⟨.bank b, p, ws⟩ ∧
      (∀ n, n < 0x20000 → memGet t.sap (bankBase b + n) = 0) ∧ BytesBut (bankBase b) 0x20000 s.sap t.sap ∧
      OnlyIn [.regs, .sap, .mem] s t) ∧
  (∀ (s : State) (i st lo hi : Nat) (p : Option Nat) (ws : List Nat), s.mem.handOvers[i]? = some ⟨.hbm st lo hi, p, ws⟩ →
    Completes (.hbmZeroDone i) s fun t =>
      t.mem.handOvers = s.mem.handOvers.erase ⟨.hbm st lo hi, p, ws⟩ ∧
      (∀ a, lo ≤ a → a < hi → (s.hbmPlace a).map (·.1) = some st → memGet t.hbm a = 0) ∧
      (∀ a, a < lo ∨ hi ≤ a ∨ (s.hbmPlace a).map (·.1) ≠ some st → memGet t.hbm a = memGet s.hbm a) ∧
      OnlyIn [.regs, .hbm, .mem] s t) ∧
  (∀ (s : State) (w : Nat), w < 704 → s.winHeld w = true →
    (∀ (t a n : Nat) (o : Origin) (k : AccKind), (∀ v, v < 64 → t * 64 + v ≠ w → s.windowAdmits (t * 64 + v) o k a n = false) →
      s.fwPasses t o k a n = false)) ∧
  (∀ (s : State) (w q : Nat) (g : Given), w < 256 → s.rdB Fld.brkFwCtl_enable w = true → s.winBase w < s.winLimit w →
    g ∈ s.mem.given → g.target = w / 64 → g.part = some q → some q ≠ s.winPart w → g.lo < s.winLimit w → s.winBase w < g.hi →
    (s.winChanged w).winHeld w = true)

/-- Once the device set-up lock is set, no register write changes an RWL field of a register not marked per function.
While the device set-up lock is set, a register write of either width, from any function, at any offset and with any value
answers a next state in which every RWL field of every register that is not marked per function reads as before. The rows of
the table that write one such register (SAP_TILE_PWR_REQ, BRK_SRCs_CFG, BRK_CS_CFG) are covered beside it. (R566) -/
def Obligations.LockedSetUpRegistersAreReadOnly : Prop :=
  ∀ (s : State), s.locked = true → ∀ (f : Field) (i k : Nat), f ∈ f.reg.info.fields → f.access = .rwl → f.reg.info.perFn = false →
    (∀ (fn off n : Nat) (v : DWord), fn < 64 → off < 0x4000000 →
      Completes (.registerWrite fn off n v) s fun t => t.rd f i k = s.rd f i k) ∧
    (∀ (j x : Nat) (v : Word), j < 4 → x < 64 → Completes (.sapTilePwrReqWrite j x v) s fun t => t.rd f i k = s.rd f i k) ∧
    (∀ (src : Nat) (v : Word), src < 64 → Completes (.srcCfgWrite src v) s fun t => t.rd f i k = s.rd f i k) ∧
    (∀ v : Word, Completes (.csCfgWrite v) s fun t => t.rd f i k = s.rd f i k)

/-- What a register write does to a plain register, before its stage and to the perturbation registers.
A 4-byte write that the device serves, to a 4-byte register whose write has no effect of its own, sets every field that the
function may write to its bits of the value and leaves every field of another register alone; before stage FIRMWARE a write
outside the registers that are always served does nothing. A perturbation register takes a write only while debug has unlocked
it, and a written seed starts the generator. It also rests on choices and readings of the model: log entry 199. (R12, R13,
R489, R530, R566, 19_host_interface.md) -/
def Obligations.RegisterWritesTakeEffect : Prop :=
  (∀ (s : State) (off i : Nat) (v : DWord) (r : Reg) (f : Field), off < 0x4000000 → off % 4 = 0 → s.served = true →
    s.answers 0 = true → s.locked = false → locate off = some (r, i, 0) → r.info.bytes = 4 → r.info.perFn = false →
    r ∈ [Reg.hbmMapCtrl, .hbmPatrolCtrl, .crnDbwCtrl, .crnQmTimeouts, .crnStarveLimit, .crnPartCap, .timPpsOut, .timPortCfg, .siuCtrl,
      .siuDiscCtrl, .siuPortIpv4, .vheCtrl, .kmeCtrl, .tileCtrl, .twigCtrl, .cnpCtrl, .srtCtrl, .gthCtrl, .wblTimeout, .wblLinkCredit,
      .twnCfg, .twnTolScore, .twnSig, .twnDiverge, .twnTimeouts, .brkSafeCfg, .brkWearCfg, .brkTdmaCfg] →
    f ∈ r.info.fields → (f.access = .rw ∨ f.access = .rwl) →
    Completes (.registerWrite 0 off 4 v) s fun t => t.rdN f i = getBits v.toNat f.lo f.width ∧
      (∀ (g : Field) (j k : Nat), g.reg ≠ r → t.rd g j k = s.rd g j k) ∧ OnlyIn [.regs] s t) ∧
  (∀ (s : State) (fn off n : Nat) (v : DWord), fn < 64 → off < 0x4000000 → s.served = false → alwaysServed off = false →
    exec (.registerWrite fn off n v) s = .next s) ∧
  (∀ (s : State) (v : DWord), s.served = true → s.answers 0 = true → s.pertUnlocked = true → v ≠ 0 →
    Completes (.pertRegisterWrite 0 0x3C0108 8 v) s fun t => t.rd Fld.trcPertSeed_seed = v ∧ t.observe.pertState = v) ∧
  (∀ (s : State) (fn n : Nat) (v : DWord), fn < 64 → s.pertUnlocked = false →
    exec (.pertRegisterWrite fn 0x3C0108 n v) s = .next s)

/-- What an error report does at Bark.
A report of a listed source that reaches a running Bark adds 1 to the source's count and is off the way. Where the source's
reaction is 0 and the report asks for no repair, mode, FAULT_N and TWIN_FAULT_N stay as they are. Where it is 2 and the device
is in OPERATIONAL, mode becomes SAFE, safe_source the source, and FAULT_N and TWIN_FAULT_N go low. While Bark is stopped a
report waits. A missed heartbeat reports source 0x02. A lost lock step or clock stops Bark with the pins low and mode SAFE;
its restart reports the source. The vector that was held back for a millisecond is raised when that time has passed, and not
before. It also rests on choices and readings of the model: log entries 5, 9 and 166. (R454, R455, R456, R457, R28, R465,
15_safety_spares.md) -/
def Obligations.BarkCountsAndReacts : Prop :=
  (∀ (s : State) (r : Report), knownSource r.source = true → s.barkRuns = true → s.rdN Fld.brkSrcCfg_reaction r.source = 0 →
    sourceClass r.source ≠ 2 → r.repair = .none →
    Completes (.barkReport r) s fun t =>
      t.rd Fld.brkSrcCnt_reports r.source = s.rd Fld.brkSrcCnt_reports r.source + 1 ∧ t.reports = s.reports.erase r ∧
      t.mode = s.mode ∧ t.bark.faultLow = s.bark.faultLow ∧ t.bark.twinFaultLow = s.bark.twinFaultLow ∧
      OnlyIn [.regs, .hbm, .bark, .observe, .reports, .free] s t) ∧
  (∀ (s : State) (r : Report), knownSource r.source = true → s.barkRuns = true →
    (sourceClass r.source = 2 ∨ s.rdN Fld.brkSrcCfg_reaction r.source = 2) → s.mode = modeOperational →
    Completes (.barkReport r) s fun t => t.mode = modeSafe ∧ t.rdN Fld.brkStatus_safe_source = r.source ∧
      t.bark.faultLow = true ∧ t.bark.twinFaultLow = true) ∧
  (∀ (s : State) (r : Report), knownSource r.source = true → s.barkRuns = false → r ∉ s.reports →
    exec (.barkReport r) s = .next { s with reports := s.reports ++ [r] }) ∧
  (∀ (s : State) (k : Nat), k < 4 →
    exec (.mgmtHeartbeatMiss k) s = .next { s with reports := s.reports ++ [{ source := 0x02, logical := k }] }) ∧
  (∀ s : State, s.barkRuns = true → s.mode = modeOperational →
    (Completes .lockstepMismatch s fun t => t.mode = modeSafe ∧ t.rdN Fld.brkStatus_safe_source = 0x00 ∧ t.bark.faultLow = true ∧
      t.bark.twinFaultLow = true ∧ t.barkRuns = false ∧ OnlyIn [.regs, .bark] s t) ∧
    (Completes .barkClockLost s fun t => t.mode = modeSafe ∧ t.rdN Fld.brkStatus_safe_source = 0x01 ∧ t.bark.faultLow = true ∧
      t.bark.twinFaultLow = true ∧ t.barkRuns = false ∧ OnlyIn [.regs, .bark] s t)) ∧
  (∀ (s : State) (src : Nat), s.bark.stopped = some (src, false) → sourceClass src = 2 → s.mode = modeSafe →
    Completes .barkRestart s fun t => t.barkRuns = true ∧ t.mode = modeSafe ∧
      t.rd Fld.brkSrcCnt_reports src = s.rd Fld.brkSrcCnt_reports src + 1) ∧
  (∀ (s : State) (f : Fn), s.bark.vectorHeld = true → s.fn? 0 = some f → f.sends (s.rdN Fld.brkSafeCfg_vector) = true →
    s.duePeriod s.bark.lastVectorNs 1000000 = true →
    Completes .barkVectorHoldExpire s fun t => t.bark.vectorHeld = false ∧ t.bark.lastVectorNs = some s.time.uptime ∧
      t.out = .msix 0 (s.rdN Fld.brkSafeCfg_vector) :: s.out ∧ OnlyIn [.bark, .out] s t) ∧
  (∀ s : State, s.bark.vectorHeld = false ∨ s.duePeriod s.bark.lastVectorNs 1000000 = false →
    exec .barkVectorHoldExpire s = .next s)

/-- Releasing the safe state, reading the log and writing Bark's set-up.
SAFE_RELEASE in SAFE with no check that blocks it makes the mode OPERATIONAL, lets FAULT_N and TWIN_FAULT_N go high and
completes with SUCCESS; a twin that left its pairing for the safe state and finds its link UP pairs again, by the list of its
last TWIN_PAIR; with a check that blocks it, the mode stays SAFE and it fails with RELEASE_REFUSED and that check's detail;
outside SAFE it has no effect. FAULT_LOG_READ returns the records of the chosen section from the asked-for sequence number on,
laid out in 32 bytes each, and their count. A write of BRK_SRCs_CFG before the lock stores the reaction, with 2 for a 3; a
fatal source's stays. BRK_CS_CFG takes values that pass the check of the sampling interval and else sets cfg_error. Bark's log
is copied to flash whole. It also rests on choices and readings of the model: log entries 169, 170, 171 and 172. (R459, R460,
R471, 15_safety_spares.md) -/
def Obligations.SafeStateEndsAtRelease : Prop :=
  (∀ (s : State) (cmd : Nat) (c : Cmd), s.running cmd 0 0xA0 = some c → s.mode = modeSafe → s.barkRuns = true →
    s.releaseBlock = none → s.bark.faultLog.length < faultCapacity → (s.twin.returning = false ∨ s.twinUp = false) →
    Completes (.safeRelease cmd) s fun t => t.mode = modeOperational ∧ t.bark.faultLow = false ∧ t.bark.twinFaultLow = false ∧
      t.queues.latched = [] ∧ t.Ended cmd stSuccess 0 ∧ OnlyIn [.regs, .hbm, .queues, .bark, .observe] s t ∧ CmdsBut cmd s t) ∧
  (∀ (s : State) (cmd : Nat) (c : Cmd), s.running cmd 0 0xA0 = some c → s.mode = modeSafe → s.barkRuns = true →
    s.releaseBlock = none → s.twin.returning = true → s.twinState = twWaitLink → s.twinUp = true → s.twin.peerHello = [] →
    s.twin.peerCert = [] → s.twin.checked = false → s.security.identity = true →
    Completes (.safeRelease cmd) s fun t => t.mode = modeOperational ∧ t.bark.faultLow = false ∧ t.bark.twinFaultLow = false ∧
      t.twinState = twHandshake ∧ t.twin.list = s.twin.lastList ∧ t.twin.returning = false ∧ t.twin.pairCmd = none) ∧
  (∀ (s : State) (cmd : Nat) (c : Cmd) (d : Word), s.running cmd 0 0xA0 = some c → s.mode = modeSafe → s.barkRuns = true →
    s.releaseBlock = some d →
    Completes (.safeRelease cmd) s fun t => t.mode = modeSafe ∧ t.Ended cmd stReleaseRefused d ∧ OnlyIn [.queues] s t ∧
      CmdsBut cmd s t) ∧
  (∀ (s : State) (cmd l : Nat) (c : Cmd) (t : State), s.running cmd 0 0xA1 = some c →
    s.basicStore c (c.b 24 8) ((((if c.b 16 1 = 0 then s.bark.graftLog else s.bark.faultLog).filter
      (fun r => decide (c.b 20 4 ≤ r.seq.toNat))).take (c.b 32 4)).flatMap logBytes) = (t, none) →
    l = (((if c.b 16 1 = 0 then s.bark.graftLog else s.bark.faultLog).filter
      (fun r => decide (c.b 20 4 ≤ r.seq.toNat))).take (c.b 32 4)).length →
    exec (.faultLogRead cmd) s = .next (s.after (t.finish cmd stSuccess (BitVec.ofNat 32 l)))) ∧
  (∀ (s : State) (src : Nat) (v : Word), src < 64 → s.takesRegs 0 = true → s.locked = false → sourceClass src ≠ 2 →
    Completes (.srcCfgWrite src v) s fun t =>
      t.rdN Fld.brkSrcCfg_reaction src = (if v.toNat % 4 = 3 then 2 else v.toNat % 4) ∧ OnlyIn [.regs] s t ∧
      RegsBut [Fld.brkSrcCfg_reaction.key src 0] s t) ∧
  (∀ (s : State) (src : Nat) (v : Word), src < 64 → sourceClass src = 2 → exec (.srcCfgWrite src v) s = .next s) ∧
  (∀ (s : State) (v : Word), s.takesRegs 0 = true → s.locked = false →
    20 ≤ getBits v.toNat 16 12 →
    ceilDiv 64 (getBits v.toNat 28 2 + 1) * (359 + getBits v.toNat 0 16) ≤ 1000 * getBits v.toNat 16 12 →
    Completes (.csCfgWrite v) s fun t => t.rdN Fld.brkCsCfg_ftti_ms = getBits v.toNat 16 12 ∧
      t.rdN Fld.brkCsCfg_lanes_m1 = getBits v.toNat 28 2 ∧ t.rdN Fld.brkCsCfg_lag_us = getBits v.toNat 0 16 ∧
      t.rdB Fld.brkCsCfg_cfg_error = false ∧ OnlyIn [.regs] s t) ∧
  (∀ (s : State) (v : Word), s.takesRegs 0 = true → s.locked = false → getBits v.toNat 16 12 < 20 →
    Completes (.csCfgWrite v) s fun t => t.rdB Fld.brkCsCfg_cfg_error = true ∧ OnlyIn [.regs] s t ∧
      RegsBut [Fld.brkCsCfg_cfg_error.key 0 0] s t) ∧
  (∀ s : State, s.barkRuns = true → s.security.flash.present = true →
    exec .logFlashWrite s = .next
      { s with bark := { s.bark with flashGraft := s.bark.graftLog, flashFault := s.bark.faultLog } })

/-- Polling a doorbell line, reading it and fetching descriptors.
A poll of a line of a group with a ring ON, once its interval has passed and, among more than 32 active lines, its turn has
come, reads its 64 bytes of host memory for the owning function; before that it does nothing. A line without a change for
idle_after_us is marked idle. A read that arrives gives every ring of the group that is ON its tail, as host memory holds it,
where the tail is within the ring's size; a read that fails puts every such ring into ERROR. Descriptors that arrive advance
both copies of the ring's fetched count; a chain of one that passes every check of R84 is in flight, waiting, with its ring's
partition. A descriptor read that fails puts the ring into ERROR. It also rests on choices and readings of the model: log
entries 15 and 16. (R75, R76, R77, R78, R79, R86, R87, R98, 03_command_queues.md) -/
def Obligations.DoorbellAndFetchRows : Prop :=
  (∀ (s : State) (g : Nat) (x : Group) (l : Line), g < 256 → s.group? g = some x → s.line? g = some l → s.qmStopped = false →
    l.reading = false → (∃ q ∈ s.groupSqs g, q.state = .on) → s.holds x.fn = false → s.lineDue l = true →
    exec (.doorbellPoll g) s
      = .next ((s.updLine g (fun l => { l with reading := true, readAt := some s.now })).emit (.hostRead x.fn x.dbLine 64))) ∧
  (∀ (s : State) (g : Nat) (l : Line), s.line? g = some l → s.lineDue l = false → g < 256 → exec (.doorbellPoll g) s = .next s) ∧
  (∀ (s : State) (g : Nat), g < 256 → (∀ l ∈ s.queues.lines, l.group = g →
      1000 * max 1 (s.rdN Fld.crnDbwCtrl_idle_after_us) ≤ (s.now - l.changedAt).toNat) →
    exec (.lineIdleTimeout g) s = .next (s.updLine g (fun l => { l with active := false }))) ∧
  (∀ (s : State) (g n : Nat) (st : List HostStore) (x : Group) (l : Line) (q : Sq), g < 256 → s.group? g = some x →
    s.line? g = some l → l.reading = true → s.sq? n = some q → n / 16 = g → q.state = .on → q.fetched = q.fetchedCopy →
    (BitVec.ofNat 32 ((s.hostStores st).hostLe (x.dbLine + 4 * (n % 16)) 4) - q.fetched).toNat ≤ 2 ^ q.log2 →
    Completes (.doorbellReadReturn g true st) s fun t => ∃ r, t.sq? n = some r ∧
      r.tail = BitVec.ofNat 32 ((s.hostStores st).hostLe (x.dbLine + 4 * (n % 16)) 4) ∧ r.fetched = q.fetched) ∧
  (∀ (s : State) (g n : Nat) (st : List HostStore) (x : Group) (l : Line) (q : Sq), g < 256 → s.group? g = some x →
    s.line? g = some l → l.reading = true → s.sq? n = some q → n / 16 = g → q.state = .on →
    Completes (.doorbellReadReturn g false st) s fun t => ∃ r, t.sq? n = some r ∧ r.state = .error) ∧
  (∀ (s : State) (n : Nat) (st : List HostStore) (q : Sq), n < 4096 → s.sq? n = some q → q.reading = 1 →
    q.fetched = q.fetchedCopy → extsOf ((s.hostStores st).descAt q 0) = 0 → 1 ≤ q.waiting → (s.hostStores st).mayFetch q = true →
    Completes (.descriptorFetchReturn n true st) s fun t => (∃ r, t.sq? n = some r ∧ r.fetched = q.fetched + 1 ∧ r.fetchedCopy = r.fetched) ∧
      t.queues.nextCmd = s.queues.nextCmd + 1) ∧
  (∀ (s s1 : State) (n : Nat) (st : List HostStore) (q : Sq) (d : Desc) (f : Form) (c : Cmd), n < 4096 → s.sq? n = some q →
    q.reading = 1 → q.fetched = q.fetchedCopy → (s.hostStores st).descAt q 0 = d → extsOf d = 0 → 1 ≤ q.waiting →
    (s.hostStores st).mayFetch q = true → (∀ x ∈ s.queues.cmds, x.id ≠ s.queues.nextCmd) →
    s1 = ((s.hostStores st).updSq n (fun q => { q with reading := 0 })).updSq n
      (fun r => { r with fetched := q.fetched + 1, fetchedCopy := q.fetched + 1 }) →
    c = { id := s.queues.nextCmd, sq := q.num, fn := q.fn, part := q.part, crit := s1.fetchCrit q, descs := [d], fetchNs := s.now, waitAt := s.time.uptime } →
    formOf c.engineClass c.opcode = some f → s1.checkChain f c = none →
    Completes (.descriptorFetchReturn n true st) s fun t => ∃ e, t.cmd? s.queues.nextCmd = some e ∧ e.descs = [d] ∧
      e.phase = .waiting ∧ e.part = q.part ∧ e.sq = n ∧ (e.waitMet = true ↔ ∀ k h, c.wait = some (k, h) → h ≤ (s.knot k).toNat)) ∧
  (∀ (s : State) (n : Nat) (st : List HostStore) (q : Sq), n < 4096 → s.sq? n = some q → q.reading ≠ 0 → q.state = .on →
    Completes (.descriptorFetchReturn n false st) s fun t => ∃ r, t.sq? n = some r ∧ r.state = .error)

/-- Dispatch, retirement, completion records and the events of full rings and slow waits.
A ready command with no competitor of its engine class, whose completion ring has a free slot, is dispatched: its start and
the seed of stochastic rounding are stamped, a slot is reserved, and it runs, with the blocks that it needs taken, where its
maps let it. A finished command with a slot retires and is in flight no more. A completion record takes 32 bytes at the slot
of its posted count, with the phase of the ring's lap in bit 15 of its control word, and moves the posted count by one. A
completion ring whose two copies disagree becomes faulted and loses its slots, and a record due to a faulted ring takes a slot
of the administrative ring; where that ring is faulted no record of the function is written. A ring whose free space is 0 has
its head line read, and a return for a ring that awaits none is ignored. A head count within range is accepted; one outside it
is ignored and posts a head-range event. A command that has waited for a slot of a full ring for its stall timeout posts a CQ-
stall event, one whose Knot wait has lasted knot_wait_ms a Knot-wait event; the wait goes on. Records that have been coalesced
for coalesce_us raise the ring's vector, or have the message held. Before those times nothing happens. An event that repeats
one which is held is merged into it. Switching bus mastering off holds what is owed to the function. It also rests on choices
and readings of the model: log entries 5, 16, 43 and 219. (R85, R87, R90, R91, R92, R93, R94, R96, R97, R98, R101, R595) -/
def Obligations.CommandsDispatchRetireAndComplete : Prop :=
  (∀ (s : State) (cmd : Nat) (c : Cmd) (q : Cq), s.cmd? cmd = some c → s.qmStopped = false → s.ready c = true →
    s.mapsAllow c s.beats = true → (∀ d ∈ s.queues.cmds, d.id ≠ cmd → d.engineClass ≠ c.engineClass) →
    ¬ (c.engineClass = 0 ∧ c.opcode = 0x08) → s.safeApplies c.part = false →
    s.cq? c.cq = some q → q.fn = c.fn → q.fault = false → c.cq ≠ adminRing q.fn → s.heldFor c.cq < q.free →
    Completes (.commandDispatch cmd) s fun t =>
      (∃ e, t.cmd? cmd = some e ∧ e.startNs = s.now ∧ e.slot = some c.cq ∧ e.descs = c.descs ∧ e.turn = s.queues.dispatched + 1 ∧
        e.srSeed = s.rd Fld.tileSrSeed_seed ∧ (s.MapsGo c → e.phase = .running)) ∧
      (s.MapsGo c → t.canopy.maps = (s.takeBlocks cmd (s.mapNeeds c)).canopy.maps) ∧
      (∃ r, t.cq? c.cq = some r ∧ r.reserved = q.reserved + 1 ∧ r.posted = q.posted)) ∧
  (∀ (s : State) (cmd : Nat) (c : Cmd) (n : Nat), s.cmd? cmd = some c → s.qmStopped = false → c.phase = .finished →
    s.awaited cmd = false → c.slot = some n → (∀ q, s.cq? n = some q → q.posted = q.postedCopy) →
    Completes (.commandRetire cmd) s fun t => t.cmd? cmd = none) ∧
  (∀ (s : State) (cmd : Nat) (c : Cmd), s.cmd? cmd = some c → c.phase ≠ .finished → exec (.commandRetire cmd) s = .next s) ∧
  (∀ (s : State) (n : Nat) (q : Cq) (b : List Byte), memWf s.host = true → s.cq? n = some q → q.posted = q.postedCopy →
    q.fault = false → s.recordsStop q.fn = false → b.length = 32 →
    (∃ r, (s.issueRecord n b false false).cq? n = some r ∧ r.posted = q.posted + 1 ∧ r.reserved = q.reserved - 1) ∧
    memRead (s.issueRecord n b false false).host (q.base + 32 * (q.posted.toNat % 2 ^ q.log2)) 32
      = b.take 4 ++ natToBytes 2 (leAt b 4 2 + 32768 * phaseBit q) ++ b.drop 6 ∧
    BytesBut (q.base + 32 * (q.posted.toNat % 2 ^ q.log2)) 32 s.host (s.issueRecord n b false false).host ∧
    (s.issueRecord n b false false).out = .hostWrite q.fn (q.base + 32 * (q.posted.toNat % 2 ^ q.log2))
      (b.take 4 ++ natToBytes 2 (leAt b 4 2 + 32768 * phaseBit q) ++ b.drop 6) :: s.out) ∧
  (∀ (s : State) (n : Nat) (q : Cq), s.cq? n = some q → q.fault = false → q.posted ≠ q.postedCopy →
    (∃ r, (s.checkCq n).cq? n = some r ∧ r.fault = true ∧ r.reserved = 0) ∧ (∀ c ∈ (s.checkCq n).queues.cmds, c.slot ≠ some n)) ∧
  (∀ (s : State) (fn n : Nat) (q a : Cq) (b : List Byte), s.holds fn = false → s.cq? n = some q → q.fault = true →
    n ≠ adminRing fn → s.cq? (adminRing fn) = some a → a.fn = fn → a.fault = false → a.posted = a.postedCopy → s.queues.events = [] →
    s.heldFor (adminRing fn) < a.free → b.length = 32 → memWf s.host = true →
    memRead (s.dueRecord fn n b false).host (a.base + 32 * (a.posted.toNat % 2 ^ a.log2)) 32
      = b.take 4 ++ natToBytes 2 (leAt b 4 2 + 32768 * phaseBit a) ++ b.drop 6 ∧
    BytesBut (a.base + 32 * (a.posted.toNat % 2 ^ a.log2)) 32 s.host (s.dueRecord fn n b false).host) ∧
  (∀ (s : State) (n : Nat) (q : Cq) (b : List Byte), s.cq? n = some q → q.posted = q.postedCopy → q.fault = false →
    s.recordsStop q.fn = true → (s.issueRecord n b false false).host = s.host) ∧
  (∀ (s : State) (n : Nat) (st : List HostStore) (q : Cq), n < 4096 → s.cq? n = some q → q.fault = false → q.posted = q.postedCopy →
    q.headReading = false → exec (.headLineReadReturn n true st) s = .next (s.hostStores st)) ∧
  (∀ (s : State) (n : Nat) (st : List HostStore) (q : Cq), n < 4096 → s.cq? n = some q → q.fault = false → q.posted = q.postedCopy →
    q.headReading = true → s.holds q.fn = false → ((s.hostStores st).headAt q - q.head).toNat ≤ (q.posted - q.head).toNat →
    Completes (.headLineReadReturn n true st) s fun t => ∃ r, t.cq? n = some r ∧ r.head = (s.hostStores st).headAt q) ∧
  (∀ (s : State) (n : Nat) (st : List HostStore) (q : Cq), n < 4096 → s.cq? n = some q → q.fault = false → q.posted = q.postedCopy →
    q.headReading = true → s.holds q.fn = false → (q.posted - q.head).toNat < ((s.hostStores st).headAt q - q.head).toNat →
    exec (.headLineReadReturn n true st) s
      = .next (s.after ((((s.hostStores st).updCq n (fun q => { q with headReading := false })).seekHead n).postEvent
          q.fn 0x0007 n (BitVec.ofNat 32 n)))) ∧
  (∀ (s : State) (n : Nat) (q : Cq), s.cq? n = some q → q.fault = false → q.free = 0 → q.headReading = false →
    (∃ r, (s.seekHead n).cq? n = some r ∧ r.headReading = true) ∧
    (s.seekHead n).out = (if s.holds q.fn then s.out else .hostRead q.fn (s.headLineOf q) 64 :: s.out)) ∧
  (∀ (s : State) (cmd : Nat) (c : Cmd) (q : Cq), s.cmd? cmd = some c → s.waitsForSlot c = true →
    s.cq? (s.recordRing c) = some q → s.slotFree q.num = false → c.stalled = false →
    (∃ t, c.slotSince = some t ∧
      1000000 * (if q.stallMs = 0 then max 1 (s.rdN Fld.crnQmTimeouts_cq_stall_ms) else q.stallMs) ≤ (s.time.uptime - t).toNat) →
    exec (.cqStallTimeout cmd) s = .next (s.after ((s.updCmd cmd (fun c => { c with stalled := true })).postEvent
      c.fn 0x0001 q.num (BitVec.ofNat 32 q.num)))) ∧
  (∀ (s : State) (cmd t : Nat) (c : Cmd) (q : Cq), s.cmd? cmd = some c → s.cq? (s.recordRing c) = some q →
    c.slotSince = some (BitVec.ofNat 64 t) → s.passed (BitVec.ofNat 64 t) (s.stallNs q) = false →
    exec (.cqStallTimeout cmd) s = .next s) ∧
  (∀ (s : State) (n : Nat) (q : Cq) (f : Fn), n < 4096 → s.cq? n = some q → q.coalesced ≠ 0 → q.coalesceUs ≠ 0 →
    s.passed q.coalescedAt (1000 * q.coalesceUs) = true → s.fn? q.fn = some f → f.sends q.vector = true →
    Completes (.cqCoalesceTimeout n) s fun t => t.out = .msix q.fn q.vector :: s.out ∧
      (∃ r, t.cq? n = some r ∧ r.coalesced = 0) ∧ OnlyIn [.queues, .out] s t) ∧
  (∀ (s : State) (n : Nat) (q : Cq), n < 4096 → s.cq? n = some q → q.coalesced ≠ 0 → q.coalesceUs ≠ 0 →
    s.passed q.coalescedAt (1000 * q.coalesceUs) = true → s.holds q.fn = true →
    Completes (.cqCoalesceTimeout n) s fun t => t.queues.held = s.queues.held ++ [.message q.fn q.vector] ∧ OnlyIn [.queues] s t) ∧
  (∀ (s : State) (n : Nat) (q : Cq), n < 4096 → s.cq? n = some q → s.passed q.coalescedAt (1000 * q.coalesceUs) = false →
    exec (.cqCoalesceTimeout n) s = .next s) ∧
  (∀ (s : State) (fn code ring : Nat) (d : Word) (e : QEvent), .event e ∈ s.queues.held → e.fn = fn → e.code = code → e.ring = ring →
    (s.noteEvent fn code ring d).queues.events = s.queues.events ∧
    (s.noteEvent fn code ring d).queues.held.length = s.queues.held.length) ∧
  (∀ (s : State) (cmd k h : Nat) (c : Cmd), s.cmd? cmd = some c → c.wait = some (k, h) → c.phase = .waiting →
    c.waitMet = false → c.waitSlow = false →
    s.passed c.waitAt (1000000 * max 1 (s.rdN Fld.crnQmTimeouts_knot_wait_ms)) = true →
    exec (.knotWaitTimeout cmd) s
      = .next (s.after ((s.updCmd cmd (fun c => { c with waitSlow := true })).postEvent c.fn 0x0002 c.sq (BitVec.ofNat 32 k)))) ∧
  (∀ (s : State) (cmd : Nat) (c : Cmd), s.cmd? cmd = some c →
    s.passed c.waitAt (1000000 * max 1 (s.rdN Fld.crnQmTimeouts_knot_wait_ms)) = false →
    exec (.knotWaitTimeout cmd) s = .next s) ∧
  (∀ (s : State) (fn : Nat), fn < 64 → s.fnOn fn = true →
    exec (.busMasterChange fn false) s = .next (s.updFn fn (fun f => { f with busMaster := false }))) ∧
  (∀ (s : State) (fn : Nat) (f : Fn), fn < 64 → s.fnOn fn = true → s.fn? fn = some f →
    Completes (.busMasterChange fn true) s fun t => ∃ g, t.fn? fn = some g ∧ g.busMaster = true)

/-- Creating, enabling, draining, killing and deleting rings, and their groups.
Writing CRN_ADMIN_CFG with legal sizes and bases turns a function's administrative rings ON with all counts 0. SQ_CREATE and
CQ_CREATE make a ring in a group that belongs to the function, OFF or ON. RING_STATE enables a ring that is OFF into STARTING,
and the tail read then makes it ON with its counts at that tail; a drain of a ring ON with commands in flight makes it
DRAINING up to the tail; a kill makes it DRAINING or OFF; a delete removes a ring that is OFF, and a completion ring that no
command names. Every order on a ring that does not exist fails with RING_STATE. GROUP_ALLOC gives the group asked for,
GROUP_FREE takes back a group without rings. It also rests on choices and readings of the model: log entries 36 and 217. (R72,
R99, R106, R107, R108, R109, R111, R112, R113, R114) -/
def Obligations.RingsAreCreatedAndOrdered : Prop :=
  (∀ (s : State) (fn : Nat) (v : Word), fn < 64 → s.takesRegs fn = true → s.rdB Fld.crnAdminCfg_enable 0 fn = false →
    s.rdB Fld.pciFnLock_lock 0 fn = false → getBits v.toNat 31 1 = 1 → s.rdN Fld.crnAdminSqBase_base 0 fn ≠ 0 →
    s.rdN Fld.crnAdminCqBase_base 0 fn ≠ 0 → 4 ≤ getBits v.toNat 0 5 → getBits v.toNat 0 5 ≤ 16 → 4 ≤ getBits v.toNat 8 5 →
    getBits v.toNat 8 5 ≤ 16 → s.sq? (adminRing fn) = none → s.cq? (adminRing fn) = none → (∀ e ∈ s.queues.events, e.fn ≠ fn) →
    Completes (.adminCfgEnable fn v) s fun t => t.rdB Fld.crnAdminCfg_enable 0 fn = true ∧
      (∃ q, t.sq? (adminRing fn) = some q ∧ q.state = .on ∧ q.fetched = 0 ∧ q.fn = fn ∧ q.part = s.partOf fn ∧
        q.log2 = getBits v.toNat 0 5 ∧ q.base = s.rdN Fld.crnAdminSqBase_base 0 fn * 4096) ∧
      (∃ q, t.cq? (adminRing fn) = some q ∧ q.posted = 0 ∧ q.head = 0 ∧ q.fn = fn ∧ q.log2 = getBits v.toNat 8 5) ∧
      OnlyIn [.regs, .queues] s t) ∧
  (∀ (s : State) (cmd : Nat) (c : Cmd), s.running cmd 0 1 = some c → s.sq? (c.f 0 16 0 12) = none →
    s.groupOwner (c.f 0 16 0 12 / 16) = some c.fn → c.f 0 18 6 1 = 0 → c.f 0 19 0 2 ≤ s.maxCrit (s.partOf c.fn) →
    Completes (.sqCreate cmd) s fun t => t.sq? (c.f 0 16 0 12) = some { num := c.f 0 16 0 12, fn := c.fn, part := s.partOf c.fn, crit := c.f 0 19 0 2, log2 := c.f 0 20 0 5, base := c.b 24 8 } ∧
      t.Ended cmd stSuccess 0 ∧ OnlyIn [.queues] s t ∧ CmdsBut cmd s t) ∧
  (∀ (s : State) (cmd : Nat) (c : Cmd) (q : Sq), s.running cmd 0 1 = some c → s.sq? (c.f 0 16 0 12) = some q →
    exec (.sqCreate cmd) s = .next (s.finish cmd stRingState (BitVec.ofNat 32 (sqCode q.state)))) ∧
  (∀ (s : State) (cmd : Nat) (c : Cmd), s.running cmd 0 2 = some c → s.cq? (c.f 0 16 0 12) = none →
    s.groupOwner (c.f 0 16 0 12 / 16) = some c.fn →
    Completes (.cqCreate cmd) s fun t => (∃ q, t.cq? (c.f 0 16 0 12) = some q ∧ q.posted = 0 ∧ q.head = 0 ∧ q.base = c.b 24 8) ∧
      t.Ended cmd stSuccess 0 ∧ OnlyIn [.queues] s t ∧ CmdsBut cmd s t) ∧
  (∀ (s : State) (cmd n : Nat) (c : Cmd) (q : Sq), s.running cmd 0 3 = some c → c.f 0 16 0 12 = n → s.sq? n = some q →
    s.fnResets q.fn = false → n ∉ s.queues.latched →
    (c.b 18 1 = 0 → q.state = .off → Completes (.ringEnable cmd) s fun t => t.Ended cmd stSuccess 0 ∧
      (∃ r, t.sq? n = some r ∧ r.state = .starting) ∧ CmdsBut cmd s t) ∧
    (c.b 18 1 = 0 → q.state = .draining → Completes (.ringEnable cmd) s fun t => t.Ended cmd stSuccess 0 ∧
      (∃ r, t.sq? n = some r ∧ r.state = .draining ∧ r.reenable = true)) ∧
    (c.b 18 1 = 1 → q.state = .starting → Completes (.ringDrain cmd true []) s fun t => t.Ended cmd stSuccess 0 ∧
      (∃ r, t.sq? n = some r ∧ r.state = .starting ∧ r.drainPending = true)) ∧
    (c.b 18 1 = 1 → q.state = .draining → Completes (.ringDrain cmd true []) s fun t => t.Ended cmd stSuccess 0 ∧
      (∃ r, t.sq? n = some r ∧ r.state = .draining ∧ r.reenable = false)) ∧
    (c.b 18 1 = 2 → q.state = .on → Completes (.ringKill cmd) s fun t =>
      ∃ r, t.sq? n = some r ∧ (r.state = .draining ∨ r.state = .off)) ∧
    (c.b 18 1 = 3 → q.state = .off → q.reenable = false → isAdminRing n = false → Completes (.ringDeleteSq cmd) s fun t =>
      t.sq? n = none ∧ t.Ended cmd stSuccess 0)) ∧
  (∀ (s : State) (cmd n : Nat) (c : Cmd), s.running cmd 0 3 = some c → c.f 0 16 0 12 = n → s.sq? n = none →
    (c.b 18 1 = 0 → exec (.ringEnable cmd) s = .next (s.finish cmd stRingState 0xFF)) ∧
    (c.b 18 1 = 1 → exec (.ringDrain cmd true []) s = .next (s.finish cmd stRingState 0xFF)) ∧
    (c.b 18 1 = 2 → exec (.ringKill cmd) s = .next (s.finish cmd stRingState 0xFF)) ∧
    (c.b 18 1 = 3 → exec (.ringDeleteSq cmd) s = .next (s.finish cmd stRingState 0xFF))) ∧
  (∀ (s : State) (cmd n : Nat) (c : Cmd) (q : Cq), s.running cmd 0 3 = some c → c.b 18 1 = 4 → c.f 0 16 0 12 = n →
    s.cq? n = some q → isAdminRing n = false → s.fnResets q.fn = false → s.cqInUse n = false →
    Completes (.ringDeleteCq cmd) s fun t => t.cq? n = none ∧ t.Ended cmd stSuccess 0) ∧
  (∀ (s : State) (n : Nat) (st : List HostStore) (q : Sq) (g : Group), n < 4096 → s.sq? n = some q → q.state = .starting →
    s.holds q.fn = false → q.drainPending = false → s.group? (n / 16) = some g →
    Completes (.ringStartReadReturn n true st) s fun t => ∃ r, t.sq? n = some r ∧ r.state = .on ∧
      r.fetched = BitVec.ofNat 32 ((s.hostStores st).hostLe (g.dbLine + 4 * (n % 16)) 4) ∧ r.fetchedCopy = r.fetched ∧
      r.tail = r.fetched) ∧
  (∀ (s : State) (cmd g : Nat) (c : Cmd), s.running cmd 0 4 = some c → c.b 16 1 = g → 64 ≤ g → g < 256 → s.groupFn g = none →
    Completes (.groupAlloc cmd) s fun t => t.groupFn g = some c.fn ∧ t.Ended cmd stSuccess (BitVec.ofNat 32 g) ∧
      OnlyIn [.queues] s t ∧ CmdsBut cmd s t) ∧
  (∀ (s : State) (cmd g : Nat) (c : Cmd), s.running cmd 0 5 = some c → c.b 16 1 = g → s.groupFn g = some c.fn →
    (∀ k, k < 16 → s.sq? (16 * g + k) = none ∧ s.cq? (16 * g + k) = none) →
    Completes (.groupFree cmd) s fun t => t.groupFn g = none ∧ t.Ended cmd stSuccess 0 ∧ OnlyIn [.queues] s t ∧ CmdsBut cmd s t)

/-- What NOP and the Knot commands do to a Knot and to the commands that wait on it.
NOP completes and changes nothing else. A signal to a Knot of this chip that the command's partition does not own fails with
OWNERSHIP; any other adds its increment to the Knot, wrapping at 2^64, and completes with SUCCESS or, where the sum wraps,
KNOT_WRAP; a reset gives the Knot its value; every other Knot keeps its own. A command that waits on the Knot with a threshold
at or below the new value has its wait met. An arm whose threshold is not met waits. These hold in states whose Knots are in
canonical form, and every change of a Knot keeps that form. It also rests on choices and readings of the model: log entry 34.
(R99, R100, R102, R118, 03_command_queues.md) -/
def Obligations.KnotsCountSignals : Prop :=
  (∀ (s : State) (cmd : Nat) (c : Cmd), s.running cmd 0xC 0 = some c → exec (.nop cmd) s = .next (s.finish cmd stSuccess)) ∧
  State.reset.KnotsOk ∧
  (∀ (s : State) (n : Nat) (v : DWord), s.KnotsOk → (s.setKnot n v).KnotsOk ∧ (s.setKnot n v).knot n = v ∧
    (∀ m, m ≠ n → (s.setKnot n v).knot m = s.knot m)) ∧
  (∀ (s : State) (cmd k : Nat) (c : Cmd), s.KnotsOk → s.running cmd 0xC 1 = some c → c.started = false →
    s.aliased (c.b 16 2) = s.chipId → c.b 18 2 = k → s.ownsKnot c.part k = true →
    Completes (.knotSignal cmd) s fun t => t.knot k = s.knot k + BitVec.ofNat 64 (c.b 20 8) ∧ (∀ m, m ≠ k → t.knot m = s.knot m) ∧
      (if 2 ^ 64 ≤ (s.knot k).toNat + c.b 20 8 then t.Ended cmd stKnotWrap (BitVec.ofNat 32 k) else t.Ended cmd stSuccess 0)) ∧
  (∀ (s : State) (cmd k : Nat) (c : Cmd), s.running cmd 0xC 1 = some c → c.started = false →
    s.aliased (c.b 16 2) = s.chipId → c.b 18 2 = k → s.ownsKnot c.part k = false →
    Completes (.knotSignal cmd) s fun t => t.Ended cmd stOwnership 18 ∧ (∀ m, t.knot m = s.knot m) ∧ OnlyIn [.queues] s t ∧ CmdsBut cmd s t) ∧
  (∀ (s : State) (cmd k : Nat) (c : Cmd), s.KnotsOk → s.running cmd 0xC 2 = some c → c.b 18 2 = k →
    Completes (.knotReset cmd) s fun t => t.knot k = BitVec.ofNat 64 (c.b 20 8) ∧ (∀ m, m ≠ k → t.knot m = s.knot m) ∧
      t.Ended cmd stSuccess 0) ∧
  (∀ (s : State) (cmd j k h : Nat) (c d : Cmd), s.running cmd 0xC 2 = some c → c.b 18 2 = k → s.cmd? j = some d → d.phase = .waiting →
    d.wait = some (k, h) → h ≤ c.b 20 8 → Completes (.knotReset cmd) s fun t => ∃ e, t.cmd? j = some e ∧ e.waitMet = true) ∧
  (∀ (s : State) (cmd k : Nat) (c : Cmd), s.running cmd 0xC 3 = some c → c.b 18 2 = k → (s.knot k).toNat < c.b 20 8 →
    Completes (.knotArm cmd) s fun t => { fn := c.fn, vector := c.f 0 28 0 11, knot := k, threshold := BitVec.ofNat 64 (c.b 20 8) } ∈ t.queues.arms ∧
      t.Ended cmd stSuccess 0 ∧ (∀ m, t.knot m = s.knot m))

/-- What a frame on a sensor port, its parsing and its context's ageing do.
A port with its link up receives; a frame with a bad check sequence is counted and dropped, and one for a solicited-node group
that is not the port's is not received. A UDP frame whose key an ACTIVE context holds is counted by the port and stored for
that context; for a DISABLED one it is only counted. The oldest head frame whose context is at hand leaves its FIFO when it is
parsed, and its points join the points that wait to be de-skewed, unless the parse faults. A point that is de-skewed leaves
that queue; one whose window is not open is counted as a window drop of its context. A context with an age goes SILENT, or is
removed where it was admitted by itself, once that time has passed without a frame, and not before. A context line that
arrives is in the cache and no longer being fetched; a key leaves the discovery filter holdoff_ms after its entry, and not
before. A head line that is read gives each host ring its read count. It also rests on choices and readings of the model: log
entries 5, 16, 52, 53, 54 and 65. (R138, R140, R142, R143, R146, R149, R150, R151, R174, 05_sweep_ingest.md) -/
def Obligations.SensorFramesReachTheirContext : Prop :=
  (∀ (s : State) (p : Nat), p < 16 → s.rdB Fld.timStatus_tree_calibrated = true → s.rdB Fld.siuCtrl_enable = true →
    s.rdB Fld.siuPortCfg_enable p = true →
    Completes (.sensorPortLinkUp p) s fun t => t.rdB Fld.siuPortCfg_link_up p = true ∧ t.time.portsUp = true ∧
      OnlyIn [.regs, .time] s t ∧ RegsBut [Fld.siuPortCfg_link_up.key p 0] s t) ∧
  (∀ (s : State) (p : Nat), p < 16 → Completes (.sensorPortLinkDown p) s fun t => t.rdB Fld.siuPortCfg_link_up p = false ∧
    OnlyIn [.regs] s t ∧ RegsBut [Fld.siuPortCfg_link_up.key p 0] s t) ∧
  (∀ (s : State) (p : Nat) (f : List Byte), p < 16 → s.portReceives p = true →
    Completes (.sensorFrameRx p f false) s fun t =>
      t.rd Fld.siuPortCnt_count (7 * p + pcFcs) = s.rd Fld.siuPortCnt_count (7 * p + pcFcs) + 1 ∧
      t.ingest.fifos = s.ingest.fifos ∧ t.ingest.ctxs = s.ingest.ctxs ∧ OnlyIn [.regs, .ingest, .observe] s t) ∧
  (∀ (s : State) (p : Nat) (f : List Byte) (d : Datagram) (c : Ctx), p < 16 → s.portReceives p = true → 64 ≤ f.length → f.length ≤ 9216 →
    s.takesMac p f = true →
    s.frameKind p (f.take (f.length - 4)) = .udp d → s.matchCtx (s.frameKey p d) = some c → c.state = .disabled →
    Completes (.sensorFrameRx p f true) s fun t =>
      t.rd Fld.siuPortCnt_count (7 * p + pcRx) = s.rd Fld.siuPortCnt_count (7 * p + pcRx) + 1 ∧
      t.ingest.fifos = s.ingest.fifos ∧ OnlyIn [.regs, .ingest, .hbm, .mem] s t) ∧
  (∀ (s : State) (p : Nat) (f : List Byte), p < 16 → 64 ≤ f.length → f.length ≤ 9216 → s.takesMac p f = false →
    exec (.sensorFrameRx p f true) s = .next s) ∧
  (∀ (s : State) (p : Nat) (f : List Byte) (d : Datagram) (c : Ctx), p < 16 → s.portReceives p = true → 64 ≤ f.length → f.length ≤ 9216 →
    s.takesMac p f = true →
    s.frameKind p (f.take (f.length - 4)) = .udp d → s.matchCtx (s.frameKey p d) = some c → c.state = .active →
    exec (.sensorFrameRx p f true) s = .next (s.after ((s.portCount p pcRx 1).deliver c (s.frameKey p d) d
      (s.leaf siuIsland - BitVec.ofNat 64 (s.rdN Fld.timPortCfg_rx_latency_ns p)) f.length))) ∧
  (∀ (s s1 : State) (p : Nat) (f : QFrame) (c : Ctx) (r : Parsed), p < 16 → (s.fifo p).wr = (s.fifo p).wrCopy → s.headReady p = some f →
    s.headFirst p f = true → (s.setFifo p (fun q => { q with frames := q.frames.drop 1 })).ctx? f.ctx = some c → c.key = f.key →
    c.template = false → (s.setFifo p (fun q => { q with frames := q.frames.drop 1 })).parse c f = (r, s1) → r.fault = false →
    s1.ingest.deskew = s.ingest.deskew →
    Completes (.frameParse p) s fun t => t.ingest.deskew = s.ingest.deskew ++ r.points ∧ t.ingest.fifos = s1.ingest.fifos) ∧
  (∀ (s : State) (p : RawPoint) (rest : List RawPoint), s.ingest.deskew = p :: rest →
    Completes .pointDeskew s fun t => t.ingest.deskew = rest) ∧
  (∀ (s : State) (p : RawPoint) (rest : List RawPoint) (x : StreamSet) (c : Ctx), s.ingest.deskew = p :: rest → s.set? p.set = some x →
    s.windowOpen x (x.cfg.window p.time) = false → s.ctx? p.ctx = some c →
    Completes .pointDeskew s fun t => ∃ d, t.ctx? p.ctx = some d ∧ d.windowDrops = c.windowDrops + 1) ∧
  (∀ (s : State) (i : Nat) (c : Ctx), s.ctx? i = some c → c.template = false → c.ageMs ≠ 0 → c.auto = false → c.state = .active →
    c.lastNs.toNat + c.ageMs * 1000000 ≤ (s.leaf siuIsland).toNat →
    Completes (.contextAgeingCheck i) s fun t => ∃ d, t.ctx? i = some d ∧ d.state = .silent ∧ d.key = c.key) ∧
  (∀ (s : State) (i : Nat) (c : Ctx), s.ctx? i = some c → c.template = false → c.ageMs ≠ 0 → c.auto = true →
    c.lastNs.toNat + c.ageMs * 1000000 ≤ (s.leaf siuIsland).toNat → Completes (.contextAgeingCheck i) s fun t => t.ctx? i = none) ∧
  (∀ (s : State) (i : Nat) (c : Ctx), s.ctx? i = some c → (s.leaf siuIsland).toNat < c.lastNs.toNat + c.ageMs * 1000000 →
    exec (.contextAgeingCheck i) s = .next s) ∧
  (∀ (s : State) (i : Nat), i ∈ s.ingest.fetching → s.ingest.fetching.Nodup →
    Completes (.contextFetchDone i) s fun t => i ∈ t.ingest.cache ∧ i ∉ t.ingest.fetching ∧ OnlyIn [.ingest, .regs, .mem, .reports] s t) ∧
  (∀ (s : State) (k : FrameKey), (∀ x ∈ s.ingest.filter, x.1 = k →
      s.passed x.2 (1000000 * s.rdN Fld.siuDiscCtrl_holdoff_ms) = true) →
    Completes (.discoveryHoldoffExpire k) s fun t =>
      (∀ x, x ∈ t.ingest.filter ↔ x ∈ s.ingest.filter ∧ x.1 ≠ k) ∧ OnlyIn [.ingest] s t) ∧
  (∀ (s : State) (k : FrameKey), (∀ x ∈ s.ingest.filter, x.1 = k →
      s.passed x.2 (1000000 * s.rdN Fld.siuDiscCtrl_holdoff_ms) = false) → exec (.discoveryHoldoffExpire k) s = .next s) ∧
  (∀ (s : State) (st : List HostStore) (r e : HostRing), s.holds 0 = false → s.ingest.discovery = some r → r.waiting = [] →
    s.ingest.events = some e → e.waiting = [] →
    Completes (.ingestHeadLineRead true st) s fun t =>
      (∃ r', t.ingest.discovery = some r' ∧ r'.readCount = BitVec.ofNat 32 (bytesToNat (memRead (s.hostStores st).host s.ingest.headLine 4))) ∧
      (∃ e', t.ingest.events = some e' ∧
        e'.readCount = BitVec.ofNat 32 (bytesToNat (memRead (s.hostStores st).host (s.ingest.headLine + 4) 4))) ∧
      OnlyIn [.host, .ingest] s t)

/-- How batches and windows of a stream set go on their way.
A batch timeout closes the batch of a stream set that has been open longest, once it has been open for batch_timeout_us (0
counts as 1, and more than 1,000 as 1,000), and nothing before. A batch that can go moves, whole, to the insert queue of the
table that its set's route or, at the basic level, the RUNs on the set name, and leaves the ingest, live points before re-
expressed ones; while that queue is full it stays; where what runs takes no points it is dropped. At the start of a window a
changed configuration of the set comes into force, the accumulated sweeps are discarded and the open batches closed. A window
closes when its end, its grace time and what they allow for have passed and not before; the next window to close is the next
one. A closed window whose batches have all gone is ready, and signals the set's close Knot. It also rests on choices and
readings of the model: log entries 5 and 66. (R163, R164, R175, R176, R177, R178, R182, R203, 05_sweep_ingest.md) -/
def Obligations.SweepWindowsOpenAndClose : Prop :=
  (∀ (s : State) (n : Nat), (s.oldestOpen n = none → exec (.batchTimeout n) s = .next s) ∧
    (∀ b, s.oldestOpen n = some b → s.passed b.since (1000 * min 1000 (max 1 (s.rdN Fld.siuCtrl_batch_timeout_us))) = false →
      exec (.batchTimeout n) s = .next s) ∧
    (∀ b, s.oldestOpen n = some b → s.passed b.since (1000 * min 1000 (max 1 (s.rdN Fld.siuCtrl_batch_timeout_us))) = true →
      exec (.batchTimeout n) s = .next (s.updBatches n (fun x => x == b) (fun x => { x with closed := true })))) ∧
  (∀ (s : State) (n k : Nat) (b : Batch) (tb : Table), s.nextBatch n = some b → s.batchTo b = .table k → s.table? k = some tb →
    tb.accepted = tb.acceptedCopy →
    Completes (.batchPush n) s fun t => (∃ y q, t.table? k = some y ∧ y.queue = tb.queue ++ [q] ∧ q.points = b.points ∧
        q.window = some b.window ∧ q.set = n ∧ q.final = s.frameFinal b ∧ y.accepted = tb.accepted + 1) ∧
      t.ingest.batches = s.ingest.batches.erase b ∧ OnlyIn [.ingest, .compute] s t) ∧
  (∀ (s : State) (n : Nat) (b : Batch), s.nextBatch n = some b → s.batchTo b = .nowhere →
    Completes (.batchPush n) s fun t => t.ingest.batches = s.ingest.batches.erase b ∧ OnlyIn [.ingest] s t) ∧
  (∀ (s : State) (n : Nat), s.nextBatch n = none → exec (.batchPush n) s = .next s) ∧
  (∀ (s : State) (n : Nat) (b : Batch), s.nextBatch n = some b → b ∈ s.ingest.batches ∧ b.set = n ∧ s.canPush b = true ∧
    (b.reexpressed = true → ∀ y ∈ s.ingest.batches, y.set = n → s.canPush y = true → y.reexpressed = true)) ∧
  (∀ (s : State) (b : Batch) (x : StreamSet) (r : Nat), s.set? b.set = some x → x.cfg.route = some r →
    (r.testBit 12 = false ∨ b.window % 2 = 0 → s.batchTo b = .table (getBits r 0 6)) ∧
    (r.testBit 12 = true → b.window % 2 ≠ 0 → s.batchTo b = .table (getBits r 6 6))) ∧
  (∀ (s : State) (k : Nat) (b : Batch) (tb : Table), s.batchTo b = .table k → s.table? k = some tb → tb.accepted = tb.acceptedCopy →
    64 ≤ tb.queue.length → s.canPush b = false) ∧
  (∀ (s : State) (b y : Batch), b.reexpressed = true → y ∈ s.ingest.batches → y.reexpressed = false → y.set = b.set → y.window = b.window →
    s.canPush b = false) ∧
  (∀ (s : State) (n : Nat) (x : StreamSet) (cfg : SetCfg), s.set? n = some x → x.next = some cfg →
    Completes (.windowStart n) s fun t => (∃ y, t.set? n = some y ∧ y.cfg = cfg ∧ y.next = none ∧ y.windows = [] ∧
      y.nextClose = some (cfg.window (s.leaf siuIsland).toNat)) ∧ (∀ b ∈ t.ingest.batches, b.set = n → b.closed = true) ∧
      OnlyIn [.ingest] s t) ∧
  (∀ (s : State) (n : Nat) (x : StreamSet) (k : Int), s.set? n = some x → x.nextClose = some k → x.cfg.closes k ≤ ((s.leaf siuIsland).toNat : Int) →
    Completes (.windowClose n) s fun t => ∃ y, t.set? n = some y ∧ y.nextClose = some (k + 1) ∧ y.cfg = x.cfg) ∧
  (∀ (s : State) (n : Nat) (x : StreamSet) (k : Int), s.set? n = some x → x.nextClose = some k → ((s.leaf siuIsland).toNat : Int) < x.cfg.closes k →
    exec (.windowClose n) s = .next s) ∧
  (∀ (s : State) (n : Nat) (x : StreamSet) (w : Window), s.KnotsOk → s.set? n = some x → x.nextReady = some w → x.cfg.closeKnot ≠ 0 →
    (∀ r ∈ s.queues.runs, r.set ≠ n) →
    Completes (.windowFrameReady n) s fun t => (∃ y v, t.set? n = some y ∧ v ∈ y.windows ∧ v.k = w.k ∧ v.ready = true) ∧
      t.knot x.cfg.closeKnot = s.knot x.cfg.closeKnot + 1)

/-- What the commands that set up sweep ingest do.
Each command of sweep ingest, run on operands that its checks accept, does its work and completes with SUCCESS: a stream set
takes its configuration from the next window on, at the basic level with a point buffer and a Knot that firmware chooses, or
ends with RESOURCE; a context or template is added with the key and partition of its image, or written over, read or removed;
a calibration table, a parse program, a pose source, pose records and the host's two rings are taken. A context of another
partition, or for an expert-level command one that a RUN's set holds, fails with OWNERSHIP, an absent one with CONTEXT_ABSENT,
a set that a RUN uses with SET_IN_USE. It also rests on choices and readings of the model: log entries 57, 69 and 115. (R145,
R148, R153, R154, R165, R166, R168, R172, R179, R181, 05_sweep_ingest.md) -/
def Obligations.IngestSetUpCommands : Prop :=
  (∀ (s s1 : State) (cmd : Nat) (c : Cmd) (x : StreamSet), s.running cmd 0 0x10 = some c → s.set? (c.b 16 2) = some x →
    s.setElsewhere c.part (c.b 16 2) = false → s.setInUse (c.b 16 2) = false →
    (s.updSet (c.b 16 2) (fun x => { x with cfg := c.setCfg true })).admissionFault (c.b 16 2) [] = none →
    (∀ cfg, s.firmwareCfg (c.b 16 2) c.part (c.setCfg true) = (s1, some cfg) →
      (cfg = { c.setCfg true with buffer := cfg.buffer, closeKnot := cfg.closeKnot } ∧ 1 ≤ cfg.closeKnot ∧ cfg.closeKnot ≤ 255 ∧
        s.hbmOk c.part cfg.buffer cfg.bufferBytes = true) ∧
      Completes (.streamSetConfig cmd) s fun t => (∃ y, t.set? (c.b 16 2) = some y ∧ y.next = some cfg ∧ y.cfg = x.cfg) ∧
        t.Ended cmd stSuccess 0 ∧ OnlyIn [.queues, .ingest, .free] s t ∧ CmdsBut cmd s t) ∧
    (s.firmwareCfg (c.b 16 2) c.part (c.setCfg true) = (s1, none) →
      exec (.streamSetConfig cmd) s = .next (s.finish cmd stResource))) ∧
  (∀ (s : State) (cmd : Nat) (c : Cmd), s.running cmd 1 4 = some c → s.set? (c.b 16 2) = none →
    s.setElsewhere c.part (c.b 16 2) = false → s.setInUse (c.b 16 2) = false →
    Completes (.setWrite cmd) s fun t => (∃ y, t.set? (c.b 16 2) = some y ∧ y.next = some (c.setCfg false) ∧ y.part = c.part) ∧
      t.Ended cmd stSuccess 0 ∧ OnlyIn [.queues, .ingest] s t ∧ CmdsBut cmd s t) ∧
  (∀ (s : State) (cmd : Nat) (c : Cmd), s.running cmd 1 4 = some c → s.setElsewhere c.part (c.b 16 2) = false →
    s.setInUse (c.b 16 2) = true →
    exec (.setWrite cmd) s = .next (s.finish cmd stSetInUse (BitVec.ofNat 32 (c.b 16 2)))) ∧
  (∀ (s s1 : State) (cmd : Nat) (c : Cmd) (p : List Byte) (tp : Bool), s.running cmd 0 (if tp then 0x13 else 0x11) = some c →
    s.imageLoad c true (c.b 24 8) 128 = (s1, .ok p) → imageBad p = false → (ctxOf 0 c.part p).template = tp →
    ((ctxOf 0 c.part p).state = .active ∨ (ctxOf 0 c.part p).state = .disabled) →
    s1.setElsewhere c.part (ctxOf 0 c.part p).set = false → (s1.set? (ctxOf 0 c.part p).set).isSome = true →
    (tp = false → s1.keyHolder (ctxOf 0 c.part p).key none = none) → s1.freeCtx.isSome = true →
    s1.admissionFault (ctxOf 0 c.part p).set [ctxOf 0 c.part p] = none → (s1.cmd? cmd).isSome = true →
    Completes (if tp then .templateSet cmd else .sensorAdd cmd) s fun t => ∃ i, t.Ended cmd stSuccess (BitVec.ofNat 32 i) ∧
      ∃ x ∈ t.ingest.ctxs, x.id = i ∧ x.part = c.part ∧ x.key = (ctxOf 0 c.part p).key ∧ x.template = tp ∧ x.auto = false ∧ x.basic = true) ∧
  (∀ (s : State) (cmd : Nat) (c : Cmd) (x : Ctx), s.running cmd 0 0x12 = some c → s.ctx? (c.f 0 16 0 17) = some x → x.part = c.part →
    Completes (.sensorRemove cmd) s fun t => t.ctx? (c.f 0 16 0 17) = none ∧ t.Ended cmd stSuccess 0 ∧
      OnlyIn [.queues, .ingest, .hbm, .mem] s t ∧ CmdsBut cmd s t) ∧
  (∀ (s : State) (cmd : Nat) (c : Cmd) (x : Ctx), s.running cmd 0 0x12 = some c → s.ctx? (c.f 0 16 0 17) = some x → x.part ≠ c.part →
    exec (.sensorRemove cmd) s = .next (s.finish cmd stOwnership 16)) ∧
  (∀ (s s1 : State) (cmd : Nat) (c : Cmd) (x : Ctx), s.running cmd 0 0x18 = some c → s.ctx? (c.b 16 4) = some x → x.part = c.part →
    s.imageStore c true (c.b 24 8) x.bytes = (s1, none) → exec (.sensorRead cmd) s = .next (s.after (s1.finish cmd stSuccess))) ∧
  (∀ (s s1 : State) (cmd : Nat) (c : Cmd) (x : Ctx), s.running cmd 1 2 = some c → s.ctx? (c.b 16 4) = some x → x.part = c.part →
    (s.ctxHeld (c.b 16 4) = true → exec (.ctxRead cmd) s = .next (s.finish cmd stOwnership 16)) ∧
    (s.ctxHeld (c.b 16 4) = false → s.imageStore c false (c.b 24 8) x.bytes = (s1, none) →
      exec (.ctxRead cmd) s = .next (s.after (s1.finish cmd stSuccess)))) ∧
  (∀ (s : State) (cmd : Nat) (c : Cmd), s.ctx? (c.b 16 4) = none →
    (s.running cmd 0 0x18 = some c → exec (.sensorRead cmd) s = .next (s.finish cmd stContextAbsent (BitVec.ofNat 32 (c.b 16 4)))) ∧
    (s.running cmd 1 2 = some c → exec (.ctxRead cmd) s = .next (s.finish cmd stContextAbsent (BitVec.ofNat 32 (c.b 16 4))))) ∧
  (∀ (s s1 : State) (cmd : Nat) (c : Cmd) (p : List Byte), s.running cmd 1 1 = some c → s.imageLoad c false (c.b 24 8) 128 = (s1, .ok p) →
    c.b 16 4 < 131072 → (∀ o, s1.ctx? (c.b 16 4) = some o → o.part = c.part) → s1.ctxHeld (c.b 16 4) = false → imageBad p = false → (ctxOf (c.b 16 4) c.part p).template = false →
    (ctxOf (c.b 16 4) c.part p).state = .active → s1.setElsewhere c.part (ctxOf (c.b 16 4) c.part p).set = false →
    (s1.set? (ctxOf (c.b 16 4) c.part p).set).isSome = true → s1.keyHolder (ctxOf (c.b 16 4) c.part p).key (some (c.b 16 4)) = none →
    exec (.ctxWrite cmd) s = .next (s.after (((s1.keptCtx (ctxOf (c.b 16 4) c.part p)).1.putCtx
      (if c.f 0 20 0 1 = 1 then { ctxOf (c.b 16 4) c.part p with lastNs := (s1.keptCtx (ctxOf (c.b 16 4) c.part p)).2.lastNs }
        else { (s1.keptCtx (ctxOf (c.b 16 4) c.part p)).2.overwrite (ctxOf (c.b 16 4) c.part p) with basic := false })).finish cmd stSuccess))) ∧
  (∀ (s s1 : State) (cmd : Nat) (c : Cmd) (p : List Byte) (k : Calib), s.running cmd 0 0x14 = some c → 32 ≤ c.b 32 4 → c.b 32 4 ≤ 8208 →
    s.imageLoad c true (c.b 24 8) (c.b 32 4) = (s1, .ok p) → calibOf (c.b 16 2) c.part (c.b 32 4) p = some k → (s1.cmd? cmd).isSome = true →
    Completes (.calibLoad cmd) s fun t => t.ingest.calibs = k :: s1.ingest.calibs.filter (fun x => x.num != c.b 16 2) ∧
      t.Ended cmd stSuccess 0) ∧
  (∀ (s s1 : State) (cmd : Nat) (c : Cmd) (p : List Byte), s.running cmd 1 3 = some c → c.b 16 2 + c.b 18 2 ≤ 8192 →
    s.imageLoad c false (c.b 24 8) (8 * c.b 18 2) = (s1, .ok p) → (s1.cmd? cmd).isSome = true →
    Completes (.programLoad cmd) s fun t => t.ingest.store = storeProgram s1.ingest.store (c.b 16 2)
        ((List.range (c.b 18 2)).map (fun i => (BitVec.ofNat 64 (leAt p (8 * i) 8) : DWord))) ∧ t.Ended cmd stSuccess 0) ∧
  (∀ (s : State) (cmd : Nat) (c : Cmd), s.running cmd 1 3 = some c → 8192 < c.b 16 2 + c.b 18 2 →
    exec (.programLoad cmd) s = .next (s.finish cmd stProgramRange)) ∧
  (∀ (s : State) (cmd : Nat) (c : Cmd), s.running cmd 0 0x15 = some c → s.poseElsewhere c.part (c.f 0 16 0 4) = false → c.b 17 1 ≠ 1 →
    Completes (.poseSourceConfig cmd) s fun t => (∃ x ∈ t.ingest.poses, x.num = c.f 0 16 0 4 ∧ x.part = c.part ∧ x.fromPort = false ∧
      x.gapMs = c.b 18 2 ∧ (c.f 0 24 0 1 = 1 → x.records = [])) ∧ t.Ended cmd stSuccess 0 ∧ OnlyIn [.queues, .ingest] s t ∧ CmdsBut cmd s t) ∧
  (∀ (s s1 s2 : State) (cmd k : Nat) (c : Cmd) (p : List Byte), s.running cmd 0 0x16 = some c →
    s.imageLoad c true (c.b 24 8) (40 * c.b 17 1) = (s1, .ok p) →
    s1.poseAcceptAll (c.b 16 1) ((List.range (c.b 17 1)).map (fun i => poseRecord p (40 * i))) = (s2, k) →
    exec (.posePush cmd) s = .next (s.after (if k = c.b 17 1 then s2.finish cmd stSuccess (BitVec.ofNat 32 (c.b 17 1))
      else s2.finish cmd stPoseRejected (BitVec.ofNat 32 (c.b 17 1 - k))))) ∧
  (∀ (s : State) (cmd : Nat) (c : Cmd), s.running cmd 0 0x17 = some c →
    Completes (.ingestQueues cmd) s fun t => (∃ r, t.ingest.discovery = some r ∧ r.base = c.b 24 8 ∧ r.log2 = c.b 16 1) ∧
      (∃ r, t.ingest.events = some r ∧ r.base = c.b 32 8 ∧ r.log2 = c.b 17 1) ∧ t.ingest.headLine = c.b 40 8 ∧
      t.ingest.discSeq = 0 ∧ t.ingest.eventSeq = 0 ∧ t.Ended cmd stSuccess 0 ∧ OnlyIn [.queues, .ingest] s t ∧ CmdsBut cmd s t)

/-- How a voxel table takes a batch, inserts it and is read for its longest probe.
The batch at the head of an EMPTY or FILLING table's queue that belongs to a command is taken for insertion and the table is
FILLING; a routed batch of a table without a frame tag gives it its window as the tag; one of an older window is dropped and
its points counted as stale. A chunk that is inserted without an access error leaves the queue; where it is the final batch of
its window the table has seen the final batch, and where it is an insert command's last the command ends with the status its
counts give. An insert command of at most 4,096 records queues one batch of its points. A read of VHE_STEMn_MAXPROBE answers
it and clears it. It also rests on choices and readings of the model: log entries 70, 73 and 76. (R203, R204, R205, R206,
R208, R210, R217, R222, 06_voxel_hash.md) -/
def Obligations.VoxelTablesTakeBatches : Prop :=
  (∀ (s : State) (i : Nat) (tb : Table) (b : QBatch) (rest : List QBatch), s.table? i = some tb → tb.queue = b :: rest → b.accepted = false →
    tb.barred = false → (tb.state = .empty ∨ tb.state = .filling) → b.window = none → tb.heldBy = none →
    Completes (.vheBatchAccept i) s fun t => (∃ y, t.table? i = some y ∧ y.state = .filling ∧ y.frameTag = tb.frameTag ∧
      y.queue = { b with accepted := true } :: rest) ∧ OnlyIn [.compute] s t) ∧
  (∀ (s : State) (i : Nat) (tb : Table) (b : QBatch) (rest : List QBatch) (w : Int), s.table? i = some tb → tb.queue = b :: rest →
    b.accepted = false → tb.barred = false → (tb.state = .empty ∨ tb.state = .filling) → b.window = some w → tb.heldBy = none →
    tb.frameTag = none →
    Completes (.vheBatchAccept i) s fun t => (∃ y, t.table? i = some y ∧ y.state = .filling ∧ y.frameTag = some w ∧
      y.queue = { b with accepted := true } :: rest) ∧ OnlyIn [.compute] s t) ∧
  (∀ (s : State) (i : Nat) (tb : Table) (b : QBatch) (rest : List QBatch) (w g : Int), s.table? i = some tb → tb.queue = b :: rest →
    b.accepted = false → tb.barred = false → (tb.state = .empty ∨ tb.state = .filling) → b.window = some w → tb.heldBy = none →
    tb.frameTag = some g → w < g →
    Completes (.vheBatchAccept i) s fun t => ∃ y, t.table? i = some y ∧ y.queue = rest ∧ y.frameTag = some g ∧
      y.counts.stalePoints = tb.counts.stalePoints + b.points.length ∧ y.state = tb.state) ∧
  (∀ (s s1 : State) (i left : Nat) (tb y : Table) (b : QBatch) (rest : List QBatch), s.table? i = some tb → tb.queue = b :: rest →
    b.accepted = true →
    s.insertAll { o := s.batchOrigin tb b, cmd := b.cmd, table := i, batch := b.batch } b.points.length b.points [] = (s1, none, left) →
    s1.table? i = some y →
    Completes (.vheChunk i) s fun t => ∃ z, t.table? i = some z ∧ z.queue = y.queue.drop 1 ∧ z.done = y.done + 1 ∧
      (b.final = true → z.finalSeen = true) ∧
      (∀ cmd, b.cmd = some cmd → b.last = true → (s1.cmd? cmd).isSome = true → ∃ st d, t.Ended cmd st d)) ∧
  (∀ (s s1 : State) (cmd : Nat) (c : Cmd) (tb : Table) (bs : List Byte), s.running cmd 2 3 = some c → s.table? (c.f 0 16 0 6) = some tb →
    c.started = false → s.tableElsewhere c.part (c.f 0 16 0 6) = false → tb.clearing = false → s.stemsOff tb.cfg = false →
    tb.state ≠ .failed → s.convUses tb = false → tb.inserts = [] →
    tb.queue.length < 64 → c.b 20 4 ≤ 4096 → tb.accepted = tb.acceptedCopy →
    ((s.updCmd cmd (fun x => { x with started := true })).updTable tb.id (fun t => { t with inserts := t.inserts ++ [(cmd, 0)] })).gLoad c
      (c.b 24 8) (32 * c.b 20 4) = (s1, .ok bs) →
    s1.compute = ((s.updCmd cmd (fun x => { x with started := true })).updTable tb.id
      (fun t => { t with inserts := t.inserts ++ [(cmd, 0)] })).compute →
    Completes (.vheInsert cmd) s fun t => ∃ z q, t.table? (c.f 0 16 0 6) = some z ∧ z.queue = tb.queue ++ [q] ∧
      q.points.length = c.b 20 4 ∧ q.cmd = some cmd ∧ q.last = true ∧ q.window = none ∧ z.inserts = []) ∧
  (∀ (s : State) (j : Nat), j < 4 → s.takesRegs 0 = true →
    Completes (.maxprobeRead j) s fun t => t.out = .completion 0 0 (natToBytes 8 (s.rdN Fld.vheStemMaxprobe_max_probe j)) :: s.out ∧
      t.rdN Fld.vheStemMaxprobe_max_probe j = 0 ∧ OnlyIn [.regs, .out] s t ∧ RegsBut [Fld.vheStemMaxprobe_max_probe.key j 0] s t)

/-- What the commands on voxel tables do.
A grid is taken for a stream set that no RUN uses where admission still holds, and an admission check answers W. VHE_CREATE
makes an EMPTY table of epoch 1 and tells its row's bytes. VHE_CLEAR and VHE_FINALISE wait as orders of their table, in order;
a clear first makes the table CLEARING and then EMPTY with its epoch up by one, or 1 after 127, its tag and counts gone; a
finalise whose batches are in writes the output rows and makes the table FINAL. VHE_LOOKUP answers its keys from a FINAL table
and pins it; VHE_DESTROY removes a table that nothing uses. A command on a table that does not exist ends with TABLE_ABSENT,
and one that starts on a table of another partition, or one that firmware holds, with OWNERSHIP. It also rests on choices and
readings of the model: log entries 77, 79, 80 and 81. (R187, R188, R211, R212, R213, R214, R215, R216, R218, R219, R220, R221) -/
def Obligations.VoxelTableCommands : Prop :=
  (∀ (s : State) (cmd : Nat) (c : Cmd) (x : StreamSet), s.running cmd 0 0x20 = some c → s.set? (c.b 16 2) = some x →
    s.setInUse (c.b 16 2) = false →
    (s.admission (c.b 16 2) [] ((s.setTables (c.b 16 2)).map (fun t => { t with grid := gridSize c.gridOf }))).2 = true →
    Completes (.voxelGridSet cmd) s fun t => (∃ y, t.set? (c.b 16 2) = some y ∧ y.grid = some c.gridOf ∧ y.cfg = x.cfg) ∧
      t.Ended cmd stSuccess 0 ∧ OnlyIn [.queues, .ingest] s t ∧ CmdsBut cmd s t) ∧
  (∀ (s : State) (cmd : Nat) (c : Cmd) (x : StreamSet) (p : Package), s.running cmd 0 0x21 = some c → s.set? (c.b 16 2) = some x →
    s.package? c.part (c.b 18 2) = some p →
    exec (.voxelAdmitCheck cmd) s = .next (s.finish cmd
      (if (s.admission (c.b 16 2) [] (packageShapes p x.grid)).2 then stSuccess else stAdmission)
      (satDetail (s.admission (c.b 16 2) [] (packageShapes p x.grid)).1))) ∧
  (∀ (s : State) (cmd : Nat) (c : Cmd), s.running cmd 2 1 = some c → s.table? (c.f 0 16 0 6) = none → s.stemsOff c.vheCfg = false →
    s.placementFault c.part c.vheCfg = none →
    Completes (.vheCreate cmd) s fun t => (∃ y, t.table? (c.f 0 16 0 6) = some y ∧ y.part = c.part ∧ y.cfg = c.vheCfg ∧
      y.state = .empty ∧ y.epoch = 1) ∧ t.Ended cmd stSuccess (BitVec.ofNat 32 c.vheCfg.rowBytes) ∧
      OnlyIn [.hbm, .sap, .mem, .queues, .compute, .observe] s t) ∧
  (∀ (s : State) (cmd : Nat) (c : Cmd) (tb : Table), s.running cmd 2 1 = some c → s.table? (c.f 0 16 0 6) = some tb → tb.clearing = false →
    s.tableElsewhere c.part (c.f 0 16 0 6) = false →
    exec (.vheCreate cmd) s = .next (s.finish cmd stTableExists (BitVec.ofNat 32 (c.f 0 16 0 6)))) ∧
  (∀ (s : State) (cmd : Nat) (c : Cmd) (tb : Table), s.running cmd 2 2 = some c → s.table? (c.f 0 16 0 6) = some tb → c.started = false →
    s.tableElsewhere c.part (c.f 0 16 0 6) = false → tb.clearing = false → s.stemsOff tb.cfg = false →
    Completes (.vheClear cmd) s fun t => (∃ y o, t.table? (c.f 0 16 0 6) = some y ∧ y.orders = tb.orders ++ [o] ∧ o.cmd = cmd ∧
      o.clear = true ∧ o.batchesBefore = tb.accepted ∧ y.state = tb.state) ∧ OnlyIn [.queues, .compute] s t ∧ CmdsBut cmd s t) ∧
  (∀ (s : State) (i : Nat) (tb : Table) (o : TableOrder) (rest : List TableOrder) (c : Cmd), s.table? i = some tb → tb.orders = o :: rest →
    o.clear = true → tb.state = .clearing → s.cmd? o.cmd = some c →
    Completes (.vheClearEffect i) s fun t => (∃ y, t.table? i = some y ∧ y.state = .empty ∧ y.frameTag = none ∧ y.cells = [0, 0, 0, 0] ∧
      y.epoch = (if 127 ≤ tb.epoch then 1 else tb.epoch + 1) ∧ y.orders = rest ∧ y.overflowed = false) ∧ t.Ended o.cmd stSuccess 0 ∧
      OnlyIn [.queues, .compute] s t) ∧
  (∀ (s : State) (i : Nat) (tb : Table) (o : TableOrder) (rest : List TableOrder), s.table? i = some tb → tb.orders = o :: rest →
    o.clear = true → tb.state = .filling → tb.batchesIn o = true → tb.users = [] → tb.epoch < 127 →
    exec (.vheClearEffect i) s = .next (s.updTable i (fun t => { t with state := .clearing }))) ∧
  (∀ (s : State) (cmd : Nat) (c : Cmd) (tb : Table), s.running cmd 2 4 = some c → s.table? (c.f 0 16 0 6) = some tb → c.started = false →
    s.tableElsewhere c.part (c.f 0 16 0 6) = false → tb.clearing = false → s.stemsOff tb.cfg = false → (tb.state = .empty ∨ tb.state = .filling) → s.convUses tb = false →
    s.outOk c.part tb.cfg c.outPlace = true →
    Completes (.vheFinalise cmd) s fun t => (∃ y o, t.table? (c.f 0 16 0 6) = some y ∧ y.orders = tb.orders ++ [o] ∧ o.cmd = cmd ∧
      o.clear = false ∧ o.out = c.outPlace ∧ o.waitFinal = (c.f 0 16 6 1 == 1)) ∧ OnlyIn [.queues, .compute] s t ∧ CmdsBut cmd s t) ∧
  (∀ (s s1 : State) (i : Nat) (tb y : Table) (o : TableOrder) (rest : List TableOrder) (c : Cmd), s.table? i = some tb →
    tb.orders = o :: rest → o.clear = false → (tb.state = .empty ∨ tb.state = .filling) → tb.batchesIn o = true →
    (o.waitFinal = true → tb.finalSeen = true) → tb.heldBy = none → s.cmd? o.cmd = some c →
    ((tb.cfg.stems.foldl (fun s j => s.serve o.cmd (vheUnit j 0)) s).updTable i (fun t => { t with orders := t.orders.drop 1 })).finaliseRows
      c.origin tb o.out (tb.cfg.stems.flatMap (fun j => (List.range (nth 0 tb.cells j)).map (fun n => (j, n)))) = (s1, none) →
    s1.table? i = some y → (s1.cmd? o.cmd).isSome = true →
    Completes (.vheFinaliseEffect i) s fun t => (∃ z, t.table? i = some z ∧ z.state = .final ∧ z.out = some o.out) ∧
      t.Ended o.cmd stSuccess (BitVec.ofNat 32 (tb.cells.foldl (· + ·) 0))) ∧
  (∀ (s s1 s2 : State) (cmd : Nat) (c : Cmd) (tb : Table) (b d : List Byte), s.running cmd 2 5 = some c →
    s.table? (c.f 0 16 0 6) = some tb → tb.pins.contains cmd = true → tb.state = .final →
    s.tableElsewhere c.part (c.f 0 16 0 6) = false →
    s.gLoad c (c.b 24 8) ((if c.f 0 17 7 1 = 1 then 8 else 32) * c.b 20 4) = (s1, .ok b) →
    s1.lookupAll c.origin cmd tb (c.f 0 17 7 1 == 1) (if c.f 0 17 6 1 = 1 then tb.cfg.batch else c.f 0 17 0 6)
      ((List.range (c.b 20 4)).map (fun i => slice b ((if c.f 0 17 7 1 = 1 then 8 else 32) * i) (if c.f 0 17 7 1 = 1 then 8 else 32)))
      = (s2, .ok d) →
    exec (.vheLookup cmd) s = .next (s.after (s2.finishStore c (c.b 32 8) d stSuccess))) ∧
  (∀ (s : State) (cmd : Nat) (c : Cmd) (tb : Table), s.running cmd 2 6 = some c → s.table? (c.f 0 16 0 6) = some tb → tb.users = [] →
    s.tableElsewhere c.part (c.f 0 16 0 6) = false → tb.orders = [] → tb.queue = [] → tb.inserts = [] → s.routed tb.id = false → tb.state ≠ .filling → tb.state ≠ .clearing →
    Completes (.vheDestroy cmd) s fun t => t.table? (c.f 0 16 0 6) = none ∧ t.Ended cmd stSuccess 0) ∧
  (∀ (s : State) (cmd : Nat) (c : Cmd), s.table? (c.f 0 16 0 6) = none →
    (s.running cmd 2 2 = some c → exec (.vheClear cmd) s = .next (s.finish cmd stTableAbsent (BitVec.ofNat 32 (c.f 0 16 0 6)))) ∧
    (s.running cmd 2 3 = some c → exec (.vheInsert cmd) s = .next (s.finish cmd stTableAbsent (BitVec.ofNat 32 (c.f 0 16 0 6)))) ∧
    (s.running cmd 2 4 = some c → exec (.vheFinalise cmd) s = .next (s.finish cmd stTableAbsent (BitVec.ofNat 32 (c.f 0 16 0 6)))) ∧
    (s.running cmd 2 5 = some c → exec (.vheLookup cmd) s = .next (s.finish cmd stTableAbsent (BitVec.ofNat 32 (c.f 0 16 0 6)))) ∧
    (s.running cmd 2 6 = some c → exec (.vheDestroy cmd) s = .next (s.finish cmd stTableAbsent (BitVec.ofNat 32 (c.f 0 16 0 6))))) ∧
  (∀ (s : State) (cmd : Nat) (c : Cmd) (tb : Table), s.table? (c.f 0 16 0 6) = some tb → c.started = false →
    s.tableElsewhere c.part (c.f 0 16 0 6) = true →
    (s.running cmd 2 1 = some c → exec (.vheCreate cmd) s = .next (s.finish cmd stOwnership 16)) ∧
    (s.running cmd 2 2 = some c → exec (.vheClear cmd) s = .next (s.finish cmd stOwnership 16)) ∧
    (s.running cmd 2 3 = some c → exec (.vheInsert cmd) s = .next (s.finish cmd stOwnership 16)) ∧
    (s.running cmd 2 4 = some c → exec (.vheFinalise cmd) s = .next (s.finish cmd stOwnership 16)) ∧
    (s.running cmd 2 5 = some c → exec (.vheLookup cmd) s = .next (s.finish cmd stOwnership 16)) ∧
    (s.running cmd 2 6 = some c → exec (.vheDestroy cmd) s = .next (s.finish cmd stOwnership 16)))

/-- Starting a sparse layer, its site phase and its admission.
SPARSE_ADMIT_CHECK answers the growth admission of a package on a set, and SPILL_POOL_SET gives a partition its pool, or takes
it away. A layer that passes its checks pins its input table; where its mode makes an output table, that table goes from EMPTY
to FILLING and is held by the layer, whose site phase begins; on tables of another partition, or tables that firmware holds,
it ends with OWNERSHIP. A site chunk takes up to 4,096 input cells of a Stem further where all its accesses succeed. The site
phase ends when every Stem is through: the output table is FINAL and the map phase begins; a Stem that owns output sites
without a tile in the mask fails the command. A read of KME_STEMn_SPILL_USE answers it and clears its high-water mark. KMEs
that take another command next take no chunk and no group of this one. A candidate of a dilating layer is exactly an output
cell that an offset takes to the input cell, a strided layer gives one candidate for each offset, and an input cell of a pair
is the one that R226 names. It also rests on choices and readings of the model: log entries 83 and 90. (R224, R226, R227,
R229, R231, R232, R233, R234, R251, R252, R255, R258) -/
def Obligations.SparseLayersMakeTheirSites : Prop :=
  (∀ (s : State) (cmd : Nat) (c : Cmd) (x : StreamSet) (p : Package), s.running cmd 0 0x30 = some c → s.set? (c.b 16 2) = some x →
    s.package? c.part (c.b 18 2) = some p →
    exec (.sparseAdmitCheck cmd) s = .next (match s.growthFault (c.b 16 2) p with
      | some i => s.finish cmd stGrowthAdmission (BitVec.ofNat 32 i)
      | none => s.finish cmd stSuccess 0xFFFFFFFF)) ∧
  (∀ (s : State) (cmd : Nat) (c : Cmd), s.running cmd 0 0x31 = some c → (∀ r ∈ s.queues.runs, r.part ≠ c.part) →
    c.b 32 4 ≠ 0 → s.hbmOk c.part (c.b 24 6) (c.b 32 4 * 0x100000) = true →
    Completes (.spillPoolSet cmd) s fun t => (c.part, c.b 24 6, c.b 32 4) ∈ t.compute.spillPools ∧
      (∀ p, p.1 ≠ c.part → (p ∈ t.compute.spillPools ↔ p ∈ s.compute.spillPools)) ∧
      (∀ p ∈ t.compute.spillPools, p.1 = c.part → p = (c.part, c.b 24 6, c.b 32 4)) ∧
      t.Ended cmd stSuccess 0 ∧ OnlyIn [.queues, .compute] s t ∧ CmdsBut cmd s t) ∧
  (∀ (s : State) (cmd : Nat) (c : Cmd), s.running cmd 0 0x31 = some c → (∀ r ∈ s.queues.runs, r.part ≠ c.part) → c.b 32 4 = 0 →
    Completes (.spillPoolSet cmd) s fun t => (∀ p ∈ t.compute.spillPools, p.1 ≠ c.part) ∧
      t.Ended cmd stSuccess 0 ∧ OnlyIn [.queues, .compute] s t ∧ CmdsBut cmd s t) ∧
  (∀ (s : State) (cmd : Nat) (c : Cmd) (ti tOut : Table), s.running cmd 3 1 = some c → c.started = false →
    s.table? c.kmeArgs.inTable = some ti → s.table? c.kmeArgs.outTable = some tOut → ti.clearing = false → tOut.clearing = false →
    s.tableElsewhere c.part c.kmeArgs.inTable = false → s.tableElsewhere c.part c.kmeArgs.outTable = false → s.kmeFault c c.kmeArgs ti tOut = none → s.conv? cmd = none →
    Completes (.kmeConv cmd) s fun t => (∃ y, t.table? c.kmeArgs.inTable = some y ∧ cmd ∈ y.pins ∧ y.cfg = ti.cfg ∧ y.state = .final) ∧
      (c.kmeArgs.mode.makes = true → ∃ z v, t.table? c.kmeArgs.outTable = some z ∧ z.state = .filling ∧ z.heldBy = some cmd ∧
        t.conv? cmd = some v ∧ v.mapPhase = false ∧ v.mapOnly = false) ∧ OnlyIn [.queues, .compute] s t ∧ CmdsBut cmd s t) ∧
  (∀ (s : State) (cmd : Nat) (c : Cmd) (ti tOut : Table), s.running cmd 3 2 = some c → c.started = false →
    s.table? c.kmeArgs.inTable = some ti → s.table? c.kmeArgs.outTable = some tOut → ti.clearing = false → tOut.clearing = false →
    s.tableElsewhere c.part c.kmeArgs.inTable = false → s.tableElsewhere c.part c.kmeArgs.outTable = false → s.kmeFault c c.kmeArgs ti tOut = none → s.conv? cmd = none →
    Completes (.kmeMapWrite cmd) s fun t => (∃ y, t.table? c.kmeArgs.inTable = some y ∧ cmd ∈ y.pins ∧ y.cfg = ti.cfg ∧ y.state = .final) ∧
      (c.kmeArgs.mode.makes = true → ∃ z v, t.table? c.kmeArgs.outTable = some z ∧ z.state = .filling ∧ z.heldBy = some cmd ∧
        t.conv? cmd = some v ∧ v.mapPhase = false ∧ v.mapOnly = true) ∧ OnlyIn [.queues, .compute] s t ∧ CmdsBut cmd s t) ∧
  (∀ (s : State) (cmd : Nat) (c : Cmd), s.running cmd 3 1 = some c → c.started = false → s.table? c.kmeArgs.inTable = none →
    exec (.kmeConv cmd) s = .next (s.finish cmd stTableAbsent (BitVec.ofNat 32 c.kmeArgs.inTable))) ∧
  (∀ (s : State) (cmd : Nat) (c : Cmd) (ti tOut : Table), c.started = false → s.table? c.kmeArgs.inTable = some ti →
    s.table? c.kmeArgs.outTable = some tOut →
    s.tableElsewhere c.part c.kmeArgs.inTable = true ∨ s.tableElsewhere c.part c.kmeArgs.outTable = true →
    (s.running cmd 3 1 = some c → exec (.kmeConv cmd) s = .next (s.finish cmd stOwnership
      (if s.tableElsewhere c.part c.kmeArgs.inTable then 16 else 17))) ∧
    (s.running cmd 3 2 = some c → exec (.kmeMapWrite cmd) s = .next (s.finish cmd stOwnership
      (if s.tableElsewhere c.part c.kmeArgs.inTable then 16 else 17)))) ∧
  (∀ (s : State) (cmd j : Nat) (c : Cmd), j < 4 → s.cmd? cmd = some c → s.kmeTurn c j = none →
    exec (.kmeSiteChunk cmd j) s = .next s ∧ exec (.kmeGroup cmd j) s = .next s) ∧
  (∀ (s s0 s1 s2 : State) (cmd j u : Nat) (c : Cmd) (v v2 : Conv) (ti : Table) (cells : List (Nat × Nat)), j < 4 →
    s.conv? cmd = some v → s.cmd? cmd = some c → s.table? v.inTable = some ti → v.mapPhase = false → c.phase = .running →
    nth 0 v.siteDone j < nth 0 ti.cells j → s.kmeTurn c j = some (s0, u) →
    s0.cellKeys c.origin ti j (nth 0 v.siteDone j)
      (min (nth 0 ti.cells j) (nth 0 v.siteDone j + 4096)) = (s1, .ok cells) →
    (s1.countCropped cmd u (c.kmeArgs.siteKeys cells).2).insertSites c u (c.kmeArgs.siteKeys cells).1 = (s2, none) →
    s2.conv? cmd = some v2 →
    Completes (.kmeSiteChunk cmd j) s fun t => ∃ w, t.conv? cmd = some w ∧
      w.siteDone = v2.siteDone.set j (min (nth 0 ti.cells j) (nth 0 v.siteDone j + 4096)) ∧ t.compute.tables = s2.compute.tables) ∧
  (∀ (s : State) (cmd : Nat) (c : Cmd) (v : Conv) (ti tOut : Table), s.conv? cmd = some v → s.cmd? cmd = some c →
    s.table? v.inTable = some ti → s.table? v.outTable = some tOut → v.mapPhase = false → c.phase = .running →
    (∀ j ∈ ti.cfg.stems, nth 0 ti.cells j ≤ nth 0 v.siteDone j) →
    (v.mapOnly = false → ∀ j ∈ tOut.cfg.stems, nth 0 tOut.cells j = 0 ∨ nth 0 c.tileMasks j ≠ 0) →
    Completes (.sitePhaseEnd cmd) s fun t => (∃ z, t.table? v.outTable = some z ∧ z.state = .final ∧ z.cells = tOut.cells) ∧
      (∀ w, t.conv? cmd = some w → w.mapPhase = true) ∧ OnlyIn [.queues, .compute] s t ∧ CmdsBut cmd s t) ∧
  (∀ (s : State) (cmd j : Nat) (c : Cmd) (v : Conv) (ti tOut : Table), s.conv? cmd = some v → s.cmd? cmd = some c →
    s.table? v.inTable = some ti → s.table? v.outTable = some tOut → v.mapPhase = false → c.phase = .running →
    (∀ j ∈ ti.cfg.stems, nth 0 ti.cells j ≤ nth 0 v.siteDone j) → v.mapOnly = false → j ∈ tOut.cfg.stems → nth 0 tOut.cells j ≠ 0 →
    nth 0 c.tileMasks j = 0 →
    exec (.sitePhaseEnd cmd) s = .next (s.after ((s.dropWork cmd).finish cmd stFeaturePlacement 3))) ∧
  (∀ (s : State) (j : Nat), j < 4 → s.takesRegs 0 = true →
    Completes (.spillUseRead j) s fun t => t.rdN Fld.kmeStemSpillUse_high_water j = 0 ∧
      t.out = .completion 0 0 (natToBytes 4 (s.rdN Fld.kmeStemSpillUse_in_use j + 65536 * s.rdN Fld.kmeStemSpillUse_high_water j)) :: s.out ∧
      OnlyIn [.regs, .out] s t ∧ RegsBut [Fld.kmeStemSpillUse_high_water.key j 0] s t) ∧
  (∀ (a : KmeArgs) (c o : Int × Int × Int), a.mode = .dilating → (∀ i, 0 < nth 1 a.stride i) →
    (o ∈ a.candidates c ↔ ∃ u ∈ a.offsets, a.mulAdd o u = some c)) ∧
  (∀ (a : KmeArgs) (x y z : Int), a.mode = .strided → a.candidates (x, y, z) = List.replicate a.offsets.length
    (floorDiv x (nth 1 a.stride 0 : Nat), floorDiv y (nth 1 a.stride 1 : Nat), floorDiv z (nth 1 a.stride 2 : Nat))) ∧
  (∀ (a : KmeArgs) (o u i : Int × Int × Int), (∀ n, 0 < nth 1 a.stride n) →
    (a.inputCell o u = some i ↔ if a.mode = .transposed then a.mulAdd i u = some o else a.mulAdd o u = some i))

/-- How the groups of a layer are formed, spilled, read back and worked on.
A group of output sites, once its pairs are found, joins its layer with its pairs in one segment an offset, and its output
blocks become work items unless it spills; a group of a map write is written as chunks. A spilled group takes the chunks that
it needs, and waits where others of its Stem hold some; where none can be had the command fails with SPILL_FULL. A group read
back whole gets its pairs again and its items; a corrupt chunk fails the command and is reported to Bark. A pass of an item
that does not end it advances it by the pass's broadcasts. It also rests on choices and readings of the model: log entry 91.
(R235, R239, R240, R242, R243, R244, R245, R246, R256, R257, 07_sparse_convolution.md) -/
def Obligations.SparseLayersGatherPairs : Prop :=
  (∀ (s s0 s1 s2 : State) (cmd j u : Nat) (c : Cmd) (v : Conv) (ti tOut : Table) (cells : List (Nat × Nat)) (l : List Pair) (n : ProbeCounts), j < 4 →
    s.conv? cmd = some v → s.cmd? cmd = some c → s.table? v.inTable = some ti → s.table? v.outTable = some tOut → v.mapPhase = true →
    c.phase = .running → c.kmeArgs.groupSites * nth 0 v.groupNext j < nth 0 tOut.cells j → 0 < c.kmeArgs.groupSites → s.kmeTurn c j = some (s0, u) →
    s0.cellKeys c.origin tOut j (c.kmeArgs.groupSites * nth 0 v.groupNext j)
      (min (nth 0 tOut.cells j) (c.kmeArgs.groupSites * nth 0 v.groupNext j + c.kmeArgs.groupSites)) = (s1, .ok cells) →
    s1.groupPairs c.origin c.kmeArgs ti j cells {} = (s2, .ok (l, n)) → s2.compute = s0.compute → v.mapOnly = false →
    Completes (.kmeGroup cmd j) s fun t => ∃ w x, t.conv? cmd = some w ∧ x ∈ w.groups ∧ x.stem = j ∧ x.num = nth 0 v.groupNext j ∧
      x.pairs = segments c.kmeArgs.offsets.length l ∧ w.groupNext = v.groupNext.set j (nth 0 v.groupNext j + 1) ∧
      w.pairTotal = v.pairTotal + (segments c.kmeArgs.offsets.length l).length ∧
      x.spilled = decide ((segments c.kmeArgs.offsets.length l).length > 131072) ∧
      (x.spilled = false → t.compute.items = s.compute.items ++ groupItems cmd j (nth 0 v.groupNext j) c.kmeArgs.coutBlocks)) ∧
  (∀ (s s1 : State) (cmd j g : Nat) (c : Cmd) (v : Conv) (x : SiteGroup), j < 4 → s.conv? cmd = some v → s.cmd? cmd = some c →
    v.group? j g = some x → x.waitingChunks = true → c.phase = .running → ceilDiv x.pairs.length chunkPairs ≤ (nth [] v.freeChunks j).length →
    s.writeChunks c c.kmeArgs j g x.pairs ((nth [] v.freeChunks j).take (ceilDiv x.pairs.length chunkPairs)).zipIdx = (s1, none) →
    s1.compute = s.compute →
    Completes (.spillChunkClaim cmd j g) s fun t => (∃ w y, t.conv? cmd = some w ∧ w.group? j g = some y ∧ y.waitingChunks = false ∧
        y.chunks = (nth [] v.freeChunks j).take (ceilDiv x.pairs.length chunkPairs) ∧ y.spilled = x.spilled ∧ y.readBack = x.readBack) ∧
      t.compute.items = s.compute.items ∧ t.compute.tables = s.compute.tables) ∧
  (∀ (s : State) (cmd j g : Nat) (c : Cmd) (v : Conv) (x : SiteGroup), j < 4 → s.conv? cmd = some v → s.cmd? cmd = some c →
    v.group? j g = some x → x.waitingChunks = true → c.phase = .running → (nth [] v.freeChunks j).length < ceilDiv x.pairs.length chunkPairs →
    exec (.spillChunkClaim cmd j g) s = .next (if v.groups.any (fun y => y.stem == j && !y.chunks.isEmpty) then s
      else s.after ((s.dropWork cmd).finish cmd stSpillFull (BitVec.ofNat 32 j)))) ∧
  (∀ (s s1 : State) (cmd j g : Nat) (c : Cmd) (v : Conv) (x : SiteGroup) (ti tOut : Table) (ps : List Pair), j < 4 → s.conv? cmd = some v →
    s.cmd? cmd = some c → v.group? j g = some x → s.table? v.inTable = some ti → s.table? v.outTable = some tOut → x.spilled = true →
    x.waitingChunks = false → x.readBack = false → c.phase = .running →
    s.readChunks c c.kmeArgs ti tOut j g x.chunks.zipIdx = (s1, .ok ps) → s1.compute = s.compute →
    Completes (.spillReadback cmd j g) s fun t => (∃ w y, t.conv? cmd = some w ∧ w.group? j g = some y ∧ y.pairs = ps ∧ y.readBack = true ∧
        y.chunks = x.chunks) ∧ t.compute.items = s.compute.items ++ groupItems cmd j g c.kmeArgs.coutBlocks) ∧
  (∀ (s s1 : State) (cmd j g i : Nat) (c : Cmd) (v : Conv) (x : SiteGroup) (ti tOut : Table), j < 4 → s.conv? cmd = some v →
    s.cmd? cmd = some c → v.group? j g = some x → s.table? v.inTable = some ti → s.table? v.outTable = some tOut → x.spilled = true →
    x.waitingChunks = false → x.readBack = false → c.phase = .running →
    s.readChunks c c.kmeArgs ti tOut j g x.chunks.zipIdx = (s1, .corrupt i) → (s1.cmd? cmd).isSome = true →
    Completes (.spillReadback cmd j g) s fun t =>
      t.Ended cmd stSpillCorrupt (BitVec.ofNat 32 (c.kmeArgs.chunkAt j i - c.kmeArgs.spillBase)) ∧
      ∃ r ∈ t.reports, r.source = 0x17 ∧ r.stem = j ∧ r.logical = g ∧ r.detail = BitVec.ofNat 64 (c.kmeArgs.chunkAt j i - c.kmeArgs.spillBase)) ∧
  (∀ (s s1 s2 s3 s4 : State) (index tile j g cout n : Nat) (c : Cmd) (w : WorkItem) (v : Conv) (x : SiteGroup) (ti tOut : Table)
    (acc acc' : List (List Nat)) (cnt : PassCounts) (bias : Option (List Nat)), s.compute.items[index]? = some w → s.itemCmd w = some c →
    w.tile = some tile → w.active = true → s.slotAdmits w.stem c.part = true → s.tileServes w.stem tile = true → w.kind = .conv j g cout →
    s.conv? c.id = some v → v.group? j g = some x → s.table? v.inTable = some ti → s.table? v.outTable = some tOut →
    n = passLength (x.pairs.length * c.kmeArgs.perPair) w.broadcasts (cadence c.kmeArgs.inFmt c.kmeArgs.inFmt c.kmeArgs.sparse).2 →
    w.broadcasts + n < x.pairs.length * c.kmeArgs.perPair →
    s.beginPass c w tile (min c.kmeArgs.groupSites (nth 0 tOut.cells j - c.kmeArgs.groupSites * g)) (c.e 26 3) = (s1, .ok acc) →
    s1.convRun c j c.kmeArgs ti (c.kmeArgs.groupSites * g) cout x.pairs ((List.range n).map (fun i => w.broadcasts + i)) none acc {}
      = (s2, .ok (acc', cnt)) →
    s2.loadBias c c.kmeArgs.bias c.kmeArgs.biasBase cout = (s3, .ok bias) →
    (s3.putAcc w tile acc').saveImage c w tile (c.e 26 3) = (s4, none) → s4.compute.items = s.compute.items →
    Completes (.convPass index) s fun t => t.compute.items[index]? = some { w with
        passes := w.passes + 1, broadcasts := w.broadcasts + n, done := false } ∧
      t.compute.convs = s4.compute.convs ∧ t.acc = s4.acc)

/-- How matrix products and conversions become work items, and how items go to tiles.
TILE_GEMM, TILE_CONVERT, GEMM and CONVERT that pass their checks add their work items, in order, to those that wait, and
change nothing of the items that are there; the expert commands deal them to the tiles of their mask, and for the basic ones
firmware chooses the tiles (a free choice). An illegal pair of formats ends a product with FORMAT_PAIR and its detail, and one
that breaks a placement rule names it. An item that waits goes to a tile that can take it, which no other item is on then;
where no tile can, nothing starts. It also rests on choices and readings of the model: log entries 83 and 87. (R243, R262,
R282, R283, R284, R285, R286, R287, R89, 08_tile_arithmetic.md) -/
def Obligations.TileCommandsDealTheirItems : Prop :=
  (∀ (s : State) (cmd : Nat) (c : Cmd), s.running cmd 4 1 = some c → c.started = false →
    (s.updCmd cmd (fun x => { x with started := true })).gemmFault c c.gemmArgs (tilesOf c.tileMasks) true = none →
    Completes (.tileGemm cmd) s fun t => t.compute.items = s.compute.items ++ gemmItems cmd c.gemmArgs (tilesOf c.tileMasks) ∧
      t.cmd? cmd = some { c with started := true } ∧ OnlyIn [.queues, .compute] s t ∧ CmdsBut cmd s t) ∧
  (∀ (s : State) (cmd : Nat) (c : Cmd), s.running cmd 4 1 = some c → c.started = false →
    formatPairOk c.gemmArgs.inFmt c.gemmArgs.wFmt c.gemmArgs.out = false →
    Completes (.tileGemm cmd) s fun t => t.Ended cmd stFormatPair (formatDetail c.gemmArgs.inFmt c.gemmArgs.wFmt c.gemmArgs.out) ∧
      OnlyIn [.queues] s t ∧ CmdsBut cmd s t) ∧
  (∀ (s : State) (cmd : Nat) (c : Cmd), s.running cmd 4 1 = some c → c.started = false →
    formatPairOk c.gemmArgs.inFmt c.gemmArgs.wFmt c.gemmArgs.out = true → tilesOf c.tileMasks = [] →
    Completes (.tileGemm cmd) s fun t => t.Ended cmd stTilePlacement 4 ∧ OnlyIn [.queues] s t ∧ CmdsBut cmd s t) ∧
  (∀ (s : State) (cmd : Nat) (c : Cmd), s.running cmd 4 2 = some c → c.started = false →
    (s.updCmd cmd (fun x => { x with started := true })).convertFault c c.convertArgs (tilesOf c.tileMasks) = none →
    Completes (.tileConvert cmd) s fun t => t.compute.items = s.compute.items ++ convertItems cmd c.convertArgs (tilesOf c.tileMasks) ∧
      t.cmd? cmd = some { c with started := true } ∧ OnlyIn [.queues, .compute] s t ∧ CmdsBut cmd s t) ∧
  (∀ (s s1 : State) (cmd : Nat) (c : Cmd) (ts : List (Nat × Nat)), s.running cmd 0 0x40 = some c → c.started = false →
    (s.updCmd cmd (fun x => { x with started := true })).chooseTiles c.part = (s1, ts) → ts ≠ [] → s1.gemmFault c c.gemmArgs ts false = none →
    Completes (.gemm cmd) s fun t => (∃ n, 0 < n ∧ n ≤ c.gemmArgs.onePass ∧
        t.compute.items = s.compute.items ++ gemmItems cmd { c.gemmArgs with rowsPerItem := n } ts) ∧
      t.cmd? cmd = some { c with started := true } ∧ OnlyIn [.queues, .compute, .free] s t ∧ CmdsBut cmd s t) ∧
  (∀ (s s1 : State) (cmd : Nat) (c : Cmd) (ts : List (Nat × Nat)), s.running cmd 0 0x41 = some c → c.started = false →
    (s.updCmd cmd (fun x => { x with started := true })).chooseTiles c.part = (s1, ts) → ts ≠ [] → s1.convertFault c c.convertArgs ts = none →
    Completes (.convert cmd) s fun t => t.compute.items = s.compute.items ++ convertItems cmd c.convertArgs ts ∧
      t.cmd? cmd = some { c with started := true } ∧ OnlyIn [.queues, .compute, .free] s t ∧ CmdsBut cmd s t) ∧
  (∀ (s : State) (cmd : Nat) (c : Cmd), (s.running cmd 0 0x40 = some c → c.started = false → s.partTiles c.part = [] →
      Completes (.gemm cmd) s fun t => t.Ended cmd stResource 0 ∧ OnlyIn [.queues, .free] s t ∧ CmdsBut cmd s t) ∧
    (s.running cmd 0 0x41 = some c → c.started = false → s.partTiles c.part = [] →
      Completes (.convert cmd) s fun t => t.Ended cmd stResource 0 ∧ OnlyIn [.queues, .free] s t ∧ CmdsBut cmd s t)) ∧
  (∀ (s : State) (index tile : Nat) (w : WorkItem) (c : Cmd), s.compute.items[index]? = some w → s.itemCmd w = some c → w.waits = true →
    ((s.compute.items.take index).any (fun x => x.cmd == w.cmd && x.stem == w.stem && x.fixedTile == w.fixedTile
      && (if w.fixedTile.isSome then !x.done else x.waits))) = false → s.slotAdmits w.stem c.part = true →
    (s.itemTiles w).filter ((s.askSuspend w c).tileTakes w c) = [tile] →
    Completes (.workItemStart index) s fun t => (∃ y, t.compute.items[index]? = some y ∧ y.tile = some tile ∧ y.suspended = false ∧
        y.done = false ∧ y.kind = w.kind ∧ y.passes = w.passes ∧ y.broadcasts = w.broadcasts ∧ y.active = true) ∧
      (∀ i x, i ≠ index → t.compute.items[i]? = some x → x.stem = w.stem → x.tile = some tile → x.active = false) ∧
      t.compute.items.length = s.compute.items.length) ∧
  (∀ (s : State) (index : Nat) (w : WorkItem) (c : Cmd), s.compute.items[index]? = some w → s.itemCmd w = some c → w.waits = true →
    (s.itemTiles w).filter ((s.askSuspend w c).tileTakes w c) = [] →
    Completes (.workItemStart index) s fun t => t.compute.items = s.compute.items ∧ OnlyIn [.compute] s t)

/-- What a pass of a matrix product or of a conversion does.
A pass of a matrix product that does not end its item holds the item's entries in the accumulator file, saves their image, and
advances the item by the broadcasts of the pass, the first boundary at or after 16,384 cycles; a pass that ends the item while
others of its command are not done marks it done. A pass of a conversion advances its item by its row conversions, one
broadcast of one cycle each, and the last one ends it. The pass is counted on its Stem. A pass whose first access fails
discards its command's work and ends it with the status of the access. An item that is not on a tile takes no pass. It also
rests on choices and readings of the model: log entries 84 and 87. (R278, R279, R284, R285, R286, R287, R288,
08_tile_arithmetic.md) -/
def Obligations.TilePassesAdvanceTheirItems : Prop :=
  (∀ (s s1 s2 s3 s4 : State) (index tile first rows nb n : Nat) (c : Cmd) (w : WorkItem) (acc acc' : List (List Nat)) (cnt : PassCounts)
    (bias : Option (List Nat)), s.compute.items[index]? = some w → s.itemCmd w = some c → w.tile = some tile → w.active = true →
    s.slotAdmits w.stem c.part = true → s.tileServes w.stem tile = true → w.kind = .gemm first rows nb →
    n = passLength (rows * c.gemmArgs.perRow) w.broadcasts (cadence c.gemmArgs.inFmt c.gemmArgs.wFmt c.gemmArgs.sparse).2 →
    w.broadcasts + n < rows * c.gemmArgs.perRow →
    s.beginPass c w tile rows c.gemmArgs.partialOff = (s1, .ok acc) →
    s1.gemmRun c w.stem c.gemmArgs first rows nb ((List.range n).map (fun i => w.broadcasts + i)) none acc {} = (s2, .ok (acc', cnt)) →
    s2.loadBias c c.gemmArgs.bias c.gemmArgs.biasBase nb = (s3, .ok bias) →
    (s3.putAcc w tile acc').saveImage c w tile c.gemmArgs.partialOff = (s4, none) → s4.compute.items = s.compute.items →
    Completes (.gemmPass index) s fun t => t.compute.items[index]? = some { w with
        passes := w.passes + 1, broadcasts := w.broadcasts + n, done := false } ∧ t.acc = s4.acc ∧
      (∀ i, i ≠ index → t.compute.items[i]? = s.compute.items[i]?)) ∧
  (∀ (s s1 s2 s3 s4 : State) (index tile first rows nb n other : Nat) (c : Cmd) (w y : WorkItem) (acc acc' : List (List Nat))
    (cnt cnt' : PassCounts) (bias : Option (List Nat)), s.compute.items[index]? = some w → s.itemCmd w = some c → w.tile = some tile →
    w.active = true → s.slotAdmits w.stem c.part = true → s.tileServes w.stem tile = true → w.kind = .gemm first rows nb →
    n = passLength (rows * c.gemmArgs.perRow) w.broadcasts (cadence c.gemmArgs.inFmt c.gemmArgs.wFmt c.gemmArgs.sparse).2 →
    w.broadcasts + n = rows * c.gemmArgs.perRow →
    s.beginPass c w tile rows c.gemmArgs.partialOff = (s1, .ok acc) →
    s1.gemmRun c w.stem c.gemmArgs first rows nb ((List.range n).map (fun i => w.broadcasts + i)) none acc {} = (s2, .ok (acc', cnt)) →
    s2.loadBias c c.gemmArgs.bias c.gemmArgs.biasBase nb = (s3, .ok bias) →
    (s3.putAcc w tile acc').epilogueRows c w tile c.gemmArgs.stoch
      { int := isIntFmt c.gemmArgs.inFmt, out := c.gemmArgs.out, bias := bias, relu := c.gemmArgs.relu }
      { addr := fun k => c.gemmArgs.outBase + (first + k) * c.gemmArgs.outStride, channels := 32 * c.gemmArgs.nBlocks, block := nb }
      acc'.zipIdx cnt = (s4, .ok cnt') → s4.compute.items = s.compute.items →
    other ≠ index → s.compute.items[other]? = some y → y.cmd = w.cmd → y.done = false → c.id = w.cmd →
    Completes (.gemmPass index) s fun t => t.compute.items[index]? = some { w with
        passes := w.passes + 1, broadcasts := w.broadcasts + n, done := true } ∧ t.compute.items[other]? = some y) ∧
  (∀ (s s1 : State) (index tile first rows nb : Nat) (c : Cmd) (w : WorkItem) (e : AccErr), s.compute.items[index]? = some w →
    s.itemCmd w = some c → w.tile = some tile → w.active = true → s.slotAdmits w.stem c.part = true → s.tileServes w.stem tile = true →
    w.kind = .gemm first rows nb → s.beginPass c w tile rows c.gemmArgs.partialOff = (s1, .error e) →
    exec (.gemmPass index) s = .next (s.after (s1.failPass index w e))) ∧
  (∀ (s s1 s2 : State) (index tile first rows n other : Nat) (c : Cmd) (w y : WorkItem) (scales : List Byte) (cnt : PassCounts),
    s.compute.items[index]? = some w → s.itemCmd w = some c → w.tile = some tile → w.active = true → s.slotAdmits w.stem c.part = true →
    s.tileServes w.stem tile = true → w.kind = .convert first rows →
    n = passLength (rows * c.convertArgs.blocks) w.broadcasts 1 →
    (if c.convertArgs.scale then s.load c.origin c.convertArgs.scaleBase (128 * c.convertArgs.blocks) else (s, .ok [])) = (s1, .ok scales) →
    s1.convertRun c w tile first c.convertArgs scales ((List.range n).map (fun i => w.broadcasts + i)) none {} = (s2, .ok cnt) →
    s2.compute.items = s.compute.items → other ≠ index → s.compute.items[other]? = some y → y.cmd = w.cmd → y.done = false → c.id = w.cmd →
    Completes (.gemmPass index) s fun t => t.compute.items[index]? = some { w with
        passes := w.passes + 1, broadcasts := w.broadcasts + n, done := decide (w.broadcasts + n = rows * c.convertArgs.blocks) } ∧ t.compute.items[other]? = some y ∧
      t.rd Fld.tileStemPasses_passes w.stem = s2.rd Fld.tileStemPasses_passes w.stem + 1) ∧
  (∀ (s : State) (index : Nat), (∀ w, s.compute.items[index]? = some w → w.active = false) →
    exec (.gemmPass index) s = .next s ∧ exec (.convPass index) s = .next s ∧ exec (.densePass index) s = .next s)

/-- What the instructions of a thread do that touch no memory: integer, multiply, CSR, time, identity, fences, yield, exit.
An integer or branch instruction writes its result and moves the pc to its target or the next instruction; a multiply or
divide, and a read of a Knot, stalls the thread until the result arrives. TWIG_CSR_READ, TW.TIME and TW.TID write the value
that R292, R300 and R301 give. FENCE and TW.ACQ leave no line of the tile in its read cache and FENCE.I none in its
instruction cache; TW.REL goes on once the thread has no access to other chips left. TW.YIELD gives up the next issue slot.
TW.EXIT ends the thread with its code; the last of a program ends its command. ECALL, EBREAK and an illegal instruction fail
the command with the status of R310. A retired instruction is counted in its thread and its Stem, and changes no other
register. No thread issues that is not READY on a tile that serves it, or that is not the next of its tile in round-robin
order. What a stalled thread waits for arrives in the register named. It also rests on choices and readings of the model: log
entries 94, 97 and 98. (R290, R291, R292, R293, R294, R295, R300, R301, R310, 09_twig_threads.md) -/
def Obligations.TwigIntegerInstructionsRetire : Prop :=
  (∀ (s : State) (n : Nat) (i : Issue), s.Issues n i → i.op.isInteger = true →
    Completes (.twigIntegerOp n) s fun t => t.HoldsThread n { i.t.put (integerEffect i.t i.len i.op).1 (integerEffect i.t i.len i.op).2.1 with
        pc := (integerEffect i.t i.len i.op).2.2.getD (i.t.pc + BitVec.ofNat 64 i.len), instret := i.t.instret + 1 } ∧
      OnlyIn [.regs, .compute] s t ∧ RegsBut [Fld.twigStemInstret_instret.key i.t.stem 0] s t ∧
      t.rd Fld.twigStemInstret_instret i.t.stem = s.rd Fld.twigStemInstret_instret i.t.stem + 1) ∧
  (∀ (s : State) (n f3 rd rs1 rs2 : Nat) (w : Bool) (i : Issue), s.Issues n i → i.op = .mulDiv f3 w rd rs1 rs2 →
    Completes (.twigMuldiv n) s fun t => t.HoldsThread n (i.next { i.t with
        state := .stalled, pendingResult := some { rd := rd, value := mulDiv f3 w (i.t.x rs1) (i.t.x rs2) } }) ∧
      OnlyIn [.regs, .compute] s t ∧ RegsBut [Fld.twigStemInstret_instret.key i.t.stem 0] s t) ∧
  (∀ (s : State) (n : Nat) (t : Thread) (p : Program), n < 4096 → s.thread? n = some (t, p) → t.state = .stalled → s.loadPending t = false →
    Completes (.twigLoadReturn n) s fun u => u.HoldsThread n { (match t.pendingResult with | some r => t.put r.rd r.value | none => t) with
        state := .ready, pendingResult := none, acquire := false } ∧ OnlyIn [.compute] s u) ∧
  (∀ (s : State) (n k rd : Nat) (i : Issue), s.Issues n i → i.op = .csr k rd →
    (k = 0xC01 → Completes (.twigCsrRead n) s fun t => t.HoldsThread n (i.next (i.t.put rd (s.leaf (unitId 5 i.t.stem i.t.tile)))) ∧ OnlyIn [.regs, .compute] s t) ∧
    (k = 0xC02 → Completes (.twigCsrRead n) s fun t => t.HoldsThread n (i.next (i.t.put rd i.t.instret)) ∧ OnlyIn [.regs, .compute] s t) ∧
    (k = 0xCC0 → Completes (.twigCsrRead n) s fun t => t.HoldsThread n (i.next (i.t.put rd (s.identityWord i.t.stem i.t.tile i.t.slot))) ∧
      OnlyIn [.regs, .compute] s t) ∧
    (k = 0xC00 → Completes (.twigCsrRead n) s fun t => (∃ v : DWord, t.HoldsThread n (i.next (i.t.put rd v)) ∧
      ((s.twigOf i.t.stem i.t.tile).cycle.toNat < v.toNat ∨ v.toNat = 2 ^ 64 - 1)) ∧ OnlyIn [.regs, .compute, .free] s t)) ∧
  (∀ (s : State) (n rd : Nat) (i : Issue), s.Issues n i →
    (i.op = .time rd → Completes (.twTime n) s fun t => t.HoldsThread n (i.next (i.t.put rd (s.leaf (unitId 5 i.t.stem i.t.tile)))) ∧ OnlyIn [.regs, .compute] s t) ∧
    (i.op = .tid rd → Completes (.twTid n) s fun t =>
      t.HoldsThread n (i.next (i.t.put rd (s.identityWord i.t.stem i.t.tile i.t.slot))) ∧ OnlyIn [.regs, .compute] s t)) ∧
  (∀ (s : State) (n : Nat) (i : Issue), s.Issues n i →
    (i.op = .fence → s.remotePending i.t = false → Completes (.twigFence n) s fun t => t.HoldsThread n (i.next i.t) ∧
      (∀ l ∈ t.compute.rcache, ¬(l.stem = i.t.stem ∧ l.tile = i.t.tile)) ∧ OnlyIn [.regs, .compute] s t) ∧
    (i.op = .fence → s.remotePending i.t = true → exec (.twigFence n) s = .next (s.turned i.t)) ∧
    (i.op = .acq → Completes (.twAcq n) s fun t => t.HoldsThread n (i.next i.t) ∧
      (∀ l ∈ t.compute.rcache, ¬(l.stem = i.t.stem ∧ l.tile = i.t.tile)) ∧ OnlyIn [.regs, .compute] s t) ∧
    (i.op = .rel → s.remotePending i.t = false → Completes (.twRel n) s fun t => t.HoldsThread n (i.next i.t) ∧
      t.compute.rcache = s.compute.rcache ∧ OnlyIn [.regs, .compute] s t) ∧
    (i.op = .rel → s.remotePending i.t = true → exec (.twRel n) s = .next (s.turned i.t)) ∧
    (i.op = .fenceI → Completes (.fenceI n) s fun t => t.HoldsThread n (i.next i.t) ∧
      (∀ l ∈ t.compute.icache, ¬(l.stem = i.t.stem ∧ l.tile = i.t.tile)) ∧ OnlyIn [.regs, .compute] s t) ∧
    (i.op = .yield → Completes (.twYield n) s fun t => t.HoldsThread n (i.next { i.t with yielded := true }) ∧ OnlyIn [.regs, .compute] s t) ∧
    (i.op = .brk → Completes (.ecallEbreak n) s fun t => t.Ended i.t.cmd stTwigBreak (BitVec.ofNat 32 i.t.pc.toNat) ∧
      ∀ x ∈ t.compute.threads, x.cmd = i.t.cmd → x.state = .exited ∨ x.state = .suspended) ∧
    (i.op = .illegal → Completes (.twigIllegalInstruction n) s fun t => t.Ended i.t.cmd stTwigIllegal (BitVec.ofNat 32 i.word) ∧
      ∀ x ∈ t.compute.threads, x.cmd = i.t.cmd → x.state = .exited ∨ x.state = .suspended)) ∧
  (∀ (s : State) (n rs1 : Nat) (i : Issue), s.Issues n i → i.op = .exit rs1 →
    (∃ x ∈ s.compute.threads, x.cmd = i.t.cmd ∧ x.state ≠ .exited ∧ (x.stem, x.tile, x.slot) ≠ (i.t.stem, i.t.tile, i.t.slot)) →
    Completes (.twExit n) s fun t => t.HoldsThread n (i.next { i.t with
      state := .exited, exitCode := BitVec.ofNat 32 (i.t.x rs1).toNat }) ∧ OnlyIn [.regs, .compute] s t) ∧
  (∀ (s : State) (n rs1 : Nat) (i : Issue), s.Issues n i → i.op = .exit rs1 →
    (∀ x ∈ s.compute.threads, x.cmd = i.t.cmd → x.state = .exited ∨ (x.stem, x.tile, x.slot) = (i.t.stem, i.t.tile, i.t.slot)) →
    Completes (.twExit n) s fun t => (∃ d, t.Ended i.t.cmd stSuccess d) ∧ OnlyIn [.regs, .queues, .compute] s t) ∧
  (∀ (s : State) (n : Nat) (t : Thread) (p : Program), n < 4096 → s.thread? n = some (t, p) → s.issuable t p = false ∨ s.issuesNext t = false →
    ∀ c ∈ [Instr.twigIntegerOp n, .twigMuldiv n, .twigLoad n, .twigStore n, .twigAmo n, .twCas n, .twigCsrRead n, .twTime n, .twTid n,
      .twigFence n, .twAcq n, .twRel n, .fenceI n, .ecallEbreak n, .twigIllegalInstruction n, .twYield n, .twExit n, .knotSig n, .knotWait n,
      .knotRd n], exec c s = .next s)

/-- What the loads, stores, atomics and Knot instructions of a thread do.
A load here whose access succeeds stalls its thread with the bytes that it loaded, extended as its width says, on the way to
its register; a store here has stored its bytes and leaves no line of them in the tile's read cache; an AMO or TW.CAS here
stalls its thread with the old value on its way. A load of another chip stalls until the answer comes, and a store to one goes
on. A misaligned access that R297 does not allow, and a misaligned atomic, fail the command with TWIG_MISALIGNED. An atomic
with rl waits for the thread's earlier accesses. KNOT.SIG here adds its increment to the Knot; KNOT.WAIT on a Knot that has
its threshold writes the count and goes on, and on one that has not leaves the thread WAITING for it; KNOT.RD has the count on
its way. A Knot reference that R302 forbids fails the command. It also rests on choices and readings of the model: log entries
94 and 96. (R295, R296, R297, R298, R300, R301, R302, R310, R62, R63, 09_twig_threads.md) -/
def Obligations.TwigMemoryInstructionsRetire : Prop :=
  (∀ (s s1 : State) (n f3 rd rs1 ga : Nat) (imm : DWord) (b : List Byte) (i : Issue), s.Issues n i → i.op = .load f3 rd rs1 imm →
    ga = (i.t.x rs1 + imm).toNat → s.twigFault ga (accessBytes f3) (fun p => p != .none) = none → s.isHere ga = true →
    (if twigPlace (gLocal ga) = .hbm then (s.turned i.t).cachedLoad i (gLocal ga) (accessBytes f3)
      else (s.turned i.t).load i.o (gLocal ga) (accessBytes f3))
      = (s1, .ok b) → s1.compute.threads = s.compute.threads → s1.compute.programs = s.compute.programs → s1.queues = s.queues →
    Completes (.twigLoad n) s fun t => t.HoldsThread n (i.next { i.t with
      state := .stalled, pendingResult := some { rd := rd, value := loaded f3 b } })) ∧
  (∀ (s : State) (n f3 rd rs1 ga : Nat) (imm : DWord) (i : Issue), s.Issues n i → i.op = .load f3 rd rs1 imm →
    ga = (i.t.x rs1 + imm).toNat → s.twigFault ga (accessBytes f3) (fun p => p != .none) = none → s.isHere ga = false →
    Completes (.twigLoad n) s fun t => t.HoldsThread n (i.next { i.t with state := .stalled })) ∧
  (∀ (s : State) (n f3 rd rs1 ga : Nat) (imm : DWord) (i : Issue), s.Issues n i → i.op = .load f3 rd rs1 imm →
    ga = (i.t.x rs1 + imm).toNat → alignedOk (gLocal ga) (accessBytes f3) = false →
    Completes (.twigLoad n) s fun t => t.Ended i.t.cmd stTwigMisaligned (addrDetail (gLocal ga))) ∧
  (∀ (s s1 : State) (n f3 rs1 rs2 ga : Nat) (imm : DWord) (i : Issue), s.Issues n i → i.op = .store f3 rs1 rs2 imm →
    ga = (i.t.x rs1 + imm).toNat → s.twigFault ga (accessBytes f3) (fun p => p != .none && p != .ctl) = none → s.isHere ga = true →
    (s.turned i.t).store i.o (gLocal ga) (natToBytes (accessBytes f3) (i.t.x rs2).toNat) = (s1, none) → s1.compute = (s.turned i.t).compute → s1.queues = s.queues →
    Completes (.twigStore n) s fun t => t.HoldsThread n (i.next i.t) ∧ t.hbm = s1.hbm ∧ t.sap = s1.sap ∧ t.host = s1.host ∧
      ∀ l ∈ t.compute.rcache, ¬(l.stem = i.t.stem ∧ l.tile = i.t.tile ∧ l.line < gLocal ga + accessBytes f3 ∧ gLocal ga < l.line + 64)) ∧
  (∀ (s : State) (n f3 rs1 rs2 ga : Nat) (imm : DWord) (i : Issue), s.Issues n i → i.op = .store f3 rs1 rs2 imm →
    ga = (i.t.x rs1 + imm).toNat → s.twigFault ga (accessBytes f3) (fun p => p != .none && p != .ctl) = none → s.isHere ga = false →
    Completes (.twigStore n) s fun t => t.HoldsThread n (i.next i.t)) ∧
  (∀ (s s1 : State) (n rd rs1 rs2 : Nat) (op : AtomicOp) (aq rl : Bool) (a : Nat) (old : DWord) (i : Issue), s.Issues n i →
    i.op = .amo op aq rl rd rs1 rs2 → a = gLocal (i.t.x rs1).toNat → a % 8 = 0 →
    s.twigFault (i.t.x rs1).toNat 8 (fun p => p != .none && p != .ctl) = none → (rl = false ∨ s.remotePending i.t = false) →
    s.isHere (i.t.x rs1).toNat = true → (s.turned i.t).atomic i.o op a (i.t.x rs2) 0 = (s1, .ok old) → s1.compute = (s.turned i.t).compute → s1.queues = s.queues →
    Completes (.twigAmo n) s fun t => t.HoldsThread n (i.next { i.t with
      state := .stalled, pendingResult := some { rd := rd, value := old }, acquire := aq }) ∧ t.hbm = s1.hbm ∧ t.sap = s1.sap) ∧
  (∀ (s s1 : State) (n rd rs1 rs2 : Nat) (aq rl : Bool) (a : Nat) (old : DWord) (i : Issue), s.Issues n i →
    i.op = .cas aq rl rd rs1 rs2 → a = gLocal (i.t.x rs1).toNat → a % 8 = 0 →
    s.twigFault (i.t.x rs1).toNat 8 (fun p => p != .none && p != .ctl) = none → (rl = false ∨ s.remotePending i.t = false) →
    s.isHere (i.t.x rs1).toNat = true → (s.turned i.t).atomic i.o .cas a (i.t.x rs2) (i.t.x rd) = (s1, .ok old) → s1.compute = (s.turned i.t).compute →
    s1.queues = s.queues →
    Completes (.twCas n) s fun t => t.HoldsThread n (i.next { i.t with
      state := .stalled, pendingResult := some { rd := rd, value := old }, acquire := aq }) ∧ t.hbm = s1.hbm ∧ t.sap = s1.sap) ∧
  (∀ (s : State) (n rd rs1 rs2 : Nat) (op : AtomicOp) (aq rl : Bool) (i : Issue), s.Issues n i → gLocal (i.t.x rs1).toNat % 8 ≠ 0 →
    (i.op = .amo op aq rl rd rs1 rs2 →
      Completes (.twigAmo n) s fun t => t.Ended i.t.cmd stTwigMisaligned (addrDetail (gLocal (i.t.x rs1).toNat))) ∧
    (i.op = .cas aq rl rd rs1 rs2 →
      Completes (.twCas n) s fun t => t.Ended i.t.cmd stTwigMisaligned (addrDetail (gLocal (i.t.x rs1).toNat)))) ∧
  (∀ (s : State) (n rs1 rs2 : Nat) (i : Issue), s.Issues n i → i.op = .knotSig rs1 rs2 → s.KnotsOk →
    s.knotFault i (i.t.x rs1).toNat true = false → s.isHere (i.t.x rs1).toNat = true → badChip (gChip (i.t.x rs1).toNat) = false →
    s.remotePending i.t = false →
    Completes (.knotSig n) s fun t => t.knot ((i.t.x rs1).toNat % 65536) = s.knot ((i.t.x rs1).toNat % 65536) + i.t.x rs2) ∧
  (∀ (s : State) (n rd rs1 rs2 : Nat) (i : Issue), s.Issues n i → i.op = .knotWait rd rs1 rs2 → s.knotFault i (i.t.x rs1).toNat false = false →
    ((i.t.x rs2).toNat ≤ (s.knot ((i.t.x rs1).toNat % 65536)).toNat →
      Completes (.knotWait n) s fun t => t.HoldsThread n (i.next (i.t.put rd (s.knot ((i.t.x rs1).toNat % 65536)))) ∧
        (∀ l ∈ t.compute.rcache, ¬(l.stem = i.t.stem ∧ l.tile = i.t.tile)) ∧ OnlyIn [.regs, .compute] s t) ∧
    ((s.knot ((i.t.x rs1).toNat % 65536)).toNat < (i.t.x rs2).toNat →
      Completes (.knotWait n) s fun t => t.HoldsThread n (i.next { i.t with
        state := .waiting, knotWait := some (rd, (i.t.x rs1).toNat % 65536, i.t.x rs2) }) ∧ OnlyIn [.regs, .compute] s t)) ∧
  (∀ (s : State) (n rd rs1 : Nat) (i : Issue), s.Issues n i → i.op = .knotRd rd rs1 → s.knotFault i (i.t.x rs1).toNat false = false →
    Completes (.knotRd n) s fun t => t.HoldsThread n (i.next { i.t with
      state := .stalled, pendingResult := some { rd := rd, value := s.knot ((i.t.x rs1).toNat % 65536) } }) ∧ OnlyIn [.regs, .compute] s t) ∧
  (∀ (s : State) (n rd rs1 rs2 : Nat) (i : Issue), s.Issues n i → (i.t.x rs1).toNat % 65536 = 0 →
    (i.op = .knotSig rs1 rs2 → Completes (.knotSig n) s fun t => t.Ended i.t.cmd stTwigKnot 0) ∧
    (i.op = .knotWait rd rs1 rs2 → Completes (.knotWait n) s fun t => t.Ended i.t.cmd stTwigKnot 0) ∧
    (i.op = .knotRd rd rs1 → Completes (.knotRd n) s fun t => t.Ended i.t.cmd stTwigKnot 0))

/-- How a tile program is launched, starts its threads, is suspended, resumes and runs out of time.
TWIG_RUN and PROGRAM_RUN that pass their checks have their program wait for its slots; an empty mask or a save base of 0
breaks a placement rule. A program's threads start all together, when every slot that it names is free, as R305 numbers and
loads them; else nothing starts. A program whose threads were asked to stop, once their accesses are done and saved, is
suspended on those tiles and its threads there are SUSPENDED. Where tiles can be had again, no thread of the program on them
stays SUSPENDED. A program that ran past its limit, the time left out in which it was suspended on all its tiles, fails with
TWIG_WATCHDOG and the lowest index that had not exited; before that nothing ends it so. It also rests on choices and readings
of the model: log entries 99 and 100. (R303, R304, R305, R306, R307, R308, R309, 09_twig_threads.md) -/
def Obligations.TwigProgramsStartAndSuspend : Prop :=
  (∀ (s : State) (cmd : Nat) (c : Cmd), s.running cmd 4 0x10 = some c → c.started = false → c.twigProgram.tileList ≠ [] →
    c.twigProgram.saveBase ≠ 0 → (s.updCmd cmd (fun x => { x with started := true })).tilesFault c.twigProgram.tileList = none →
    (s.updCmd cmd (fun x => { x with started := true })).programPlaced c.twigProgram = true →
    Completes (.twigRun cmd) s fun t => t.compute.programs = s.compute.programs ++ [{ c.twigProgram with limitUs := s.runLimit c.twigProgram.limitUs }] ∧
      t.cmd? cmd = some { c with started := true } ∧ OnlyIn [.queues, .compute] s t ∧ CmdsBut cmd s t) ∧
  (∀ (s : State) (cmd : Nat) (c : Cmd), s.running cmd 4 0x10 = some c → c.started = false →
    (c.twigProgram.tileList = [] → Completes (.twigRun cmd) s fun t => t.Ended cmd stTilePlacement 4 ∧ OnlyIn [.queues] s t) ∧
    (c.twigProgram.tileList ≠ [] → c.twigProgram.saveBase = 0 →
      Completes (.twigRun cmd) s fun t => t.Ended cmd stTilePlacement 3 ∧ OnlyIn [.queues] s t)) ∧
  (∀ (s s1 : State) (cmd : Nat) (c : Cmd) (p : Package) (d : ProgramFacts) (slots : List (Nat × Nat × Nat)) (q : Program),
    s.running cmd 0 0x42 = some c → c.started = false → s.package? c.part (c.b 16 2) = some p → p.programs[c.b 18 2]? = some d →
    c.b 20 4 ≤ ((slotsOf ((s.updCmd cmd (fun x => { x with started := true })).partTiles c.part) 0xFFFF).filter
      (s.updCmd cmd (fun x => { x with started := true })).threadSlotFree).length →
    (s.updCmd cmd (fun x => { x with started := true })).pickSome (c.b 20 4)
      ((slotsOf ((s.updCmd cmd (fun x => { x with started := true })).partTiles c.part) 0xFFFF).filter
        (s.updCmd cmd (fun x => { x with started := true })).threadSlotFree) = (s1, slots) →
    q = { cmd := cmd, part := c.part, entry := d.entry, slots := slots, arg := BitVec.ofNat 64 (c.b 24 8), stackBase := d.stackBase,
          stackKib := d.stackKib, limitUs := d.limitUs, arrayAccess := d.arrayAccess, saveBase := d.saveBase, tiles := tileMasksOf slots } →
    s1.programPlaced q = true →
    Completes (.programRun cmd) s fun t => t.compute.programs = s.compute.programs ++ [{ q with limitUs := s.runLimit q.limitUs }] ∧ t.cmd? cmd = some { c with started := true } ∧
      OnlyIn [.queues, .compute, .free] s t ∧ CmdsBut cmd s t) ∧
  (∀ (s : State) (cmd : Nat) (p : Program), s.program? cmd = some p → p.started = false → p.tileList.all (s.tileFor p) = true →
    Completes (.twigThreadsStart cmd) s fun t =>
      t.compute.threads = s.compute.threads ++ p.slots.zipIdx.map (fun x => s.newThread p x.1 x.2) ∧
      t.program? cmd = some { p with started := true, since := some s.now } ∧ (∀ l ∈ t.compute.icache, (l.stem, l.tile) ∉ p.tileList) ∧
      OnlyIn [.queues, .compute, .observe] s t) ∧
  (∀ (s : State) (cmd : Nat) (p : Program), s.program? cmd = some p → p.started = false → p.tileList.all (s.tileFor p) = false →
    Completes (.twigThreadsStart cmd) s fun t => t.compute.threads = s.compute.threads ∧ OnlyIn [.compute] s t) ∧
  (∀ (s s1 : State) (cmd : Nat) (c : Cmd) (p : Program), s.program? cmd = some p → s.cmd? cmd = some c → p.suspending ≠ [] →
    (∀ x ∈ s.compute.threads, x.cmd = cmd → (x.stem, x.tile) ∈ p.suspending → x.state ≠ .exited → s.loadPending x = false) →
    (((s.compute.threads.filter (fun t => t.cmd == cmd && p.suspending.contains (t.stem, t.tile) && t.state != .exited)).filter
      (fun t => t.acquire)).foldl (fun s t => s.emptyReads t.stem t.tile) s).saveThreads c p
      (s.compute.threads.filter (fun t => t.cmd == cmd && p.suspending.contains (t.stem, t.tile) && t.state != .exited)) = (s1, none) →
    s1.compute.threads = s.compute.threads → s1.compute.programs = s.compute.programs → s1.queues = s.queues →
    Completes (.twigSuspendDone cmd) s fun t => t.program? cmd = some (p.enterSuspended s1.now) ∧
      (∀ x ∈ t.compute.threads, x.cmd = cmd → (x.stem, x.tile) ∈ p.suspending → x.state = .suspended ∨ x.state = .exited) ∧
      t.compute.threads.length = s.compute.threads.length) ∧
  (∀ (s : State) (cmd : Nat) (c : Cmd) (p : Program), s.program? cmd = some p → s.cmd? cmd = some c → s.resumable p c ≠ [] →
    Completes (.twigResume cmd) s fun t =>
      t.program? cmd = some (p.leaveSuspended s.now (s.resumable p c)) ∧
      (∀ x ∈ t.compute.threads, x.cmd = cmd → (x.stem, x.tile) ∈ s.resumable p c → x.state ≠ .suspended)) ∧
  (∀ (s : State) (cmd : Nat) (p : Program), s.program? cmd = some p → p.started = true →
    (1000 * p.limitUs < p.runTime s.now →
      Completes (.twigWatchdog cmd) s fun t => t.Ended cmd stTwigWatchdog (BitVec.ofNat 32 ((s.firstRunning cmd).getD 0)) ∧
        ∀ x ∈ t.compute.threads, x.cmd = cmd → x.state = .exited ∨ x.state = .suspended) ∧
    (p.runTime s.now ≤ 1000 * p.limitUs → exec (.twigWatchdog cmd) s = .next s))

/-- Loading and unloading a package, starting a RUN and completing its frames.
PACKAGE_LOAD reads its image; where firmware rejects it the command ends with FIRMWARE and the reason, where the partition's
resources do not meet it with RESOURCE, and else the package is loaded under a free handle, which the detail holds, and its
digest is measured. PACKAGE_UNLOAD removes a package that no RUN uses. RUN that passes its checks joins the RUNs of its
partition with no frame done; on an undefined set, or where a check fails, it ends with that status. its table and map IDs are
in the record of the RUN, and the grid that was set for it is used up; where one has no place, it ends with RESOURCE. A RUN
whose frame waits for its slot starts it, with the history reset, the history limit and the NMS override that stand then. A
frame ends over its status, its points and losses and its history, but that frame k0 of a twin's shadow may wait for the
lead's history buffer; nothing ends before its points are in, with a status that the device does not have, or with detections
that an override could not keep. It also rests on choices and readings of the model: log entries 106, 107, 108, 109, 110, 112
and 272. (R35, R115, R116, R119, R177, R185, R211, R213, R252, R329, R500, 03_command_queues.md) -/
def Obligations.PackagesLoadAndRun : Prop :=
  (∀ (s s1 : State) (cmd h : Nat) (f : PackageFacts) (c : Cmd) (b : List Byte), s.running cmd 0 6 = some c →
    s.basicLoad c (c.b 24 8) (c.b 32 4) = (s1, .ok b) → (s1.cmd? cmd).isSome = true → f.reason = 0 → s1.resourcesMeet c.part f = true →
    freeHandle s1.queues.packages s1.queues.nextHandle = some h →
    Completes (.packageLoad cmd f) s fun t => t.queues.packages = s1.queues.packages ++ [f.package h c.part (s1.banksTaken c.part f)] ∧
      t.security.measure = updAt s1.security.measure 8 (fun m => Config.sha3 (m ++ f.digest)) ∧
      t.Ended cmd stSuccess (BitVec.ofNat 32 h) ∧ OnlyIn [.queues, .security] s1 { t with
        pending := s1.pending, variant := s1.variant, revision := s1.revision }) ∧
  (∀ (s s1 : State) (cmd : Nat) (f : PackageFacts) (c : Cmd) (b : List Byte), s.running cmd 0 6 = some c →
    s.basicLoad c (c.b 24 8) (c.b 32 4) = (s1, .ok b) → (s1.cmd? cmd).isSome = true →
    (f.reason ≠ 0 → Completes (.packageLoad cmd f) s fun t => t.Ended cmd stFirmware f.reason ∧ t.queues.packages = s1.queues.packages) ∧
    (f.reason = 0 → s1.resourcesMeet c.part f = false →
      Completes (.packageLoad cmd f) s fun t => t.Ended cmd stResource 0 ∧ t.queues.packages = s1.queues.packages)) ∧
  (∀ (s : State) (cmd : Nat) (c : Cmd), s.running cmd 0 7 = some c →
    ((s.package? c.part (c.b 16 2)).isSome = true → (∀ r ∈ s.queues.runs, ¬(r.part = c.part ∧ r.handle = c.b 16 2)) →
      Completes (.packageUnload cmd) s fun t => (∀ p, p ∈ t.queues.packages ↔ p ∈ s.queues.packages ∧ ¬(p.part = c.part ∧ p.handle = c.b 16 2)) ∧
        t.Ended cmd stSuccess 0 ∧ OnlyIn [.queues, .gather, .canopy, .mem, .regs] s t ∧ CmdsBut cmd s t) ∧
    ((s.package? c.part (c.b 16 2) = none ∨ ∃ r ∈ s.queues.runs, r.part = c.part ∧ r.handle = c.b 16 2) →
      exec (.packageUnload cmd) s = .next (s.finish cmd stOwnership 16))) ∧
  (∀ (s : State) (cmd : Nat) (c : Cmd) (x : StreamSet) (p : Package), s.running cmd 0 8 = some c → c.started = false →
    s.set? (c.b 18 2) = some x → s.package? c.part (c.b 16 2) = some p →
    ((s.updCmd cmd (fun y => { y with started := true })).runFault (c.b 18 2) x p = none → (c.b 20 4 = 0 → s.ringDrains c.sq = false) →
      (∀ s1 ts ms, (s.updCmd cmd (fun y => { y with started := true })).allocRun cmd x p = (s1, some (ts, ms)) →
        Completes (.run cmd) s fun t => t.queues.runs = s.queues.runs ++ [({
            cmd := cmd, handle := p.handle, part := p.part, set := c.b 18 2, frameCount := c.b 20 4, tables := ts, maps := ms } : Run)] ∧
          (t.set? (c.b 18 2)).map (·.grid) = some none ∧ t.compute.tables = s1.compute.tables ∧ t.canopy.maps = s1.canopy.maps ∧
          t.cmd? cmd = some { c with started := true } ∧ OnlyIn [.queues, .ingest, .compute, .canopy, .hbm, .sap, .mem, .free] s t ∧ CmdsBut cmd s t) ∧
      (∀ s1, (s.updCmd cmd (fun y => { y with started := true })).allocRun cmd x p = (s1, none) →
        Completes (.run cmd) s fun t => t.Ended cmd stResource 0 ∧ OnlyIn [.queues] s t ∧ t.queues.runs = s.queues.runs ∧ CmdsBut cmd s t)) ∧
    ((s.updCmd cmd (fun y => { y with started := true })).runFault (c.b 18 2) x p = none → c.b 20 4 = 0 → s.ringDrains c.sq = true →
      Completes (.run cmd) s fun t => t.Ended cmd stSuccess 0 ∧ t.queues.runs = s.queues.runs ∧ OnlyIn [.queues] s t ∧ CmdsBut cmd s t) ∧
    (∀ st d, (s.updCmd cmd (fun y => { y with started := true })).runFault (c.b 18 2) x p = some (st, d) →
      Completes (.run cmd) s fun t => t.Ended cmd st d ∧ t.queues.runs = s.queues.runs ∧ OnlyIn [.queues] s t)) ∧
  (∀ (s : State) (cmd : Nat) (c : Cmd), s.running cmd 0 8 = some c → c.started = false → s.set? (c.b 18 2) = none →
    Completes (.run cmd) s fun t => t.Ended cmd stSetUndefined (BitVec.ofNat 32 (c.b 18 2)) ∧ t.queues.runs = s.queues.runs ∧
      OnlyIn [.queues] s t ∧ CmdsBut cmd s t) ∧
  (∀ (s : State) (cmd n : Nat) (c : Cmd) (r : Run) (w : FrameWin) (rest : List FrameWin), s.running cmd 0 8 = some c → c.started = true →
    s.run? cmd = some r → r.waiting = w :: rest → r.frameActive = false → r.draining = false → c.slot = some n →
    Completes (.run cmd) s fun t => t.run? cmd = some { r with
        frameActive := true, window := w, waiting := rest, historyReset := s.canopy.resets.contains r.set
        nms := s.sort.overrides.find? (fun o => o.set == r.set), historyLimit := (s.canopy.limits.find? (fun x => x.1 == r.set)).map (·.2) } ∧
      (∀ n, n ∈ t.canopy.resets ↔ n ∈ s.canopy.resets ∧ n ≠ r.set) ∧ OnlyIn [.queues, .canopy] s t) ∧
  (∀ (s : State) (cmd : Nat) (f : FrameFacts) (c : Cmd) (r : Run) (p : Package), s.run? cmd = some r → s.cmd? cmd = some c →
    r.frameActive = true → c.phase = .running → (∀ x ∈ s.twin.frames, x.cmd ≠ cmd) → s.package? r.part r.handle = some p →
    (frameStatusOk f.status = true → s.pointsIn r = true → ((s.twinState ≠ 3 ∧ s.twinState ≠ 4) ∨ s.k0 ≠ r.window.k ∨ r.set ∈ s.twin.copied) → (∀ o ∈ r.nms, o.keeps f.boxes = true) → (∀ x ∈ (s.closeFrame c r p f).1.twin.list, x.1 ≠ r.set) →
      (s.closeFrame c r p f).1.runsAlone r = false → (s.closeFrame c r p f).1.isCompared r = false →
      exec (.runFrameComplete cmd f) s = .next (s.after ((s.closeFrame c r p f).1.frameDone cmd (s.closeFrame c r p f).2 0))) ∧
    (frameStatusOk f.status = false → exec (.runFrameComplete cmd f) s = .next s) ∧
    (frameStatusOk f.status = true → s.pointsIn r = true → (∀ o ∈ r.nms, o.keeps f.boxes = true) → (s.twinState = 3 ∨ s.twinState = 4) → s.twinRole = 2 →
      s.twin.syncDone = true → r.set ∉ s.twin.copied → (∃ x ∈ s.twin.list, x.1 = r.set) → r.window.k = s.k0 → p.history.isSome = true →
      (s.choose 2).1 = 0 ∨ exec (.runFrameComplete cmd f) s = .next (s.choose 2).2) ∧
    (s.pointsIn r = false → exec (.runFrameComplete cmd f) s = .next s) ∧
    (∀ o ∈ r.nms, o.keeps f.boxes = false → exec (.runFrameComplete cmd f) s = .next s))

/-- What the commands on maps do when they start.
At its dispatch a command that names maps fails where one has become another's or is absent, is both input and output, or has
a block that is read and not valid, in that order; else it takes its blocks, and those that it writes are valid no more.
CNP_MAP_DEFINE makes a map with no valid block, or zeroed with all of them valid; one of another partition, one that exists,
one whose place breaks a rule, or whose band lies in no usable memory, is refused. CNP_MAP_FREE removes its map. A fold, warp,
devoxelisation or dense layer whose own check passes begins its run, a fold and a cell devoxelisation pinning their table, a
dense layer adding its work items; a check that fails ends it with its status. HISTORY_RESET asks for a set's next history to
be zeroed, and HISTORY_LIMIT sets its limit, or gives it back to the package. It also rests on choices and readings of the
model: log entries 103 and 105. (R314, R317, R318, R319, R320, R323, R324, R327, R330, R334, R336, R343) -/
def Obligations.CanopyMapsAndTheirCommands : Prop :=
  (∀ (s : State) (c : Cmd),
    (∀ off, s.mapsForeign c = some off → s.dispatchMaps c = s.finish c.id stOwnership (BitVec.ofNat 32 off)) ∧
    (s.mapsForeign c = none →
      (∀ a n l, s.mapNeeds c = a ++ n :: l → (∀ x ∈ a, (s.map? x.map).isSome = true) → s.map? n.map = none →
        s.dispatchMaps c = s.finish c.id stMapAbsent (BitVec.ofNat 32 n.map)) ∧
      ((∀ n ∈ s.mapNeeds c, (s.map? n.map).isSome = true) →
        (∀ m, mapAlias (s.mapNeeds c) = some m → s.dispatchMaps c = s.finish c.id stMapAlias (BitVec.ofNat 32 m)) ∧
        (mapAlias (s.mapNeeds c) = none → ∀ m b, s.invalidBlock (s.mapNeeds c) = some (m, b) →
          s.dispatchMaps c = s.finish c.id stMapInvalid (BitVec.ofNat 32 (m * 256 + b))))) ∧
    (s.MapsGo c → s.dispatchMaps c = s.takeBlocks c.id (s.mapNeeds c))) ∧
  (∀ (s : State) (id : Nat) (x : MapNeed) (m : CMap), s.map? x.map = some m → x.write < 2 ^ 32 →
    ∃ y, (s.takeBlocks id [x]).map? x.map = some y ∧ (∀ b, b < 32 → y.valid.testBit b = (m.valid.testBit b && !x.write.testBit b)) ∧
      (x.read ≠ 0 → ({ cmd := id, mask := x.read } : BlockUse) ∈ y.pins) ∧ (x.write ≠ 0 → ({ cmd := id, mask := x.write } : BlockUse) ∈ y.holds)) ∧
  (∀ (s : State) (cmd : Nat) (c : Cmd), s.running cmd 5 1 = some c → c.started = false → s.map? (c.b 16 1) = none → c.mapPlaceBad = false →
    (∀ j, j < c.mapBands → (s.updCmd cmd (fun x => { x with started := true })).bandOk c.part c.mapOf j = true) →
    Completes (.cnpMapDefine cmd) s fun t => t.map? (c.b 16 1) = some { c.mapOf with
        valid := if c.f 0 17 7 1 = 1 then blockMask 0 c.mapOf.cBlocks else 0 } ∧ t.Ended cmd stSuccess 0 ∧
      (c.f 0 17 7 1 ≠ 1 → OnlyIn [.queues, .canopy] s t)) ∧
  (∀ (s : State) (cmd : Nat) (c : Cmd) (m : CMap), s.running cmd 5 1 = some c → c.started = false → s.map? (c.b 16 1) = some m →
    (s.mapElsewhere c.part (c.b 16 1) = true →
      Completes (.cnpMapDefine cmd) s fun t => t.Ended cmd stOwnership 16 ∧ OnlyIn [.queues] s t) ∧
    (s.mapElsewhere c.part (c.b 16 1) = false →
      Completes (.cnpMapDefine cmd) s fun t => t.Ended cmd stMapExists (BitVec.ofNat 32 (c.b 16 1)) ∧ OnlyIn [.queues] s t)) ∧
  (∀ (s : State) (cmd : Nat) (c : Cmd), s.running cmd 5 1 = some c → c.started = false → s.map? (c.b 16 1) = none → c.mapPlaceBad = true →
    Completes (.cnpMapDefine cmd) s fun t => t.Ended cmd stMapPlacement 0 ∧ OnlyIn [.queues] s t) ∧
  (∀ (s : State) (cmd j : Nat) (c : Cmd), s.running cmd 5 1 = some c → c.started = false → s.map? (c.b 16 1) = none → c.mapPlaceBad = false →
    j < c.mapBands → (s.updCmd cmd (fun x => { x with started := true })).bandOk c.part c.mapOf j = false →
    (∀ k, k < j → (s.updCmd cmd (fun x => { x with started := true })).bandOk c.part c.mapOf k = true) →
    Completes (.cnpMapDefine cmd) s fun t => t.Ended cmd stMapPlacement (BitVec.ofNat 32 j) ∧ OnlyIn [.queues] s t) ∧
  (∀ (s : State) (cmd : Nat) (c : Cmd), s.running cmd 5 2 = some c → c.started = false →
    Completes (.cnpMapFree cmd) s fun t => t.map? (c.b 16 1) = none ∧ (∀ k, k ≠ c.b 16 1 → t.map? k = s.map? k) ∧
      t.Ended cmd stSuccess 0 ∧ OnlyIn [.queues, .canopy] s t ∧ CmdsBut cmd s t) ∧
  (∀ (s : State) (cmd : Nat) (c : Cmd) (tb : Table), s.running cmd 5 3 = some c → c.started = false → s.table? c.foldArgs.table = some tb →
    tb.clearing = false → s.foldFault c.part c.foldArgs = none →
    Completes (.cnpFold cmd) s fun t => t.canopy.runs = s.canopy.runs ++ [({ cmd := cmd } : CanopyRun)] ∧ t.canopy.maps = s.canopy.maps ∧
      t.table? c.foldArgs.table = some { tb with pins := tb.pins ++ [cmd] } ∧
      t.cmd? cmd = some { c with started := true } ∧ OnlyIn [.queues, .compute, .canopy] s t ∧ CmdsBut cmd s t) ∧
  (∀ (s : State) (cmd : Nat) (c : Cmd), s.running cmd 5 5 = some c → c.started = false →
    (s.warpFault c.warpArgs = none →
      Completes (.cnpWarp cmd) s fun t => t.canopy.runs = s.canopy.runs ++ [({ cmd := cmd } : CanopyRun)] ∧ t.canopy.maps = s.canopy.maps ∧
        t.cmd? cmd = some { c with started := true } ∧ OnlyIn [.queues, .canopy] s t ∧ CmdsBut cmd s t) ∧
    (∀ st d, s.warpFault c.warpArgs = some (st, d) → exec (.cnpWarp cmd) s = .next (s.finish cmd st d))) ∧
  (∀ (s : State) (cmd : Nat) (c : Cmd), s.running cmd 5 6 = some c → c.started = false → s.devoxFault c.part c.devoxArgs = none →
    (c.devoxArgs.points = false → ∀ tb, s.table? c.devoxArgs.table = some tb → tb.clearing = false) →
    Completes (.cnpDevox cmd) s fun t => t.canopy.runs = s.canopy.runs ++ [({ cmd := cmd } : CanopyRun)] ∧ t.canopy.maps = s.canopy.maps ∧
      t.cmd? cmd = some { c with started := true } ∧
      (c.devoxArgs.points = true → t.compute = s.compute) ∧ OnlyIn [.queues, .compute, .canopy] s t ∧ CmdsBut cmd s t) ∧
  (∀ (s : State) (cmd : Nat) (c : Cmd) (o : CMap), s.running cmd 5 4 = some c → c.started = false →
    s.denseFault c c.denseArgs = none → s.map? c.denseArgs.outMap = some o →
    Completes (.cnpDense cmd) s fun t => t.compute.items = s.compute.items ++ denseItems cmd c.denseArgs o (tilesOf c.tileMasks) ∧
      (∃ d, t.cmd? cmd = some d ∧ d.started = true ∧ d.phase = .running) ∧
      OnlyIn [.queues, .compute, .observe] s t ∧ CmdsBut cmd s t) ∧
  (∀ (s : State) (cmd : Nat) (c : Cmd) (x : StreamSet), s.running cmd 0 0x50 = some c → s.set? (c.b 16 2) = some x →
    Completes (.historyReset cmd) s fun t => c.b 16 2 ∈ t.canopy.resets ∧ (∀ n, n ≠ c.b 16 2 → (n ∈ t.canopy.resets ↔ n ∈ s.canopy.resets)) ∧
      t.Ended cmd stSuccess 0 ∧ OnlyIn [.queues, .canopy] s t ∧ CmdsBut cmd s t) ∧
  (∀ (s : State) (cmd : Nat) (c : Cmd) (x : StreamSet), s.running cmd 0 0x51 = some c → s.set? (c.b 16 2) = some x →
    Completes (.historyLimit cmd) s fun t =>
      ((t.canopy.limits.find? (fun y => y.1 == c.b 16 2)).map (·.2) = if c.b 20 4 = 0 then none else some (c.b 20 4)) ∧
      t.Ended cmd stSuccess 0 ∧ OnlyIn [.queues, .canopy] s t ∧ CmdsBut cmd s t)

/-- How a unit of a Canopy engine and a pass of a dense layer advance their command.
An engine does the work of one of the commands that have some there: the one whose slice is not over, unless one of a higher
class preempts it, else the first in arbitration; for any other nothing happens. A Canopy engine that completes a unit of a
command that is not its last counts it: the run has one unit more done on that Stem, its counts go up by the unit's, and no
other run changes. The last unit ends the command with the status that its counts give. An access that fails ends the command
with the status of the access. A pass of a dense layer's item that does not end it advances it by the pass's broadcasts. It
also rests on choices and readings of the model: log entries 101 and 102. (R88, R89, R324, R325, R326, R332, R333, R343,
10_canopy_dense.md) -/
def Obligations.CanopyUnitsAndDensePassesAdvance : Prop :=
  (∀ (s s0 s1 : State) (cmd j : Nat) (c : Cmd) (r : CanopyRun) (work : State → State × Except AccErr UnitCounts) (n : UnitCounts), j < 4 →
    s.running cmd 5 c.opcode = some c → s.canopy.runs.find? (fun r => r.cmd == cmd) = some r → s.engineFault .canopy [j] = none →
    s.takeTurn (unitId 6 j 0) (s.rdN Fld.cnpCtrl_slice_items) (s.canopyWork j) c = some s0 →
    s.nextUnit c r j = some (work, false) → work s0 = (s1, .ok n) → s1.canopy = s.canopy →
    Completes (.canopyUnit cmd j) s fun t => t.canopy.runs.find? (fun r => r.cmd == cmd) = some { r with
        saturated := r.saturated + n.saturated, nonfinite := r.nonfinite + n.nonfinite, absent := r.absent + n.absent,
        border := r.border + n.border, probes := r.probes + n.probes, folded := r.folded + n.folded,
        done := r.done.set j (nth 0 r.done j + 1) } ∧
      (∀ x, x.cmd ≠ cmd → (x ∈ t.canopy.runs ↔ x ∈ s.canopy.runs)) ∧ t.canopy.maps = s.canopy.maps) ∧
  (∀ (s s0 s1 : State) (cmd j : Nat) (c : Cmd) (r : CanopyRun) (work : State → State × Except AccErr UnitCounts) (n : UnitCounts), j < 4 →
    s.running cmd 5 c.opcode = some c → s.canopy.runs.find? (fun r => r.cmd == cmd) = some r → s.engineFault .canopy [j] = none →
    s.takeTurn (unitId 6 j 0) (s.rdN Fld.cnpCtrl_slice_items) (s.canopyWork j) c = some s0 →
    s.nextUnit c r j = some (work, true) → work s0 = (s1, .ok n) → s1.canopy = s.canopy → (s1.cmd? cmd).isSome = true →
    Completes (.canopyUnit cmd j) s fun t => (∀ x ∈ t.canopy.runs, x.cmd ≠ cmd) ∧
      t.Ended cmd (leastCode ((if r.saturated + n.saturated = 0 then [] else [(stOutSaturated, satDetail (r.saturated + n.saturated))])
        ++ (if r.nonfinite + n.nonfinite = 0 then [] else [(stNonfinite, satDetail (r.nonfinite + n.nonfinite))])
        ++ (if r.absent + n.absent = 0 then [] else [(stDevoxAbsent, satDetail (r.absent + n.absent))]))).1
      (leastCode ((if r.saturated + n.saturated = 0 then [] else [(stOutSaturated, satDetail (r.saturated + n.saturated))])
        ++ (if r.nonfinite + n.nonfinite = 0 then [] else [(stNonfinite, satDetail (r.nonfinite + n.nonfinite))])
        ++ (if r.absent + n.absent = 0 then [] else [(stDevoxAbsent, satDetail (r.absent + n.absent))]))).2) ∧
  (∀ (s s0 s1 : State) (cmd j : Nat) (c : Cmd) (r : CanopyRun) (work : State → State × Except AccErr UnitCounts) (last : Bool) (e : AccErr), j < 4 →
    s.running cmd 5 c.opcode = some c → s.canopy.runs.find? (fun r => r.cmd == cmd) = some r → s.engineFault .canopy [j] = none →
    s.takeTurn (unitId 6 j 0) (s.rdN Fld.cnpCtrl_slice_items) (s.canopyWork j) c = some s0 →
    s.nextUnit c r j = some (work, last) → work s0 = (s1, .error e) →
    exec (.canopyUnit cmd j) s = .next (s.after ((s1.dropWork cmd).finish cmd e.status e.detail))) ∧
  (∀ (s : State) (cmd j : Nat) (c : Cmd), j < 4 → s.running cmd 5 c.opcode = some c →
    s.takeTurn (unitId 6 j 0) (s.rdN Fld.cnpCtrl_slice_items) (s.canopyWork j) c = none → exec (.canopyUnit cmd j) s = .next s) ∧
  (∀ (s : State) (u slice : Nat) (l : List Cmd) (c : Cmd),
    (s.takeTurn u slice l c = none ↔ (s.nextOf u slice l).map (·.id) ≠ some c.id) ∧
    (∀ t, s.takeTurn u slice l c = some t → ∃ n, t.compute.turns.find? (fun x => x.unit == u) = some { unit := u, cmd := c.id, units := n } ∧
      (∀ x d, s.turnOf u l = some (x, d) → n = if d.id = c.id ∧ x.units < max 1 slice then x.units + 1 else 1) ∧
      (s.turnOf u l = none → n = 1))) ∧
  (∀ (s s1 s2 s3 : State) (index tile q nb n : Nat) (c : Cmd) (w : WorkItem) (i o : CMap) (acc acc' : List (List Nat)) (cnt : PassCounts),
    s.compute.items[index]? = some w → s.itemCmd w = some c → w.tile = some tile → w.active = true → s.slotAdmits w.stem c.part = true →
    s.tileServes w.stem tile = true → w.kind = .dense q nb → s.map? c.denseArgs.inMap = some i → s.map? c.denseArgs.outMap = some o →
    n = passLength (c.denseArgs.casts i (q % (o.width / 16)) (q / (o.width / 16))).length w.broadcasts
      (cadence i.fmt c.denseArgs.wFmt c.denseArgs.sparse).2 →
    w.broadcasts + n < (c.denseArgs.casts i (q % (o.width / 16)) (q / (o.width / 16))).length →
    s.beginPass c w tile 256 c.denseArgs.partialOff = (s1, .ok acc) →
    s1.denseRun c w.stem c.denseArgs i nb
      (((c.denseArgs.casts i (q % (o.width / 16)) (q / (o.width / 16))).drop w.broadcasts).take n) none acc {} = (s2, .ok (acc', cnt)) →
    (s2.putAcc w tile acc').saveImage c w tile c.denseArgs.partialOff = (s3, none) → s3.compute.items = s.compute.items →
    Completes (.densePass index) s fun t => t.compute.items[index]? = some { w with
        passes := w.passes + 1, broadcasts := w.broadcasts + n, done := false } ∧ t.acc = s3.acc ∧
      (∀ k, k ≠ index → t.compute.items[k]? = s.compute.items[k]?))

/-- What sorts, top-ks, merges and suppressions do when they start, and the order that they sort by.
Each of the eight commands, expert and basic, that passes its checks and gets its engines, and a basic SORT its scratch areas,
begins a run with no row done on them, and leaves the other runs alone; a row length above 1,048,576 ends it with
ROW_TOO_LONG, and a broken placement rule with SORT_PLACEMENT. NMS_OVERRIDE holds its thresholds for the set, or takes them
away. The sort of R350 is a permutation of its row, in order, and stable; the order value of a signed key is in the order of
the numbers. It also rests on choices and readings of the model: log entries 118, 119 and 122. (R346, R347, R348, R350, R351,
R357, R359, R362, R363, R364, R365, R367) -/
def Obligations.SortCommandsBeginTheirRows : Prop :=
  (∀ (s s1 : State) (cmd : Nat) (c : Cmd) (stems : List Nat) (sc : List ScratchArea) (basic topk : Bool),
    s.running cmd (if basic then 0 else 6) (if basic then (if topk then 0x61 else 0x60) else if topk then 2 else 1) = some c → c.started = false →
    (s.updCmd cmd (fun x => { x with started := true })).SortStarts c basic false (c.f 0 17 0 4) (c.sortArgs topk).rows (c.sortArgs topk).n
      (c.sortArgs topk).countsBase (c.rowsCheck basic topk) stems sc s1 →
    Completes (if basic then (if topk then .topk cmd else .sort cmd) else if topk then .srtTopk cmd else .srtSort cmd) s fun t =>
      t.sort.runs = s.sort.runs ++ [({ cmd := cmd, stems := stems, scratch := sc } : SortRun)] ∧ t.cmd? cmd = s1.cmd? cmd) ∧
  (∀ (s s0 s1 : State) (cmd : Nat) (c : Cmd) (stems : List Nat) (sc : List ScratchArea) (l : List Cursor) (basic : Bool),
    s.running cmd (if basic then 0 else 6) (if basic then 0x62 else 3) = some c → c.started = false →
    (s.updCmd cmd (fun x => { x with started := true })).mergeLists c.origin c.mergeArgs = (s0, .ok l) → s0.sort = s.sort →
    s0.SortStarts c basic true (2 ^ c.f 0 17 0 2) 1 0 0 (c.mergeArgs.fault l) stems sc s1 →
    Completes (if basic then .merge cmd else .srtMerge cmd) s fun t =>
      t.sort.runs = s.sort.runs ++ [({ cmd := cmd, stems := stems, scratch := sc } : SortRun)] ∧ t.cmd? cmd = s1.cmd? cmd) ∧
  (∀ (s s1 : State) (cmd : Nat) (c : Cmd) (stems : List Nat) (sc : List ScratchArea) (basic : Bool),
    s.running cmd (if basic then 0 else 6) (if basic then 0x63 else 4) = some c → c.started = false →
    (s.updCmd cmd (fun x => { x with started := true })).SortStarts c basic false (c.f 0 17 0 4) c.nmsArgs.rows c.nmsArgs.n
      c.nmsArgs.countsBase c.nmsArgs.placement stems sc s1 →
    Completes (if basic then .nms cmd else .srtNms cmd) s fun t =>
      t.sort.runs = s.sort.runs ++ [({ cmd := cmd, stems := stems, scratch := sc } : SortRun)] ∧ t.cmd? cmd = s1.cmd? cmd) ∧
  (∀ (s : State) (cmd : Nat) (c : Cmd), s.running cmd 6 1 = some c → c.started = false → 1048576 < (c.sortArgs false).n →
    Completes (.srtSort cmd) s fun t => t.Ended cmd stRowTooLong 0xFFFFFFFF ∧ OnlyIn [.queues] s t ∧ CmdsBut cmd s t) ∧
  (∀ (s : State) (cmd : Nat) (c : Cmd) (st : Half) (d : Word), s.running cmd 6 4 = some c → c.started = false → c.nmsArgs.n ≤ 1048576 →
    c.nmsArgs.placement = some (st, d) →
    Completes (.srtNms cmd) s fun t => t.Ended cmd st d ∧ OnlyIn [.queues, .free] s t ∧ CmdsBut cmd s t) ∧
  (∀ (s : State) (cmd : Nat) (c : Cmd) (x : StreamSet), s.running cmd 0 0x64 = some c → s.set? (c.b 16 2) = some x →
    Completes (.nmsOverride cmd) s fun t =>
      t.sort.overrides.find? (fun o => o.set == c.b 16 2) = (if c.f 0 30 0 1 = 1 then none
        else some ⟨c.b 16 2, BitVec.ofNat 32 (c.b 20 4), BitVec.ofNat 32 (c.b 24 4), c.b 28 2⟩) ∧
      t.Ended cmd stSuccess 0 ∧ OnlyIn [.queues, .sort] s t ∧ CmdsBut cmd s t) ∧
  (∀ (f : KeyForm) (l : List Elem),
    (stableSort (fun (x y : Elem) => f.before (f.order x.key) (f.order y.key)) l).Perm l ∧
    (stableSort (fun (x y : Elem) => f.before (f.order x.key) (f.order y.key)) l).Pairwise (fun x y => f.before (f.order y.key) (f.order x.key) = false) ∧
    ∀ k, (stableSort (fun (x y : Elem) => f.before (f.order x.key) (f.order y.key)) l).filter (fun x => f.order x.key == k)
      = l.filter (fun x => f.order x.key == k)) ∧
  (∀ (f : KeyForm) (x y : Nat), f.type = 1 → 0 < f.bytes → x < 2 ^ (8 * f.bytes) → y < 2 ^ (8 * f.bytes) →
    (f.order x < f.order y ↔ toSigned (8 * f.bytes) x < toSigned (8 * f.bytes) y))

/-- What a chunk of a Sort engine does.
A chunk that is not the last of its row advances the row's chunk and none of the row's effects stand. The last chunk of a row
that is not the command's last makes the row's outputs stand, goes on to the engine's next row and adds the row's counts. The
last row of a command ends it with the least of its conditions. A row that fails ends its command with the status of what
failed, and a merge counts what it has read even so. A command takes a chunk only in its turn (R87, R88). It also rests on
choices and readings of the model: log entry 117. (R349, R350, R352, R354, R357, R360, R368, 11_sort_select.md) -/
def Obligations.SortEnginesCompleteChunks : Prop :=
  (∀ (s s0 s1 : State) (cmd j row : Nat) (c : Cmd) (run : SortRun) (r : RowResult), j < 4 → s.cmd? cmd = some c →
    s.sort.runs.find? (fun r => r.cmd == cmd) = some run → run.rowOn c j = some row → s.sortTurn c j = some s0 →
    s0.sort.runs.find? (fun r => r.cmd == cmd) = some run → s.engineFault .sort [j] = none → s0.doRow c run j row = (s1, .ok r) →
    (nth 0 run.chunk j + 1) * 65536 < r.work →
    Completes (.sortChunk cmd j) s fun t =>
      t.sort.runs.find? (fun r => r.cmd == cmd) = some { run with chunk := run.chunk.set j (nth 0 run.chunk j + 1) } ∧
      t.sap = s0.sap ∧ t.host = s0.host ∧ t.mem = s0.mem ∧ t.compute = s0.compute) ∧
  (∀ (s s0 s1 : State) (cmd j row : Nat) (c : Cmd) (run : SortRun) (r : RowResult), j < 4 → s.cmd? cmd = some c →
    s.sort.runs.find? (fun r => r.cmd == cmd) = some run → run.rowOn c j = some row → s.sortTurn c j = some s0 →
    s0.sort.runs.find? (fun r => r.cmd == cmd) = some run → s.engineFault .sort [j] = none → s0.doRow c run j row = (s1, .ok r) → s1.sort = s0.sort → r.fail = none →
    r.work ≤ (nth 0 run.chunk j + 1) * 65536 → run.rowsDone + 1 ≠ c.sortRows c.sortKind →
    Completes (.sortChunk cmd j) s fun t =>
      t.sort.runs.find? (fun r => r.cmd == cmd) = some { run with
        row := run.row.set j (nth 0 run.row j + 1), chunk := run.chunk.set j 0, rowsDone := run.rowsDone + 1,
        nanKeys := run.nanKeys + r.nanKeys, collapsed := run.collapsed + r.collapsed, boxesInvalid := run.boxesInvalid + r.boxesInvalid,
        iouTests := run.iouTests + r.iouTests, suppressed := run.suppressed + r.suppressed, elements := run.elements + r.elements } ∧
      t.sap = s1.sap ∧ t.host = s1.host ∧ t.rd Fld.srtStemElements_elements j = s1.rd Fld.srtStemElements_elements j + BitVec.ofNat 64 r.elements) ∧
  (∀ (s s0 s1 : State) (cmd j row : Nat) (c : Cmd) (run : SortRun) (r : RowResult), j < 4 → s.cmd? cmd = some c →
    s.sort.runs.find? (fun r => r.cmd == cmd) = some run → run.rowOn c j = some row → s.sortTurn c j = some s0 →
    s0.sort.runs.find? (fun r => r.cmd == cmd) = some run → s.engineFault .sort [j] = none → s0.doRow c run j row = (s1, .ok r) → s1.sort = s0.sort → r.fail = none →
    (s1.cmd? cmd).isSome = true → r.work ≤ (nth 0 run.chunk j + 1) * 65536 → run.rowsDone + 1 = c.sortRows c.sortKind →
    Completes (.sortChunk cmd j) s fun t => (∀ x ∈ t.sort.runs, x.cmd ≠ cmd) ∧
      t.Ended cmd (SortRun.status { run with
          nanKeys := run.nanKeys + r.nanKeys, collapsed := run.collapsed + r.collapsed, boxesInvalid := run.boxesInvalid + r.boxesInvalid }).1
        (SortRun.status { run with
          nanKeys := run.nanKeys + r.nanKeys, collapsed := run.collapsed + r.collapsed, boxesInvalid := run.boxesInvalid + r.boxesInvalid }).2) ∧
  (∀ (s s0 s1 : State) (cmd j row : Nat) (c : Cmd) (run : SortRun) (e : AccErr), j < 4 → s.cmd? cmd = some c →
    s.sort.runs.find? (fun r => r.cmd == cmd) = some run → run.rowOn c j = some row → s.sortTurn c j = some s0 →
    s0.sort.runs.find? (fun r => r.cmd == cmd) = some run → s.engineFault .sort [j] = none → s0.doRow c run j row = (s1, .error e) →
    exec (.sortChunk cmd j) s = .next (s.after ((s1.dropWork cmd).finish cmd e.status e.detail))) ∧
  (∀ (s s0 s1 : State) (cmd j row : Nat) (c : Cmd) (run : SortRun) (r : RowResult) (e : AccErr), j < 4 → s.cmd? cmd = some c →
    s.sort.runs.find? (fun r => r.cmd == cmd) = some run → run.rowOn c j = some row → s.sortTurn c j = some s0 →
    s0.sort.runs.find? (fun r => r.cmd == cmd) = some run → s.engineFault .sort [j] = none → s0.doRow c run j row = (s1, .ok r) →
    (s1.cmd? cmd).isSome = true → r.fail = some e → r.work ≤ (nth 0 run.chunk j + 1) * 65536 →
    Completes (.sortChunk cmd j) s fun t => t.Ended cmd e.status e.detail ∧
      t.rd Fld.srtStemElements_elements j = s1.rd Fld.srtStemElements_elements j + BitVec.ofNat 64 r.elements)

/-- What the commands on prior tables and their orders do.
GTH_TABLE_CREATE makes a table with the members that it reads, PRIOR_BIND binds one for a package, and GTH_VERSION_BUILD adds
a BUILDING version to a FREE slot; a taken slot, sixteen versions, an absent table and one that exists fail with their
statuses. GTH_PUT on a BUILDING version sends its records, and a record that its owner has stored is no longer awaited.
GTH_PUBLISH at the home chip of a BUILDING version asks every member; a publish order makes that version the only CURRENT one
there. Publishes and destroys of one table go in the order of their dispatch. GTH_TABLE_DESTROY first hides its table, orders
the other members to let it go and, once all have and no pin is left, removes it; a member that still pins it hides it and
keeps the order. PRIOR_LOAD whose image and members hold builds a version and prepares the other members; where there is no
memory for it, here or at a member, it ends with RESOURCE and no version of it stays. A table that has become another's by the
time its command is served ends it with OWNERSHIP. BURL_SIZE places an allocation on each Stem that it names, or ends with
RESOURCE. A Burl setting is in force at once where no lookup is on the Stem, and else waits. It also rests on choices and
readings of the model: log entries 128, 129, 131 and 133. (R375, R376, R377, R378, R379, R384, R388, R390, R391, R392, R393,
12_prior_tables.md) -/
def Obligations.PriorTablesAreBuiltAndPublished : Prop :=
  (∀ (s s1 : State) (cmd : Nat) (c : Cmd) (b : List Byte), s.running cmd 7 1 = some c → c.started = false → s.prior? (c.b 16 1) = none →
    (s.updCmd cmd (fun x => { x with started := true })).load c.origin (c.b 24 6) (2 * c.b 20 4) = (s1, .ok b) →
    s1.membersOk (chipList b (c.b 20 4)) = true → s1.gather = s.gather → (s1.cmd? cmd).isSome = true →
    Completes (.gthTableCreate cmd) s fun t => (∃ p, t.prior? (c.b 16 1) = some p ∧ p.part = c.part ∧ p.members = chipList b (c.b 20 4) ∧
        p.rowBytes = 16 * (c.b 18 1 + 1) ∧ p.versions = [] ∧ p.home = decide (c.f 0 17 1 1 = 1) ∧ p.index = decide (c.f 0 17 0 1 = 1) ∧
        p.indexLimit = c.b 32 8) ∧ (∀ k, k ≠ c.b 16 1 → t.prior? k = s.prior? k) ∧ t.Ended cmd stSuccess 0) ∧
  (∀ (s : State) (cmd : Nat) (c : Cmd) (p : Prior), s.running cmd 7 1 = some c → c.started = false → s.prior? (c.b 16 1) = some p →
    Completes (.gthTableCreate cmd) s fun t => t.Ended cmd stPriorExists (BitVec.ofNat 32 (c.b 16 1)) ∧ OnlyIn [.queues] s t) ∧
  (∀ (s : State) (cmd : Nat) (c : Cmd) (p : Prior), s.running cmd 7 2 = some c → c.started = false → s.liveTable (c.b 16 1) = some p →
    s.priorElsewhere c.part (c.b 16 1) = false →
    (p.versions.length < 16 → p.slotCode (c.f 0 17 0 4) = 0 →
      (s.updCmd cmd (fun x => { x with started := true })).hbmRangeUsable (c.b 24 6) (c.b 24 6 + dirBytes (c.b 18 1)) = true →
      (s.updCmd cmd (fun x => { x with started := true })).hbmRangeUsable (c.b 30 6) (c.b 30 6 + rowsBytes (c.b 36 4) p.rowBytes) = true →
      Completes (.gthVersionBuild cmd) s fun t => (∃ q v, t.prior? (c.b 16 1) = some q ∧ q.versions = p.versions ++ [v] ∧ v.state = .building ∧
          v.slot = c.f 0 17 0 4 ∧ v.gen = c.b 20 4 ∧ v.dirBase = c.b 24 6 ∧ v.rowBase = c.b 30 6 ∧ v.rowsCap = c.b 36 4 ∧ v.d = c.b 18 1) ∧
        t.Ended cmd stSuccess 0) ∧
    (16 ≤ p.versions.length →
      Completes (.gthVersionBuild cmd) s fun t => t.Ended cmd stVersionsFull (BitVec.ofNat 32 (c.b 16 1)) ∧ OnlyIn [.queues] s t) ∧
    (p.versions.length < 16 → p.slotCode (c.f 0 17 0 4) ≠ 0 → Completes (.gthVersionBuild cmd) s fun t =>
      t.Ended cmd stVersionState (versionDetail (c.f 0 17 0 4) (p.slotCode (c.f 0 17 0 4))) ∧ OnlyIn [.queues] s t)) ∧
  (∀ (s : State) (cmd : Nat) (c : Cmd), s.running cmd 7 2 = some c → c.started = false → s.liveTable (c.b 16 1) = none →
    Completes (.gthVersionBuild cmd) s fun t => t.Ended cmd stPriorAbsent (BitVec.ofNat 32 (c.b 16 1)) ∧ OnlyIn [.queues] s t) ∧
  (∀ (s : State) (cmd : Nat) (c : Cmd) (p : Prior), c.started = false → s.liveTable (c.b 16 1) = some p → s.priorElsewhere c.part (c.b 16 1) = true →
    (s.running cmd 7 2 = some c → Completes (.gthVersionBuild cmd) s fun t => t.Ended cmd stOwnership 16 ∧ OnlyIn [.queues] s t) ∧
    (s.running cmd 7 3 = some c → Completes (.gthPut cmd) s fun t => t.Ended cmd stOwnership 16 ∧ OnlyIn [.queues] s t) ∧
    (s.running cmd 7 4 = some c → s.portTurn c = true → Completes (.gthPublish cmd) s fun t => t.Ended cmd stOwnership 16 ∧ OnlyIn [.queues] s t) ∧
    (s.running cmd 7 7 = some c → s.portTurn c = true →
      Completes (.gthTableDestroy cmd) s fun t => t.Ended cmd stOwnership 16 ∧ OnlyIn [.queues] s t)) ∧
  (∀ (s s1 s2 : State) (cmd : Nat) (c : Cmd) (p : Prior) (v : Version) (b : List Byte), s.running cmd 7 3 = some c → c.started = false →
    s.liveTable (c.b 16 1) = some p → s.priorElsewhere c.part (c.b 16 1) = false → s.chipId ∈ p.members →
    p.versions.find? (fun v => v.slot == c.f 0 17 0 4 && v.state == .building) = some v → c.f 0 18 0 1 = 0 →
    (s.updCmd cmd (fun x => { x with started := true })).load c.origin (c.b 24 6) (c.b 20 4 * (p.rowBytes + 16)) = (s1, .ok b) →
    (s1.addPut { cmd := cmd, table := c.b 16 1, slot := c.f 0 17 0 4, gen := v.gen, phase := .puts, left := c.b 20 4 }).sendRecords c
      { cmd := cmd, table := c.b 16 1, slot := c.f 0 17 0 4, gen := v.gen, phase := .puts, left := c.b 20 4 }
      ((List.range (c.b 20 4)).map (fun i => (p.owner (leAt b (i * (p.rowBytes + 16)) 8), false, leAt b (i * (p.rowBytes + 16)) 8,
        slice b (i * (p.rowBytes + 16) + 8) p.rowBytes))) = (s2, none) →
    exec (.gthPut cmd) s = .next (s.after (s2.nextPhase cmd))) ∧
  (∀ (s s2 : State) (r : PutRecord) (c : Cmd) (x : PutRun), r.source = s.chipId → r ∈ s.gather.puts → s.cmd? r.cmd = some c →
    ({ s with gather := { s.gather with puts := s.gather.puts.erase r } }).putRecord c.origin r = (s2, .stored) →
    s2.gather.puts = s.gather.puts.erase r → s2.putRun? r.cmd = some x → 2 ≤ x.left →
    Completes (.putRecordAtOwner r) s fun t => t.putRun? r.cmd = some { x with left := x.left - 1 } ∧ t.gather.puts = s.gather.puts.erase r) ∧
  (∀ (s s2 : State) (r : PutRecord) (o : PutOutcome), r.source ≠ s.chipId →
    s.putRecord { part := ((s.prior? r.table).map (·.part)).getD 0, crit := r.crit, stream := r.stream } r = (s2, o) →
    exec (.putRecordAtOwner r) s = .next (s.after (s2.respond r.source r.tag (((s.prior? r.table).map (·.part)).getD 0) r.crit r.stream 0x09
      (ackPayload o.ack 0)))) ∧
  (∀ (s : State) (cmd : Nat) (c : Cmd) (p : Prior), s.running cmd 7 4 = some c → c.started = false → s.liveTable (c.b 16 1) = some p →
    s.priorElsewhere c.part (c.b 16 1) = false → s.portTurn c = true → p.home = true → s.publishing (c.b 16 1) = false → s.putRun? cmd = none →
    (∀ v, p.versions.find? (fun v => v.slot == c.f 0 17 0 4 && v.state == .building) = some v →
      Completes (.gthPublish cmd) s fun t => ∃ x, t.putRun? cmd = some x ∧ x.phase = .check ∧ x.left = p.members.length ∧ x.gen = v.gen ∧
        x.table = c.b 16 1 ∧ x.slot = c.f 0 17 0 4 ∧ t.gather.tables = s.gather.tables) ∧
    (p.versions.find? (fun v => v.slot == c.f 0 17 0 4 && v.state == .building) = none →
      Completes (.gthPublish cmd) s fun t => t.Ended cmd stVersionMismatch (BitVec.ofNat 32 s.chipId) ∧ OnlyIn [.queues] s t)) ∧
  (∀ (s : State) (cmd : Nat) (c : Cmd), c.started = false → s.portTurn c = false →
    (s.running cmd 7 4 = some c → exec (.gthPublish cmd) s = .next s) ∧ (s.running cmd 7 7 = some c → exec (.gthTableDestroy cmd) s = .next s)) ∧
  (∀ (s : State) (x : PublishOrder), x.home = s.chipId → x ∈ s.gather.orders → x.act = .publish → s.isBuilding x.table x.slot x.gen = true →
    (∀ r, s.putRun? x.cmd = some r → r.phase ≠ .destroy) →
    Completes (.publishOrder x) s fun t => (∃ v, t.version? x.table x.slot x.gen = some v ∧ v.state = .current) ∧
      ∀ p v, t.prior? x.table = some p → v ∈ p.versions → v.state = .current → v.slot = x.slot ∧ v.gen = x.gen) ∧
  (∀ (s : State) (x : PublishOrder), x.home = s.chipId → x ∉ s.gather.orders → exec (.publishOrder x) s = .next s) ∧
  (∀ (s : State) (x : PublishOrder), x.home = s.chipId → x ∈ s.gather.orders → x.act = .destroy →
    ((∃ p ∈ s.gather.pins, p.table = x.table) →
      Completes (.publishOrder x) s fun t => x ∈ t.gather.orders ∧ t.liveTable x.table = none ∧ OnlyIn [.gather] s t) ∧
    ((∀ p ∈ s.gather.pins, p.table ≠ x.table) → Completes (.publishOrder x) s fun t => t.prior? x.table = none)) ∧
  (∀ (s : State) (cmd : Nat) (c : Cmd) (p : Prior), s.running cmd 7 7 = some c → c.started = false → s.liveTable (c.b 16 1) = some p →
    s.priorElsewhere c.part (c.b 16 1) = false → s.portTurn c = true → p.home = true → s.putRun? cmd = none →
    (∀ r ∈ s.gather.putRuns, r.table = c.b 16 1 → r.phase ≠ .check ∧ r.phase ≠ .order) →
    Completes (.gthTableDestroy cmd) s fun t => t.liveTable (c.b 16 1) = none ∧
      ((∃ m ∈ p.members, m ≠ s.chipId) ∨ (∃ x ∈ s.gather.pins, x.table = c.b 16 1) →
        t.prior? (c.b 16 1) = some { p with destroyCmd := some cmd } ∧
        ∃ x, t.putRun? cmd = some x ∧ x.phase = .destroy ∧ x.left = (p.members.filter (fun m => m != s.chipId)).length) ∧
      ((∀ m ∈ p.members, m = s.chipId) → (∀ x ∈ s.gather.pins, x.table ≠ c.b 16 1) → t.prior? (c.b 16 1) = none ∧ t.Ended cmd stSuccess 0)) ∧
  (∀ (s : State) (cmd : Nat) (c : Cmd) (r : PutRun), s.running cmd 7 7 = some c → c.started = true → s.putRun? cmd = some r →
    r.phase = .destroy →
    (r.left = 0 → (∀ x ∈ s.gather.pins, x.table ≠ r.table) →
      Completes (.gthTableDestroy cmd) s fun t => t.prior? r.table = none ∧ t.Ended cmd stSuccess 0) ∧
    (r.left ≠ 0 ∨ (∃ x ∈ s.gather.pins, x.table = r.table) → exec (.gthTableDestroy cmd) s = .next s)) ∧
  (∀ (s s1 s2 s3 : State) (cmd : Nat) (c : Cmd) (l : List Nat) (h : List Byte), s.running cmd 0 0x70 = some c → c.started = false →
    (s.updCmd cmd (fun x => { x with started := true })).loadMembers c = (s1, .ok l) → l.head? = some s1.chipId → s1.membersOk l = true →
    s1.prior? (c.b 16 1) = none → 32 ≤ c.b 32 4 → s1.basicLoad c (c.b 24 8) 32 = (s2, .ok h) → imageFault h (c.b 32 4) none = none →
    s2.prior? (c.b 16 1) = none → s2.chipId = s1.chipId → (∀ m ∈ l, m ≠ s2.chipId → s2.reaches m = true) →
    (∀ v, s2.chooseVersion c.part (s2.loadTable c l (priorImage h)) (priorImage h) = (s3, some v) → s3.prior? (c.b 16 1) = none →
      s3.putRun? cmd = none →
      Completes (.priorLoad cmd) s fun t => (∃ q, t.prior? (c.b 16 1) = some q ∧ v ∈ q.versions ∧ q.members = l ∧ q.home = true) ∧
        ∃ x, t.putRun? cmd = some x ∧ x.phase = .prepare ∧ x.left = (l.filter (fun m => s3.aliased m != s3.chipId)).length ∧ x.gen = v.gen) ∧
    (s2.chooseVersion c.part (s2.loadTable c l (priorImage h)) (priorImage h) = (s3, none) →
      exec (.priorLoad cmd) s = .next (s.after (s3.finish cmd stResource)))) ∧
  (∀ (s : State) (cmd : Nat) (c : Cmd) (x : PutRun), s.running cmd 0 0x70 = some c → c.started = true → s.putRun? cmd = some x →
    exec (.priorLoad cmd) s = .next (s.after (if x.phase = .prepare ∧ x.left = 0 then (if x.faults = [] then s.loadRecords c x else s.cancelLoad c x)
      else s.nextPhase cmd))) ∧
  (∀ (s : State) (c : Cmd) (x : PutRun), (s.cmd? c.id).isSome = true → (s.cancelLoad c x).Ended c.id stResource 0 ∧
    (s.cancelLoad c x).version? x.table x.slot x.gen = none) ∧
  (∀ (s : State) (cmd : Nat) (c : Cmd) (p : Prior), s.running cmd 0 0x71 = some c → s.liveTable (c.b 19 1) = some p →
    s.priorOther c.part (c.b 19 1) = false →
    Completes (.priorBind cmd) s fun t => (c.b 16 2, c.b 18 1, c.b 19 1) ∈ t.gather.binds ∧
      (∀ x ∈ t.gather.binds, x.1 = c.b 16 2 → x.2.1 = c.b 18 1 → x.2.2 = c.b 19 1) ∧ t.Ended cmd stSuccess 0 ∧ OnlyIn [.queues, .gather] s t) ∧
  (∀ (s : State) (cmd : Nat) (c : Cmd) (b : BurlAlloc), s.running cmd 7 6 = some c → c.started = false →
    b = { part := c.part, stem := c.f 0 16 0 2, t0 := c.f 0 17 0 6, m := c.f 0 18 0 3, offset := c.b 20 3, units := c.b 23 1 } →
    ((s.updCmd cmd (fun x => { x with started := true })).burlOk b = true → (∀ r ∈ s.gather.runs, ∀ x ∈ r.positions, x.engine / 2 ≠ b.stem) →
      Completes (.gthBurlSet cmd) s fun t => (b.units ≠ 0 → b ∈ t.gather.allocs) ∧
        (∀ r ∈ t.gather.rows, ¬(r.part = b.part ∧ r.stem = b.stem)) ∧ t.Ended cmd stSuccess 0) ∧
    ((s.updCmd cmd (fun x => { x with started := true })).burlOk b = true → (∃ r ∈ s.gather.runs, ∃ x ∈ r.positions, x.engine / 2 = b.stem) →
      Completes (.gthBurlSet cmd) s fun t => b ∈ t.gather.nextAllocs ∧ t.gather.allocs = s.gather.allocs ∧ t.gather.rows = s.gather.rows ∧
        t.Ended cmd stSuccess 0 ∧ OnlyIn [.queues, .gather] s t) ∧
    ((s.updCmd cmd (fun x => { x with started := true })).burlOk b = false →
      Completes (.gthBurlSet cmd) s fun t => t.Ended cmd stBurlPlacement (BitVec.ofNat 32 b.stem) ∧ OnlyIn [.queues] s t)) ∧
  (∀ (s s1 : State) (cmd : Nat) (c : Cmd) (l : List BurlAlloc), s.running cmd 0 0x72 = some c → c.started = false →
    ∀ r, (s.updCmd cmd (fun x => { x with started := true })).placeBurls c.part (c.b 17 1) (bitList 4 (c.f 0 16 0 4)) = (s1, r) →
    (r = some l → Completes (.burlSize cmd) s fun t => t.gather = (l.foldl State.burlSet s1).gather ∧ t.Ended cmd stSuccess 0) ∧
    (r = none → Completes (.burlSize cmd) s fun t => t.Ended cmd stResource 0 ∧ OnlyIn [.queues, .free] s t))

/-- How a lookup starts, takes its inputs, fetches rows, and ends; and how versions are freed.
GTH_GATHER on a table with a CURRENT version pins it and begins its run; without one it ends with NO_VERSION, and on a chip
that is no member with NOT_MEMBER. A chunk takes up to 4,096 inputs of an engine's batch further, for the command whose turn
at the engine it is, and leaves no other command's entry in the engine's hash. An owner serves a fetch of its own chip once,
with the row, as missing or as failed, and one of another chip by a packet. A fetch that came back with its row writes the
inputs that wait for it and is over, and the inputs count as written; one that failed ends its command. A promotion window
that expires clears the Stem's counts and nothing else. A version that is RETIRING is freed at home once every member has said
that it pins it no longer, and not before. It also rests on choices and readings of the model: log entries 127, 129 and 130.
(R378, R380, R381, R382, R383, R385, R386, R387, R393, 12_prior_tables.md) -/
def Obligations.GatherEnginesServeLookups : Prop :=
  (∀ (s : State) (cmd : Nat) (c : Cmd) (p : Prior), s.running cmd 7 5 = some c → c.started = false → s.liveTable c.gatherArgs.table = some p →
    s.priorElsewhere c.part c.gatherArgs.table = false →
    (s.chipId ∉ p.members → Completes (.gthGather cmd) s fun t => t.Ended cmd stNotMember (BitVec.ofNat 32 s.chipId) ∧ OnlyIn [.queues] s t) ∧
    (s.chipId ∈ p.members → (s.updCmd cmd (fun x => { x with started := true })).gatherFault c c.gatherArgs = none →
      (∀ v ∈ p.versions, v.state ≠ .current) →
      Completes (.gthGather cmd) s fun t => t.Ended cmd stNoVersion (BitVec.ofNat 32 c.gatherArgs.table) ∧ OnlyIn [.queues] s t) ∧
    (s.chipId ∈ p.members → (s.updCmd cmd (fun x => { x with started := true })).gatherFault c c.gatherArgs = none →
      ∀ v, p.versions.find? (fun v => v.state == .current) = some v →
      Completes (.gthGather cmd) s fun t => (∃ r, t.gather.runs = s.gather.runs ++ [r] ∧ r.cmd = cmd ∧ r.table = c.gatherArgs.table ∧
          r.slot = v.slot ∧ r.gen = v.gen ∧ r.written = 0 ∧ r.positions.map (·.engine)
            = (bitList 4 c.gatherArgs.mask).flatMap (fun j => [2 * j, 2 * j + 1])) ∧
        t.gather.pins = s.gather.pins ++ [({ cmd := cmd, table := c.gatherArgs.table, slot := v.slot, gen := v.gen } : Pin)] ∧
        OnlyIn [.queues, .gather] s t ∧ CmdsBut cmd s t)) ∧
  (∀ (s s0 s1 : State) (cmd e k : Nat) (c : Cmd) (run : GatherRun) (pos : GatherPos) (p : Prior) (v : Version) (n : GatherCounts)
    (hash : List HashEntry), e < 8 → s.running cmd 7 5 = some c → s.gather.runs.find? (fun r => r.cmd == cmd) = some run →
    run.positions.find? (fun x => x.engine == e) = some pos → s.prior? run.table = some p → s.version? run.table run.slot run.gen = some v →
    s.gatherTurn c e = some s0 → s.stemOn (e / 2) = true →
    k = min 4096 (min c.gatherArgs.batch (c.gatherArgs.count - pos.batch * c.gatherArgs.batch) - pos.taken) →
    (s0.burlTake (e / 2)).gatherMany c c.gatherArgs p v e
      ((List.range k).map (fun i => pos.batch * c.gatherArgs.batch + pos.taken + i)) {} pos.hash = (s1, .ok (n, hash)) →
    s1.gather.runs = s0.gather.runs → run.written + n.written < c.gatherArgs.count →
    Completes (.gatherChunk cmd e) s fun t => ∃ r x, t.gather.runs.find? (fun r => r.cmd == cmd) = some r ∧
      r.written = run.written + n.written ∧ r.lookups = run.lookups + n.lookups ∧ r.positions.find? (fun x => x.engine == e) = some x ∧
      x = if pos.taken + k = min c.gatherArgs.batch (c.gatherArgs.count - pos.batch * c.gatherArgs.batch)
        then { engine := e, batch := pos.batch + run.positions.length } else { pos with taken := pos.taken + k, hash := hash }) ∧
  (∀ (s : State) (cmd e : Nat) (c : Cmd), e < 8 → s.running cmd 7 5 = some c → s.gatherTurn c e = none →
    exec (.gatherChunk cmd e) s = .next s) ∧
  (∀ (s t : State) (c : Cmd) (e : Nat), s.gatherTurn c e = some t →
    (s.nextOf (gatherUnit e) (s.rdN Fld.gthCtrl_slice_chunks) (s.gatherWork e)).map (·.id) = some c.id ∧
    ∀ r ∈ t.gather.runs, r.cmd ≠ c.id → ∀ x ∈ r.positions, x.engine = e → x.hash = []) ∧
  (∀ (s s1 : State) (q : FetchRequest) (f : Fetch) (c : Cmd) (r : Except AccErr (Option (List Byte))), q.chip = s.chipId →
    s.gather.fetches.find? (fun f => f.id == q.id) = some f → s.cmd? f.cmd = some c → f.answer = none → f.owner = s.chipId →
    s.serveRow c.origin f.table f.slot f.gen f.key = (s1, r) → s1.gather = s.gather →
    Completes (.priorFetchRequest q) s fun t => t.gather.fetches.find? (fun f => f.id == q.id) = some { f with answer := some (answerOf r) }) ∧
  (∀ (s s1 : State) (q : FetchRequest) (r : Except AccErr (Option (List Byte))), q.chip ≠ s.chipId →
    s.serveRow { part := ((s.prior? q.table).map (·.part)).getD 0, crit := q.crit, stream := q.stream } q.table q.slot q.gen q.key = (s1, r) →
    exec (.priorFetchRequest q) s = .next (s.after (match answerOf r with
      | .found row =>
        if q.comp ≠ 0 ∧ wholeGroups q.comp row.length = false then
          s1.respond q.chip q.id (((s.prior? q.table).map (·.part)).getD 0) q.crit q.stream 0x09 (ackPayload stCompression 0)
        else s1.respond q.chip q.id (((s.prior? q.table).map (·.part)).getD 0) q.crit q.stream 0x08 (packed q.comp row)
      | .missing => s1.respond q.chip q.id (((s.prior? q.table).map (·.part)).getD 0) q.crit q.stream 0x09 (ackPayload stSuccess 0)
      | .failed st _ => s1.respond q.chip q.id (((s.prior? q.table).map (·.part)).getD 0) q.crit q.stream 0x09 (ackPayload st 0)))) ∧
  (∀ (s s1 : State) (n : Nat) (f : Fetch) (c : Cmd) (p : Prior) (v : Version) (row : List Byte) (run : GatherRun),
    s.gather.fetches.find? (fun f => f.id == n) = some f → f.answer = some (.found row) → s.cmd? f.cmd = some c → s.prior? f.table = some p →
    s.version? f.table f.slot f.gen = some v → f.promote = false →
    s.gatherOuts c.origin c.gatherArgs (c.gatherArgs.cols row) 0 f.inputs = (s1, none) → s1.gather = s.gather →
    s.gather.runs.find? (fun r => r.cmd == f.cmd) = some run → run.written + f.inputs.length < c.gatherArgs.count →
    Completes (.gatherFetchReturn n) s fun t => (∀ x ∈ t.gather.fetches, x.id ≠ f.id) ∧
      ∃ r, t.gather.runs.find? (fun r => r.cmd == f.cmd) = some r ∧ r.written = run.written + f.inputs.length ∧ r.defMissing = run.defMissing) ∧
  (∀ (s : State) (n : Nat) (f : Fetch) (c : Cmd) (p : Prior) (v : Version) (st : Half) (d : Word),
    s.gather.fetches.find? (fun f => f.id == n) = some f → f.answer = some (.failed st d) → s.cmd? f.cmd = some c → s.prior? f.table = some p →
    s.version? f.table f.slot f.gen = some v →
    Completes (.gatherFetchReturn n) s fun t => t.Ended f.cmd st d ∧ (∀ x ∈ t.gather.fetches, x.cmd ≠ f.cmd) ∧
      ∀ x ∈ t.gather.runs, x.cmd ≠ f.cmd) ∧
  (∀ (s : State) (j : Nat), j < 4 →
    (s.passed (nth 0 s.gather.filterAt j) (1000 * max 1 (s.rdN Fld.gthCtrl_burl_window_us)) = true →
      Completes (.burlWindowExpire j) s fun t => t.gather = { s.gather with
          filter := s.gather.filter.filter (fun x => x.stem != j), filterAt := s.gather.filterAt.set j s.time.uptime } ∧
        OnlyIn [.gather] s t) ∧
    (s.passed (nth 0 s.gather.filterAt j) (1000 * max 1 (s.rdN Fld.gthCtrl_burl_window_us)) = false →
      exec (.burlWindowExpire j) s = .next s)) ∧
  (∀ (s : State) (r : UnpinReport) (p : Prior) (v : Version), s.prior? r.table = some p → p.home = true → r.member ≠ s.chipId →
    s.version? r.table r.slot r.gen = some v → v.state = .retiring →
    ((∀ m ∈ p.members, m = r.member ∨ ({ r with member := m } : UnpinReport) ∈ s.gather.reported) →
      Completes (.versionUnpinReport r) s fun t => t.version? r.table r.slot r.gen = none) ∧
    ((∃ m ∈ p.members, m ≠ r.member ∧ ({ r with member := m } : UnpinReport) ∉ s.gather.reported) →
      Completes (.versionUnpinReport r) s fun t => t.version? r.table r.slot r.gen = some v ∧ r ∈ t.gather.reported ∧ OnlyIn [.gather] s t))

/-- Packets read from their bytes are those that were written, and compressed data expands to itself.
For every packet whose fields fit their widths, reading the bytes that it is written as gives the packet, with every field at
every value; a sequence of such packets, one after the other, is taken apart into the same packets with nothing left. Data
that travels under a comp_width expands to the data that was compressed, in bitmap form or not. A flit in which each code has
at most 6 errors is corrected to what was sent. It also rests on choices and readings of the model: log entries 134, 135 and
144. (R397, R404, R405, R414, 13_peer_fabric.md) -/
def Obligations.PacketsTravelAsTheyAre : Prop :=
  (∀ p : Packet, p.Fits → packetOf p.bytes = p) ∧
  (∀ ps : List Packet, (∀ p ∈ ps, p.Fits) → takePackets ps.length (ps.flatMap Packet.bytes) = (ps, [])) ∧
  (∀ (w : Nat) (d : List Byte), 1 ≤ w → w ≤ 3 → d.length ≤ 512 → d.length % (32 * compBytes w) = 0 → expand w (compress w d) = some d) ∧
  (∀ f : FlitIn, (f.wrong 0).length ≤ 6 → (f.wrong 1).length ≤ 6 → f.corrected = slice f.sent 0 232)

/-- How a link trains, takes flits, resends, loses a lane and goes down.
A link in TRAINING, under the set-up lock, goes UP with the neighbour that the ends exchanged where everything agrees, with
its credits full and its sequence numbers afresh, and to MISMATCH or WIRING otherwise; a second later, and not before, it
trains again. A flit that is the next in order and passes its check joins its packets to the input buffers, acknowledges, and
brings its credits; any other changes nothing but counts. A replay timeout resends every flit, or ends the service of a link
whose flit was resent 8 times. A failing lane of a link is replaced by the spare and reported; a second one ends the service.
A link whose neighbour is silent for three heartbeats goes DOWN; Bark hears of it, and so does the fabric root, by a
management packet. A heartbeat goes out once a millisecond on an UP link that has room. None of these happens before its time.
A packet goes out only where its partition's bucket at that link is not empty, and takes its bytes from it. It also rests on
choices and readings of the model: log entries 5, 134, 135, 136, 138, 141 and 152. (R397, R398, R399, R400, R402, R410, R411,
R415, R427, 13_peer_fabric.md) -/
def Obligations.LinksTrainSendAndFail : Prop :=
  (∀ (s : State) (l : Nat) (f : TrainFacts), l < 6 → s.linkState l = 1 → s.locked = true → s.rdB Fld.wblFabricStatus_cfg_error = false →
    (s.trainingOutcome l f ≠ 2 → l < s.fabric.links.length → Completes (.linkTrainingDone l f) s fun t =>
      t.linkState l = s.trainingOutcome l f ∧ t.link l = { s.link l with failedAt := s.time.uptime } ∧ OnlyIn [.regs, .fabric] s t ∧
      RegsBut [Fld.wblLinkStatus_state.key l 0] s t) ∧
    (s.trainingOutcome l f = 2 → s.rdN Fld.wblLinkCfg_role l ≠ 2 → l < s.fabric.links.length → f.chip < 65536 → f.link < 8 →
      Completes (.linkTrainingDone l f) s fun t => t.linkState l = 2 ∧ t.rdN Fld.wblLinkStatus_nbr_chip l = f.chip ∧
        t.rdN Fld.wblLinkStatus_nbr_link l = f.link ∧
        t.link l = ({ credits := (s.creditLimits l).flatMap (fun c => [c, c]), ackAt := s.time.uptime, heardAt := s.time.uptime, serviceCmd := (s.link l).serviceCmd } : Link) ∧
        OnlyIn [.regs, .fabric] s t ∧ RegsBut [Fld.wblLinkStatus_state.key l 0, Fld.wblLinkStatus_nbr_chip.key l 0,
          Fld.wblLinkStatus_nbr_link.key l 0] s t)) ∧
  (∀ (s : State) (l : Nat) (f : TrainFacts), l < 6 → (s.linkState l ≠ 1 ∨ s.locked = false ∨ s.rdB Fld.wblFabricStatus_cfg_error = true) →
    exec (.linkTrainingDone l f) s = .next s) ∧
  (∀ (s : State) (l : Nat), l < 6 → s.passed (s.link l).failedAt 1000000000 = false → exec (.linkTrainingRetry l) s = .next s) ∧
  (∀ (s : State) (l : Nat), l < 6 → (s.linkState l = 4 ∨ s.linkState l = 5) → s.passed (s.link l).failedAt 1000000000 = true →
    Completes (.linkTrainingRetry l) s fun t => t.linkState l = 1 ∧ OnlyIn [.regs] s t ∧ RegsBut [Fld.wblLinkStatus_state.key l 0] s t) ∧
  (∀ (s : State) (l : Nat) (f : FlitIn), l < 6 → l < s.fabric.links.length → s.linkState l = 2 →
    crc32c (f.corrected.take 228) = leAt f.corrected 228 4 → getBits (leAt f.corrected 0 4) 0 12 = (s.link l).rxSeq →
    Completes (.flitRx l f) s fun t => t.fabric.inbox = s.fabric.inbox
        ++ (takePackets 64 ((s.link l).partialRx ++ (f.corrected.drop 4).take 224)).1.map (fun p => ({ link := l, packet := p } : InPacket)) ∧
      (t.link l).partialRx = (takePackets 64 ((s.link l).partialRx ++ (f.corrected.drop 4).take 224)).2 ∧
      (t.link l).rxSeq = ((s.link l).rxSeq + 1) % 4096 ∧
      (t.link l).replay = ackReplay (s.link l).replay (getBits (leAt f.corrected 0 4) 12 12) ∧
      (t.link l).credits = updAt (s.link l).credits (getBits (leAt f.corrected 0 4) 24 3) (fun n => n + getBits (leAt f.corrected 0 4) 27 5) ∧
      (∀ k, k ≠ l → t.link k = s.link k) ∧ t.rd Fld.wblLinkCnt_count (5 * l + 1) = s.rd Fld.wblLinkCnt_count (5 * l + 1) + 1 ∧
      ((∀ p ∈ (takePackets 64 ((s.link l).partialRx ++ (f.corrected.drop 4).take 224)).1, p.type ≠ 0x18) →
        (t.link l).heardAt = (s.link l).heardAt) ∧
      ((∃ p ∈ (takePackets 64 ((s.link l).partialRx ++ (f.corrected.drop 4).take 224)).1,
          p.type = 0x18 ∧ Config.firmwareMsg p.payload = .heartbeat) → (t.link l).heardAt = s.time.uptime) ∧
      OnlyIn [.regs, .fabric, .observe] s t) ∧
  (∀ (s : State) (l : Nat) (f : FlitIn), l < 6 → s.linkState l = 2 →
    (crc32c (f.corrected.take 228) ≠ leAt f.corrected 228 4 ∨ getBits (leAt f.corrected 0 4) 0 12 ≠ (s.link l).rxSeq) →
    Completes (.flitRx l f) s fun t => OnlyIn [.regs] s t ∧
      RegsBut [Fld.wblLinkCnt_count.key (5 * l + 1) 0, Fld.wblLinkCnt_count.key (5 * l + 2) 0] s t) ∧
  (∀ (s : State) (l : Nat), l < 6 → l < s.fabric.links.length → s.linkState l = 2 → (s.link l).replay ≠ [] →
    s.passed (s.link l).ackAt 586 = true →
    ((∀ f ∈ (s.link l).replay, f.resends < 8) →
      Completes (.replayTimeout l) s fun t => (t.link l).replay = (s.link l).replay.map (fun f => { f with resends := f.resends + 1 }) ∧
        t.rd Fld.wblLinkCnt_count (5 * l + 3) = s.rd Fld.wblLinkCnt_count (5 * l + 3) + BitVec.ofNat 64 (s.link l).replay.length ∧
        t.out.length = s.out.length + (s.link l).replay.length ∧ t.fabric.inbox = s.fabric.inbox ∧
        (t.link l).ackAt = s.time.uptime ∧ OnlyIn [.regs, .fabric, .free, .out, .observe] s t) ∧
    ((∃ f ∈ (s.link l).replay, 8 ≤ f.resends) → exec (.replayTimeout l) s = .next (s.after (s.linkDown l)))) ∧
  (∀ (s : State) (l : Nat), l < 6 → (s.linkState l ≠ 2 ∨ (s.link l).replay = [] ∨ s.passed (s.link l).ackAt 586 = false) → exec (.replayTimeout l) s = .next s) ∧
  (∀ (s : State) (l k : Nat), l < 6 → k < 9 → s.linkState l = 2 →
    (s.rdN Fld.wblLinkStatus_spared_lane l = 15 →
      Completes (.laneSpareSwitch l k) s fun t => t.rdN Fld.wblLinkStatus_spared_lane l = k ∧ t.linkState l = 2 ∧
        (∃ a b, t.reports = s.reports ++ [a, b] ∧ a.source = 0x18 ∧ a.logical = l ∧ a.physical = k ∧ b.source = 0x13)) ∧
    (s.rdN Fld.wblLinkStatus_spared_lane l ≠ 15 → s.rdN Fld.wblLinkStatus_spared_lane l ≠ k →
      exec (.laneSpareSwitch l k) s = .next (s.after (s.linkDown l)))) ∧
  (∀ (s : State) (l : Nat), l < 6 → s.linkState l = 2 → (s.link l).replay = [] → s.rdN Fld.wblLinkCfg_role l ≠ 2 →
    s.passed (s.link l).heardAt 3000000 = true →
    Completes (.heartbeatMiss l) s fun t => t.linkState l = 3 ∧ (∃ r ∈ t.reports, r.source = 0x19 ∧ r.logical = l) ∧
      t.rdB Fld.wblFabricStatus_change_active = false ∧ t.hbm = s.hbm ∧ t.sap = s.sap ∧
      (s.twinLink = none → s.rootChip = s.chipId → s.rdB Fld.wblFabricStatus_change_active = false → t.fabric.inbox = s.fabric.inbox)) ∧
  (∀ (s : State) (l : Nat), s.twinLink = none → s.rootChip ≠ s.chipId → ∀ b,
    s.tellRoot l b = s.inject { dst := s.aliased s.rootChip, src := s.chipId, cls := 3, type := 0x18, epoch := s.epoch,
                                payload := Config.firmwareBytes (.linkDown s.chipId l) }) ∧
  (∀ (s : State) (l : Nat), l < 6 → (s.linkState l ≠ 2 ∨ s.passed (s.link l).heardAt 3000000 = false) →
    exec (.heartbeatMiss l) s = .next s) ∧
  (∀ (s : State) (l : Nat), l < 6 → s.fabric.links.length = 6 → s.linkState l = 2 → (∀ k, k < 6 → k ≠ l → s.linkState k ≠ 2) →
    s.duePeriod s.fabric.beatAt 1000000 = true →
    Completes .heartbeatTx s fun t => t.fabric.beatAt = some s.time.uptime ∧ t.fabric.inbox = s.fabric.inbox ∧
      OnlyIn [.regs, .fabric, .free, .out, .observe] s t ∧
      (if s.canSend l (s.heartbeat l) = true then
        t.out.length = s.out.length + (s.heartbeat l).flits.length ∧
          (t.link l).replay.length = (s.link l).replay.length + (s.heartbeat l).flits.length ∧
          nth 0 (t.link l).credits 6 = nth 0 (s.link l).credits 6 - (s.heartbeat l).units ∧
          t.rd Fld.wblLinkCnt_count (5 * l) = s.rd Fld.wblLinkCnt_count (5 * l) + BitVec.ofNat 64 (s.heartbeat l).flits.length
      else t.out = s.out ∧ t.fabric.links = s.fabric.links)) ∧
  (∀ (s : State), (∀ k, k < 6 → s.linkState k ≠ 2) → s.duePeriod s.fabric.beatAt 1000000 = true →
    exec .heartbeatTx s = .next { s with fabric := { s.fabric with beatAt := some s.time.uptime } }) ∧
  (∀ (s : State), s.duePeriod s.fabric.beatAt 1000000 = false → exec .heartbeatTx s = .next s) ∧
  (∀ (s : State) (part l : Nat), s.rdN Fld.brkPartCfg_fab_rate part = 0 → s.bucketOpen part l = true) ∧
  (∀ (s : State) (l : Nat) (p : Packet), s.bucketOpen p.part l = false → s.canSend l p = false) ∧
  (∀ (s : State) (l : Nat) (p : Packet), s.rdN Fld.brkPartCfg_fab_rate p.part ≠ 0 →
    (s.takeTokens l p).tokens p.part l
      = min (1024 * s.rdN Fld.brkPartCfg_fab_burst p.part : Int) (s.tokens p.part l - 16 * (p.units : Int)))

/-- What a chip does with the packets that it holds: forwarding, requests, answers, multicast and management.
A packet that waits for an UP output, is the oldest of its channel and wins the arbitration leaves the input buffers by its
next hop; one that would cross more than 63 links is counted, reported and dropped; one that must wait stays. A READ, WRITE,
ATOMIC or KNOT_SIGNAL for this chip is served in its turn and answered with its data, its previous value or its status, and a
Knot of another partition with OWNERSHIP. An answer without a request is counted as late; one that has a request ends it and
gives its value, out of the compressed form where the request named one, to the thread, command or fetch that waits; data that
is inconsistent with itself fails the request with COMPRESSION_FORMAT. A multicast copy is written where this chip lies in the
box, and goes on in copies whose units in the input buffer are free only when the last has left. A management packet acts by
what it says, a twin message is gathered, and on a twin link any other is dropped and reported. A packet of a reserved type is
dropped and reported. A request without an answer for req_timeout_us, and none before, fails with FABRIC_TIMEOUT. It also
rests on choices and readings of the model: log entries 5, 137, 139, 141, 142, 143 and 146. (R63, R100, R405, R406, R409,
R412, R413, R414, R415, R416, R418, R432) -/
def Obligations.PacketsAreForwardedAndServed : Prop :=
  (∀ (s : State) (i l : Nat) (x : InPacket), s.fabric.inbox[i]? = some x → s.hopOf x.packet = .link l → (s.onHop x l).hops ≤ 63 →
    s.linkState l = 2 →
    (s.canSend l (s.onHop x l) = true → s.oldestOfChannel i l (s.onHop x l) = true → s.winsOutput l (s.onHop x l) = true →
      Completes (.packetForward i) s fun t => t.fabric.inbox = s.fabric.inbox.erase x ∧
        t.out.length = s.out.length + (s.onHop x l).flits.length ∧ OnlyIn [.regs, .fabric, .free, .out, .observe] s t) ∧
    (s.canSend l (s.onHop x l) = false ∨ s.oldestOfChannel i l (s.onHop x l) = false ∨ s.winsOutput l (s.onHop x l) = false →
      exec (.packetForward i) s = .next s)) ∧
  (∀ (s : State) (i l : Nat) (x : InPacket), s.fabric.inbox[i]? = some x → s.hopOf x.packet = .link l → 63 < (s.onHop x l).hops →
    x.packet.cls ≠ 0 →
    Completes (.packetForward i) s fun t => t.fabric.inbox = s.fabric.inbox.erase x ∧
      t.rd Fld.wblDrops_hop_limit_drops = (s.rd Fld.wblDrops_hop_limit_drops + 1) &&& lowMask 32 ∧ (∃ r, t.reports = s.reports ++ [r] ∧ r.source = 0x1A) ∧
      OnlyIn [.regs, .fabric, .reports] s t) ∧
  (∀ (s s1 s2 : State) (p : Packet) (n : Nat) (d : List Byte), s.TakesPacket 1 p s1 → n = getBits (leAt p.payload 6 2) 0 9 + 1 →
    s1.loadWhole p.origin (leAt p.payload 0 6) n = (s2, .ok d) →
    (getBits (leAt p.payload 6 2) 9 2 = 0 →
      exec (.read p) s = .next (s.after (s2.respond p.src p.tag p.part p.crit p.stream 0x08 d))) ∧
    (getBits (leAt p.payload 6 2) 9 2 ≠ 0 → n % (32 * compBytes (getBits (leAt p.payload 6 2) 9 2)) = 0 →
      exec (.read p) s = .next (s.after (s2.respond p.src p.tag p.part p.crit p.stream 0x08
        (compress (getBits (leAt p.payload 6 2) 9 2) d))))) ∧
  (∀ (s s1 s2 : State) (p : Packet) (d : List Byte), s.TakesPacket 2 p s1 →
    (if getBits (leAt p.payload 6 2) 9 2 = 0 then some (p.payload.drop 8)
      else expand (getBits (leAt p.payload 6 2) 9 2) (p.payload.drop 8)) = some d →
    s1.storeWhole p.origin (leAt p.payload 0 6) d = (s2, none) →
    exec (.write p) s = .next (s.after (s2.respond p.src p.tag p.part p.crit p.stream 0x09 (ackPayload 0 0)))) ∧
  (∀ (s s1 s2 : State) (p : Packet) (op : AtomicOp) (old : DWord), s.TakesPacket 3 p s1 →
    atomicOf (getBits (leAt p.payload 6 2) 0 3) = some op →
    s1.atomic p.origin op (leAt p.payload 0 6) (BitVec.ofNat 64 (leAt p.payload 8 8)) (BitVec.ofNat 64 (leAt p.payload 16 8)) = (s2, .ok old) →
    exec (.atomic p) s = .next (s.after (s2.respond p.src p.tag p.part p.crit p.stream 0x09 (ackPayload 0 old)))) ∧
  (∀ (s s1 : State) (p : Packet), s.TakesPacket 4 p s1 → s.KnotsOk →
    (s1.ownsKnot p.part (leAt p.payload 0 2) = true →
      Completes (.knotSignalPacket p) s fun t => t.knot (leAt p.payload 0 2) = s.knot (leAt p.payload 0 2) + BitVec.ofNat 64 (leAt p.payload 8 8)) ∧
    (s1.ownsKnot p.part (leAt p.payload 0 2) = false →
      Completes (.knotSignalPacket p) s fun t => t.queues = s.queues ∧
        ∃ q, t.fabric.inbox = s1.fabric.inbox ++ [q] ∧ q.packet.type = 9 ∧ q.packet.dst = p.src ∧ q.packet.tag = p.tag ∧
          leAt q.packet.payload 0 2 = 0x45)) ∧
  (∀ (s s1 : State) (p : Packet), s.TakesPacket 8 p s1 → s1.requestOf p.tag = none →
    Completes (.readData p) s fun t => t.rd Fld.wblDrops_timeouts = (s.rd Fld.wblDrops_timeouts + 1) &&& lowMask 32 ∧ OnlyIn [.regs, .fabric] s t) ∧
  (∀ (s s1 : State) (p : Packet) (r : Request) (cmd stem tile slot rd n a : Nat) (sg : Bool) (d : List Byte), s.TakesPacket 8 p s1 →
    s1.requestOf p.tag = some r → unpacked r.comp p.payload = some d → r.kind = .load a rd n sg → r.owner = .thread cmd stem tile slot →
    exec (.readData p) s = .next (s.after ((s1.dropRequest r).threadValue cmd stem tile slot rd
      (if sg then BitVec.ofInt 64 (toSigned (8 * n) (bytesToNat (slice d 0 n))) else BitVec.ofNat 64 (bytesToNat (slice d 0 n)))))) ∧
  (∀ (s s1 : State) (p : Packet) (r : Request) (id : Nat) (d : List Byte), s.TakesPacket 8 p s1 → s1.requestOf p.tag = some r →
    unpacked r.comp p.payload = some d → r.kind = .fetch id →
    exec (.readData p) s = .next (s.after ((s1.dropRequest r).answerFetch id (.found d)))) ∧
  (∀ (s s1 : State) (p : Packet) (r : Request), s.TakesPacket 8 p s1 → s1.requestOf p.tag = some r → unpacked r.comp p.payload = none →
    exec (.readData p) s = .next (s.after (s1.requestFails r stCompression (r.detail stCompression)))) ∧
  (∀ (s s1 : State) (p : Packet), s.TakesPacket 9 p s1 → s1.requestOf p.tag = none →
    Completes (.ack p) s fun t => t.rd Fld.wblDrops_timeouts = (s.rd Fld.wblDrops_timeouts + 1) &&& lowMask 32 ∧ OnlyIn [.regs, .fabric] s t) ∧
  (∀ (s s1 : State) (p : Packet) (r : Request), s.TakesPacket 9 p s1 → s1.requestOf p.tag = some r →
    exec (.ack p) s = .next (s.after (s1.acked r p.src (BitVec.ofNat 16 (leAt p.payload 0 2)) (BitVec.ofNat 64 (leAt p.payload 8 8))))) ∧
  (∀ (s s1 : State) (p : Packet), s.TakesPacket 16 p s1 → s1.mcastNext p = [] →
    (s1.inBox (leAt p.payload 0 4) = false → exec (.mcastWrite p) s = .next (s.after s1)) ∧
    (∀ s2, s1.inBox (leAt p.payload 0 4) = true → s1.storeWhole p.origin (leAt p.payload 8 6) (p.payload.drop 16) = (s2, none) →
      exec (.mcastWrite p) s = .next (s.after (s2.respond p.src p.tag p.part p.crit p.stream 0x09 (ackPayload 0 0))))) ∧
  (∀ (s : State) (p : Packet) (x : InPacket), p.type = 0x10 → p.dst = s.chipId → s.fabric.inbox.find? (fun x => x.packet == p) = some x →
    (∀ y ∈ s.fabric.inbox.takeWhile (fun x => x.packet != p), ¬(y.packet.src = p.src ∧ y.packet.cls = p.cls ∧ y.packet.dst = p.dst)) →
    x.link < 6 → s.mcastNext p ≠ [] → s.inBox (leAt p.payload 0 4) = false →
    Completes (.mcastWrite p) s fun t => t.fabric.links = s.fabric.links ∧
      t.fabric.inbox = s.fabric.inbox.erase x ++ (s.mcastNext p).map (fun d =>
        ({ link := 6, packet := { p with dst := d }, held := some (s.fabric.copied, x.link, p.vc, p.units) } : InPacket)) ∧
      OnlyIn [.fabric] s t) ∧
  (∀ (s : State) (x : InPacket) (k l v n : Nat), x.held = some (k, l, v, n) → l < 6 →
    ((∃ y ∈ s.fabric.inbox.erase x, y.held = x.held) → (s.leaveInbox x).fabric.links = s.fabric.links) ∧
    ((∀ y ∈ s.fabric.inbox.erase x, y.held ≠ x.held) → l < s.fabric.links.length → v < (s.link l).owed.length →
      nth 0 ((s.leaveInbox x).link l).owed v = nth 0 (s.link l).owed v + n)) ∧
  (∀ (s s1 : State) (p : Packet), s.TakesPacket 24 p s1 →
    (s.twinLink = none ∨ leAt p.payload 0 1 < 0x40 ∨ 0x48 < leAt p.payload 0 1 →
      exec (.mgmt p) s = .next (s.after (match Config.firmwareMsg p.payload with
        | .heartbeat => s1
        | .linkDown _ _ => if s.rootChip = s.chipId then s1.abandonAll (s.rdB Fld.wblFabricStatus_change_active) else s1
        | .abandon => s1.abandonChange
        | .substituted lost sub =>
          (match s1.setAlias lost sub with
            | some u => u.respond p.src p.tag p.part p.crit p.stream 0x09 (ackPayload 0 0)
            | none => s1.respond p.src p.tag p.part p.crit p.stream 0x09 (ackPayload stAliasFull 0))
        | .other => if s.twinLink = none then s1 else { s1 with reports := s1.reports ++ [{ source := 0x1A }] }))) ∧
    (∀ l, s.twinLink = some l → 0x40 ≤ leAt p.payload 0 1 → leAt p.payload 0 1 ≤ 0x48 → p.payload.length ≤ 512 →
      (∀ f ∈ s.twin.rx, f.subtype ≠ leAt p.payload 0 1) →
      Completes (.mgmt p) s fun t => t.twin.arrived = s.twin.arrived ++ [p.payload] ∧ OnlyIn [.fabric, .twin] s t)) ∧
  (∀ (s s1 : State) (p : Packet), knownType p.type = false → s.TakesPacket p.type p s1 →
    Completes (.reservedPacketType p) s fun t => (∃ r, t.reports = s.reports ++ [r] ∧ r.source = 0x1A) ∧ OnlyIn [.fabric, .reports] s t) ∧
  (∀ (s : State) (i id : Nat) (r : Request) (c : Cmd), s.fabric.requests[i]? = some r → r.owner = .command id → r.kind = .mcast →
    s.cmd? id = some c → c.phase = .running → c.killed = false →
    s.passed r.issued (1000 * max 1 (s.rdN Fld.wblTimeout_req_timeout_us)) = true →
    Completes (.requestTimeout i) s fun t => t.Ended id stFabricTimeout (BitVec.ofNat 32 r.dst)) ∧
  (∀ (s : State) (i : Nat) (r : Request), s.fabric.requests[i]? = some r →
    s.passed r.issued (1000 * max 1 (s.rdN Fld.wblTimeout_req_timeout_us)) = false → exec (.requestTimeout i) s = .next s) ∧
  (∀ (s : State) (i : Nat), s.fabric.requests[i]? = none → exec (.requestTimeout i) s = .next s)

/-- Route tables, route changes, aliases, link service and the orders of the root.
DETOUR_COMMIT writes the inactive bank and starts the new epoch; once no packet or request of the old epoch is left the change
is over, and what waited for it ends. WBL_ROUTE_LOAD writes the inactive bank from its table; WBL_ROUTE_COMMIT and the link
orders act at the root alone, and elsewhere end with NOT_ROOT; while a change is active they end with ROUTE_STATE.
WBL_ALIAS_SET gives a lost chip its substitute in the alias table, or takes it away, tells every other chip that it reaches,
and completes when the last has answered; a table that is full ends it with ALIAS_FULL. A link that is UP waits to be taken
out of service until its detours hold, and one in SERVICE trains again; one that a return was ordered for meanwhile trains at
once. When the root has been lost for a second, an eligible chip acts; a chip that is the root takes no notice. It also rests
on choices and readings of the model: log entries 147, 148, 149 and 151. (R401, R408, R415, R417, R419, R421, R422, R425,
R426, R427) -/
def Obligations.RoutesChangeByTheRoot : Prop :=
  (∀ (s : State) (tb : List RouteEntry), s.rdB Fld.wblFabricStatus_change_active = false → s.fabric.waiting = [] → s.epoch ≤ 1 →
    Completes (.detourCommit tb) s fun t => t.rdB Fld.wblFabricStatus_change_active = true ∧ t.epoch = 1 - s.epoch ∧
      (if s.epoch = 0 then t.fabric.bank1 = tb ∧ t.fabric.bank0 = s.fabric.bank0 else t.fabric.bank0 = tb ∧ t.fabric.bank1 = s.fabric.bank1) ∧
      t.fabric.requests = s.fabric.requests ∧ t.fabric.inbox = s.fabric.inbox ∧ OnlyIn [.regs, .fabric, .time] s t) ∧
  (∀ (s : State) (tb : List RouteEntry), s.rdB Fld.wblFabricStatus_change_active = true → exec (.detourCommit tb) s = .next s) ∧
  (∀ (s : State), s.rdB Fld.wblFabricStatus_change_active = true → s.oldEpochLeft = false → (∀ k ∈ s.fabric.links, k.serviceCmd = none) →
    Completes .routeChangeDrained s fun t => t.rdB Fld.wblFabricStatus_change_active = false ∧ t.fabric.routeCmds = [] ∧ t.epoch = s.epoch ∧
      (∀ id ∈ s.fabric.routeCmds, (s.cmd? id).isSome = true → t.Ended id stSuccess 0) ∧ OnlyIn [.regs, .queues, .fabric] s t) ∧
  (∀ (s : State), (s.rdB Fld.wblFabricStatus_change_active = false ∨ s.oldEpochLeft = true) → exec .routeChangeDrained s = .next s) ∧
  (∀ (s : State) (c : Nat), c ∈ s.reachable → (c = s.chipId ∧ s.rdB Fld.wblFabricCfg_root_eligible = true ∨
      c ≠ s.chipId ∧ (s.rdB Fld.wblFabricCfg_root_eligible = false ∨ c < s.chipId)) → s.isRoot = false →
    Completes .actingRootTimeout s fun t => t.fabric.acting = true ∧ t.rdN Fld.wblFabricStatus_acting_root ∈ s.reachable ∧
      OnlyIn [.regs, .fabric, .free] s t ∧ RegsBut [Fld.wblFabricStatus_acting_root.key 0 0] s t) ∧
  (∀ s : State, s.isRoot = true → exec .actingRootTimeout s = .next s) ∧
  (∀ (s : State) (cmd : Nat) (c : Cmd), s.running cmd 0 0x80 = some c → c.started = false → c.b 17 1 = 0 →
    (s.linkState (c.f 0 16 0 3) = 2 ∨ s.linkState (c.f 0 16 0 3) = 1 → (s.link (c.f 0 16 0 3)).serviceCmd = none →
      c.f 0 16 0 3 < s.fabric.links.length →
      Completes (.linkServiceOut cmd) s fun t => (t.link (c.f 0 16 0 3)).serviceCmd = some cmd ∧ t.cmd? cmd = some { c with started := true } ∧
        OnlyIn [.queues, .fabric] s t) ∧
    ((s.linkState (c.f 0 16 0 3) ≠ 2 ∧ s.linkState (c.f 0 16 0 3) ≠ 1) ∨ (s.link (c.f 0 16 0 3)).serviceCmd ≠ none →
      Completes (.linkServiceOut cmd) s fun t =>
      t.Ended cmd stLinkState (BitVec.ofNat 32 (s.linkState (c.f 0 16 0 3))) ∧ OnlyIn [.queues] s t)) ∧
  (∀ (s : State) (cmd : Nat) (c : Cmd), s.running cmd 0 0x80 = some c → c.b 17 1 = 1 →
    ((s.link (c.f 0 16 0 3)).serviceCmd ≠ none → c.f 0 16 0 3 < s.fabric.links.length →
      Completes (.linkServiceReturn cmd) s fun t => t.link (c.f 0 16 0 3) = { s.link (c.f 0 16 0 3) with reenable := true } ∧
        t.Ended cmd stSuccess 0 ∧ OnlyIn [.queues, .fabric] s t) ∧
    (s.linkState (c.f 0 16 0 3) = 6 → (s.link (c.f 0 16 0 3)).serviceCmd = none → Completes (.linkServiceReturn cmd) s fun t => t.linkState (c.f 0 16 0 3) = 1 ∧ t.Ended cmd stSuccess 0 ∧
      OnlyIn [.regs, .queues] s t ∧ RegsBut [Fld.wblLinkStatus_state.key (c.f 0 16 0 3) 0] s t) ∧
    (s.linkState (c.f 0 16 0 3) ≠ 6 → (s.link (c.f 0 16 0 3)).serviceCmd = none → Completes (.linkServiceReturn cmd) s fun t =>
      t.Ended cmd stLinkState (BitVec.ofNat 32 (s.linkState (c.f 0 16 0 3))) ∧ OnlyIn [.queues] s t)) ∧
  (∀ (s : State) (l cmd : Nat), l < 6 → s.rdN Fld.wblLinkCfg_role l ≠ 2 →
    (s.takeOut l cmd).linkState l = (if (s.link l).reenable = true then 1 else 6)) ∧
  (∀ (s : State) (cmd : Nat) (c : Cmd), s.running cmd 0 0x81 = some c → c.started = false →
    Completes (.routeRebuild cmd) s fun t => t.fabric.routeCmds = s.fabric.routeCmds ++ [cmd] ∧ OnlyIn [.queues, .fabric] s t) ∧
  (∀ (s : State) (cmd : Nat) (c : Cmd), s.running cmd 8 1 = some c →
    (∀ s1 b, s.rdB Fld.wblFabricStatus_change_active = false → s.load c.origin (c.b 24 6) 32768 = (s1, .ok b) → s1.fabric = s.fabric →
      s1.regs = s.regs → (s1.cmd? cmd).isSome = true →
      Completes (.wblRouteLoad cmd) s fun t => (if s.epoch = 0 then t.fabric.bank1 = routeTable b ∧ t.fabric.bank0 = s.fabric.bank0
        else t.fabric.bank0 = routeTable b ∧ t.fabric.bank1 = s.fabric.bank1) ∧ t.fabric.loaded = true ∧ t.Ended cmd stSuccess 0) ∧
    (s.rdB Fld.wblFabricStatus_change_active = true →
      Completes (.wblRouteLoad cmd) s fun t => t.Ended cmd stRouteState 0 ∧ OnlyIn [.queues] s t)) ∧
  (∀ (s : State) (cmd : Nat) (c : Cmd), s.running cmd 8 2 = some c → c.started = false → s.fabric.waiting = [] → s.epoch ≤ 1 →
    (s.isRoot = true → s.rdB Fld.wblFabricStatus_change_active = false →
      Completes (.wblRouteCommit cmd) s fun t =>
        ((t.rdB Fld.wblFabricStatus_change_active = true ∧ t.epoch = 1 - s.epoch ∧ t.fabric.routeCmds = s.fabric.routeCmds ++ [cmd]) ∨
          ∃ d, t.Ended cmd stRouteCyclic d ∧ t.fabric = s.fabric ∧ t.regs = s.regs) ∧ OnlyIn [.regs, .queues, .fabric, .free] s t) ∧
    (s.isRoot = true → s.rdB Fld.wblFabricStatus_change_active = true →
      Completes (.wblRouteCommit cmd) s fun t => t.Ended cmd stRouteState 0 ∧ OnlyIn [.queues] s t) ∧
    (s.isRoot = false → Completes (.wblRouteCommit cmd) s fun t =>
      t.Ended cmd stNotRoot (BitVec.ofNat 32 (s.rdN Fld.wblFabricStatus_acting_root)) ∧ OnlyIn [.queues] s t)) ∧
  (∀ (s : State) (cmd : Nat) (c : Cmd), s.running cmd 8 3 = some c → c.started = false → s.isRoot = true →
    (s.setAlias (c.b 16 2) (c.b 18 2) = none → Completes (.wblAliasSet cmd) s fun t => t.Ended cmd stAliasFull 0 ∧ OnlyIn [.queues] s t) ∧
    (∀ u, s.setAlias (c.b 16 2) (c.b 18 2) = some u →
      (u.aliasChips (c.b 16 2) = [] → Completes (.wblAliasSet cmd) s fun t => t.regs = u.regs ∧ t.Ended cmd stSuccess 0 ∧
        OnlyIn [.regs, .queues] s t) ∧
      (u.aliasChips (c.b 16 2) ≠ [] → Completes (.wblAliasSet cmd) s fun t => t.regs = u.regs ∧
        t.cmd? cmd = some { c with started := true } ∧
        (∀ d ∈ u.aliasChips (c.b 16 2), (∃ r ∈ t.fabric.requests ++ t.fabric.waiting.map (fun w => w.1),
          r.dst = u.aliased d ∧ r.owner = .command cmd ∧ r.kind = .substituted)) ∧ OnlyIn [.regs, .queues, .fabric] s t))) ∧
  (∀ (s : State) (lost sub : Nat), lost < 32768 → sub < 32768 → (s.aliasOf lost ≠ none ∨ ∃ i < 64, s.rdB Fld.wblAlias_valid i = false) →
    ∃ i u, i < 64 ∧ s.setAlias lost sub = some u ∧ u.rdB Fld.wblAlias_valid i = true ∧ u.rdN Fld.wblAlias_lost i = lost ∧
      u.rdN Fld.wblAlias_substitute i = sub ∧ OnlyIn [.regs] s u ∧
      RegsBut [Fld.wblAlias_valid.key i 0, Fld.wblAlias_lost.key i 0, Fld.wblAlias_substitute.key i 0] s u) ∧
  (∀ (s : State) (lost sub : Nat), sub ≠ 0xFFFF → (∀ i < 64, s.rdB Fld.wblAlias_valid i = true) → s.aliasOf lost = none →
    s.setAlias lost sub = none) ∧
  (∀ (s : State) (lost i : Nat), s.aliasOf lost = some i → ∃ u, s.setAlias lost 0xFFFF = some u ∧ u.rdB Fld.wblAlias_valid i = false ∧
    OnlyIn [.regs] s u) ∧
  (∀ (s : State) (r : Request) (src cmd : Nat), r.kind = .substituted → r.owner = .command cmd → (s.dropRequest r).awaited cmd = false →
    s.acked r src 0 0 = (s.dropRequest r).finish cmd stSuccess) ∧
  (∀ (s : State) (cmd : Nat) (c : Cmd), s.running cmd 8 4 = some c → s.isRoot = true →
    (c.b 17 1 = 0 → (s.linkState (c.f 0 16 0 3) = 3 ∨ s.linkState (c.f 0 16 0 3) = 4 ∨ s.linkState (c.f 0 16 0 3) = 5) →
      Completes (.linkRetrainOrder cmd) s fun t => t.linkState (c.f 0 16 0 3) = 1 ∧ t.Ended cmd stSuccess 0 ∧ OnlyIn [.regs, .queues] s t) ∧
    (c.b 17 1 = 1 → s.linkState (c.f 0 16 0 3) = 2 → s.rdN Fld.wblLinkStatus_spared_lane (c.f 0 16 0 3) = 15 →
      Completes (.linkForceSpare cmd) s fun t => t.rdN Fld.wblLinkStatus_spared_lane (c.f 0 16 0 3) < 8 ∧ t.Ended cmd stSuccess 0) ∧
    (c.b 17 1 = 2 → s.linkState (c.f 0 16 0 3) = 2 →
      exec (.linkDownOrder cmd) s = .next (s.after ((s.linkDown (c.f 0 16 0 3)).finish cmd stSuccess))) ∧
    (c.b 17 1 = 2 → s.linkState (c.f 0 16 0 3) ≠ 2 →
      Completes (.linkDownOrder cmd) s fun t => t.Ended cmd stLinkState (BitVec.ofNat 32 (s.linkState (c.f 0 16 0 3))) ∧ OnlyIn [.queues] s t)) ∧
  (∀ (s : State) (cmd : Nat) (c : Cmd), s.running cmd 8 4 = some c → s.isRoot = false → c.b 17 1 = 2 →
    Completes (.linkDownOrder cmd) s fun t => t.Ended cmd stNotRoot (BitVec.ofNat 32 (s.rdN Fld.wblFabricStatus_acting_root)) ∧
      OnlyIn [.queues] s t)

/-- What a message of the partner does in each state of the twin unit.
On a twin link that is UP a message leaves the messages that wait. HELLO and CERT are kept in WAIT_LINK, and ignored in
PAIRED. In HANDSHAKE an identity chain that does not verify ends the pairing with TWIN_AUTH 0, a proof that does not verify
with TWIN_AUTH 2, a configuration that differs with TWIN_CONFIG and the first check that fails, roles that disagree with
TWIN_CONFIG 4: the unit is in WAIT_LINK, and Bark and the partner hear of it; roles that agree bring SYNC with the agreed
role. In SYNC the lead takes confirmations and with the last one fixes the first compared window, and the shadow takes
generations and that window. A verdict is recorded; two that passed count as transient. A signature of the partner is kept
with those that arrived, and one of a frame already judged is dropped. The end of the lead's state has the shadow confirm what
it can; the rest it confirms once it can. LEAVING ends a handshake, with reason 0 it ends the pairing here as it ended at the
partner, and it makes a pair SOLO with reason 3. The layouts of the messages are the model's own choice, log entry 153. It
also rests on choices and readings of the model: log entries 153, 155, 157 and 159. (R429, R431, R432, R433, R434, R436, R441,
R443, R445, 14_twin_pairing.md) -/
def Obligations.TwinMessagesActByState : Prop :=
  (∀ (s : State) (m : List Byte), m.head? = some 0x40 → s.twinUp = true →
    (s.twinState = 1 → Completes (.hello m) s fun t => t.twin = { (s.hears m).twin with peerHello := m } ∧ OnlyIn [.twin] s t) ∧
    (s.twinState = 4 → exec (.hello m) s = .next (s.hears m)) ∧
    (s.twinState = 2 → s.twin.proofSent = false → s.twin.peerKey = [] → s.twin.peerCert = [] → s.twin.checked = false →
      Completes (.hello m) s fun t => t.twin = { (s.hears m).twin with peerHello := m, proofSent := true } ∧ t.regs = s.regs)) ∧
  (∀ (s : State) (m : List Byte), m.head? = some 0x41 → s.twinUp = true →
    (s.twinState = 1 → Completes (.cert m) s fun t => t.twin = { (s.hears m).twin with peerCert := m.drop 1 } ∧ OnlyIn [.twin] s t) ∧
    (s.twinState = 2 → s.twin.peerHello = [] → s.twin.peerKey = [] → m.drop 1 ≠ [] → s.chainKey (m.drop 1) = none →
      Completes (.cert m) s fun t => t.twinState = 1 ∧ t.twinRole = 0 ∧ t.twin.pairCmd = none ∧
        t.rd Fld.twnCnt_count 6 = s.rd Fld.twnCnt_count 6 + 1 ∧ (∃ r, t.reports = s.reports ++ [r] ∧ r.source = 0x1C ∧ r.detail = 0) ∧
        t.fabric = (s.sendTwin ([0x48, 0] ++ natToBytes 2 0x940 ++ natToBytes 1 0)).fabric ∧
        ∀ id, s.twin.pairCmd = some id → (s.cmd? id).isSome = true → t.Ended id stTwinAuth 0)) ∧
  (∀ (s : State) (m : List Byte), m.head? = some 0x42 → s.twinUp = true → s.twinState = 2 → s.twin.proofSent = true → s.twin.peerKey ≠ [] →
    s.twin.peerHello ≠ [] → s.twin.checked = false →
    (Config.mldsaVerify s.twin.peerKey s.helloDigest (m.drop 1) = false → Completes (.proof m) s fun t => t.twinState = 1 ∧
      ∀ id, s.twin.pairCmd = some id → (s.cmd? id).isSome = true → t.Ended id stTwinAuth 2) ∧
    (∀ k, Config.mldsaVerify s.twin.peerKey s.helloDigest (m.drop 1) = true → configFault s.twin.ownHello s.twin.peerHello = some k →
      Completes (.proof m) s fun t => t.twinState = 1 ∧
        ∀ id, s.twin.pairCmd = some id → (s.cmd? id).isSome = true → t.Ended id stTwinConfig (BitVec.ofNat 32 k)) ∧
    (Config.mldsaVerify s.twin.peerKey s.helloDigest (m.drop 1) = true → configFault s.twin.ownHello s.twin.peerHello = none → s.twin.peerRole = 0 →
      Completes (.proof m) s fun t => t.twinState = 2 ∧ t.twin.checked = true ∧
        t.twin.ownRole = roleOf s.twin.ownHello s.twin.peerHello)) ∧
  (∀ (s : State) (m : List Byte), m.head? = some 0x43 → s.twinUp = true → s.twinState = 2 → s.twin.proofSent = true → s.twin.peerKey ≠ [] →
    s.twin.checked = true → leAt m 1 1 ≠ 0 →
    (s.twin.ownRole + leAt m 1 1 = 3 →
      Completes (.role m) s fun t => t.twinState = 3 ∧ t.twinRole = s.twin.ownRole ∧ (t.twin.wasShadow = true ↔ s.twin.ownRole = 2)) ∧
    (s.twin.ownRole + leAt m 1 1 ≠ 3 → Completes (.role m) s fun t => t.twinState = 1 ∧ t.twinRole = 0 ∧
      ∀ id, s.twin.pairCmd = some id → (s.cmd? id).isSome = true → t.Ended id stTwinConfig 4)) ∧
  (∀ (s : State) (m : List Byte), m.head? = some 0x44 → s.twinUp = true → s.twinState = 3 →
    (s.twinRole = 2 → leAt m 1 1 = 2 → Completes (.syncData m) s fun t =>
      t.twin = { (s.hears m).twin with syncGens := s.twin.syncGens ++ [(leAt m 2 1, leAt m 3 4)] } ∧ OnlyIn [.twin] s t) ∧
    (s.twinRole = 2 → leAt m 1 1 = 0 → exec (.syncData m) s = .next (s.after ((s.hears m).syncContext (slice m 2 80)))) ∧
    (s.twinRole = 2 → leAt m 1 1 = 1 → Completes (.syncData m) s fun t => t.twin.syncContexts = true ∧
      ∀ c ∈ t.ingest.ctxs, (s.twin.list.any (fun p => p.1 == c.set)) = true → (∀ b ∈ s.twin.syncKeys, (ctxOf 0 0 b).key ≠ c.key) →
        c.state = .disabled) ∧
    (s.twinRole = 2 → leAt m 1 1 = 3 →
      exec (.syncData m) s = .next (s.after (State.syncConfirm { s.hears m with twin := { (s.hears m).twin with syncHeard := true } }))) ∧
    (s.twinRole = 1 → leAt m 1 1 = 4 → leAt m 2 1 = 2 → s.twin.syncContexts = true → s.twin.syncVersions = true → s.twin.syncDone = false →
      Completes (.syncData m) s fun t => t.twin.syncDone = true ∧ t.k0 = (BitVec.ofInt 64 s.firstWindow).toInt ∧ t.twinState = 3)) ∧
  (∀ (s : State) (m : List Byte), m.head? = some 0x45 → s.twinUp = true → s.twinState = 3 → s.twinRole = 2 →
    Completes (.syncDone m) s fun t => t.twin.syncDone = true ∧ t.rd Fld.twnFirstFrame_k0 = BitVec.ofNat 64 (leAt m 1 8) ∧
      OnlyIn [.regs, .twin] s t ∧ RegsBut [Fld.twnFirstFrame_k0.key 0 0] s t) ∧
  (∀ (s : State) (m : List Byte), m.head? = some 0x46 → s.twinUp = true → s.exchanges = true → signatureFault (m.drop 1) = none →
    ((s.twin.judged.any (fun j => j.1 == (signatureOf (m.drop 1)).set && decide ((signatureOf (m.drop 1)).window ≤ j.2))) = true →
      exec (.signature m) s = .next (s.hears m)) ∧
    ((s.twin.judged.any (fun j => j.1 == (signatureOf (m.drop 1)).set && decide ((signatureOf (m.drop 1)).window ≤ j.2))) = false →
      s.twin.own = [] → Completes (.signature m) s fun t =>
        (∃ w ∈ t.twin.peer, w.bytes = m.drop 1 ∧ w.set = (signatureOf (m.drop 1)).set ∧ w.window = (signatureOf (m.drop 1)).window) ∧
        OnlyIn [.twin] s t)) ∧
  (∀ (s : State) (m : List Byte), m.head? = some 0x47 → s.twinUp = true → 1 ≤ leAt m 1 1 → leAt m 1 1 ≤ 3 →
    Completes (.verdict m) s fun t => t.rdN Fld.twnVerdict_partner_verdict = leAt m 1 1 ∧
      (leAt m 1 1 = 1 → s.rdN Fld.twnVerdict_local_verdict = 1 → t.rd Fld.twnCnt_count 3 = s.rd Fld.twnCnt_count 3 + 1) ∧
      OnlyIn [.regs, .twin] s t ∧ RegsBut [Fld.twnVerdict_partner_verdict.key 0 0, Fld.twnCnt_count.key 3 0, Fld.twnCnt_count.key 4 0] s t) ∧
  (∀ (s : State) (m : List Byte), m.head? = some 0x48 → s.twinUp = true →
    (leAt m 1 1 = 0 → (s.twinState = 2 ∨ (s.twinState = 3 ∧ s.twin.syncDone = false)) → Completes (.leaving m) s fun t =>
      t.twinState = 1 ∧ t.twinRole = 0 ∧ t.twin.pairCmd = none ∧ t.fabric = s.fabric ∧
      (∃ r, t.reports = s.reports ++ [r] ∧ r.source = 0x1C ∧ r.detail = BitVec.ofNat 64 (leAt m 4 1)) ∧
      ∀ id, s.twin.pairCmd = some id → (s.cmd? id).isSome = true →
        t.Ended id (BitVec.ofNat 16 (leAt m 2 2)) (BitVec.ofNat 32 (leAt m 4 1))) ∧
    (s.twinState = 2 → leAt m 1 1 ≠ 0 → Completes (.leaving m) s fun t => t.twinState = 1 ∧ t.twin = s.forgetPartner.twin ∧ OnlyIn [.regs, .twin] s t) ∧
    (s.twinState = 4 → s.twin.frames = [] → s.twin.own = [] → s.twin.nextPair = none → Completes (.leaving m) s fun t =>
      t.twinState = 5 ∧ t.twinRole = 1 ∧ t.rdN Fld.twnStatus_lost_reason = 3 ∧
      (∃ r, t.reports = s.reports ++ [r] ∧ r.source = 0x1C ∧ r.detail = 3)))

/-- The orders of the twin unit, its timeouts and its fault pin.
TWIN_PAIR keeps its list in WAIT_LINK until the link is UP, and ends with TWIN_NO_LINK where no link has the twin role and
with TWIN_STATE in PAIRED; TWIN_DETACH makes a pair without a running frame SOLO with reason 5 at once, and else DETACHING. A
shadow has nothing left that it can confirm once it has confirmed. A synchronisation that is not confirmed in sync_timeout_s
ends with TWIN_SYNC and its first missing part; a pair whose partner raises its fault is SOLO with reason 2. The lead's
history brings the shadow to PAIRED, and a later copy, of another set, is taken in PAIRED; from the frame before k0 on the
lead is PAIRED, and a frame holds its warp only while no copy has come. A frame of a stream set that a SOLO chip runs alone
completes with TWIN_ALONE and outcome 4; a compared frame of a PAIRED chip has its signature built and sent, and its record
waits, with its status, for the partner's. With auto_pair a chip whose last handshake failed pairs again when the link comes
UP. The oldest signature that waits past its time is late, and none before. TWN_SIG_EXCHANGE sends a signature that keeps
R438, TWN_COPY sends bytes to the partner, and both end with TWIN_STATE where the unit is not PAIRED. It also rests on choices
and readings of the model: log entries 2, 5, 156, 158, 159 and 170. (R429, R434, R436, R437, R438, R442, R445, R446, R447,
R448, R449) -/
def Obligations.TwinOrdersAndTimes : Prop :=
  (∀ (s : State) (cmd : Nat) (c : Cmd), s.running cmd 0 0x90 = some c → c.started = false →
    (s.twinLink = none → Completes (.twinPair cmd) s fun t => t.Ended cmd stTwinNoLink 0 ∧ OnlyIn [.queues] s t ∧ CmdsBut cmd s t) ∧
    (∀ s1 b, s.twinLink.isSome = true →
      (s.updCmd cmd (fun x => { x with started := true })).basicLoad c (c.b 24 8) (4 * c.b 16 1) = (s1, .ok b) → s1.twinUp = false →
      (∀ p ∈ pairList (c.b 16 1) b, (s1.set? p.1).isSome = true ∧ (s1.package? c.part p.2).isSome = true) →
      (s1.twinState = 1 → s1.twin.pairCmd = none → Completes (.twinPair cmd) s fun t =>
        t.twin = { s1.twin with pairCmd := some cmd, list := pairList (c.b 16 1) b, lastList := pairList (c.b 16 1) b } ∧ t.regs = s1.regs ∧
        t.queues = s1.queues) ∧
      (s1.twinState = 4 → (s1.cmd? cmd).isSome = true → Completes (.twinPair cmd) s fun t => t.Ended cmd stTwinState 4 ∧ t.twin = s1.twin) ∧
      (s1.twinState = 6 → s1.twin.nextPair = none → Completes (.twinPair cmd) s fun t =>
        t.twin = { s1.twin with nextPair := some (cmd, pairList (c.b 16 1) b) } ∧ t.rdB Fld.twnStatus_reenable_pending = true))) ∧
  (∀ (s : State) (cmd : Nat) (c : Cmd), s.running cmd 0 0x91 = some c → c.started = false → s.twinLink.isSome = true →
    (s.twinState ≠ 4 → Completes (.twinDetach cmd) s fun t => t.Ended cmd stTwinState (BitVec.ofNat 32 s.twinState) ∧
      OnlyIn [.queues] s t ∧ CmdsBut cmd s t) ∧
    (s.twinState = 4 → s.pairedFrameRuns = true → Completes (.twinDetach cmd) s fun t => t.twinState = 6 ∧ t.twin.detachCmd = some cmd ∧
      OnlyIn [.regs, .queues, .twin] s t ∧ RegsBut [Fld.twnStatus_state.key 0 0] s t) ∧
    (s.twinState = 4 → s.pairedFrameRuns = false → s.twin.own = [] → s.twin.nextPair = none → Completes (.twinDetach cmd) s fun t =>
      t.twinState = 5 ∧ t.twinRole = 1 ∧ t.rdN Fld.twnStatus_lost_reason = 5 ∧ t.Ended cmd stSuccess 0 ∧ t.reports = s.reports)) ∧
  (∀ (s : State), s.twinState = 3 → s.twin.syncDone = false →
    s.passed s.twin.syncAt (1000000000 * max 1 (s.rdN Fld.twnTimeouts_sync_timeout_s)) = true → Completes .syncTimeout s fun t => t.twinState = 1 ∧ t.twinRole = 0 ∧
    (∃ r, t.reports = s.reports ++ [r] ∧ r.source = 0x1C) ∧
    ∀ id, s.twin.pairCmd = some id → (s.cmd? id).isSome = true →
      t.Ended id stTwinSync (if s.twin.syncContexts = false then 0 else if s.twin.syncVersions = false then 1 else 2)) ∧
  (∀ (s : State), s.twinState = 3 → s.canConfirm = false → s.twinRole = 2 → s.twin.syncHeard = true →
    (s.twin.syncVersions = true ∨ s.gensAgree = false) ∧ (s.twin.syncTime = true ∨ 1000 < s.time.phaseErr.natAbs)) ∧
  (∀ s : State, s.canConfirm = true → s.syncConfirm.canConfirm = false ∧ OnlyIn [.twin, .fabric] s s.syncConfirm) ∧
  (∀ (s : State), s.twinState = 1 → s.twin.pairCmd = none → s.mode ≠ modeSafe → s.rdB Fld.twnCfg_auto_pair = true → s.twin.lastList ≠ [] →
    s.twinUp = true → s.twin.peerHello = [] → s.twin.peerCert = [] → s.twin.checked = false → s.security.identity = true →
    s.twinLinkUp.twinState = 2 ∧ s.twinLinkUp.twin.list = s.twin.lastList) ∧
  (∀ (s : State), (s.twinState ≠ 3 ∨ s.twin.syncDone = true ∨
      s.passed s.twin.syncAt (1000000000 * max 1 (s.rdN Fld.twnTimeouts_sync_timeout_s)) = false) → exec .syncTimeout s = .next s) ∧
  (∀ (s : State), s.twinState = 4 → s.twin.frames = [] → s.twin.own = [] → s.twin.nextPair = none → Completes .twinFaultIn s fun t =>
    t.twinState = 5 ∧ t.twinRole = 1 ∧ t.rdN Fld.twnStatus_lost_reason = 2 ∧ t.twin.faultIn = true) ∧
  (∀ (s : State), s.twinState = 1 → Completes .twinFaultIn s fun t => t.twin = { s.twin with faultIn := true } ∧ OnlyIn [.twin] s t) ∧
  (∀ (s : State) (m : List Byte) (p : Nat × Nat) (x : StreamSet), s.twin.list.find? (fun p => p.1 == leAt m 0 2) = some p →
    s.set? (leAt m 0 2) = some x → s.twinRole = 2 → s.twin.syncDone = true → toSigned 64 (leAt m 2 8) + 1 = s.k0 → s.twinState = 3 →
    Completes (.historyCopyArrive m) s fun t => t.twinState = 4 ∧ t.twin.copied = s.twin.copied ++ [leAt m 0 2] ∧ t.rdB Fld.twnStatus_diverged = false ∧ t.twin.pairCmd = none ∧
      (∀ r c, s.queues.runs.find? (fun r => r.set == leAt m 0 2 && r.handle == p.2) = some r → s.cmd? r.cmd = some c →
        ∃ h ∈ t.canopy.history, h.set = leAt m 0 2 ∧ h.handle = p.2 ∧ h.cmd = r.cmd ∧ h.window = toSigned 64 (leAt m 2 8) ∧ h.valid = true) ∧
      (s.queues.runs.find? (fun r => r.set == leAt m 0 2 && r.handle == p.2) = none → t.canopy = s.canopy ∧ t.mem = s.mem) ∧
      (∀ id, s.twin.pairCmd = some id → (s.cmd? id).isSome = true →
        t.Ended id stSuccess (BitVec.ofNat 32 (s.rdN Fld.twnFirstFrame_k0)))) ∧
  (∀ (s : State) (m : List Byte) (p : Nat × Nat) (x : StreamSet), s.twin.list.find? (fun p => p.1 == leAt m 0 2) = some p →
    s.set? (leAt m 0 2) = some x → s.twinRole = 2 → s.twin.syncDone = true → toSigned 64 (leAt m 2 8) + 1 = s.k0 → s.twinState = 4 →
    Completes (.historyCopyArrive m) s fun t => t.twin = { s.twin with copied := s.twin.copied ++ [leAt m 0 2] } ∧ t.twinState = 4 ∧
      t.queues = s.queues) ∧
  (∀ (s : State) (c : Cmd) (r : Run) (p : Package) (valid : Bool), s.twin.syncDone = true → (s.twinState = 3 ∨ s.twinState = 4) →
    s.k0 ≤ r.window.k + 1 → (s.twinRole = 1 ∨ s.k0 ≤ r.window.k) →
    (s.joinFrame c r p valid).twinState = 4 ∧ (p.history = none → s.twinState = 4 → s.joinFrame c r p valid = s)) ∧
  (∀ (s : State) (cmd : Nat) (f : FrameFacts) (c : Cmd) (r : Run) (p : Package), s.run? cmd = some r → s.cmd? cmd = some c →
    r.frameActive = true → c.phase = .running → (∀ x ∈ s.twin.frames, x.cmd ≠ cmd) → s.package? r.part r.handle = some p →
    frameStatusOk f.status = true → s.pointsIn r = true → (∀ o ∈ r.nms, o.keeps f.boxes = true) →
    (s.twinState = 5 → (s.closeFrame c r p f).1.twinState = 5 → (s.closeFrame c r p f).1.runsAlone r = true →
      exec (.runFrameComplete cmd f) s = .next (s.after ((s.closeFrame c r p f).1.frameDone cmd (combine (s.closeFrame c r p f).2
        (stTwinAlone, BitVec.ofNat 32 ((s.closeFrame c r p f).1.rdN Fld.twnStatus_lost_reason))) 4))) ∧
    (s.twinState = 4 → (s.twinRole ≠ 2 ∨ r.set ∈ s.twin.copied ∨ r.window.k ≠ s.k0) → (s.closeFrame c r p f).1.twinState = 4 →
      ((s.closeFrame c r p f).1.twin.list.any (fun x => x.1 == r.set)) = true → (s.closeFrame c r p f).1.k0 ≤ r.window.k →
      exec (.runFrameComplete cmd f) s = .next (s.after
        (let g := (s.closeFrame c r p f).1.buildSignature c r p (!isFailure (s.closeFrame c r p f).2.1) f.boxes f.map
         let w : FrameWait := { cmd := cmd, set := r.set, window := r.window.k, status := (s.closeFrame c r p f).2.1,
                                detail := (s.closeFrame c r p f).2.2, tiles := f.tiles }
         State.sendSignature { g.1 with twin := { g.1.twin with frames := g.1.twin.frames ++ [w] } } r.set r.window.k g.2.bytes none)))) ∧
  (∀ (s : State) (set : Nat) (window : Int) (bytes : List Byte) (cmd : Option Nat), s.twin.peer = [] →
    (s.sendSignature set window bytes cmd).twin = { s.twin with own := s.twin.own ++
      [({ set := set, window := window, bytes := bytes, cmd := cmd, sentNs := s.time.uptime } : SigWait)] }) ∧
  (∀ (s : State) (r : Run) (p : Package), (r.set ∈ s.twin.copied ∨ p.history = none ∨ r.window.k ≠ s.k0) → s.awaitsCopy r p = (s, false)) ∧
  (∀ (s : State) (w : SigWait) (l : List SigWait), s.twin.own = w :: l →
    s.passed w.sentNs (1000 * max 1 (s.rdN Fld.twnTimeouts_sig_wait_us)) = true → exec .sigWaitTimeout s = .next (s.after (s.endWait w 0 0 true none))) ∧
  (∀ (s : State) (w : SigWait) (l : List SigWait), s.twin.own = w :: l →
    s.passed w.sentNs (1000 * max 1 (s.rdN Fld.twnTimeouts_sig_wait_us)) = false → exec .sigWaitTimeout s = .next s) ∧
  (∀ (s : State), s.twin.own = [] → exec .sigWaitTimeout s = .next s) ∧
  (∀ (s : State) (mism : Nat) (late : Bool), s.rdB Fld.twnStatus_diverged = false →
    ((s.judge mism late).2 = 1 ↔ late = false ∧ mism = 0) ∧ (s.judge mism late).2 ≤ 3 ∧
    (s.judge mism late).1.rd Fld.twnCnt_count 0 = s.rd Fld.twnCnt_count 0 + 1 ∧
    ((s.judge mism late).2 = 3 → (s.judge mism late).1.rdB Fld.twnStatus_diverged = true)) ∧
  (∀ (s : State) (cmd : Nat) (c : Cmd), s.running cmd 9 1 = some c → c.started = false →
    (s.twinState ≠ 4 → Completes (.twnSigExchange cmd) s fun t => t.Ended cmd stTwinState (BitVec.ofNat 32 s.twinState) ∧
      OnlyIn [.queues] s t ∧ CmdsBut cmd s t) ∧
    (∀ s1 b off, s.twinState = 4 → (s.updCmd cmd (fun x => { x with started := true })).load c.origin (c.b 24 6) 10560 = (s1, .ok b) →
      signatureFault b = some off → (s1.cmd? cmd).isSome = true →
      Completes (.twnSigExchange cmd) s fun t => t.Ended cmd stTwinSigFormat (BitVec.ofNat 32 off) ∧ t.twin = s1.twin ∧
        t.regs = s1.regs ∧ t.fabric = s1.fabric) ∧
    (∀ s1 b, s.twinState = 4 → (s.updCmd cmd (fun x => { x with started := true })).load c.origin (c.b 24 6) 10560 = (s1, .ok b) →
      signatureFault b = none → s1.twin.peer = [] → Completes (.twnSigExchange cmd) s fun t =>
        ∃ w, t.twin.own = s1.twin.own ++ [w] ∧ w.cmd = some cmd ∧ w.bytes = (signatureOf b).bytes ∧ w.set = (signatureOf b).set)) ∧
  (∀ (s : State) (cmd : Nat) (c : Cmd), s.running cmd 9 2 = some c → c.started = false →
    (s.twinState ≠ 4 → Completes (.twnCopy cmd) s fun t => t.Ended cmd stTwinState (BitVec.ofNat 32 s.twinState) ∧
      OnlyIn [.queues] s t ∧ CmdsBut cmd s t) ∧
    (∀ s1 b, s.twinState = 4 →
      (s.updCmd cmd (fun x => { x with started := true })).load c.origin (c.b 24 6) (c.b 36 4) = (s1, .ok b) →
      exec (.twnCopy cmd) s = .next (s.after (s1.finishStore c ((1 - s1.chipId) * 2 ^ 48 + c.b 30 6) b stSuccess))))

/-- A frame signature is read back from its bytes as it was built.
For every signature whose fields fit their widths, the bytes that it is sent as are as long as R438 says, hold no fault of the
layout where it is truncated or has no truncation score, and are read back as the same signature, box by box and sample by
sample. (R438, R439, R440, 14_twin_pairing.md) -/
def Obligations.SignaturesReadBack : Prop :=
  ∀ (g : Signature), g.Fits →
    g.bytes.length = 64 + 12 * g.boxes.length + 68 * g.samples.length ∧ signatureOf g.bytes = g ∧
    (g.truncated = true ∨ g.truncScore = 0 → signatureFault g.bytes = none)

/-- The lanes of Core Samples, their steps, and requested sets.
A lane of a Stem that is ON and not clamped takes a tile, in rotation with a free spare position where there is one and in
place otherwise, and the registers count the lanes. At a boundary a tile in rotation moves to the spare position and the
golden vectors run on the one that it left; an idle tile in place is taken at once, one that does not become idle is waited
for at its boundary once the lag has passed. A tile whose golden run passes is back in service with its sample time, and its
lane is free. A step that is not due changes nothing. BRK_CS_REQUEST keeps its set with its tiles, or ends with the first tile
that is lost. It also rests on choices and readings of the model: log entries 5, 174, 177 and 180. (R461, R462, R463, R465,
R466, R483) -/
def Obligations.CoreSamplesTakeTestAndReturnTiles : Prop :=
  (∀ (s : State) (stem t : Nat), stem < 4 → s.stepsOn stem = true →
    (s.bark.samples.filter (fun x => x.stem == stem)).length ≤ s.rdN Fld.brkCsCfg_lanes_m1 → s.nextTile stem = some t →
    (s.freePositions stem ≠ [] → Completes (.coreSampleStart stem) s fun u =>
      (∃ p ∈ s.freePositions stem, u.bark.samples =
        s.bark.samples ++ [({ stem := stem, tile := t, kind := .rotation, step := .copying, spare := p } : Sample)]) ∧
      OnlyIn [.regs, .bark, .free] s u ∧ RegsBut [Fld.brkCsStem_rotation_lanes.key stem 0, Fld.brkCsStem_inplace_lanes.key stem 0] s u) ∧
    (s.freePositions stem = [] → (s.setTiles stem = [] ∨ s.sparePositions stem = []) → Completes (.coreSampleStart stem) s fun u =>
      u.bark.samples = s.bark.samples ++ [({ stem := stem, tile := t, kind := .inPlace, step := .waitingIdle, since := s.time.uptime } : Sample)] ∧
      OnlyIn [.regs, .bark] s u)) ∧
  (∀ (s : State) (stem : Nat), stem < 4 → (s.stepsOn stem = false ∨ s.nextTile stem = none) → exec (.coreSampleStart stem) s = .next s) ∧
  (∀ (s : State) (stem tile : Nat) (x : Sample), stem < 4 → tile < 64 → s.sample? stem tile = some x → x.kind = .rotation →
    x.step = .copying → x.asGraft = false → s.stepsOn stem = true →
    (s.threadsOn stem tile = false → Completes (.coreSampleSwitch stem tile) s fun u => u.posOf stem tile = x.spare ∧
      u.sample? stem tile = some { x with step := .testing, spare := s.posOf stem tile } ∧ OnlyIn [.bark] s u) ∧
    (s.threadsOn stem tile = true → Completes (.coreSampleSwitch stem tile) s fun u => u.bark = s.bark ∧ OnlyIn [.compute] s u)) ∧
  (∀ (s : State) (stem tile : Nat) (x : Sample), stem < 4 → tile < 64 → s.sample? stem tile = some x → s.stepsOn stem = true →
    (x.step = .waitingIdle → s.tileIdle stem tile = true → Completes (.inPlaceSampleTake stem tile) s fun u =>
      u.sample? stem tile = some { x with step := .testing } ∧ OnlyIn [.bark] s u) ∧
    (x.step = .waitingBoundary → s.threadsOn stem tile = false → Completes (.inPlaceSampleTake stem tile) s fun u =>
      u.sample? stem tile = some { x with step := .testing } ∧ OnlyIn [.bark] s u) ∧
    (x.step = .waitingIdle → s.tileIdle stem tile = false → exec (.inPlaceSampleTake stem tile) s = .next s)) ∧
  (∀ (s : State) (stem tile : Nat) (x : Sample), stem < 4 → tile < 64 → s.sample? stem tile = some x → x.step = .waitingIdle →
    s.passed x.since (1000 * s.rdN Fld.brkCsCfg_lag_us) = false → exec (.inPlaceLagExpire stem tile) s = .next s) ∧
  (∀ (s : State) (stem tile : Nat) (x : Sample), stem < 4 → tile < 64 → s.sample? stem tile = some x → x.step = .waitingIdle → s.barkRuns = true →
    s.passed x.since (1000 * s.rdN Fld.brkCsCfg_lag_us) = true →
    Completes (.inPlaceLagExpire stem tile) s fun u => u.sample? stem tile = some { x with step := .waitingBoundary } ∧ OnlyIn [.bark] s u) ∧
  (∀ (s : State) (stem tile : Nat) (x : Sample), stem < 4 → tile < 64 → s.sample? stem tile = some x → x.step = .testing → s.barkRuns = true →
    s.bark.sampleSets = [] → Completes (.coreSampleComplete stem tile true) s fun u =>
      u.sample? stem tile = none ∧ (u.sampleTime stem tile).last = s.now ∧ (u.sampleTime stem tile).pass = s.now ∧
      u.reports = s.reports ∧ u.bark.lostTiles = s.bark.lostTiles ∧ u.bark.placed = s.bark.placed ∧ OnlyIn [.regs, .bark] s u) ∧
  (∀ (s : State) (cmd : Nat) (c : Cmd), s.running cmd 0xA 1 = some c → c.started = false →
    (s.tilesFault (tilesOf c.tileMasks) = none → tilesOf c.tileMasks ≠ [] → (∀ x ∈ s.bark.sampleSets, x.tiles ≠ []) →
      Completes (.brkCsRequest cmd) s fun u =>
        u.bark.sampleSets = s.bark.sampleSets ++ [({ cmd := some cmd, tiles := tilesOf c.tileMasks } : SampleSet)] ∧
        OnlyIn [.queues, .bark] s u) ∧
    (∀ st d, s.tilesFault (tilesOf c.tileMasks) = some (st, d) → Completes (.brkCsRequest cmd) s fun u =>
      u.Ended cmd st d ∧ OnlyIn [.queues] s u ∧ CmdsBut cmd s u))

/-- Failed samples, worn units and grafts.
A sample that fails in rotation counts, is logged and reported with source 0x10, and its position is retired for good. A unit
whose third reading in a row is above the graft threshold falls due for a graft; three above the warning threshold are
reported. A graft of an engine moves it to the spare of its kind, once, and is logged and reported; without a spare, or for
the spare's own number, the engine is lost and reported, and its commands end with UNIT_LOST. A graft of a tile that has no
spare position on its Stem loses it. A graft of a lane makes the link switch to its spare. A hang that lasts grafts its unit.
A change of slot on a scheduled Stem takes the new slot. It also rests on choices and readings of the model: log entries 5,
178, 181, 182, 184 and 204. (R57, R360, R465, R467, R468, R469, R470, R471) -/
def Obligations.FailedUnitsAreGraftedOrLost : Prop :=
  (∀ (s : State) (stem tile : Nat) (x : Sample), stem < 4 → tile < 64 → s.sample? stem tile = some x → x.step = .testing → x.kind = .rotation →
    s.barkRuns = true → Completes (.coreSampleComplete stem tile false) s fun u =>
      u.sample? stem tile = none ∧ u.posRetired stem x.spare = true ∧
      u.rdN Fld.brkCsStem_failures stem = satTo Fld.brkCsStem_failures.width (s.rdN Fld.brkCsStem_failures stem + 1) ∧
      (∃ r l, u.reports = s.reports ++ r :: l ∧ r.source = 0x10 ∧ r.stem = stem ∧ r.logical = tile ∧ r.physical = x.spare)) ∧
  (∀ (s : State) (rs : List WearReading) (r : WearReading), s.barkRuns = true → (∀ x ∈ rs, x.unit.isUnit = true) → rs = [r] →
    (∀ j, r.unit.stem? = some j → s.stemOn j = true) → (∃ w ∈ s.bark.wear, w.unit = r.unit) →
    (∀ w ∈ s.bark.wear, w.unit = r.unit → 2 ≤ w.warn ∧ 2 ≤ w.graft) → s.rdN Fld.brkWearCfg_warn_pm < r.increase →
    s.rdN Fld.brkWearCfg_graft_pm < r.increase →
    s.duePeriod s.bark.wearAt (1000000 * max 1 (s.rdN Fld.brkWearCfg_sample_ms)) = true → Completes (.wearSample rs) s fun u => u.bark.wearAt = some s.time.uptime ∧
      r.unit ∈ u.bark.graftDue ∧ (∃ p, u.reports = s.reports ++ [p] ∧ p.source = 0x12 ∧ p.logical = r.unit.number.1) ∧
      OnlyIn [.bark, .reports] s u) ∧
  (∀ (s : State) (rs : List WearReading), s.barkRuns = true → (∀ x ∈ rs, x.unit.isUnit = true) →
    (∀ x ∈ rs, x.increase ≤ s.rdN Fld.brkWearCfg_warn_pm ∧ x.increase ≤ s.rdN Fld.brkWearCfg_graft_pm) →
    s.duePeriod s.bark.wearAt (1000000 * max 1 (s.rdN Fld.brkWearCfg_sample_ms)) = true →
    Completes (.wearSample rs) s fun u => u.reports = s.reports ∧ u.bark.graftDue = s.bark.graftDue ∧
      (∀ w ∈ u.bark.wear, w.warn = 0 ∧ w.graft = 0) ∧ OnlyIn [.bark] s u) ∧
  (∀ (s : State) (rs : List WearReading), (∀ x ∈ rs, x.unit.isUnit = true) →
    s.duePeriod s.bark.wearAt (1000000 * max 1 (s.rdN Fld.brkWearCfg_sample_ms)) = false → exec (.wearSample rs) s = .next s) ∧
  (∀ (s : State) (stem num : Nat) (k : EngineKind), (GraftTarget.engine stem k num).isUnit = true → s.barkRuns = true → num < k.active →
    s.stemOn stem = true → (stem, k, num) ∉ s.bark.lostEngines →
    ((s.rdN Fld.brkSpares_spare stem).testBit k.bit = true → Completes (.graft (.engine stem k num)) s fun u =>
      (u.rdN Fld.brkSpares_spare stem).testBit k.bit = false ∧ u.enginePos stem k num = k.active ∧
      (stem, k, num) ∉ u.bark.lostEngines ∧ ∃ l, u.reports = s.reports ++ l ∧ ∃ r ∈ l, r.source = 0x13 ∧ r.physical = k.active) ∧
    ((s.rdN Fld.brkSpares_spare stem).testBit k.bit = false → Completes (.graft (.engine stem k num)) s fun u =>
      (stem, k, num) ∈ u.bark.lostEngines ∧ (u.rdN Fld.brkSpares_lost stem).testBit k.bit = true ∧
      (∃ l, u.reports = s.reports ++ l ∧ ∃ r ∈ l, r.source = 0x14 ∧ r.logical = num) ∧
      (k = .vhe ∨ k = .kme ∨ k = .gather → u.queues = s.queues))) ∧
  (∀ (s : State) (stem tile : Nat), stem < 4 → tile < 64 → s.barkRuns = true → s.stemOn stem = true → s.tileLost stem tile = false →
    s.sample? stem tile = none → s.sparePositions stem = [] → Completes (.graft (.tile stem tile)) s fun u =>
      u.tileLost stem tile = true ∧ u.posRetired stem (s.posOf stem tile) = true ∧
      (∃ r l, u.reports = s.reports ++ r :: l ∧ r.source = 0x14 ∧ r.logical = tile)) ∧
  (∀ (s : State) (stem tile p : Nat) (l : List Nat), stem < 4 → tile < 64 → s.barkRuns = true → s.stemOn stem = true →
    s.tileLost stem tile = false → s.sample? stem tile = none → s.freePositions stem = p :: l → s.threadsOn stem tile = false →
    Completes (.graft (.tile stem tile)) s fun u => u.posOf stem tile ∈ p :: l ∧ u.posRetired stem (s.posOf stem tile) = true ∧
      u.tileLost stem tile = false ∧ (∃ r, u.reports = s.reports ++ [r] ∧ r.source = 0x13 ∧ r.logical = tile)) ∧
  (∀ (s : State) (l n : Nat), (GraftTarget.lane l n).isUnit = true → s.barkRuns = true →
    exec (.graft (.lane l n)) s
      = .next (s.after (State.switchLane { s with bark := { s.bark with graftDue := s.bark.graftDue.erase (.lane l n) } } l n))) ∧
  (∀ (s : State) (g : GraftTarget), g.isUnit = true → s.barkRuns = false → exec (.graft g) s = .next s) ∧
  (∀ (s : State) (u : Nat) (g : GraftTarget), isWatched u = true → u ∈ s.observe.hung → s.barkRuns = true → s.silentFor u = true → graftOfUnit u = some g → g ∈ s.bark.graftDue →
    exec (.hangGraftTimeout u) s = .next (s.after (State.graft { s with observe := { s.observe with hung := s.observe.hung.erase u } } g))) ∧
  (∀ (s : State) (u : Nat), isWatched u = true → (u ∉ s.observe.hung ∨ s.silentFor u = false) → exec (.hangGraftTimeout u) s = .next s) ∧
  (∀ (s : State) (stem : Nat), stem < 4 →
    (s.rdB Fld.brkTdmaCfg_enable stem = true → Completes (.tdmaSlotChange stem) s fun u =>
      u.bark = { s.bark with slots := s.bark.slots.set stem (s.slotNow stem) } ∧ u.queues = s.queues ∧ u.sap = s.sap ∧ u.acc = s.acc) ∧
    (s.rdB Fld.brkTdmaCfg_enable stem = false → exec (.tdmaSlotChange stem) s = .next s))

/-- From reset to READY, stage by stage.
The release of PERST# latches the boot mode and acts on it: modes 2 and 4 to 6 end the start-up where boot_mode_lock does not
make them 0, and a rail out of order keeps the device in HALT with a log record. The ROM starts the preferred slot when its
manifest and Bark firmware verify; a first failure starts it again and a second ends in RECOVERY, or in HALT under
boot_mode_lock. Bark firmware, the graft log, memory and the samples bring the next stages, and with the lock set the device
is READY and OPERATIONAL. PERST# clears what a reset clears and keeps OTP, flash and Bark's always-on domain. A rail that
trips is reported, and a Bark rail's stops Bark. What memories hold after PERST# is the model's choice, log entry 192. It also
rests on choices and readings of the model: log entries 166, 185, 186, 188 and 191. (R487, R490, R491, R493, R496, R498, R500,
R505, R585, R586, R590, 16_security_startup.md) -/
def Obligations.StartUpRunsItsStages : Prop :=
  (∀ (s : State) (m : Nat), s.security.perst = true →
    (m % 8 ≤ 1 ∨ s.security.otp.bootModeLock = true → Completes (.perstRelease m 0) s fun t => t.stage = s.stage ∧ t.security.perst = false ∧
      t.security.bootMode = m % 8 ∧ t.security.releasedAt = s.now ∧ (t.security.identity = true ↔ s.security.otp.lifecycle ≠ .decommissioned) ∧
      OnlyIn [.regs, .security] s t) ∧
    (m % 8 = 2 → s.security.otp.bootModeLock = false → Completes (.perstRelease m 0) s fun t => t.stage = 14) ∧
    (4 ≤ m % 8 → m % 8 ≤ 6 → s.security.otp.bootModeLock = false → Completes (.perstRelease m 0) s fun t =>
      t.stage = 15 ∧ t.rdN Fld.secBootStatus_error = stImageFormat.toNat) ∧
    (∀ bad, bad % 1024 ≠ 0 → Completes (.perstRelease m bad) s fun t => t.stage = 15 ∧
      ∃ r ∈ t.bark.faultLog, r.source = 3 ∧ r.detail = BitVec.ofNat 64 (bad % 1024))) ∧
  (∀ (s : State) (m bad : Nat), s.security.perst = false → exec (.perstRelease m bad) s = .next s) ∧
  (∀ (s : State), Completes .perstAssert s fun t => t.security.perst = true ∧ t.hbm = [] ∧ t.sap = [] ∧ t.acc = [] ∧ t.queues.cmds = [] ∧
    t.security.otp = s.security.otp ∧ t.security.flash = s.security.flash ∧ t.bark.graftLog = s.bark.graftLog ∧
    t.bark.faultLog = s.bark.faultLog ∧ t.host = s.host ∧ (∀ f i n, f.reg = .secTrialSeen → t.rd f i n = s.rd f i n) ∧
    (∀ f : Field, ∀ i n, f.reg ≠ .secTrialSeen → regFind t.regs (f.key i n) = none)) ∧
  (∀ (s : State), Completes .vddBarkPowerOn s fun t => t.rdB Fld.secTrialSeen_seen = false ∧ t.bark.graftLog = s.bark.flashGraft ∧
    t.bark.faultLog = s.bark.flashFault ∧ OnlyIn [.regs, .bark] s t ∧ ∀ f : Field, ∀ i n, f.reg ≠ .secTrialSeen → t.rd f i n = s.rd f i n) ∧
  (∀ (s : State) (r : Nat), s.security.perst = false →
    (r < 8 → Completes (.railTrip r) s fun t => (∃ p, t.reports = s.reports ++ [p] ∧ p.source = 3 ∧ p.detail = BitVec.ofNat 64 r) ∧
      OnlyIn [.reports] s t) ∧
    (r = 8 ∨ r = 9 → s.barkRuns = true → Completes (.railTrip r) s fun t => t.barkRuns = false ∧ t.bark.stopped.map Prod.fst = some 3 ∧
      (s.mode ≠ modeMaint → t.mode = modeSafe))) ∧
  (∀ (s : State) (d : Directory), s.security.perst = false → s.stage = 0 → s.actingMode = 0 → s.security.flash.present = true →
    s.security.failures = 0 → s.security.flash.dir? = some d → d.trial = false →
    ((s.manifestFault (s.security.flash.slot d.preferredB)).or (stageFault (s.security.flash.slot d.preferredB) (fun k => k == 0)) = none →
      Completes .bootRomComplete s fun t => t.stage = 1 ∧ t.rdB Fld.secBootStatus_slot = d.preferredB ∧
        t.rdN Fld.secBootStatus_sec_version = imgSecVersion (s.security.flash.slot d.preferredB) ∧
        t.security.signerKey = imgSigner (s.security.flash.slot d.preferredB) ∧ t.pcie.configReady = true ∧
        t.reports = s.reports ∧ OnlyIn [.regs, .security, .pcie] s t) ∧
    (∀ e, (s.manifestFault (s.security.flash.slot d.preferredB)).or (stageFault (s.security.flash.slot d.preferredB) (fun k => k == 0)) = some e →
      Completes .bootRomComplete s fun t => t.stage = 0 ∧ t.security.failures = 1 ∧ t.rdN Fld.secBootStatus_error = e.1.toNat ∧
        t.security.measure = List.replicate 16 (List.replicate 64 0) ∧ t.reports = s.reports)) ∧
  (∀ (s : State), s.security.perst = false → s.stage = 0 → s.actingMode ≠ 7 → s.security.flash.present = false →
    Completes .bootRomComplete s fun t => t.stage = (if s.security.otp.bootModeLock = true then 15 else 14)) ∧
  (∀ (s : State), s.security.perst = false → s.stage = 1 →
    (stageFault s.runningImage (fun k => k == 1) = none → Completes (.barkFirmwareComplete true) s fun t => t.stage = 2 ∧
      OnlyIn [.regs, .security] s t ∧ RegsBut [Fld.secBootStatus_stage.key 0 0] s t) ∧
    (s.security.failures = 0 → Completes (.barkFirmwareComplete false) s fun t => t.stage = 0 ∧ t.security.failures = 1 ∧
      t.rdN Fld.secBootStatus_error = stFlashError.toNat ∧ ∃ r, t.reports = s.reports ++ [r] ∧ r.source = 6) ∧
    (s.security.failures = 1 → Completes (.barkFirmwareComplete false) s fun t =>
      t.stage = (if s.security.otp.bootModeLock = true then 15 else 14))) ∧
  (∀ (s : State), s.security.perst = false → s.stage = 2 → Completes .graftLogApplied s fun t => t.stage = 3 ∧
    ∀ r, s.bark.flashGraft = [r] → s.bark.retiredPos = [] → r.source = 0x0F → r.kind ≠ 7 → r.stem < 4 → r.logical < 1024 →
      t.mem.retired = s.mem.retired ++ [⟨r.stem, r.logical / 16, r.logical % 16⟩] ∧
      t.bankState ⟨r.stem, r.logical / 16, r.logical % 16⟩ = bankOff) ∧
  (∀ (s : State), s.security.perst = false → s.stage = 3 →
    (∀ dead, dead < 16 → stageFault s.runningImage (fun k => k == 2 || k == 3) = none → Completes (.memoryStageComplete true dead) s fun t =>
      t.stage = 4 ∧ t.rdB Fld.timStatus_tree_calibrated = true ∧
      (∀ n, n < 4 → dead.testBit n = true → t.rdN Fld.hbmStackStatus_usable_slices n = 0 ∧ ∃ r ∈ t.reports, r.source = 0x0C ∧ r.stem = n) ∧
      OnlyIn [.regs, .reports] s t)) ∧
  (∀ (s : State), s.security.perst = false → s.stage = 4 →
    (s.locked = false → Completes (.samplesStageComplete []) s fun t => t.stage = 5 ∧ t.mode = s.mode ∧ OnlyIn [.regs, .bark] s t) ∧
    (s.locked = true → s.mode = modeBoot → s.security.otp.lifecycle ≠ .manufacture → Completes (.samplesStageComplete []) s fun t =>
      t.stage = 7 ∧ t.mode = modeOperational ∧ t.bark.faultLow = false ∧ t.bark.twinFaultLow = false ∧ OnlyIn [.regs, .bark] s t))

/-- Firmware images, fuses, measurements, hashes and IDE streams.
Staging first makes the slot that is not running invalid and then, with the image there, marks it valid exactly where every
check of R496 passes, and one image is staged at a time. A valid staged slot is preferred on trial; a commit prefers the
running slot and ends the trial. An order revokes its slot where it keeps R497 and changes no fuse otherwise. Rollback rises
to the running version, not on trial. Registers 9 to 15 are extended. A signature's check says 0 or 1. A stream that fails
integrity is Insecure and counted, and a command that lost its access by it ends with IDE_STREAM. What an SPDM message does to
the streams is a free choice, log entry 197. It also rests on choices and readings of the model: log entries 18, 193, 194 and
198. (R497, R500, R503, R506, R507, R508, R509, R493, R496, 16_security_startup.md) -/
def Obligations.SecurityCommandsKeepTheirRules : Prop :=
  (∀ (s : State) (cmd : Nat) (c : Cmd), s.running cmd 0 0xB0 = some c → s.security.flash.present = true →
    (c.started = false → s.security.staging = none → Completes (.firmwareStage cmd) s fun t => t.security.staging = some cmd ∧
      t.cmd? cmd = some { c with started := true } ∧
      (∀ d, s.security.flash.dir? = some d → ∃ e, (e = t.security.flash.dir0 ∨ e = t.security.flash.dir1) ∧
        e.valid (!s.rdB Fld.secBootStatus_slot) = false ∧ e.seq = d.seq + 1 ∧ e.crcOk = true) ∧ OnlyIn [.queues, .security] s t) ∧
    (c.started = false → s.security.staging.isSome = true → Completes (.firmwareStage cmd) s fun t => t.Ended cmd stFwBusy 0 ∧ OnlyIn [.queues] s t) ∧
    (∀ s1 img, c.started = true →
      State.basicLoad { s with security := { s.security with staging := none } } c (c.b 24 8) (c.b 32 4) = (s1, .ok img) → s1.security.staging = none →
      (s1.cmd? cmd).isSome = true →
      Completes (.firmwareStage cmd) s fun t => t.security.staging = none ∧ t.security.flash.slot (!s.rdB Fld.secBootStatus_slot) = img ∧
        t.security.flash.slot (s.rdB Fld.secBootStatus_slot) = s1.security.flash.slot (s.rdB Fld.secBootStatus_slot) ∧
        (s1.imageFault img = none → t.Ended cmd stSuccess 0)) ∧
    (∀ s1 img e, c.started = true →
      State.basicLoad { s with security := { s.security with staging := none } } c (c.b 24 8) (c.b 32 4) = (s1, .ok img) →
      s1.imageFault img = some e → (s1.cmd? cmd).isSome = true →
      Completes (.firmwareStage cmd) s fun t => t.Ended cmd e.1 e.2 ∧ t.security.flash.dir0 = s1.security.flash.dir0 ∧
        t.security.flash.dir1 = s1.security.flash.dir1)) ∧
  (∀ (s : State) (cmd : Nat) (c : Cmd), s.running cmd 0 0xB0 = some c → s.security.flash.present = false →
    Completes (.firmwareStage cmd) s fun t => t.Ended cmd stFlashError 0 ∧ OnlyIn [.queues] s t) ∧
  (∀ (s : State) (cmd : Nat) (c : Cmd) (d : Directory), s.running cmd 0 0xB1 = some c → c.b 16 1 = 0 → s.security.flash.present = true →
    s.security.flash.dir? = some d → d.seq ≠ 0xFFFFFFFF →
    (d.valid (!s.rdB Fld.secBootStatus_slot) = true → Completes (.firmwareActivateTrial cmd) s fun t =>
      t.security.flash.dir? = some { d with preferredB := !s.rdB Fld.secBootStatus_slot, trial := true, seq := d.seq + 1, crcOk := true } ∧
      t.Ended cmd stSuccess 0 ∧ OnlyIn [.queues, .security] s t) ∧
    (d.valid (!s.rdB Fld.secBootStatus_slot) = false → Completes (.firmwareActivateTrial cmd) s fun t => t.Ended cmd stImageFormat 0 ∧
      OnlyIn [.queues] s t)) ∧
  (∀ (s : State) (cmd : Nat) (c : Cmd) (d : Directory), s.running cmd 0 0xB1 = some c → c.b 16 1 = 1 → s.security.flash.present = true →
    s.security.flash.dir? = some d → d.seq ≠ 0xFFFFFFFF → Completes (.firmwareActivateCommit cmd) s fun t =>
      t.security.flash.dir? = some { d with preferredB := s.rdB Fld.secBootStatus_slot, trial := false, seq := d.seq + 1, crcOk := true } ∧
      t.rdB Fld.secTrialSeen_seen = false ∧ t.Ended cmd stSuccess 0 ∧ OnlyIn [.regs, .queues, .security] s t) ∧
  (∀ (s s1 : State) (cmd : Nat) (c : Cmd) (b : List Byte), s.running cmd 0 0xB2 = some c → s.basicLoad c (c.b 24 8) (c.b 32 4) = (s1, .ok b) →
    (s1.cmd? cmd).isSome = true →
    (s1.orderOk b = true → Completes (.otpOrder cmd) s fun t => t.security.otp.revoked.testBit (leAt b 5 1) = true ∧
      (∀ k, k ≠ leAt b 5 1 → t.security.otp.revoked.testBit k = s1.security.otp.revoked.testBit k) ∧
      (∃ k, k < 4 ∧ t.security.otp.revoked.testBit k = false) ∧ t.Ended cmd stSuccess 0) ∧
    (s1.orderOk b = false → Completes (.otpOrder cmd) s fun t => t.security = s1.security ∧
      t.Ended cmd stOtpRefused (BitVec.ofNat 32 (leAt b 5 1)))) ∧
  (∀ (s : State) (cmd : Nat) (c : Cmd), s.running cmd 0 0xB3 = some c →
    (((s.security.flash.dir?).getD {}).trial = false → Completes (.rollbackCommit cmd) s fun t =>
      t.security.otp.rollback = max s.security.otp.rollback (s.rdN Fld.secBootStatus_sec_version) ∧ t.Ended cmd stSuccess 0 ∧
      OnlyIn [.queues, .security] s t) ∧
    (((s.security.flash.dir?).getD {}).trial = true → Completes (.rollbackCommit cmd) s fun t => t.Ended cmd stOtpRefused 0xFF ∧
      OnlyIn [.queues] s t)) ∧
  (∀ (s : State) (cmd : Nat) (c : Cmd), s.running cmd 0 0xB4 = some c →
    (c.b 16 1 < 9 ∨ 15 < c.b 16 1 → Completes (.measureExtend cmd) s fun t => t.Ended cmd stMeasureRange (BitVec.ofNat 32 (c.b 16 1)) ∧
      OnlyIn [.queues] s t) ∧
    (∀ s1 d m, 9 ≤ c.b 16 1 → c.b 16 1 ≤ 15 → s.basicLoad c (c.b 24 8) 64 = (s1, .ok d) → (s1.cmd? cmd).isSome = true →
      s1.security.measure[c.b 16 1]? = some m → Completes (.measureExtend cmd) s fun t =>
        t.security.measure[c.b 16 1]? = some (Config.sha3 (m ++ d)) ∧
        (∀ k, k ≠ c.b 16 1 → t.security.measure[k]? = s1.security.measure[k]?) ∧ t.Ended cmd stSuccess 0)) ∧
  (∀ (s s1 s2 : State) (cmd : Nat) (c : Cmd) (b : List Byte), s.running cmd 0xB 1 = some c → s.load c.origin (c.b 24 6) (c.b 36 4) = (s1, .ok b) →
    s1.store c.origin (c.b 30 6) (slice (Config.sha3 b) 0 64) = (s2, none) → (s2.cmd? cmd).isSome = true →
    Completes (.secHash cmd) s fun t => t.Ended cmd stSuccess 0 ∧ t.sap = s2.sap ∧ t.hbm = s2.hbm ∧ t.host = s2.host ∧ t.regs = s2.regs) ∧
  (∀ (s s1 s2 s3 : State) (cmd : Nat) (c : Cmd) (key msg sig : List Byte), s.running cmd 0xB 2 = some c →
    s.load c.origin (c.b 24 6) 2592 = (s1, .ok key) → s1.load c.origin (c.b 30 6) (c.b 36 4) = (s2, .ok msg) →
    s2.load c.origin (c.b 40 6) 4627 = (s3, .ok sig) → (s3.cmd? cmd).isSome = true →
    Completes (.secVerify cmd) s fun t => t.Ended cmd stSuccess (if Config.mldsaVerify key msg sig = true then 0 else 1) ∧
      t.sap = s3.sap ∧ t.hbm = s3.hbm ∧ t.host = s3.host ∧ t.regs = s3.regs) ∧
  (∀ (s : State) (i : Nat) (cmd : Option Nat), i < 8 → s.security.ide.length = 8 →
    (s.security.ide[i]? = some .secure → Completes (.ideIntegrityFailure i cmd) s fun t => t.security.ide[i]? = some .insecure ∧
      (∀ k, k ≠ i → t.security.ide[k]? = s.security.ide[k]?) ∧ t.rd Fld.secIdeFail_failures = s.rd Fld.secIdeFail_failures + 1 ∧
      (∀ id c, cmd = some id → s.cmd? id = some c → c.phase = .running → t.Ended id stIdeStream (BitVec.ofNat 32 i))) ∧
    (s.security.ide[i]? ≠ some .secure → exec (.ideIntegrityFailure i cmd) s = .next s)) ∧
  (∀ (s : State) (m : List Byte), m ≠ [] → s.security.perst = false → Completes (.spdmMessage m) s fun t =>
    (∀ (i : Nat), t.security.ide[i]? = some IdeState.secure → s.security.ide[i]? = some IdeState.secure ∨
      s.rdB Fld.pciLinkStatus_flit_mode = true ∧ s.security.identity = true) ∧ OnlyIn [.security, .free] s t)

/-- The requests of the management mailbox.
A request of the function at the head of the mailbox queue ends with a status: done is set, go is clear and the function has
left the queue. A certificate read writes the identity chain where the argument says, and an attestation ends with
IDENTITY_ABSENT on a device without an identity. A challenge replaces the one before. A refused response is counted and the
third in a row locks debug out; one that is accepted unlocks its scope and brings MAINT. A recovery block goes into slot B. A
request is not served behind another function's, nor in HALT. An expired challenge is gone. It also rests on choices and
readings of the model: log entries 5, 15, 18, 195 and 196. (R487, R498, R499, R500, R501, R502, R504, R505, R496) -/
def Obligations.MailboxRequestsAreServed : Prop :=
  (∀ (s : State) (fn : Nat) (q : List Nat), fn < 64 → s.security.perst = false → s.stage ≠ 15 → s.pcie.mailboxQueue = fn :: q → fn ∉ q →
    (s.rdN Fld.secMboxCmd_opcode 0 fn = 1 → s.security.identity = false → Completes (.attest fn) s fun t =>
      t.rdB Fld.secMboxCmd_done 0 fn = true ∧ t.rdB Fld.secMboxCmd_go 0 fn = false ∧
      t.rdN Fld.secMboxCmd_status 0 fn = stIdentityAbsent.toNat ∧ fn ∉ t.pcie.mailboxQueue ∧ OnlyIn [.regs, .pcie] s t) ∧
    (s.rdN Fld.secMboxCmd_opcode 0 fn = 1 → s.security.identity = true → s.holds fn = false → Completes (.attest fn) s fun t =>
      t.rdN Fld.secMboxCmd_status 0 fn = 0 ∧ t.rdB Fld.secMboxCmd_done 0 fn = true ∧ OnlyIn [.regs, .pcie, .host, .out] s t ∧
      ∃ b, t.host = memWrite s.host (s.mboxArg fn 1) b ∧
        b.take 4 = [0x52, 0x54, 0x41, 0x4E]) ∧
    (s.rdN Fld.secMboxCmd_opcode 0 fn = 2 → s.security.identity = true → s.holds fn = false → Completes (.certRead fn) s fun t =>
      t.host = memWrite s.host (s.mboxArg fn 1) (slice s.security.chain 0 14630) ∧ t.rdN Fld.secMboxCmd_status 0 fn = 0 ∧
      t.rdB Fld.secMboxCmd_done 0 fn = true ∧ OnlyIn [.regs, .pcie, .host, .out] s t ∧
      t.out = .hostWrite fn (s.mboxArg fn 1) (slice s.security.chain 0 14630) :: s.out) ∧
    (s.rdN Fld.secMboxCmd_opcode 0 fn = 2 → s.holds fn = true → s.security.identity = true → Completes (.certRead fn) s fun t =>
      t.rdN Fld.secMboxCmd_status 0 fn = stAddress.toNat ∧ t.host = s.host) ∧
    (s.rdN Fld.secMboxCmd_opcode 0 fn = 3 → s.holds fn = false → Completes (.debugChallenge fn) s fun t =>
      (∃ b, t.security.challenge = some (b, s.mboxArg fn 2 % 4) ∧ b.length = 64 ∧ t.host = memWrite s.host (s.mboxArg fn 1) b) ∧
      t.rdN Fld.secMboxCmd_status 0 fn = 0 ∧ OnlyIn [.regs, .pcie, .host, .security, .free, .out] s t) ∧
    (∀ st, s.rdN Fld.secMboxCmd_opcode 0 fn = 4 → s.holds fn = false →
      s.debugRefusal (memRead s.host (s.mboxArg fn 0) (s.mboxArg fn 1 % 65536)) = some (st, true) → Completes (.debugResponse fn) s fun t =>
        t.rdN Fld.secDebugStatus_failures = satTo Fld.secDebugStatus_failures.width (s.rdN Fld.secDebugStatus_failures + 1) ∧
        (2 ≤ s.rdN Fld.secDebugStatus_failures → t.rdB Fld.secDebugStatus_lockout = true) ∧
        t.rdN Fld.secDebugStatus_unlocked = s.rdN Fld.secDebugStatus_unlocked ∧ t.mode = s.mode ∧
        t.rdN Fld.secMboxCmd_status 0 fn = st.toNat ∧ OnlyIn [.regs, .pcie, .out] s t ∧
        t.out = .hostRead fn (s.mboxArg fn 0) (s.mboxArg fn 1 % 65536) :: s.out) ∧
    (s.rdN Fld.secMboxCmd_opcode 0 fn = 4 → s.holds fn = false →
      s.debugRefusal (memRead s.host (s.mboxArg fn 0) (s.mboxArg fn 1 % 65536)) = none → Completes (.debugResponse fn) s fun t =>
        t.mode = modeMaint ∧ t.bark.faultLow = true ∧ t.bark.twinFaultLow = true ∧ t.rdN Fld.secDebugStatus_failures = 0 ∧
        t.rdN Fld.secMboxCmd_status 0 fn = 0) ∧
    (s.rdN Fld.secMboxCmd_opcode 0 fn = 5 → s.holds fn = false → s.security.flash.present = true → s.mboxArg fn 2 ≤ 1048576 →
      s.mboxArg fn 1 + s.mboxArg fn 2 ≤ slotBytes → s.mboxArg fn 3 % 2 = 0 → Completes (.recoveryBlock fn) s fun t =>
        t.security.flash.slotB = patchSlot s.security.flash.slotB (s.mboxArg fn 1) (memRead s.host (s.mboxArg fn 0) (s.mboxArg fn 2)) ∧
        t.security.flash.slotA = s.security.flash.slotA ∧ t.security.flash.dir0 = s.security.flash.dir0 ∧
        t.rdN Fld.secMboxCmd_status 0 fn = 0 ∧ OnlyIn [.regs, .pcie, .security, .out] s t) ∧
    (s.rdN Fld.secMboxCmd_opcode 0 fn = 5 → 1048576 < s.mboxArg fn 2 → Completes (.recoveryBlock fn) s fun t =>
      t.rdN Fld.secMboxCmd_status 0 fn = stBadValue.toNat ∧ t.security = s.security)) ∧
  (∀ (s : State) (fn : Nat), fn < 64 → (s.stage = 15 ∨ s.pcie.mailboxQueue.head? ≠ some fn) → exec (.attest fn) s = .next s ∧
    exec (.certRead fn) s = .next s ∧ exec (.debugChallenge fn) s = .next s ∧ exec (.debugResponse fn) s = .next s ∧
    exec (.recoveryBlock fn) s = .next s) ∧
  (∀ s : State, s.passed s.security.challengeAt 60000000000 = false → exec .challengeExpire s = .next s) ∧
  (∀ (s : State), s.passed s.security.challengeAt 60000000000 = true → Completes .challengeExpire s fun t => t.security = { s.security with challenge := none } ∧ OnlyIn [.security] s t)

/-- The orders of the trace, and markers.
An order of the trace where there is no trace region ends with RESOURCE. A start enables the trace, with state running and no
record counted; a stop disables it and stops what ran; a mode is taken; an order to trigger is one only in mode TRIGGER: its
record is written, and tracing stops at once where no record is to follow it. Each order ends with SUCCESS and stands in the
Rings of the Queue Manager. A marker is a record of type 0x0B with the 12 bytes of the command. A record that the trace takes
is written at the next slot of the region, and a full trace in mode STOP counts what it drops. What a start clears is the
model's choice, log entry 200. (R103, R520, R521, R522, R523, R525, R532, 17_observability.md) -/
def Obligations.TraceOrdersAndMarks : Prop :=
  (∀ (s : State) (cmd : Nat) (c : Cmd), s.running cmd 0 0xE0 = some c → s.rdN Fld.trcSize_size_mib = 0 →
    (c.b 16 1 = 0 → Completes (.traceStart cmd) s fun t => t.Ended cmd stResource 0 ∧ OnlyIn [.queues] s t) ∧
    (c.b 16 1 = 1 → Completes (.traceStop cmd) s fun t => t.Ended cmd stResource 0 ∧ OnlyIn [.queues] s t) ∧
    (c.b 16 1 = 2 → Completes (.traceTriggerNow cmd) s fun t => t.Ended cmd stResource 0 ∧ OnlyIn [.queues] s t) ∧
    (c.b 16 1 = 3 → Completes (.traceSetMode cmd) s fun t => t.Ended cmd stResource 0 ∧ OnlyIn [.queues] s t)) ∧
  (∀ (s : State) (cmd : Nat) (c : Cmd), s.running cmd 0 0xE0 = some c → s.rdN Fld.trcSize_size_mib ≠ 0 →
    (c.b 16 1 = 0 → Completes (.traceStart cmd) s fun t => t.rdB Fld.trcCtrl_enable = true ∧ t.rdN Fld.trcStatus_state = 1 ∧
      t.observe.traceCount = 0 ∧ t.rdN Fld.trcStatus_next_slot = 0 ∧ t.Ended cmd stSuccess 0 ∧
      (∃ l, t.observe.rings.find? (fun x => x.1 == 0) = some (0, l) ∧ ∃ r ∈ l.take 2, r.event = 0x0A) ∧
      OnlyIn [.regs, .hbm, .queues, .observe, .free] s t) ∧
    (c.b 16 1 = 1 → Completes (.traceStop cmd) s fun t => t.rdB Fld.trcCtrl_enable = false ∧
      (s.rdN Fld.trcStatus_state = 0 → t.rdN Fld.trcStatus_state = 0) ∧ (s.rdN Fld.trcStatus_state ≠ 0 → t.rdN Fld.trcStatus_state = 3) ∧
      t.Ended cmd stSuccess 0 ∧ OnlyIn [.regs, .hbm, .queues, .observe, .free] s t) ∧
    (c.b 16 1 = 3 → c.b 17 1 < 3 → Completes (.traceSetMode cmd) s fun t => t.rdN Fld.trcCtrl_mode = c.b 17 1 ∧ t.Ended cmd stSuccess 0 ∧
      t.rdB Fld.trcCtrl_enable = s.rdB Fld.trcCtrl_enable) ∧
    (c.b 16 1 = 2 → s.armedTrigger = false → s.rdB Fld.trcCtrl_enable = false → Completes (.traceTriggerNow cmd) s fun t =>
      t.Ended cmd stSuccess 0 ∧ t.regs = s.regs ∧ t.hbm = s.hbm ∧ OnlyIn [.queues, .observe] s t) ∧
    (c.b 16 1 = 2 → s.armedTrigger = true →
      Completes (.traceTriggerNow cmd) s fun t =>
        t.rdN Fld.trcStatus_state = (if s.rdN Fld.trcPost_post_records = 0 then 3 else 2) ∧ t.observe.traceCount = s.observe.traceCount + 1 ∧
        t.rdN Fld.trcStatus_trigger_slot = s.observe.traceCount % s.traceSlots % 2 ^ Fld.trcStatus_trigger_slot.width ∧ t.Ended cmd stSuccess 0)) ∧
  (∀ (s : State) (cmd : Nat) (c : Cmd), s.running cmd 0 0xE1 = some c →
    (s.rdB Fld.trcCtrl_enable = false → Completes (.traceMark cmd) s fun t => t.Ended cmd stSuccess 0 ∧ t.hbm = s.hbm ∧
      (∃ r l, t.observe.rings.find? (fun x => x.1 == 0) = some (0, r :: l) ∧ r.event = 0x0B) ∧ OnlyIn [.queues, .observe] s t) ∧
    exec (.traceMark cmd) s = .next (s.after ((s.event qmUnit 0x0B c.ev (natToBytes 12 (c.b 20 12))).finish cmd stSuccess))) ∧
  (∀ (s : State) (r : TraceRecord), s.rdN Fld.trcStatus_state = 1 → s.traceSlots ≠ 0 → r.trigger = false →
    (s.rdN Fld.trcCtrl_mode ≠ 0 ∨ s.observe.traceCount < s.traceSlots) →
    (s.putTrace r).hbm = memWrite s.hbm (s.rdN Fld.trcBase_base * 4096 + 32 * (s.observe.traceCount % s.traceSlots)) (traceBytes r) ∧
    (s.putTrace r).observe.traceCount = s.observe.traceCount + 1 ∧ (s.putTrace r).rdN Fld.trcStatus_state = 1) ∧
  (∀ (s : State) (r : TraceRecord), s.rdN Fld.trcStatus_state = 3 → s.traceSlots ≠ 0 → s.rdN Fld.trcCtrl_mode = 0 →
    (s.putTrace r).hbm = s.hbm ∧ (s.putTrace r).rd Fld.trcDropped_dropped = (s.rd Fld.trcDropped_dropped + 1) &&& lowMask Fld.trcDropped_dropped.width)

/-- Watchdogs, hung units and dumps.
A watched unit that hangs stands in its Rings, a dump of reason 0 that names it is captured where a slot is free, and its
input queue is reset with report 0x16 and an event in its Rings; a unit that is not watched, has hung already, holds no work
or has committed some within wd_us changes nothing. A unit that commits work has hung no more, and its time starts again. A
dump that is requested has the next number and reason 2, and fails with RESOURCE and is counted as lost without a free slot.
The oldest dump is written to its slot in HBM with the magic number first, and to the host where there is a host address;
freeing a slot clears its bit and nothing else. It also rests on choices and readings of the model: log entries 5, 202, 203
and 204. (R480, R512, R525, R526, R527, R528, R529, R532, 17_observability.md) -/
def Obligations.HangsAndDumps : Prop :=
  (∀ (s : State) (u : Nat), isWatched u = true → (s.watched u = false ∨ s.barkRuns = false ∨ u ∈ s.observe.hung ∨
      s.holdsWork u = false ∨ s.silentFor u = false) →
    exec (.unitHang u) s = .next s) ∧
  (∀ (s : State) (u : Nat), isWatched u = true → s.watched u = true → s.barkRuns = true → u ∉ s.observe.hung →
    s.holdsWork u = true → s.silentFor u = true →
    (∀ r, r = (s.ring u 0x10 0 0 0 []).noteWork u → exec (.unitHang u) s = .next (s.after
      ((State.captureDump { r with observe := { r.observe with hung := s.observe.hung ++ [u] } } 0 u).resetInputQueue u))) ∧
    (s.queuedAt u = [] → u / 4096 ≠ 3 → u / 4096 ≠ 9 → u / 4096 ≠ 12 → s.rdN Fld.trcDumpBase_base ≠ 0 → s.freeDumpSlot.isSome = true →
      Completes (.unitHang u) s fun t => u ∈ t.observe.hung ∧ (∃ r, t.reports = s.reports ++ [r] ∧ r.source = 0x16) ∧
        (∃ r l, t.observe.rings.find? (fun x => x.1 == u) = some (u, r :: l) ∧ r.event = 0x11) ∧
        (∃ d, t.observe.dumps = s.observe.dumps ++ [d] ∧ d.reason = 0 ∧ d.unit = u ∧ d.seq = s.observe.dumpSeq) ∧
        OnlyIn [.observe, .reports] s t)) ∧
  (∀ (s : State) (u : Nat), u ∉ (s.worked u).observe.hung ∧ (s.worked u).silentFor u = false ∧
    (∀ v, v ≠ u → (s.worked u).silentFor v = s.silentFor v) ∧ OnlyIn [.observe] s (s.worked u)) ∧
  (∀ (s : State) (cmd : Nat) (c : Cmd), s.running cmd 0 0xE2 = some c → s.barkRuns = true →
    (∀ i, s.rdN Fld.trcDumpBase_base ≠ 0 → s.freeDumpSlot = some i → Completes (.dumpRequest cmd) s fun t =>
      t.observe.dumps = s.observe.dumps ++ [({ seq := s.observe.dumpSeq, reason := 2, unit := 0, time := s.leaf barkIsland, slot := i } : Dump)] ∧
      t.Ended cmd stSuccess s.observe.dumpSeq ∧ OnlyIn [.queues, .observe] s t) ∧
    (s.freeDumpSlot = none → Completes (.dumpRequest cmd) s fun t => t.observe.dumps = s.observe.dumps ∧ t.Ended cmd stResource 0 ∧
      t.rdN Fld.trcDumpStatus_dumps_lost = satTo Fld.trcDumpStatus_dumps_lost.width (s.rdN Fld.trcDumpStatus_dumps_lost + 1) ∧
      OnlyIn [.regs, .queues] s t)) ∧
  (∀ (s : State) (cmd : Nat) (c : Cmd), s.running cmd 0 0xE2 = some c → s.barkRuns = false → exec (.dumpRequest cmd) s = .next s) ∧
  (∀ (s : State) (d : Dump) (l : List Dump), s.observe.dumps = d :: l → s.barkRuns = true → d.slot < 2 →
    Completes .dumpWritten s fun t => t.observe.dumps = l ∧ (t.rdN Fld.trcDumpStatus_slot_full).testBit d.slot = true ∧
      t.hbm = memWrite s.hbm (s.rdN Fld.trcDumpBase_base * 4096 + d.slot * 0x400000) (s.dumpBytes d) ∧
      (s.dumpBytes d).take 4 = [0x50, 0x4D, 0x44, 0x4E] ∧
      (s.rdN Fld.trcDumpHost_host = 0 → t.host = s.host) ∧
      (s.rdN Fld.trcDumpHost_host ≠ 0 → s.holds 0 = false →
        t.host = memWrite s.host (s.rdN Fld.trcDumpHost_host * 4096 + d.slot * 0x400000) (s.dumpBytes d)) ∧
      OnlyIn [.regs, .hbm, .host, .observe, .bark, .pcie, .out] s t) ∧
  (∀ (s : State), s.observe.dumps = [] → exec .dumpWritten s = .next s) ∧
  (∀ (s : State) (i : Nat), i < 2 → s.takesRegs 0 = true → Completes (.dumpSlotFree i) s fun t =>
    (t.rdN Fld.trcDumpStatus_slot_full).testBit i = false ∧
    (∀ k, k < 2 → k ≠ i → (t.rdN Fld.trcDumpStatus_slot_full).testBit k = (s.rdN Fld.trcDumpStatus_slot_full).testBit k) ∧
    OnlyIn [.regs] s t ∧ RegsBut [Fld.trcDumpStatus_slot_full.key 0 0] s t)

/-- Pollard's loop, the cap, and the temperatures of the Stems.
A new cap is taken, and acts between 120 and 480 W. A loop above the cap lowers the tile ceilings of the Stems that are ON, by
25 to 200 MHz and not below the floor, while one of them is above it; with every ceiling at its lowest the cap is unmet. A
loop below 97 % of the cap with every tile ceiling at or above the floor and every engine ceiling at 1.0 GHz raises tile
ceilings by 50 MHz up to what each Stem may have. With Pollard disabled no ceiling moves. A Stem at or above the throttle
temperature loses 100 MHz of its thermal ceiling, one more than 5 °C below gains 25 MHz; at 105 °C the clamp holds and is
reported once, and below 100 °C it is released. A Stem that is OFF is not read. It also rests on choices and readings of the
model: log entries 205 and 206. (R538, R539, R540, R541, R543, R544, R546, R551, R552, 18_power_clocks.md) -/
def Obligations.PowerLoopsAndTemperatures : Prop :=
  (∀ (s : State) (cmd : Nat) (c : Cmd), s.running cmd 0 0xF0 = some c → Completes (.powerCap cmd) s fun t =>
    t.rdN Fld.pwrCap_cap_w = c.b 16 2 % 2 ^ Fld.pwrCap_cap_w.width ∧ 120 ≤ t.capWatts ∧ t.capWatts ≤ 480 ∧ t.Ended cmd stSuccess 0 ∧
    OnlyIn [.regs, .queues] s t ∧ RegsBut [Fld.pwrCap_cap_w.key 0 0] s t) ∧
  (∀ (s : State) (mw : Nat), s.rdB Fld.pwrCtrl_pollard_enable = false → Completes (.pollardLoop mw) s fun t =>
    t.power.tileCeil = s.power.tileCeil ∧ t.power.engineCeil = s.power.engineCeil ∧ t.power.recent = (mw :: s.power.recent).take 10 ∧
    OnlyIn [.regs, .power] s t) ∧
  (∀ (s : State) (mw j : Nat), s.rdB Fld.pwrCtrl_pollard_enable = true → j < 4 → s.stemOn j = true → 1000 * s.capWatts < mw →
    s.tileFloor < s.tileCeil j → s.tileCeil j ≤ 48 → Completes (.pollardLoop mw) s fun t =>
      s.tileFloor ≤ t.tileCeil j ∧ t.tileCeil j < s.tileCeil j ∧ s.tileCeil j ≤ t.tileCeil j + 8 ∧
      t.power.engineCeil = s.power.engineCeil ∧ OnlyIn [.regs, .power, .free] s t) ∧
  (∀ (s : State) (mw : Nat), s.rdB Fld.pwrCtrl_pollard_enable = true → 1000 * s.capWatts < mw →
    (∀ j, j < 4 → s.stemOn j = true → s.tileCeil j ≤ 14 ∧ s.engineCeil j ≤ 14) → Completes (.pollardLoop mw) s fun t =>
      t.rdB Fld.pwrStatus_cap_unmet = true ∧ t.power.engineCeil = s.power.engineCeil) ∧
  (∀ (s : State) (mw j : Nat), s.rdB Fld.pwrCtrl_pollard_enable = true → 100 * mw < 97000 * s.capWatts → j < 4 → s.stemOn j = true →
    s.rdB Fld.pwrCtrl_boost_enable = false → (∀ i, i < 4 → s.stemOn i = true → s.tileFloor ≤ s.tileCeil i ∧ s.tileCeil i ≤ 48 ∧ 40 ≤ s.engineCeil i) →
    Completes (.pollardLoop mw) s fun t => t.tileCeil j = (if s.tileCeil j = 48 then 48 else min 48 (s.tileCeil j + 2)) ∧
      t.rdB Fld.pwrStatus_cap_unmet = false) ∧
  (∀ (s : State) (ts : List (List Nat)) (j : Nat), isTemps ts = true → j < 4 → s.rdN Fld.pwrStemStatus_state j ≠ 0 →
    (s.throttleC ≤ (hottest (nth [] ts j)).2 → s.rdN Fld.pwrStemStatus_thermal_ceiling j ≤ 56 → Completes (.thermalSample ts) s fun t =>
      t.rdN Fld.pwrStemStatus_thermal_ceiling j = max 14 (s.rdN Fld.pwrStemStatus_thermal_ceiling j - 4)) ∧
    ((hottest (nth [] ts j)).2 + 5 < s.throttleC → Completes (.thermalSample ts) s fun t =>
      t.rdN Fld.pwrStemStatus_thermal_ceiling j = min 56 (s.rdN Fld.pwrStemStatus_thermal_ceiling j + 1)) ∧
    (105 ≤ (hottest (nth [] ts j)).2 → s.rdB Fld.pwrStemStatus_clamp j = false → Completes (.thermalSample ts) s fun t =>
      t.rdB Fld.pwrStemStatus_clamp j = true ∧ ∃ r ∈ t.reports, r.source = 5 ∧ r.stem = j ∧ r.logical = (hottest (nth [] ts j)).1) ∧
    (105 ≤ (hottest (nth [] ts j)).2 → s.rdB Fld.pwrStemStatus_clamp j = true → (∀ i, i < 4 → i ≠ j → s.rdN Fld.pwrStemStatus_state i = 0) →
      Completes (.thermalSample ts) s fun t => t.rdB Fld.pwrStemStatus_clamp j = true ∧ t.reports = s.reports) ∧
    ((hottest (nth [] ts j)).2 < 100 → Completes (.thermalSample ts) s fun t => t.rdB Fld.pwrStemStatus_clamp j = false)) ∧
  (∀ (s : State) (ts : List (List Nat)), isTemps ts = true → (∀ j, j < 4 → s.rdN Fld.pwrStemStatus_state j = 0) →
    Completes (.thermalSample ts) s fun t => t.reports = s.reports ∧
      ∀ j, t.rdN Fld.pwrStemStatus_thermal_ceiling j = s.rdN Fld.pwrStemStatus_thermal_ceiling j)

/-- Whole-Stem power, order by order.
An off order of a Stem that is ON and concerns no partition makes it DRAINING and waits for OFF; one that concerns a partition
ends with OWNERSHIP and the lowest of them; in STARTING it stays pending, in DRAINING it takes a pending re-enable away, and
in OFF it is done. An on order of a Stem that is OFF makes it STARTING, one in DRAINING pends, one in STARTING cancels a
pending off order, and in ON it is done. A draining Stem that is done is OFF with its Sapwood cleared and its orders ended, or
STARTING where a re-enable pends; a started Stem is ON. It also rests on choices and readings of the model: log entry 207.
(R58, R481, R545, R546, R547, R551, 18_power_clocks.md) -/
def Obligations.StemsGoOffAndOn : Prop :=
  (∀ (s : State) (cmd : Nat) (c : Cmd) (j : Nat), s.running cmd 0 0xF1 = some c → c.started = false → j = c.f 0 16 0 2 → c.b 17 1 = 0 →
    (s.stemState j = 0 → Completes (.stemPowerOff cmd) s fun t => t.Ended cmd stSuccess 0 ∧ t.stemState j = 0 ∧ t.power = s.power) ∧
    (s.stemState j = 2 → s.stemConcern j = none → Completes (.stemPowerOff cmd) s fun t => t.stemState j = bankDraining ∧
      t.power.offCmds = s.power.offCmds ++ [(j, cmd)] ∧ t.power.tileCeil = s.power.tileCeil) ∧
    (∀ p, s.stemState j = 2 → s.stemConcern j = some p → Completes (.stemPowerOff cmd) s fun t => t.stemState j = 2 ∧
      t.Ended cmd stOwnership (BitVec.ofNat 32 p)) ∧
    (s.stemState j = bankStarting → Completes (.stemPowerOff cmd) s fun t => t.stemState j = bankStarting ∧ j ∈ t.power.downPending ∧
      (j, cmd) ∈ t.power.offCmds) ∧
    (s.stemState j = bankDraining → Completes (.stemPowerOff cmd) s fun t => t.stemState j = bankDraining ∧
      t.rdB Fld.pwrStemStatus_reenable_pending j = false ∧ (j, cmd) ∈ t.power.offCmds ∧ ∀ x ∈ t.power.onCmds, x.1 ≠ j)) ∧
  (∀ (s : State) (cmd : Nat) (c : Cmd) (j : Nat), s.running cmd 0 0xF1 = some c → c.started = false → j = c.f 0 16 0 2 → c.b 17 1 = 1 →
    (s.stemState j = 2 → Completes (.stemPowerOn cmd) s fun t => t.Ended cmd stSuccess 0 ∧ t.stemState j = 2 ∧ t.power = s.power) ∧
    (s.stemState j = 0 → Completes (.stemPowerOn cmd) s fun t => t.stemState j = bankStarting ∧ t.power.onCmds = s.power.onCmds ++ [(j, cmd)]) ∧
    (s.stemState j = bankStarting → s.power.downPending.Nodup → Completes (.stemPowerOn cmd) s fun t => t.stemState j = bankStarting ∧
      j ∉ t.power.downPending ∧ (j, cmd) ∈ t.power.onCmds ∧ ∀ x ∈ t.power.offCmds, x.1 ≠ j) ∧
    (s.stemState j = bankDraining → Completes (.stemPowerOn cmd) s fun t => t.stemState j = bankDraining ∧
      t.rdB Fld.pwrStemStatus_reenable_pending j = true ∧ t.power.onCmds = s.power.onCmds ++ [(j, cmd)])) ∧
  (∀ (s : State) (j : Nat), j < 4 → s.stemState j = bankDraining →
    (s.rdB Fld.pwrStemStatus_reenable_pending j = false → Completes (.stemOffDone j) s fun t => t.stemState j = 0 ∧
      t.sap = memClear s.sap (sliceBase j 0) (sliceBase j 64) ∧ (∀ x ∈ t.power.offCmds, x.1 ≠ j) ∧
      (∀ id, (j, id) ∈ s.power.offCmds → (s.cmd? id).isSome = true → t.Ended id stSuccess 0)) ∧
    (s.rdB Fld.pwrStemStatus_reenable_pending j = true → Completes (.stemOffDone j) s fun t => t.stemState j = bankStarting ∧
      t.rdB Fld.pwrStemStatus_reenable_pending j = false)) ∧
  (∀ (s : State) (j : Nat), j < 4 → s.stemState j ≠ bankDraining → exec (.stemOffDone j) s = .next s) ∧
  (∀ (s : State) (j : Nat), j < 4 → s.stemState j = bankStarting → j ∉ s.power.downPending → Completes (.stemStartDone j []) s fun t =>
    t.stemState j = 2 ∧ (∀ x ∈ t.power.onCmds, x.1 ≠ j) ∧
    (∀ id, (j, id) ∈ s.power.onCmds → (s.cmd? id).isSome = true → t.Ended id stSuccess 0) ∧ OnlyIn [.regs, .queues, .bark, .power] s t) ∧
  (∀ (s : State) (j : Nat), j < 4 → s.stemState j ≠ bankStarting → exec (.stemStartDone j []) s = .next s)

/-- Function Level Reset, virtual functions and the device power states.
A Function Level Reset makes the function no requester, its commands silent, its rings draining or OFF, and a reset of the
physical function ends every virtual function too. It is over when no command of the function is left: the rings and groups
are gone and the registers per function are at their reset values. VF Enable creates functions up to NumVFs, and clearing it
keeps an entry until its reset is over. A function whose rings are OFF enters D3hot; one that returns to D0 answers again. It
also rests on choices and readings of the model: log entries 208 and 211. (R103, R107, R548, R549, R550, R558, R560, R595,
19_host_interface.md) -/
def Obligations.FunctionsResetAndChangePower : Prop :=
  (∀ (s : State) (fn : Nat) (f : Fn), fn < 64 → s.fnOn fn = true → s.fn? fn = some f → f.resetting = false → fn ≠ 0 →
    (s.queues.sqs.map (·.num)).Nodup → (∀ q ∈ s.queues.sqs, q.fn = fn → q.reenable = false) →
    Completes (.functionLevelReset fn) s fun t => (∃ g, t.fn? fn = some g ∧ g.resetting = true) ∧ t.holds fn = true ∧
      (∀ q ∈ t.queues.sqs, q.fn = fn → q.killed = true ∨ q.state = .off) ∧ (∀ c ∈ t.queues.cmds, c.fn = fn → c.silent = true)) ∧
  (∀ (s : State) (f : Fn), s.fn? 0 = some f → s.pcie.vfEnable = true → f.resetting = false → Completes (.functionLevelReset 0) s fun t =>
    t.pcie.vfEnable = false ∧ ∀ n g, t.fn? n = some g → n < 64 → g.resetting = true) ∧
  (∀ (s : State) (fn : Nat) (f : Fn), fn < 64 → s.fn? fn = some f → f.resetting = true → (∀ c ∈ s.queues.cmds, c.fn ≠ fn) →
    s.pcie.mailboxQueue = [] → Completes (.flrComplete fn) s fun t =>
      (∀ q ∈ t.queues.sqs, q.fn ≠ fn) ∧ (∀ q ∈ t.queues.cqs, q.fn ≠ fn) ∧ (∀ g ∈ t.queues.groups, g.fn ≠ fn) ∧
      (fn = 0 → t.fn? 0 = some f.fresh) ∧ (s.pcie.vfEnable = false → fn ≠ 0 → t.fn? fn = none) ∧
      (∀ g : Field, ∀ i, g.reg.info.perFn = true → regFind t.regs (g.key i fn) = none) ∧
      (∀ g : Field, ∀ i k, g.reg.info.perFn = false → t.rd g i k = s.rd g i k) ∧ OnlyIn [.regs, .queues, .pcie] s t) ∧
  (∀ (s : State) (n : Nat), n ≤ 63 → s.pcie.vfEnable = false → Completes (.vfEnableWrite true n) s fun t =>
    t.pcie.vfEnable = true ∧ t.pcie.numVfs = n ∧ (∀ k, 1 ≤ k → k ≤ n → t.fnOn k = true) ∧
    (∀ k, (s.fn? k).isSome = true → t.fn? k = s.fn? k) ∧ OnlyIn [.regs, .pcie] s t) ∧
  (∀ (s : State) (n : Nat), s.pcie.vfEnable = true → Completes (.vfEnableWrite false n) s fun t => t.pcie.vfEnable = false ∧
    t.pcie.numVfs = s.pcie.numVfs ∧ (∀ k, k < 64 → (s.fn? k).isSome = true → (t.fn? k).isSome = true ∧ (k ≠ 0 → t.fnOn k = false))) ∧
  (∀ (s : State) (fn : Nat) (f : Fn), fn < 64 → fn ≠ 0 → s.answers fn = true → s.fn? fn = some f → (∀ q ∈ s.queues.sqs, q.fn ≠ fn) →
    (∀ c ∈ s.queues.cmds, c.fn ≠ fn) → Completes (.pmcsrD3hot fn) s fun t => t.fn? fn = some { f with dstate := .d3hot } ∧
      t.answers fn = false ∧ t.holds fn = true ∧ OnlyIn [.pcie] s t) ∧
  (∀ (s : State) (fn : Nat), fn < 64 → s.answers fn = false → exec (.pmcsrD3hot fn) s = .next s) ∧
  (∀ (s : State) (fn : Nat) (f : Fn), fn < 64 → fn ≠ 0 → s.fnOn fn = true → s.fn? fn = some f → f.dstate = .d3hot → f.busMaster = false →
    Completes (.pmcsrD0 fn) s fun t => t.answers fn = true ∧ t.fn? fn = some { f with dstate := .d0 } ∧ OnlyIn [.pcie] s t) ∧
  (∀ (s : State) (j : Nat), j < 4 → (s.fn? 0).isSome = true → s.answers 0 = false → s.power.wasOn = [j] →
    Completes (.pmcsrD0 0) s fun t => t.stemState j = bankStarting ∧ t.power.wasOn = [])

/-- What the endpoint answers, its BAR2, its vectors, its link and the two locks.
Before the configuration defaults are loaded a request made within 20 ms of the release of PERST# is answered or told to
retry; after that the identification reads as R557 says, and bus mastering is taken. A BAR2 request of a function reaches
local space; one to register space or the host window is Completer Abort and logged, and one that no BAR2 claims is an
Unsupported Request. Clearing a mask sends the vector that was pending. A retrain to a speed and width shows them, and one out
of FLIT mode makes Secure streams Insecure. The set-up lock is taken where the checks pass and in stage WAIT_LOCK makes the
device READY, and a failing check leaves it open and shows its code; a function's own lock is taken. The offsets beyond R557's
are the model's choice, log entry 209. It also rests on choices and readings of the model: log entries 198, 210, 212 and 213.
(R488, R503, R554, R556, R557, R561, R563, R564, R565, R567, R568, 19_host_interface.md) -/
def Obligations.ConfigurationBar2VectorsAndLocks : Prop :=
  (∀ (s : State) (fn off : Nat) (v : Word), fn < 64 → s.security.perst = false → s.fnOn fn = true → s.pcie.configReady = true →
    (off = 0 → Completes (.pcieConfigRequest fn off false v) s fun t =>
      t.out = .completion fn 0 (natToBytes 4 (0x1FE1 + 65536 * (if fn = 0 then 0x5E10 else 0x5E11))) :: s.out ∧ OnlyIn [.out] s t) ∧
    (off = 0x2C → Completes (.pcieConfigRequest fn off false v) s fun t =>
      t.out = .completion fn 0 (natToBytes 4 0x1FE1) :: s.out ∧ OnlyIn [.out] s t) ∧
    (off = 4 → v.getLsbD 2 = false → Completes (.pcieConfigRequest fn off true v) s fun t => t.holds fn = true ∧
      t.out = .completion fn 0 [] :: s.out)) ∧
  (∀ (s : State) (fn off : Nat) (w : Bool) (v : Word), fn < 64 → s.security.perst = false → s.fnOn fn = false → s.pcie.configReady = false →
    (s.now - s.security.releasedAt).toNat < 20000000 → Completes (.pcieConfigRequest fn off w v) s fun t =>
      t.out = .completion fn 2 [] :: s.out ∧ t.pcie = s.pcie ∨ t.out = .completion fn 3 [] :: s.out ∧ t.pcie.configReady = true) ∧
  (∀ (s : State) (fn off n : Nat), fn < 64 → s.security.perst = false → 0 < n → n ≤ 4096 →
    (s.bar2Hit fn off n = false → Completes (.bar2Read fn off n) s fun t => t.out = .completion fn 3 [] :: s.out ∧ OnlyIn [.out] s t) ∧
    (s.bar2Hit fn off n = true → s.bar2Shuts (s.bar2Addr fn off) n = true → Completes (.bar2Read fn off n) s fun t =>
      t.out = .completion fn 1 [] :: s.out ∧
      (∀ f, s.fn? fn = some f → t.fn? fn = some { f with aerNonFatal := f.aerNonFatal + 1 }) ∧ OnlyIn [.pcie, .out] s t) ∧
    (∀ s1 b, s.bar2Hit fn off n = true → s.bar2Shuts (s.bar2Addr fn off) n = false →
      s.loadWhole (s.bar2Origin fn) (s.bar2Addr fn off) n = (s1, .ok b) → exec (.bar2Read fn off n) s = .next (s.after (s1.emit (.completion fn 0 b))))) ∧
  (∀ (s : State) (fn off : Nat) (d : List Byte), fn < 64 → s.security.perst = false → d ≠ [] →
    (s.bar2Hit fn off d.length = false → exec (.bar2Write fn off d) s = .next s) ∧
    (s.bar2Hit fn off d.length = true → s.bar2Shuts (s.bar2Addr fn off) d.length = true → Completes (.bar2Write fn off d) s fun t =>
      (∀ f, s.fn? fn = some f → t.fn? fn = some { f with aerNonFatal := f.aerNonFatal + 1 }) ∧ OnlyIn [.pcie] s t) ∧
    (∀ s1, s.bar2Hit fn off d.length = true → s.bar2Shuts (s.bar2Addr fn off) d.length = false →
      s.storeWhole (s.bar2Origin fn) (s.bar2Addr fn off) d = (s1, none) → exec (.bar2Write fn off d) s = .next (s.after s1))) ∧
  (∀ (s : State) (fn v : Nat) (f : Fn), fn < 64 → v < 2048 → s.answers fn = true → s.fn? fn = some f → f.msixEnable = true → f.fnMask = false →
    f.busMaster = true → f.resetting = false → f.pendingVecs = [v] → Completes (.msixUnmask fn (some v)) s fun t =>
      t.out = .msix fn v :: s.out ∧ (∀ g, t.fn? fn = some g → g.pendingVecs = [] ∧ v ∈ g.unmasked) ∧ OnlyIn [.pcie, .out] s t) ∧
  (∀ (s : State) (fn v : Nat) (f : Fn), fn < 64 → s.fnOn fn = true → s.fn? fn = some f → v ∈ f.unmasked → f.dstate = .d0 →
    f.busMaster = true → f.resetting = false → f.pendingVecs = [v] → Completes (.msixUnmask fn none) s fun t =>
      t.out = .msix fn v :: s.out ∧ OnlyIn [.pcie, .out] s t) ∧
  (∀ (s : State) (sp w : Nat), sp ∈ [1, 4, 5, 6] → w ∈ [4, 8, 16] → Completes (.pcieLinkRetrain sp w) s fun t =>
    t.rdN Fld.pciLinkStatus_speed = sp ∧ t.rdN Fld.pciLinkStatus_width = w ∧ (t.rdB Fld.pciLinkStatus_flit_mode = true ↔ sp = 6) ∧
    (t.rdB Fld.pciLinkStatus_degraded = false ↔ sp = 6 ∧ w = 16) ∧ (sp ≠ 6 → IdeState.secure ∉ t.security.ide) ∧
    (sp = 6 → t.security = s.security) ∧ OnlyIn [.regs, .security, .pcie] s t) ∧
  (∀ (s : State) (v : Word), v.getLsbD 31 = true → s.takesRegs 0 = true → s.locked = false →
    (s.lockError = none → Completes (.setupLockWrite 0 v) s fun t => t.locked = true ∧ t.rdB Fld.pciSetupLock_lock_error = false ∧
      (s.stage = 5 → t.stage = 7) ∧ (s.stage ≠ 5 → t.stage = s.stage ∧ t.mode = s.mode) ∧ OnlyIn [.regs, .bark] s t) ∧
    (∀ code i, s.lockError = some (code, i) → Completes (.setupLockWrite 0 v) s fun t => t.locked = false ∧
      t.rdB Fld.pciSetupLock_lock_error = true ∧ t.rdN Fld.pciSetupLock_error_code = code % 2 ^ Fld.pciSetupLock_error_code.width ∧
      t.stage = s.stage ∧ OnlyIn [.regs] s t)) ∧
  (∀ (s : State) (fn : Nat) (v : Word), fn < 64 → (fn ≠ 0 ∨ v.getLsbD 31 = false ∨ s.locked = true) →
    exec (.setupLockWrite fn v) s = .next s) ∧
  (∀ (s : State) (fn : Nat) (v : Word), fn < 64 → s.takesRegs fn = true → v.getLsbD 0 = true → Completes (.fnLockWrite fn v) s fun t =>
    t.rdB Fld.pciFnLock_lock 0 fn = true ∧ OnlyIn [.regs] s t ∧ RegsBut [Fld.pciFnLock_lock.key 0 fn] s t)

/-- A packet that is not for the chip goes by the override table, and without an entry in dimension order, the shorter way round.
For every chip of a fabric and every destination chip that exists: an entry of the epoch's table that names a link sends the
packet there. Where the table has no entry, the packet goes along the first of X, Y and Z on which the coordinates differ, in
the + direction where twice the distance that way is at most the dimension, and in the - direction otherwise. A packet for the
chip itself, or one whose coordinates are all the chip's, is local. (R406) -/
def Obligations.NextHopFollowsTableAndDimensionOrder : Prop :=
  (∀ (s : State) (e dst : Nat) (r : RouteEntry), s.twinLink = none → s.namesChip dst = true → dst ≠ s.chipId → r.entry < 6 →
    (if e = 0 then s.fabric.bank0 else s.fabric.bank1).find? (fun x => x.chip == dst) = some r → s.nextHop e dst = .link r.entry) ∧
  (∀ (s : State) (e dst a : Nat), s.twinLink = none → s.namesChip dst = true → dst ≠ s.chipId → a < 3 → coord dst a ≠ coord s.chipId a →
    (∀ b, b < a → coord dst b = coord s.chipId b) → (∀ r ∈ (if e = 0 then s.fabric.bank0 else s.fabric.bank1), r.chip ≠ dst) →
    s.nextHop e dst = .link (if 2 * ((coord dst a + s.dim a - coord s.chipId a) % s.dim a) ≤ s.dim a then 2 * a else 2 * a + 1)) ∧
  (∀ (s : State) (e : Nat), s.nextHop e s.chipId = .here) ∧
  (∀ (s : State) (e dst : Nat), s.twinLink = none → s.namesChip dst = true →
    (∀ a, a < 3 → coord dst a = coord s.chipId a) → (∀ r ∈ (if e = 0 then s.fabric.bank0 else s.fabric.bank1), r.chip ≠ dst) →
    s.nextHop e dst = .here)

/-- A function's own lock guards the RWL fields of its per-function registers, and nothing else does.
While a function's lock is set, no register write of that function changes an RWL field of a register marked per function;
while it is clear, a write takes effect even with the device set-up lock set. The function sets its lock by writing 1, another
value leaves it, and a conventional reset and the end of a Function Level Reset of the function clear it. (R568) -/
def Obligations.FunctionLockGuardsItsOwnRegisters : Prop :=
  (∀ (s : State) (fn off n i : Nat) (v : DWord) (f : Field), fn < 64 → off < 0x4000000 → s.rdB Fld.pciFnLock_lock 0 fn = true →
    f ∈ f.reg.info.fields → f.access = .rwl → f.reg.info.perFn = true →
    Completes (.registerWrite fn off n v) s fun t => t.rd f i fn = s.rd f i fn) ∧
  (∀ (s : State) (fn : Nat) (v : DWord) (r : Reg) (f : Field), fn < 64 → s.served = true → s.answers fn = true →
    s.rdB Fld.pciFnLock_lock 0 fn = false → s.rdB Fld.crnAdminCfg_enable 0 fn = false →
    r ∈ [Reg.crnAdminSqBase, .crnAdminCqBase, .crnAdminDbLine, .crnAdminHeadLine] → f ∈ r.info.fields →
    Completes (.registerWrite fn r.info.offset 8 v) s fun t => t.rdN f 0 fn = getBits v.toNat f.lo f.width ∧
      RegsBut [f.key 0 fn] s t ∧ OnlyIn [.regs] s t) ∧
  (∀ (s : State) (fn : Nat) (v : Word), fn < 64 → s.takesRegs fn = true →
    (v.getLsbD 0 = true → Completes (.fnLockWrite fn v) s fun t => t.rdB Fld.pciFnLock_lock 0 fn = true) ∧
    (v.getLsbD 0 = false → exec (.fnLockWrite fn v) s = .next s)) ∧
  (∀ (s : State) (fn : Nat), Completes .perstAssert s fun t => t.rdB Fld.pciFnLock_lock 0 fn = false) ∧
  (∀ (s : State) (fn : Nat) (f : Fn), fn < 64 → s.fn? fn = some f → f.resetting = true → (∀ c ∈ s.queues.cmds, c.fn ≠ fn) →
    Completes (.flrComplete fn) s fun t => t.rdB Fld.pciFnLock_lock 0 fn = false)

/-- The Security capability of the list holds the header and the fields of its table, byte for byte.
Somewhere in the capability list of every function, in every state, stand 48 bytes in a row that are the Security capability:
ID 0x0B01, version 1, length 3, and after the link and the reserved word of the header (whose values R569 gives) the table's
fields in their places and zeros in its reserved bytes. (R511) -/
def Obligations.SecurityCapabilityReadsAsTheTable : Prop :=
  ∀ (s : State) (fn : Nat), ∃ (k : Nat) (link : List Byte), link.length = 4 ∧ 0x100 + k + 48 ≤ 0x8000 ∧ ∀ i, i < 48 →
    s.bar0Byte fn (0x100 + k + i) = nth 0 ([(0x01 : Byte), 0x0B, 1, 0, 3, 0, 0, 0] ++ link ++ [0, 0, 0, 0]
      ++ [0x00, 0x00, 0x38, 0x00, 0x00, 0x10, 0x38, 0x00, 4, 16, 128, 8, 0x20, 0x0A, 0x13, 0x12, 0x93, 0x1C, 0x7B, 0x16]
      ++ List.replicate 12 0) i

/-- What an access to local space does to memory, and what a refusal leaves alone.
An access that no window of its target admits is refused before every other check: the read or write changes no byte, is
counted at its target, is reported with source 0x1E and fails with FIREWALL; a request through BAR2 and the access of a packet
are one access, which one window must cover whole, and of one that fails nothing is stored; an access to a range that no
target guards fails with the address status and changes nothing. An aligned write of whole granules of HBM or Sapwood that
passes writes exactly its bytes. No write within a block of HBM or Sapwood changes a byte outside its own, nor the other
memory, every one keeps the memories in their canonical form, and one that fails stores nothing. An access within a block of
the host memory window that passes leaves the device as a read or write of the owning function at the host address (local less
0x8000_0000_0000, without ATS). An atomic on Sapwood gives the previous word and leaves what its operation makes of it. It
also rests on choices and readings of the model: log entries 23, 24, 25 and 42. (R42, R44, R46, R47, R53, R54, R63, R474,
R475, R476, 02_memory_and_addresses.md) -/
def Obligations.LocalAccessesFollowTheFirewalls : Prop :=
  (∀ (s : State) (o : Origin) (a n t : Nat), 0 < n → a / 64 = (a + n - 1) / 64 → (s.place a).target = some t →
    (s.fwPasses t o .read a n = false → s.load o a n = (s.fwDeny t o a, .error ⟨stFirewall, addrDetail a⟩)) ∧
    (∀ d : List Byte, d.length = n → s.fwPasses t o .write a n = false →
      s.store o a d = (s.fwDeny t o a, some ⟨stFirewall, addrDetail a⟩)) ∧
    (s.fwDeny t o a).rd Fld.brkFwDeny_denied t = (s.rd Fld.brkFwDeny_denied t + 1) &&& lowMask Fld.brkFwDeny_denied.width ∧
    (∃ r, (s.fwDeny t o a).reports = s.reports ++ [r] ∧ r.source = 0x1E ∧ r.part = some o.part) ∧
    OnlyIn [.regs, .reports] s (s.fwDeny t o a)) ∧
  (∀ (s : State) (o : Origin) (a n t : Nat) (d : List Byte), 0 < n → d.length = n → (∀ i, i < n → (s.place (a + i)).target = some t) →
    (s.fwPasses t o .read a n = false → s.loadWhole o a n = (s.fwDeny t o a, .error ⟨stFirewall, addrDetail a⟩)) ∧
    (s.fwPasses t o .write a n = false → s.storeWhole o a d = (s.fwDeny t o a, some ⟨stFirewall, addrDetail a⟩))) ∧
  (∀ (s : State) (o : Origin) (a : Nat) (d : List Byte), (∀ i, i < d.length → ∃ st, s.place (a + i) = .hbm st ∨ s.place (a + i) = .sap st) →
    ∀ e, (s.storeWhole o a d).2 = some e → (s.storeWhole o a d).1.hbm = s.hbm ∧ (s.storeWhole o a d).1.sap = s.sap) ∧
  (∀ (s : State) (o : Origin) (a n : Nat) (d : List Byte), 0 < n → d.length = n → a / 64 = (a + n - 1) / 64 → (s.place a).target = none →
    s.load o a n = (s, .error ⟨stAddress, addrDetail a⟩) ∧ s.store o a d = (s, some ⟨stAddress, addrDetail a⟩)) ∧
  (∀ (s : State) (o : Origin) (a st : Nat) (d : List Byte), d.length = 32 → a % 32 = 0 → s.place a = .hbm st →
    s.MemOk → s.fwPasses st o .write a 32 = true → s.valid o .write a 32 (.hbm st) = true → ∃ t, s.store o a d = (t, none) ∧
      memRead t.hbm a 32 = d ∧ BytesBut a 32 s.hbm t.hbm ∧ OnlyIn [.hbm, .mem] s t) ∧
  (∀ (s : State) (o : Origin) (a st : Nat) (d : List Byte), d.length = 8 → a % 8 = 0 → s.place a = .sap st →
    s.MemOk → s.fwPasses (4 + st) o .write a 8 = true → s.valid o .write a 8 (.sap st) = true → ∃ t, s.store o a d = (t, none) ∧
      memRead t.sap a 8 = d ∧ BytesBut a 8 s.sap t.sap ∧ OnlyIn [.sap, .mem] s t) ∧
  (∀ (s : State) (o : Origin) (a : Nat) (d : List Byte), (∃ st, s.place a = .hbm st ∨ s.place a = .sap st) →
    BytesBut a d.length s.hbm (s.writeBlock o a d).1.hbm ∧ BytesBut a d.length s.sap (s.writeBlock o a d).1.sap ∧
    (s.MemOk → (s.writeBlock o a d).1.MemOk) ∧ (s.writeBlock o a d).1.host = s.host ∧ (s.writeBlock o a d).1.queues = s.queues ∧
    (∀ e, (s.writeBlock o a d).2 = some e → (s.writeBlock o a d).1.hbm = s.hbm ∧ (s.writeBlock o a d).1.sap = s.sap)) ∧
  (∀ (s : State) (o : Origin) (a : Nat) (d : List Byte) (f : Fn), 0 < d.length → a / 64 = (a + d.length - 1) / 64 → s.place a = .hostWin →
    s.fn? (s.ownerFn o.part) = some f → f.ats = false → s.hostReach o.part = true →
    (s.fwPasses 10 o .read a d.length = true → s.load o a d.length
      = (s.emit (.hostRead (s.ownerFn o.part) (a - 0x800000000000) d.length), .ok (memRead s.host (a - 0x800000000000) d.length))) ∧
    (s.fwPasses 10 o .write a d.length = true → s.store o a d = (({ s with host := memWrite s.host (a - 0x800000000000) d }).emit
      (.hostWrite (s.ownerFn o.part) (a - 0x800000000000) d), none))) ∧
  (∀ (s : State) (o : Origin) (op : AtomicOp) (a st : Nat) (x y : DWord), a % 8 = 0 → s.place a = .sap st → s.errAt a = none →
    s.fwPasses (4 + st) o .atomic a 8 = true → s.valid o .atomic a 8 (.sap st) = true → s.MemOk → ∃ t,
      s.atomic o op a x y = (t, .ok (BitVec.ofNat 64 (bytesToNat (memRead s.sap a 8)))) ∧
      BitVec.ofNat 64 (bytesToNat (memRead t.sap a 8)) = op.apply (BitVec.ofNat 64 (bytesToNat (memRead s.sap a 8))) x y ∧
      BytesBut a 8 s.sap t.sap ∧ t.MemOk ∧ OnlyIn [.sap, .mem] s t)
end

