-- ==== Sys2Proof/Laws/State.lean ====
section
/-! SUPPORT. One lemma per field per update of the state, each true by definition, so that no later proof unfolds a record
update. The updates are the ones that change one part of the state. -/
namespace Sys2Proof.Machine

/-! `State.clearErrs` changes `mem` alone. -/
@[simp] theorem State.clearErrs_pending (s : State) (lo hi : Nat) :
    (s.clearErrs lo hi).pending = s.pending := by rfl
@[simp] theorem State.clearErrs_variant (s : State) (lo hi : Nat) :
    (s.clearErrs lo hi).variant = s.variant := by rfl
@[simp] theorem State.clearErrs_revision (s : State) (lo hi : Nat) :
    (s.clearErrs lo hi).revision = s.revision := by rfl
@[simp] theorem State.clearErrs_regs (s : State) (lo hi : Nat) :
    (s.clearErrs lo hi).regs = s.regs := by rfl
@[simp] theorem State.clearErrs_hbm (s : State) (lo hi : Nat) :
    (s.clearErrs lo hi).hbm = s.hbm := by rfl
@[simp] theorem State.clearErrs_sap (s : State) (lo hi : Nat) :
    (s.clearErrs lo hi).sap = s.sap := by rfl
@[simp] theorem State.clearErrs_host (s : State) (lo hi : Nat) :
    (s.clearErrs lo hi).host = s.host := by rfl
@[simp] theorem State.clearErrs_acc (s : State) (lo hi : Nat) :
    (s.clearErrs lo hi).acc = s.acc := by rfl
@[simp] theorem State.clearErrs_queues (s : State) (lo hi : Nat) :
    (s.clearErrs lo hi).queues = s.queues := by rfl
@[simp] theorem State.clearErrs_pcie (s : State) (lo hi : Nat) :
    (s.clearErrs lo hi).pcie = s.pcie := by rfl
@[simp] theorem State.clearErrs_time (s : State) (lo hi : Nat) :
    (s.clearErrs lo hi).time = s.time := by rfl
@[simp] theorem State.clearErrs_ingest (s : State) (lo hi : Nat) :
    (s.clearErrs lo hi).ingest = s.ingest := by rfl
@[simp] theorem State.clearErrs_compute (s : State) (lo hi : Nat) :
    (s.clearErrs lo hi).compute = s.compute := by rfl
@[simp] theorem State.clearErrs_canopy (s : State) (lo hi : Nat) :
    (s.clearErrs lo hi).canopy = s.canopy := by rfl
@[simp] theorem State.clearErrs_sort (s : State) (lo hi : Nat) :
    (s.clearErrs lo hi).sort = s.sort := by rfl
@[simp] theorem State.clearErrs_gather (s : State) (lo hi : Nat) :
    (s.clearErrs lo hi).gather = s.gather := by rfl
@[simp] theorem State.clearErrs_fabric (s : State) (lo hi : Nat) :
    (s.clearErrs lo hi).fabric = s.fabric := by rfl
@[simp] theorem State.clearErrs_twin (s : State) (lo hi : Nat) :
    (s.clearErrs lo hi).twin = s.twin := by rfl
@[simp] theorem State.clearErrs_bark (s : State) (lo hi : Nat) :
    (s.clearErrs lo hi).bark = s.bark := by rfl
@[simp] theorem State.clearErrs_security (s : State) (lo hi : Nat) :
    (s.clearErrs lo hi).security = s.security := by rfl
@[simp] theorem State.clearErrs_observe (s : State) (lo hi : Nat) :
    (s.clearErrs lo hi).observe = s.observe := by rfl
@[simp] theorem State.clearErrs_power (s : State) (lo hi : Nat) :
    (s.clearErrs lo hi).power = s.power := by rfl
@[simp] theorem State.clearErrs_reports (s : State) (lo hi : Nat) :
    (s.clearErrs lo hi).reports = s.reports := by rfl
@[simp] theorem State.clearErrs_free (s : State) (lo hi : Nat) :
    (s.clearErrs lo hi).free = s.free := by rfl
@[simp] theorem State.clearErrs_out (s : State) (lo hi : Nat) :
    (s.clearErrs lo hi).out = s.out := by rfl
@[simp] theorem State.clearErrs_rd (s : State) (lo hi : Nat) (fld : Field) (ix fu : Nat) :
    (s.clearErrs lo hi).rd fld ix fu = s.rd fld ix fu := by rfl
@[simp] theorem State.clearErrs_rdN (s : State) (lo hi : Nat) (fld : Field) (ix fu : Nat) :
    (s.clearErrs lo hi).rdN fld ix fu = s.rdN fld ix fu := by rfl
@[simp] theorem State.clearErrs_rdB (s : State) (lo hi : Nat) (fld : Field) (ix fu : Nat) :
    (s.clearErrs lo hi).rdB fld ix fu = s.rdB fld ix fu := by rfl
@[simp] theorem State.clearErrs_cmd (s : State) (lo hi : Nat) (cid : Nat) :
    (s.clearErrs lo hi).cmd? cid = s.cmd? cid := by rfl

/-! `State.zeroSap` changes `mem`, `sap` alone. -/
@[simp] theorem State.zeroSap_pending (s : State) (lo hi : Nat) :
    (s.zeroSap lo hi).pending = s.pending := by rfl
@[simp] theorem State.zeroSap_variant (s : State) (lo hi : Nat) :
    (s.zeroSap lo hi).variant = s.variant := by rfl
@[simp] theorem State.zeroSap_revision (s : State) (lo hi : Nat) :
    (s.zeroSap lo hi).revision = s.revision := by rfl
@[simp] theorem State.zeroSap_regs (s : State) (lo hi : Nat) :
    (s.zeroSap lo hi).regs = s.regs := by rfl
@[simp] theorem State.zeroSap_hbm (s : State) (lo hi : Nat) :
    (s.zeroSap lo hi).hbm = s.hbm := by rfl
@[simp] theorem State.zeroSap_host (s : State) (lo hi : Nat) :
    (s.zeroSap lo hi).host = s.host := by rfl
@[simp] theorem State.zeroSap_acc (s : State) (lo hi : Nat) :
    (s.zeroSap lo hi).acc = s.acc := by rfl
@[simp] theorem State.zeroSap_queues (s : State) (lo hi : Nat) :
    (s.zeroSap lo hi).queues = s.queues := by rfl
@[simp] theorem State.zeroSap_pcie (s : State) (lo hi : Nat) :
    (s.zeroSap lo hi).pcie = s.pcie := by rfl
@[simp] theorem State.zeroSap_time (s : State) (lo hi : Nat) :
    (s.zeroSap lo hi).time = s.time := by rfl
@[simp] theorem State.zeroSap_ingest (s : State) (lo hi : Nat) :
    (s.zeroSap lo hi).ingest = s.ingest := by rfl
@[simp] theorem State.zeroSap_compute (s : State) (lo hi : Nat) :
    (s.zeroSap lo hi).compute = s.compute := by rfl
@[simp] theorem State.zeroSap_canopy (s : State) (lo hi : Nat) :
    (s.zeroSap lo hi).canopy = s.canopy := by rfl
@[simp] theorem State.zeroSap_sort (s : State) (lo hi : Nat) :
    (s.zeroSap lo hi).sort = s.sort := by rfl
@[simp] theorem State.zeroSap_gather (s : State) (lo hi : Nat) :
    (s.zeroSap lo hi).gather = s.gather := by rfl
@[simp] theorem State.zeroSap_fabric (s : State) (lo hi : Nat) :
    (s.zeroSap lo hi).fabric = s.fabric := by rfl
@[simp] theorem State.zeroSap_twin (s : State) (lo hi : Nat) :
    (s.zeroSap lo hi).twin = s.twin := by rfl
@[simp] theorem State.zeroSap_bark (s : State) (lo hi : Nat) :
    (s.zeroSap lo hi).bark = s.bark := by rfl
@[simp] theorem State.zeroSap_security (s : State) (lo hi : Nat) :
    (s.zeroSap lo hi).security = s.security := by rfl
@[simp] theorem State.zeroSap_observe (s : State) (lo hi : Nat) :
    (s.zeroSap lo hi).observe = s.observe := by rfl
@[simp] theorem State.zeroSap_power (s : State) (lo hi : Nat) :
    (s.zeroSap lo hi).power = s.power := by rfl
@[simp] theorem State.zeroSap_reports (s : State) (lo hi : Nat) :
    (s.zeroSap lo hi).reports = s.reports := by rfl
@[simp] theorem State.zeroSap_free (s : State) (lo hi : Nat) :
    (s.zeroSap lo hi).free = s.free := by rfl
@[simp] theorem State.zeroSap_out (s : State) (lo hi : Nat) :
    (s.zeroSap lo hi).out = s.out := by rfl
@[simp] theorem State.zeroSap_rd (s : State) (lo hi : Nat) (fld : Field) (ix fu : Nat) :
    (s.zeroSap lo hi).rd fld ix fu = s.rd fld ix fu := by rfl
@[simp] theorem State.zeroSap_rdN (s : State) (lo hi : Nat) (fld : Field) (ix fu : Nat) :
    (s.zeroSap lo hi).rdN fld ix fu = s.rdN fld ix fu := by rfl
@[simp] theorem State.zeroSap_rdB (s : State) (lo hi : Nat) (fld : Field) (ix fu : Nat) :
    (s.zeroSap lo hi).rdB fld ix fu = s.rdB fld ix fu := by rfl
@[simp] theorem State.zeroSap_cmd (s : State) (lo hi : Nat) (cid : Nat) :
    (s.zeroSap lo hi).cmd? cid = s.cmd? cid := by rfl

/-! `State.zeroHbm` changes `hbm`, `mem` alone. -/
@[simp] theorem State.zeroHbm_pending (s : State) (lo hi : Nat) :
    (s.zeroHbm lo hi).pending = s.pending := by rfl
@[simp] theorem State.zeroHbm_variant (s : State) (lo hi : Nat) :
    (s.zeroHbm lo hi).variant = s.variant := by rfl
@[simp] theorem State.zeroHbm_revision (s : State) (lo hi : Nat) :
    (s.zeroHbm lo hi).revision = s.revision := by rfl
@[simp] theorem State.zeroHbm_regs (s : State) (lo hi : Nat) :
    (s.zeroHbm lo hi).regs = s.regs := by rfl
@[simp] theorem State.zeroHbm_sap (s : State) (lo hi : Nat) :
    (s.zeroHbm lo hi).sap = s.sap := by rfl
@[simp] theorem State.zeroHbm_host (s : State) (lo hi : Nat) :
    (s.zeroHbm lo hi).host = s.host := by rfl
@[simp] theorem State.zeroHbm_acc (s : State) (lo hi : Nat) :
    (s.zeroHbm lo hi).acc = s.acc := by rfl
@[simp] theorem State.zeroHbm_queues (s : State) (lo hi : Nat) :
    (s.zeroHbm lo hi).queues = s.queues := by rfl
@[simp] theorem State.zeroHbm_pcie (s : State) (lo hi : Nat) :
    (s.zeroHbm lo hi).pcie = s.pcie := by rfl
@[simp] theorem State.zeroHbm_time (s : State) (lo hi : Nat) :
    (s.zeroHbm lo hi).time = s.time := by rfl
@[simp] theorem State.zeroHbm_ingest (s : State) (lo hi : Nat) :
    (s.zeroHbm lo hi).ingest = s.ingest := by rfl
@[simp] theorem State.zeroHbm_compute (s : State) (lo hi : Nat) :
    (s.zeroHbm lo hi).compute = s.compute := by rfl
@[simp] theorem State.zeroHbm_canopy (s : State) (lo hi : Nat) :
    (s.zeroHbm lo hi).canopy = s.canopy := by rfl
@[simp] theorem State.zeroHbm_sort (s : State) (lo hi : Nat) :
    (s.zeroHbm lo hi).sort = s.sort := by rfl
@[simp] theorem State.zeroHbm_gather (s : State) (lo hi : Nat) :
    (s.zeroHbm lo hi).gather = s.gather := by rfl
@[simp] theorem State.zeroHbm_fabric (s : State) (lo hi : Nat) :
    (s.zeroHbm lo hi).fabric = s.fabric := by rfl
@[simp] theorem State.zeroHbm_twin (s : State) (lo hi : Nat) :
    (s.zeroHbm lo hi).twin = s.twin := by rfl
@[simp] theorem State.zeroHbm_bark (s : State) (lo hi : Nat) :
    (s.zeroHbm lo hi).bark = s.bark := by rfl
@[simp] theorem State.zeroHbm_security (s : State) (lo hi : Nat) :
    (s.zeroHbm lo hi).security = s.security := by rfl
@[simp] theorem State.zeroHbm_observe (s : State) (lo hi : Nat) :
    (s.zeroHbm lo hi).observe = s.observe := by rfl
@[simp] theorem State.zeroHbm_power (s : State) (lo hi : Nat) :
    (s.zeroHbm lo hi).power = s.power := by rfl
@[simp] theorem State.zeroHbm_reports (s : State) (lo hi : Nat) :
    (s.zeroHbm lo hi).reports = s.reports := by rfl
@[simp] theorem State.zeroHbm_free (s : State) (lo hi : Nat) :
    (s.zeroHbm lo hi).free = s.free := by rfl
@[simp] theorem State.zeroHbm_out (s : State) (lo hi : Nat) :
    (s.zeroHbm lo hi).out = s.out := by rfl
@[simp] theorem State.zeroHbm_rd (s : State) (lo hi : Nat) (fld : Field) (ix fu : Nat) :
    (s.zeroHbm lo hi).rd fld ix fu = s.rd fld ix fu := by rfl
@[simp] theorem State.zeroHbm_rdN (s : State) (lo hi : Nat) (fld : Field) (ix fu : Nat) :
    (s.zeroHbm lo hi).rdN fld ix fu = s.rdN fld ix fu := by rfl
@[simp] theorem State.zeroHbm_rdB (s : State) (lo hi : Nat) (fld : Field) (ix fu : Nat) :
    (s.zeroHbm lo hi).rdB fld ix fu = s.rdB fld ix fu := by rfl
@[simp] theorem State.zeroHbm_cmd (s : State) (lo hi : Nat) (cid : Nat) :
    (s.zeroHbm lo hi).cmd? cid = s.cmd? cid := by rfl

/-! `State.setErr` changes `mem` alone. -/
@[simp] theorem State.setErr_pending (s : State) (w : Nat) (k : EccKind) :
    (s.setErr w k).pending = s.pending := by rfl
@[simp] theorem State.setErr_variant (s : State) (w : Nat) (k : EccKind) :
    (s.setErr w k).variant = s.variant := by rfl
@[simp] theorem State.setErr_revision (s : State) (w : Nat) (k : EccKind) :
    (s.setErr w k).revision = s.revision := by rfl
@[simp] theorem State.setErr_regs (s : State) (w : Nat) (k : EccKind) :
    (s.setErr w k).regs = s.regs := by rfl
@[simp] theorem State.setErr_hbm (s : State) (w : Nat) (k : EccKind) :
    (s.setErr w k).hbm = s.hbm := by rfl
@[simp] theorem State.setErr_sap (s : State) (w : Nat) (k : EccKind) :
    (s.setErr w k).sap = s.sap := by rfl
@[simp] theorem State.setErr_host (s : State) (w : Nat) (k : EccKind) :
    (s.setErr w k).host = s.host := by rfl
@[simp] theorem State.setErr_acc (s : State) (w : Nat) (k : EccKind) :
    (s.setErr w k).acc = s.acc := by rfl
@[simp] theorem State.setErr_queues (s : State) (w : Nat) (k : EccKind) :
    (s.setErr w k).queues = s.queues := by rfl
@[simp] theorem State.setErr_pcie (s : State) (w : Nat) (k : EccKind) :
    (s.setErr w k).pcie = s.pcie := by rfl
@[simp] theorem State.setErr_time (s : State) (w : Nat) (k : EccKind) :
    (s.setErr w k).time = s.time := by rfl
@[simp] theorem State.setErr_ingest (s : State) (w : Nat) (k : EccKind) :
    (s.setErr w k).ingest = s.ingest := by rfl
@[simp] theorem State.setErr_compute (s : State) (w : Nat) (k : EccKind) :
    (s.setErr w k).compute = s.compute := by rfl
@[simp] theorem State.setErr_canopy (s : State) (w : Nat) (k : EccKind) :
    (s.setErr w k).canopy = s.canopy := by rfl
@[simp] theorem State.setErr_sort (s : State) (w : Nat) (k : EccKind) :
    (s.setErr w k).sort = s.sort := by rfl
@[simp] theorem State.setErr_gather (s : State) (w : Nat) (k : EccKind) :
    (s.setErr w k).gather = s.gather := by rfl
@[simp] theorem State.setErr_fabric (s : State) (w : Nat) (k : EccKind) :
    (s.setErr w k).fabric = s.fabric := by rfl
@[simp] theorem State.setErr_twin (s : State) (w : Nat) (k : EccKind) :
    (s.setErr w k).twin = s.twin := by rfl
@[simp] theorem State.setErr_bark (s : State) (w : Nat) (k : EccKind) :
    (s.setErr w k).bark = s.bark := by rfl
@[simp] theorem State.setErr_security (s : State) (w : Nat) (k : EccKind) :
    (s.setErr w k).security = s.security := by rfl
@[simp] theorem State.setErr_observe (s : State) (w : Nat) (k : EccKind) :
    (s.setErr w k).observe = s.observe := by rfl
@[simp] theorem State.setErr_power (s : State) (w : Nat) (k : EccKind) :
    (s.setErr w k).power = s.power := by rfl
@[simp] theorem State.setErr_reports (s : State) (w : Nat) (k : EccKind) :
    (s.setErr w k).reports = s.reports := by rfl
@[simp] theorem State.setErr_free (s : State) (w : Nat) (k : EccKind) :
    (s.setErr w k).free = s.free := by rfl
@[simp] theorem State.setErr_out (s : State) (w : Nat) (k : EccKind) :
    (s.setErr w k).out = s.out := by rfl
@[simp] theorem State.setErr_rd (s : State) (w : Nat) (k : EccKind) (fld : Field) (ix fu : Nat) :
    (s.setErr w k).rd fld ix fu = s.rd fld ix fu := by rfl
@[simp] theorem State.setErr_rdN (s : State) (w : Nat) (k : EccKind) (fld : Field) (ix fu : Nat) :
    (s.setErr w k).rdN fld ix fu = s.rdN fld ix fu := by rfl
@[simp] theorem State.setErr_rdB (s : State) (w : Nat) (k : EccKind) (fld : Field) (ix fu : Nat) :
    (s.setErr w k).rdB fld ix fu = s.rdB fld ix fu := by rfl
@[simp] theorem State.setErr_cmd (s : State) (w : Nat) (k : EccKind) (cid : Nat) :
    (s.setErr w k).cmd? cid = s.cmd? cid := by rfl

/-! `State.handled` changes `bark` alone. -/
@[simp] theorem State.handled_pending (s : State) (isRow : Bool) (stack num : Nat) :
    (s.handled isRow stack num).pending = s.pending := by rfl
@[simp] theorem State.handled_variant (s : State) (isRow : Bool) (stack num : Nat) :
    (s.handled isRow stack num).variant = s.variant := by rfl
@[simp] theorem State.handled_revision (s : State) (isRow : Bool) (stack num : Nat) :
    (s.handled isRow stack num).revision = s.revision := by rfl
@[simp] theorem State.handled_regs (s : State) (isRow : Bool) (stack num : Nat) :
    (s.handled isRow stack num).regs = s.regs := by rfl
@[simp] theorem State.handled_hbm (s : State) (isRow : Bool) (stack num : Nat) :
    (s.handled isRow stack num).hbm = s.hbm := by rfl
@[simp] theorem State.handled_sap (s : State) (isRow : Bool) (stack num : Nat) :
    (s.handled isRow stack num).sap = s.sap := by rfl
@[simp] theorem State.handled_host (s : State) (isRow : Bool) (stack num : Nat) :
    (s.handled isRow stack num).host = s.host := by rfl
@[simp] theorem State.handled_acc (s : State) (isRow : Bool) (stack num : Nat) :
    (s.handled isRow stack num).acc = s.acc := by rfl
@[simp] theorem State.handled_mem (s : State) (isRow : Bool) (stack num : Nat) :
    (s.handled isRow stack num).mem = s.mem := by rfl
@[simp] theorem State.handled_queues (s : State) (isRow : Bool) (stack num : Nat) :
    (s.handled isRow stack num).queues = s.queues := by rfl
@[simp] theorem State.handled_pcie (s : State) (isRow : Bool) (stack num : Nat) :
    (s.handled isRow stack num).pcie = s.pcie := by rfl
@[simp] theorem State.handled_time (s : State) (isRow : Bool) (stack num : Nat) :
    (s.handled isRow stack num).time = s.time := by rfl
@[simp] theorem State.handled_ingest (s : State) (isRow : Bool) (stack num : Nat) :
    (s.handled isRow stack num).ingest = s.ingest := by rfl
@[simp] theorem State.handled_compute (s : State) (isRow : Bool) (stack num : Nat) :
    (s.handled isRow stack num).compute = s.compute := by rfl
@[simp] theorem State.handled_canopy (s : State) (isRow : Bool) (stack num : Nat) :
    (s.handled isRow stack num).canopy = s.canopy := by rfl
@[simp] theorem State.handled_sort (s : State) (isRow : Bool) (stack num : Nat) :
    (s.handled isRow stack num).sort = s.sort := by rfl
@[simp] theorem State.handled_gather (s : State) (isRow : Bool) (stack num : Nat) :
    (s.handled isRow stack num).gather = s.gather := by rfl
@[simp] theorem State.handled_fabric (s : State) (isRow : Bool) (stack num : Nat) :
    (s.handled isRow stack num).fabric = s.fabric := by rfl
@[simp] theorem State.handled_twin (s : State) (isRow : Bool) (stack num : Nat) :
    (s.handled isRow stack num).twin = s.twin := by rfl
@[simp] theorem State.handled_security (s : State) (isRow : Bool) (stack num : Nat) :
    (s.handled isRow stack num).security = s.security := by rfl
@[simp] theorem State.handled_observe (s : State) (isRow : Bool) (stack num : Nat) :
    (s.handled isRow stack num).observe = s.observe := by rfl
@[simp] theorem State.handled_power (s : State) (isRow : Bool) (stack num : Nat) :
    (s.handled isRow stack num).power = s.power := by rfl
@[simp] theorem State.handled_reports (s : State) (isRow : Bool) (stack num : Nat) :
    (s.handled isRow stack num).reports = s.reports := by rfl
@[simp] theorem State.handled_free (s : State) (isRow : Bool) (stack num : Nat) :
    (s.handled isRow stack num).free = s.free := by rfl
@[simp] theorem State.handled_out (s : State) (isRow : Bool) (stack num : Nat) :
    (s.handled isRow stack num).out = s.out := by rfl
@[simp] theorem State.handled_rd (s : State) (isRow : Bool) (stack num : Nat) (fld : Field) (ix fu : Nat) :
    (s.handled isRow stack num).rd fld ix fu = s.rd fld ix fu := by rfl
@[simp] theorem State.handled_rdN (s : State) (isRow : Bool) (stack num : Nat) (fld : Field) (ix fu : Nat) :
    (s.handled isRow stack num).rdN fld ix fu = s.rdN fld ix fu := by rfl
@[simp] theorem State.handled_rdB (s : State) (isRow : Bool) (stack num : Nat) (fld : Field) (ix fu : Nat) :
    (s.handled isRow stack num).rdB fld ix fu = s.rdB fld ix fu := by rfl
@[simp] theorem State.handled_cmd (s : State) (isRow : Bool) (stack num : Nat) (cid : Nat) :
    (s.handled isRow stack num).cmd? cid = s.cmd? cid := by rfl

/-! `State.forgetPartner` changes `twin` alone. -/
@[simp] theorem State.forgetPartner_pending (s : State) :
    (s.forgetPartner).pending = s.pending := by rfl
@[simp] theorem State.forgetPartner_variant (s : State) :
    (s.forgetPartner).variant = s.variant := by rfl
@[simp] theorem State.forgetPartner_revision (s : State) :
    (s.forgetPartner).revision = s.revision := by rfl
@[simp] theorem State.forgetPartner_regs (s : State) :
    (s.forgetPartner).regs = s.regs := by rfl
@[simp] theorem State.forgetPartner_hbm (s : State) :
    (s.forgetPartner).hbm = s.hbm := by rfl
@[simp] theorem State.forgetPartner_sap (s : State) :
    (s.forgetPartner).sap = s.sap := by rfl
@[simp] theorem State.forgetPartner_host (s : State) :
    (s.forgetPartner).host = s.host := by rfl
@[simp] theorem State.forgetPartner_acc (s : State) :
    (s.forgetPartner).acc = s.acc := by rfl
@[simp] theorem State.forgetPartner_mem (s : State) :
    (s.forgetPartner).mem = s.mem := by rfl
@[simp] theorem State.forgetPartner_queues (s : State) :
    (s.forgetPartner).queues = s.queues := by rfl
@[simp] theorem State.forgetPartner_pcie (s : State) :
    (s.forgetPartner).pcie = s.pcie := by rfl
@[simp] theorem State.forgetPartner_time (s : State) :
    (s.forgetPartner).time = s.time := by rfl
@[simp] theorem State.forgetPartner_ingest (s : State) :
    (s.forgetPartner).ingest = s.ingest := by rfl
@[simp] theorem State.forgetPartner_compute (s : State) :
    (s.forgetPartner).compute = s.compute := by rfl
@[simp] theorem State.forgetPartner_canopy (s : State) :
    (s.forgetPartner).canopy = s.canopy := by rfl
@[simp] theorem State.forgetPartner_sort (s : State) :
    (s.forgetPartner).sort = s.sort := by rfl
@[simp] theorem State.forgetPartner_gather (s : State) :
    (s.forgetPartner).gather = s.gather := by rfl
@[simp] theorem State.forgetPartner_fabric (s : State) :
    (s.forgetPartner).fabric = s.fabric := by rfl
@[simp] theorem State.forgetPartner_bark (s : State) :
    (s.forgetPartner).bark = s.bark := by rfl
@[simp] theorem State.forgetPartner_security (s : State) :
    (s.forgetPartner).security = s.security := by rfl
@[simp] theorem State.forgetPartner_observe (s : State) :
    (s.forgetPartner).observe = s.observe := by rfl
@[simp] theorem State.forgetPartner_power (s : State) :
    (s.forgetPartner).power = s.power := by rfl
@[simp] theorem State.forgetPartner_reports (s : State) :
    (s.forgetPartner).reports = s.reports := by rfl
@[simp] theorem State.forgetPartner_free (s : State) :
    (s.forgetPartner).free = s.free := by rfl
@[simp] theorem State.forgetPartner_out (s : State) :
    (s.forgetPartner).out = s.out := by rfl
@[simp] theorem State.forgetPartner_rd (s : State) (fld : Field) (ix fu : Nat) :
    (s.forgetPartner).rd fld ix fu = s.rd fld ix fu := by rfl
@[simp] theorem State.forgetPartner_rdN (s : State) (fld : Field) (ix fu : Nat) :
    (s.forgetPartner).rdN fld ix fu = s.rdN fld ix fu := by rfl
@[simp] theorem State.forgetPartner_rdB (s : State) (fld : Field) (ix fu : Nat) :
    (s.forgetPartner).rdB fld ix fu = s.rdB fld ix fu := by rfl
@[simp] theorem State.forgetPartner_cmd (s : State) (cid : Nat) :
    (s.forgetPartner).cmd? cid = s.cmd? cid := by rfl

/-! `State.driveTwinFault` changes `bark` alone. -/
@[simp] theorem State.driveTwinFault_pending (s : State) (low : Bool) :
    (s.driveTwinFault low).pending = s.pending := by rfl
@[simp] theorem State.driveTwinFault_variant (s : State) (low : Bool) :
    (s.driveTwinFault low).variant = s.variant := by rfl
@[simp] theorem State.driveTwinFault_revision (s : State) (low : Bool) :
    (s.driveTwinFault low).revision = s.revision := by rfl
@[simp] theorem State.driveTwinFault_regs (s : State) (low : Bool) :
    (s.driveTwinFault low).regs = s.regs := by rfl
@[simp] theorem State.driveTwinFault_hbm (s : State) (low : Bool) :
    (s.driveTwinFault low).hbm = s.hbm := by rfl
@[simp] theorem State.driveTwinFault_sap (s : State) (low : Bool) :
    (s.driveTwinFault low).sap = s.sap := by rfl
@[simp] theorem State.driveTwinFault_host (s : State) (low : Bool) :
    (s.driveTwinFault low).host = s.host := by rfl
@[simp] theorem State.driveTwinFault_acc (s : State) (low : Bool) :
    (s.driveTwinFault low).acc = s.acc := by rfl
@[simp] theorem State.driveTwinFault_mem (s : State) (low : Bool) :
    (s.driveTwinFault low).mem = s.mem := by rfl
@[simp] theorem State.driveTwinFault_queues (s : State) (low : Bool) :
    (s.driveTwinFault low).queues = s.queues := by rfl
@[simp] theorem State.driveTwinFault_pcie (s : State) (low : Bool) :
    (s.driveTwinFault low).pcie = s.pcie := by rfl
@[simp] theorem State.driveTwinFault_time (s : State) (low : Bool) :
    (s.driveTwinFault low).time = s.time := by rfl
@[simp] theorem State.driveTwinFault_ingest (s : State) (low : Bool) :
    (s.driveTwinFault low).ingest = s.ingest := by rfl
@[simp] theorem State.driveTwinFault_compute (s : State) (low : Bool) :
    (s.driveTwinFault low).compute = s.compute := by rfl
@[simp] theorem State.driveTwinFault_canopy (s : State) (low : Bool) :
    (s.driveTwinFault low).canopy = s.canopy := by rfl
@[simp] theorem State.driveTwinFault_sort (s : State) (low : Bool) :
    (s.driveTwinFault low).sort = s.sort := by rfl
@[simp] theorem State.driveTwinFault_gather (s : State) (low : Bool) :
    (s.driveTwinFault low).gather = s.gather := by rfl
@[simp] theorem State.driveTwinFault_fabric (s : State) (low : Bool) :
    (s.driveTwinFault low).fabric = s.fabric := by rfl
@[simp] theorem State.driveTwinFault_twin (s : State) (low : Bool) :
    (s.driveTwinFault low).twin = s.twin := by rfl
@[simp] theorem State.driveTwinFault_security (s : State) (low : Bool) :
    (s.driveTwinFault low).security = s.security := by rfl
@[simp] theorem State.driveTwinFault_observe (s : State) (low : Bool) :
    (s.driveTwinFault low).observe = s.observe := by rfl
@[simp] theorem State.driveTwinFault_power (s : State) (low : Bool) :
    (s.driveTwinFault low).power = s.power := by rfl
@[simp] theorem State.driveTwinFault_reports (s : State) (low : Bool) :
    (s.driveTwinFault low).reports = s.reports := by rfl
@[simp] theorem State.driveTwinFault_free (s : State) (low : Bool) :
    (s.driveTwinFault low).free = s.free := by rfl
@[simp] theorem State.driveTwinFault_out (s : State) (low : Bool) :
    (s.driveTwinFault low).out = s.out := by rfl
@[simp] theorem State.driveTwinFault_rd (s : State) (low : Bool) (fld : Field) (ix fu : Nat) :
    (s.driveTwinFault low).rd fld ix fu = s.rd fld ix fu := by rfl
@[simp] theorem State.driveTwinFault_rdN (s : State) (low : Bool) (fld : Field) (ix fu : Nat) :
    (s.driveTwinFault low).rdN fld ix fu = s.rdN fld ix fu := by rfl
@[simp] theorem State.driveTwinFault_rdB (s : State) (low : Bool) (fld : Field) (ix fu : Nat) :
    (s.driveTwinFault low).rdB fld ix fu = s.rdB fld ix fu := by rfl
@[simp] theorem State.driveTwinFault_cmd (s : State) (low : Bool) (cid : Nat) :
    (s.driveTwinFault low).cmd? cid = s.cmd? cid := by rfl

/-! `State.clearMeasures` changes `security` alone. -/
@[simp] theorem State.clearMeasures_pending (s : State) :
    (s.clearMeasures).pending = s.pending := by rfl
@[simp] theorem State.clearMeasures_variant (s : State) :
    (s.clearMeasures).variant = s.variant := by rfl
@[simp] theorem State.clearMeasures_revision (s : State) :
    (s.clearMeasures).revision = s.revision := by rfl
@[simp] theorem State.clearMeasures_regs (s : State) :
    (s.clearMeasures).regs = s.regs := by rfl
@[simp] theorem State.clearMeasures_hbm (s : State) :
    (s.clearMeasures).hbm = s.hbm := by rfl
@[simp] theorem State.clearMeasures_sap (s : State) :
    (s.clearMeasures).sap = s.sap := by rfl
@[simp] theorem State.clearMeasures_host (s : State) :
    (s.clearMeasures).host = s.host := by rfl
@[simp] theorem State.clearMeasures_acc (s : State) :
    (s.clearMeasures).acc = s.acc := by rfl
@[simp] theorem State.clearMeasures_mem (s : State) :
    (s.clearMeasures).mem = s.mem := by rfl
@[simp] theorem State.clearMeasures_queues (s : State) :
    (s.clearMeasures).queues = s.queues := by rfl
@[simp] theorem State.clearMeasures_pcie (s : State) :
    (s.clearMeasures).pcie = s.pcie := by rfl
@[simp] theorem State.clearMeasures_time (s : State) :
    (s.clearMeasures).time = s.time := by rfl
@[simp] theorem State.clearMeasures_ingest (s : State) :
    (s.clearMeasures).ingest = s.ingest := by rfl
@[simp] theorem State.clearMeasures_compute (s : State) :
    (s.clearMeasures).compute = s.compute := by rfl
@[simp] theorem State.clearMeasures_canopy (s : State) :
    (s.clearMeasures).canopy = s.canopy := by rfl
@[simp] theorem State.clearMeasures_sort (s : State) :
    (s.clearMeasures).sort = s.sort := by rfl
@[simp] theorem State.clearMeasures_gather (s : State) :
    (s.clearMeasures).gather = s.gather := by rfl
@[simp] theorem State.clearMeasures_fabric (s : State) :
    (s.clearMeasures).fabric = s.fabric := by rfl
@[simp] theorem State.clearMeasures_twin (s : State) :
    (s.clearMeasures).twin = s.twin := by rfl
@[simp] theorem State.clearMeasures_bark (s : State) :
    (s.clearMeasures).bark = s.bark := by rfl
@[simp] theorem State.clearMeasures_observe (s : State) :
    (s.clearMeasures).observe = s.observe := by rfl
@[simp] theorem State.clearMeasures_power (s : State) :
    (s.clearMeasures).power = s.power := by rfl
@[simp] theorem State.clearMeasures_reports (s : State) :
    (s.clearMeasures).reports = s.reports := by rfl
@[simp] theorem State.clearMeasures_free (s : State) :
    (s.clearMeasures).free = s.free := by rfl
@[simp] theorem State.clearMeasures_out (s : State) :
    (s.clearMeasures).out = s.out := by rfl
@[simp] theorem State.clearMeasures_rd (s : State) (fld : Field) (ix fu : Nat) :
    (s.clearMeasures).rd fld ix fu = s.rd fld ix fu := by rfl
@[simp] theorem State.clearMeasures_rdN (s : State) (fld : Field) (ix fu : Nat) :
    (s.clearMeasures).rdN fld ix fu = s.rdN fld ix fu := by rfl
@[simp] theorem State.clearMeasures_rdB (s : State) (fld : Field) (ix fu : Nat) :
    (s.clearMeasures).rdB fld ix fu = s.rdB fld ix fu := by rfl
@[simp] theorem State.clearMeasures_cmd (s : State) (cid : Nat) :
    (s.clearMeasures).cmd? cid = s.cmd? cid := by rfl

/-! `State.addRun` changes `canopy` alone. -/
@[simp] theorem State.addRun_pending (s : State) (id : Nat) :
    (s.addRun id).pending = s.pending := by rfl
@[simp] theorem State.addRun_variant (s : State) (id : Nat) :
    (s.addRun id).variant = s.variant := by rfl
@[simp] theorem State.addRun_revision (s : State) (id : Nat) :
    (s.addRun id).revision = s.revision := by rfl
@[simp] theorem State.addRun_regs (s : State) (id : Nat) :
    (s.addRun id).regs = s.regs := by rfl
@[simp] theorem State.addRun_hbm (s : State) (id : Nat) :
    (s.addRun id).hbm = s.hbm := by rfl
@[simp] theorem State.addRun_sap (s : State) (id : Nat) :
    (s.addRun id).sap = s.sap := by rfl
@[simp] theorem State.addRun_host (s : State) (id : Nat) :
    (s.addRun id).host = s.host := by rfl
@[simp] theorem State.addRun_acc (s : State) (id : Nat) :
    (s.addRun id).acc = s.acc := by rfl
@[simp] theorem State.addRun_mem (s : State) (id : Nat) :
    (s.addRun id).mem = s.mem := by rfl
@[simp] theorem State.addRun_queues (s : State) (id : Nat) :
    (s.addRun id).queues = s.queues := by rfl
@[simp] theorem State.addRun_pcie (s : State) (id : Nat) :
    (s.addRun id).pcie = s.pcie := by rfl
@[simp] theorem State.addRun_time (s : State) (id : Nat) :
    (s.addRun id).time = s.time := by rfl
@[simp] theorem State.addRun_ingest (s : State) (id : Nat) :
    (s.addRun id).ingest = s.ingest := by rfl
@[simp] theorem State.addRun_compute (s : State) (id : Nat) :
    (s.addRun id).compute = s.compute := by rfl
@[simp] theorem State.addRun_sort (s : State) (id : Nat) :
    (s.addRun id).sort = s.sort := by rfl
@[simp] theorem State.addRun_gather (s : State) (id : Nat) :
    (s.addRun id).gather = s.gather := by rfl
@[simp] theorem State.addRun_fabric (s : State) (id : Nat) :
    (s.addRun id).fabric = s.fabric := by rfl
@[simp] theorem State.addRun_twin (s : State) (id : Nat) :
    (s.addRun id).twin = s.twin := by rfl
@[simp] theorem State.addRun_bark (s : State) (id : Nat) :
    (s.addRun id).bark = s.bark := by rfl
@[simp] theorem State.addRun_security (s : State) (id : Nat) :
    (s.addRun id).security = s.security := by rfl
@[simp] theorem State.addRun_observe (s : State) (id : Nat) :
    (s.addRun id).observe = s.observe := by rfl
@[simp] theorem State.addRun_power (s : State) (id : Nat) :
    (s.addRun id).power = s.power := by rfl
@[simp] theorem State.addRun_reports (s : State) (id : Nat) :
    (s.addRun id).reports = s.reports := by rfl
@[simp] theorem State.addRun_free (s : State) (id : Nat) :
    (s.addRun id).free = s.free := by rfl
@[simp] theorem State.addRun_out (s : State) (id : Nat) :
    (s.addRun id).out = s.out := by rfl
@[simp] theorem State.addRun_rd (s : State) (id : Nat) (fld : Field) (ix fu : Nat) :
    (s.addRun id).rd fld ix fu = s.rd fld ix fu := by rfl
@[simp] theorem State.addRun_rdN (s : State) (id : Nat) (fld : Field) (ix fu : Nat) :
    (s.addRun id).rdN fld ix fu = s.rdN fld ix fu := by rfl
@[simp] theorem State.addRun_rdB (s : State) (id : Nat) (fld : Field) (ix fu : Nat) :
    (s.addRun id).rdB fld ix fu = s.rdB fld ix fu := by rfl
@[simp] theorem State.addRun_cmd (s : State) (id : Nat) (cid : Nat) :
    (s.addRun id).cmd? cid = s.cmd? cid := by rfl

/-! `State.updLink` changes `fabric` alone. -/
@[simp] theorem State.updLink_pending (s : State) (l : Nat) (f : Link → Link) :
    (s.updLink l f).pending = s.pending := by rfl
@[simp] theorem State.updLink_variant (s : State) (l : Nat) (f : Link → Link) :
    (s.updLink l f).variant = s.variant := by rfl
@[simp] theorem State.updLink_revision (s : State) (l : Nat) (f : Link → Link) :
    (s.updLink l f).revision = s.revision := by rfl
@[simp] theorem State.updLink_regs (s : State) (l : Nat) (f : Link → Link) :
    (s.updLink l f).regs = s.regs := by rfl
@[simp] theorem State.updLink_hbm (s : State) (l : Nat) (f : Link → Link) :
    (s.updLink l f).hbm = s.hbm := by rfl
@[simp] theorem State.updLink_sap (s : State) (l : Nat) (f : Link → Link) :
    (s.updLink l f).sap = s.sap := by rfl
@[simp] theorem State.updLink_host (s : State) (l : Nat) (f : Link → Link) :
    (s.updLink l f).host = s.host := by rfl
@[simp] theorem State.updLink_acc (s : State) (l : Nat) (f : Link → Link) :
    (s.updLink l f).acc = s.acc := by rfl
@[simp] theorem State.updLink_mem (s : State) (l : Nat) (f : Link → Link) :
    (s.updLink l f).mem = s.mem := by rfl
@[simp] theorem State.updLink_queues (s : State) (l : Nat) (f : Link → Link) :
    (s.updLink l f).queues = s.queues := by rfl
@[simp] theorem State.updLink_pcie (s : State) (l : Nat) (f : Link → Link) :
    (s.updLink l f).pcie = s.pcie := by rfl
@[simp] theorem State.updLink_time (s : State) (l : Nat) (f : Link → Link) :
    (s.updLink l f).time = s.time := by rfl
@[simp] theorem State.updLink_ingest (s : State) (l : Nat) (f : Link → Link) :
    (s.updLink l f).ingest = s.ingest := by rfl
@[simp] theorem State.updLink_compute (s : State) (l : Nat) (f : Link → Link) :
    (s.updLink l f).compute = s.compute := by rfl
@[simp] theorem State.updLink_canopy (s : State) (l : Nat) (f : Link → Link) :
    (s.updLink l f).canopy = s.canopy := by rfl
@[simp] theorem State.updLink_sort (s : State) (l : Nat) (f : Link → Link) :
    (s.updLink l f).sort = s.sort := by rfl
@[simp] theorem State.updLink_gather (s : State) (l : Nat) (f : Link → Link) :
    (s.updLink l f).gather = s.gather := by rfl
@[simp] theorem State.updLink_twin (s : State) (l : Nat) (f : Link → Link) :
    (s.updLink l f).twin = s.twin := by rfl
@[simp] theorem State.updLink_bark (s : State) (l : Nat) (f : Link → Link) :
    (s.updLink l f).bark = s.bark := by rfl
@[simp] theorem State.updLink_security (s : State) (l : Nat) (f : Link → Link) :
    (s.updLink l f).security = s.security := by rfl
@[simp] theorem State.updLink_observe (s : State) (l : Nat) (f : Link → Link) :
    (s.updLink l f).observe = s.observe := by rfl
@[simp] theorem State.updLink_power (s : State) (l : Nat) (f : Link → Link) :
    (s.updLink l f).power = s.power := by rfl
@[simp] theorem State.updLink_reports (s : State) (l : Nat) (f : Link → Link) :
    (s.updLink l f).reports = s.reports := by rfl
@[simp] theorem State.updLink_free (s : State) (l : Nat) (f : Link → Link) :
    (s.updLink l f).free = s.free := by rfl
@[simp] theorem State.updLink_out (s : State) (l : Nat) (f : Link → Link) :
    (s.updLink l f).out = s.out := by rfl
@[simp] theorem State.updLink_rd (s : State) (l : Nat) (f : Link → Link) (fld : Field) (ix fu : Nat) :
    (s.updLink l f).rd fld ix fu = s.rd fld ix fu := by rfl
@[simp] theorem State.updLink_rdN (s : State) (l : Nat) (f : Link → Link) (fld : Field) (ix fu : Nat) :
    (s.updLink l f).rdN fld ix fu = s.rdN fld ix fu := by rfl
@[simp] theorem State.updLink_rdB (s : State) (l : Nat) (f : Link → Link) (fld : Field) (ix fu : Nat) :
    (s.updLink l f).rdB fld ix fu = s.rdB fld ix fu := by rfl
@[simp] theorem State.updLink_cmd (s : State) (l : Nat) (f : Link → Link) (cid : Nat) :
    (s.updLink l f).cmd? cid = s.cmd? cid := by rfl

/-! `State.awaitRoutes` changes `fabric` alone. -/
@[simp] theorem State.awaitRoutes_pending (s : State) (cmd : Nat) :
    (s.awaitRoutes cmd).pending = s.pending := by rfl
@[simp] theorem State.awaitRoutes_variant (s : State) (cmd : Nat) :
    (s.awaitRoutes cmd).variant = s.variant := by rfl
@[simp] theorem State.awaitRoutes_revision (s : State) (cmd : Nat) :
    (s.awaitRoutes cmd).revision = s.revision := by rfl
@[simp] theorem State.awaitRoutes_regs (s : State) (cmd : Nat) :
    (s.awaitRoutes cmd).regs = s.regs := by rfl
@[simp] theorem State.awaitRoutes_hbm (s : State) (cmd : Nat) :
    (s.awaitRoutes cmd).hbm = s.hbm := by rfl
@[simp] theorem State.awaitRoutes_sap (s : State) (cmd : Nat) :
    (s.awaitRoutes cmd).sap = s.sap := by rfl
@[simp] theorem State.awaitRoutes_host (s : State) (cmd : Nat) :
    (s.awaitRoutes cmd).host = s.host := by rfl
@[simp] theorem State.awaitRoutes_acc (s : State) (cmd : Nat) :
    (s.awaitRoutes cmd).acc = s.acc := by rfl
@[simp] theorem State.awaitRoutes_mem (s : State) (cmd : Nat) :
    (s.awaitRoutes cmd).mem = s.mem := by rfl
@[simp] theorem State.awaitRoutes_queues (s : State) (cmd : Nat) :
    (s.awaitRoutes cmd).queues = s.queues := by rfl
@[simp] theorem State.awaitRoutes_pcie (s : State) (cmd : Nat) :
    (s.awaitRoutes cmd).pcie = s.pcie := by rfl
@[simp] theorem State.awaitRoutes_time (s : State) (cmd : Nat) :
    (s.awaitRoutes cmd).time = s.time := by rfl
@[simp] theorem State.awaitRoutes_ingest (s : State) (cmd : Nat) :
    (s.awaitRoutes cmd).ingest = s.ingest := by rfl
@[simp] theorem State.awaitRoutes_compute (s : State) (cmd : Nat) :
    (s.awaitRoutes cmd).compute = s.compute := by rfl
@[simp] theorem State.awaitRoutes_canopy (s : State) (cmd : Nat) :
    (s.awaitRoutes cmd).canopy = s.canopy := by rfl
@[simp] theorem State.awaitRoutes_sort (s : State) (cmd : Nat) :
    (s.awaitRoutes cmd).sort = s.sort := by rfl
@[simp] theorem State.awaitRoutes_gather (s : State) (cmd : Nat) :
    (s.awaitRoutes cmd).gather = s.gather := by rfl
@[simp] theorem State.awaitRoutes_twin (s : State) (cmd : Nat) :
    (s.awaitRoutes cmd).twin = s.twin := by rfl
@[simp] theorem State.awaitRoutes_bark (s : State) (cmd : Nat) :
    (s.awaitRoutes cmd).bark = s.bark := by rfl
@[simp] theorem State.awaitRoutes_security (s : State) (cmd : Nat) :
    (s.awaitRoutes cmd).security = s.security := by rfl
@[simp] theorem State.awaitRoutes_observe (s : State) (cmd : Nat) :
    (s.awaitRoutes cmd).observe = s.observe := by rfl
@[simp] theorem State.awaitRoutes_power (s : State) (cmd : Nat) :
    (s.awaitRoutes cmd).power = s.power := by rfl
@[simp] theorem State.awaitRoutes_reports (s : State) (cmd : Nat) :
    (s.awaitRoutes cmd).reports = s.reports := by rfl
@[simp] theorem State.awaitRoutes_free (s : State) (cmd : Nat) :
    (s.awaitRoutes cmd).free = s.free := by rfl
@[simp] theorem State.awaitRoutes_out (s : State) (cmd : Nat) :
    (s.awaitRoutes cmd).out = s.out := by rfl
@[simp] theorem State.awaitRoutes_rd (s : State) (cmd : Nat) (fld : Field) (ix fu : Nat) :
    (s.awaitRoutes cmd).rd fld ix fu = s.rd fld ix fu := by rfl
@[simp] theorem State.awaitRoutes_rdN (s : State) (cmd : Nat) (fld : Field) (ix fu : Nat) :
    (s.awaitRoutes cmd).rdN fld ix fu = s.rdN fld ix fu := by rfl
@[simp] theorem State.awaitRoutes_rdB (s : State) (cmd : Nat) (fld : Field) (ix fu : Nat) :
    (s.awaitRoutes cmd).rdB fld ix fu = s.rdB fld ix fu := by rfl
@[simp] theorem State.awaitRoutes_cmd (s : State) (cmd : Nat) (cid : Nat) :
    (s.awaitRoutes cmd).cmd? cid = s.cmd? cid := by rfl

/-! `State.updRun` changes `queues` alone. -/
@[simp] theorem State.updRun_pending (s : State) (cmd : Nat) (f : Run → Run) :
    (s.updRun cmd f).pending = s.pending := by rfl
@[simp] theorem State.updRun_variant (s : State) (cmd : Nat) (f : Run → Run) :
    (s.updRun cmd f).variant = s.variant := by rfl
@[simp] theorem State.updRun_revision (s : State) (cmd : Nat) (f : Run → Run) :
    (s.updRun cmd f).revision = s.revision := by rfl
@[simp] theorem State.updRun_regs (s : State) (cmd : Nat) (f : Run → Run) :
    (s.updRun cmd f).regs = s.regs := by rfl
@[simp] theorem State.updRun_hbm (s : State) (cmd : Nat) (f : Run → Run) :
    (s.updRun cmd f).hbm = s.hbm := by rfl
@[simp] theorem State.updRun_sap (s : State) (cmd : Nat) (f : Run → Run) :
    (s.updRun cmd f).sap = s.sap := by rfl
@[simp] theorem State.updRun_host (s : State) (cmd : Nat) (f : Run → Run) :
    (s.updRun cmd f).host = s.host := by rfl
@[simp] theorem State.updRun_acc (s : State) (cmd : Nat) (f : Run → Run) :
    (s.updRun cmd f).acc = s.acc := by rfl
@[simp] theorem State.updRun_mem (s : State) (cmd : Nat) (f : Run → Run) :
    (s.updRun cmd f).mem = s.mem := by rfl
@[simp] theorem State.updRun_pcie (s : State) (cmd : Nat) (f : Run → Run) :
    (s.updRun cmd f).pcie = s.pcie := by rfl
@[simp] theorem State.updRun_time (s : State) (cmd : Nat) (f : Run → Run) :
    (s.updRun cmd f).time = s.time := by rfl
@[simp] theorem State.updRun_ingest (s : State) (cmd : Nat) (f : Run → Run) :
    (s.updRun cmd f).ingest = s.ingest := by rfl
@[simp] theorem State.updRun_compute (s : State) (cmd : Nat) (f : Run → Run) :
    (s.updRun cmd f).compute = s.compute := by rfl
@[simp] theorem State.updRun_canopy (s : State) (cmd : Nat) (f : Run → Run) :
    (s.updRun cmd f).canopy = s.canopy := by rfl
@[simp] theorem State.updRun_sort (s : State) (cmd : Nat) (f : Run → Run) :
    (s.updRun cmd f).sort = s.sort := by rfl
@[simp] theorem State.updRun_gather (s : State) (cmd : Nat) (f : Run → Run) :
    (s.updRun cmd f).gather = s.gather := by rfl
@[simp] theorem State.updRun_fabric (s : State) (cmd : Nat) (f : Run → Run) :
    (s.updRun cmd f).fabric = s.fabric := by rfl
@[simp] theorem State.updRun_twin (s : State) (cmd : Nat) (f : Run → Run) :
    (s.updRun cmd f).twin = s.twin := by rfl
@[simp] theorem State.updRun_bark (s : State) (cmd : Nat) (f : Run → Run) :
    (s.updRun cmd f).bark = s.bark := by rfl
@[simp] theorem State.updRun_security (s : State) (cmd : Nat) (f : Run → Run) :
    (s.updRun cmd f).security = s.security := by rfl
@[simp] theorem State.updRun_observe (s : State) (cmd : Nat) (f : Run → Run) :
    (s.updRun cmd f).observe = s.observe := by rfl
@[simp] theorem State.updRun_power (s : State) (cmd : Nat) (f : Run → Run) :
    (s.updRun cmd f).power = s.power := by rfl
@[simp] theorem State.updRun_reports (s : State) (cmd : Nat) (f : Run → Run) :
    (s.updRun cmd f).reports = s.reports := by rfl
@[simp] theorem State.updRun_free (s : State) (cmd : Nat) (f : Run → Run) :
    (s.updRun cmd f).free = s.free := by rfl
@[simp] theorem State.updRun_out (s : State) (cmd : Nat) (f : Run → Run) :
    (s.updRun cmd f).out = s.out := by rfl
@[simp] theorem State.updRun_rd (s : State) (cmd : Nat) (f : Run → Run) (fld : Field) (ix fu : Nat) :
    (s.updRun cmd f).rd fld ix fu = s.rd fld ix fu := by rfl
@[simp] theorem State.updRun_rdN (s : State) (cmd : Nat) (f : Run → Run) (fld : Field) (ix fu : Nat) :
    (s.updRun cmd f).rdN fld ix fu = s.rdN fld ix fu := by rfl
@[simp] theorem State.updRun_rdB (s : State) (cmd : Nat) (f : Run → Run) (fld : Field) (ix fu : Nat) :
    (s.updRun cmd f).rdB fld ix fu = s.rdB fld ix fu := by rfl

/-! `State.clearHash` changes `gather` alone. -/
@[simp] theorem State.clearHash_pending (s : State) (engine : Nat) (but : Option Nat) :
    (s.clearHash engine but).pending = s.pending := by rfl
@[simp] theorem State.clearHash_variant (s : State) (engine : Nat) (but : Option Nat) :
    (s.clearHash engine but).variant = s.variant := by rfl
@[simp] theorem State.clearHash_revision (s : State) (engine : Nat) (but : Option Nat) :
    (s.clearHash engine but).revision = s.revision := by rfl
@[simp] theorem State.clearHash_regs (s : State) (engine : Nat) (but : Option Nat) :
    (s.clearHash engine but).regs = s.regs := by rfl
@[simp] theorem State.clearHash_hbm (s : State) (engine : Nat) (but : Option Nat) :
    (s.clearHash engine but).hbm = s.hbm := by rfl
@[simp] theorem State.clearHash_sap (s : State) (engine : Nat) (but : Option Nat) :
    (s.clearHash engine but).sap = s.sap := by rfl
@[simp] theorem State.clearHash_host (s : State) (engine : Nat) (but : Option Nat) :
    (s.clearHash engine but).host = s.host := by rfl
@[simp] theorem State.clearHash_acc (s : State) (engine : Nat) (but : Option Nat) :
    (s.clearHash engine but).acc = s.acc := by rfl
@[simp] theorem State.clearHash_mem (s : State) (engine : Nat) (but : Option Nat) :
    (s.clearHash engine but).mem = s.mem := by rfl
@[simp] theorem State.clearHash_queues (s : State) (engine : Nat) (but : Option Nat) :
    (s.clearHash engine but).queues = s.queues := by rfl
@[simp] theorem State.clearHash_pcie (s : State) (engine : Nat) (but : Option Nat) :
    (s.clearHash engine but).pcie = s.pcie := by rfl
@[simp] theorem State.clearHash_time (s : State) (engine : Nat) (but : Option Nat) :
    (s.clearHash engine but).time = s.time := by rfl
@[simp] theorem State.clearHash_ingest (s : State) (engine : Nat) (but : Option Nat) :
    (s.clearHash engine but).ingest = s.ingest := by rfl
@[simp] theorem State.clearHash_compute (s : State) (engine : Nat) (but : Option Nat) :
    (s.clearHash engine but).compute = s.compute := by rfl
@[simp] theorem State.clearHash_canopy (s : State) (engine : Nat) (but : Option Nat) :
    (s.clearHash engine but).canopy = s.canopy := by rfl
@[simp] theorem State.clearHash_sort (s : State) (engine : Nat) (but : Option Nat) :
    (s.clearHash engine but).sort = s.sort := by rfl
@[simp] theorem State.clearHash_fabric (s : State) (engine : Nat) (but : Option Nat) :
    (s.clearHash engine but).fabric = s.fabric := by rfl
@[simp] theorem State.clearHash_twin (s : State) (engine : Nat) (but : Option Nat) :
    (s.clearHash engine but).twin = s.twin := by rfl
@[simp] theorem State.clearHash_bark (s : State) (engine : Nat) (but : Option Nat) :
    (s.clearHash engine but).bark = s.bark := by rfl
@[simp] theorem State.clearHash_security (s : State) (engine : Nat) (but : Option Nat) :
    (s.clearHash engine but).security = s.security := by rfl
@[simp] theorem State.clearHash_observe (s : State) (engine : Nat) (but : Option Nat) :
    (s.clearHash engine but).observe = s.observe := by rfl
@[simp] theorem State.clearHash_power (s : State) (engine : Nat) (but : Option Nat) :
    (s.clearHash engine but).power = s.power := by rfl
@[simp] theorem State.clearHash_reports (s : State) (engine : Nat) (but : Option Nat) :
    (s.clearHash engine but).reports = s.reports := by rfl
@[simp] theorem State.clearHash_free (s : State) (engine : Nat) (but : Option Nat) :
    (s.clearHash engine but).free = s.free := by rfl
@[simp] theorem State.clearHash_out (s : State) (engine : Nat) (but : Option Nat) :
    (s.clearHash engine but).out = s.out := by rfl
@[simp] theorem State.clearHash_rd (s : State) (engine : Nat) (but : Option Nat) (fld : Field) (ix fu : Nat) :
    (s.clearHash engine but).rd fld ix fu = s.rd fld ix fu := by rfl
@[simp] theorem State.clearHash_rdN (s : State) (engine : Nat) (but : Option Nat) (fld : Field) (ix fu : Nat) :
    (s.clearHash engine but).rdN fld ix fu = s.rdN fld ix fu := by rfl
@[simp] theorem State.clearHash_rdB (s : State) (engine : Nat) (but : Option Nat) (fld : Field) (ix fu : Nat) :
    (s.clearHash engine but).rdB fld ix fu = s.rdB fld ix fu := by rfl
@[simp] theorem State.clearHash_cmd (s : State) (engine : Nat) (but : Option Nat) (cid : Nat) :
    (s.clearHash engine but).cmd? cid = s.cmd? cid := by rfl

/-! `State.answerFetch` changes `gather` alone. -/
@[simp] theorem State.answerFetch_pending (s : State) (id : Nat) (a : FetchAnswer) :
    (s.answerFetch id a).pending = s.pending := by rfl
@[simp] theorem State.answerFetch_variant (s : State) (id : Nat) (a : FetchAnswer) :
    (s.answerFetch id a).variant = s.variant := by rfl
@[simp] theorem State.answerFetch_revision (s : State) (id : Nat) (a : FetchAnswer) :
    (s.answerFetch id a).revision = s.revision := by rfl
@[simp] theorem State.answerFetch_regs (s : State) (id : Nat) (a : FetchAnswer) :
    (s.answerFetch id a).regs = s.regs := by rfl
@[simp] theorem State.answerFetch_hbm (s : State) (id : Nat) (a : FetchAnswer) :
    (s.answerFetch id a).hbm = s.hbm := by rfl
@[simp] theorem State.answerFetch_sap (s : State) (id : Nat) (a : FetchAnswer) :
    (s.answerFetch id a).sap = s.sap := by rfl
@[simp] theorem State.answerFetch_host (s : State) (id : Nat) (a : FetchAnswer) :
    (s.answerFetch id a).host = s.host := by rfl
@[simp] theorem State.answerFetch_acc (s : State) (id : Nat) (a : FetchAnswer) :
    (s.answerFetch id a).acc = s.acc := by rfl
@[simp] theorem State.answerFetch_mem (s : State) (id : Nat) (a : FetchAnswer) :
    (s.answerFetch id a).mem = s.mem := by rfl
@[simp] theorem State.answerFetch_queues (s : State) (id : Nat) (a : FetchAnswer) :
    (s.answerFetch id a).queues = s.queues := by rfl
@[simp] theorem State.answerFetch_pcie (s : State) (id : Nat) (a : FetchAnswer) :
    (s.answerFetch id a).pcie = s.pcie := by rfl
@[simp] theorem State.answerFetch_time (s : State) (id : Nat) (a : FetchAnswer) :
    (s.answerFetch id a).time = s.time := by rfl
@[simp] theorem State.answerFetch_ingest (s : State) (id : Nat) (a : FetchAnswer) :
    (s.answerFetch id a).ingest = s.ingest := by rfl
@[simp] theorem State.answerFetch_compute (s : State) (id : Nat) (a : FetchAnswer) :
    (s.answerFetch id a).compute = s.compute := by rfl
@[simp] theorem State.answerFetch_canopy (s : State) (id : Nat) (a : FetchAnswer) :
    (s.answerFetch id a).canopy = s.canopy := by rfl
@[simp] theorem State.answerFetch_sort (s : State) (id : Nat) (a : FetchAnswer) :
    (s.answerFetch id a).sort = s.sort := by rfl
@[simp] theorem State.answerFetch_fabric (s : State) (id : Nat) (a : FetchAnswer) :
    (s.answerFetch id a).fabric = s.fabric := by rfl
@[simp] theorem State.answerFetch_twin (s : State) (id : Nat) (a : FetchAnswer) :
    (s.answerFetch id a).twin = s.twin := by rfl
@[simp] theorem State.answerFetch_bark (s : State) (id : Nat) (a : FetchAnswer) :
    (s.answerFetch id a).bark = s.bark := by rfl
@[simp] theorem State.answerFetch_security (s : State) (id : Nat) (a : FetchAnswer) :
    (s.answerFetch id a).security = s.security := by rfl
@[simp] theorem State.answerFetch_observe (s : State) (id : Nat) (a : FetchAnswer) :
    (s.answerFetch id a).observe = s.observe := by rfl
@[simp] theorem State.answerFetch_power (s : State) (id : Nat) (a : FetchAnswer) :
    (s.answerFetch id a).power = s.power := by rfl
@[simp] theorem State.answerFetch_reports (s : State) (id : Nat) (a : FetchAnswer) :
    (s.answerFetch id a).reports = s.reports := by rfl
@[simp] theorem State.answerFetch_free (s : State) (id : Nat) (a : FetchAnswer) :
    (s.answerFetch id a).free = s.free := by rfl
@[simp] theorem State.answerFetch_out (s : State) (id : Nat) (a : FetchAnswer) :
    (s.answerFetch id a).out = s.out := by rfl
@[simp] theorem State.answerFetch_rd (s : State) (id : Nat) (a : FetchAnswer) (fld : Field) (ix fu : Nat) :
    (s.answerFetch id a).rd fld ix fu = s.rd fld ix fu := by rfl
@[simp] theorem State.answerFetch_rdN (s : State) (id : Nat) (a : FetchAnswer) (fld : Field) (ix fu : Nat) :
    (s.answerFetch id a).rdN fld ix fu = s.rdN fld ix fu := by rfl
@[simp] theorem State.answerFetch_rdB (s : State) (id : Nat) (a : FetchAnswer) (fld : Field) (ix fu : Nat) :
    (s.answerFetch id a).rdB fld ix fu = s.rdB fld ix fu := by rfl
@[simp] theorem State.answerFetch_cmd (s : State) (id : Nat) (a : FetchAnswer) (cid : Nat) :
    (s.answerFetch id a).cmd? cid = s.cmd? cid := by rfl

/-! `State.updPut` changes `gather` alone. -/
@[simp] theorem State.updPut_pending (s : State) (cmd : Nat) (f : PutRun → PutRun) :
    (s.updPut cmd f).pending = s.pending := by rfl
@[simp] theorem State.updPut_variant (s : State) (cmd : Nat) (f : PutRun → PutRun) :
    (s.updPut cmd f).variant = s.variant := by rfl
@[simp] theorem State.updPut_revision (s : State) (cmd : Nat) (f : PutRun → PutRun) :
    (s.updPut cmd f).revision = s.revision := by rfl
@[simp] theorem State.updPut_regs (s : State) (cmd : Nat) (f : PutRun → PutRun) :
    (s.updPut cmd f).regs = s.regs := by rfl
@[simp] theorem State.updPut_hbm (s : State) (cmd : Nat) (f : PutRun → PutRun) :
    (s.updPut cmd f).hbm = s.hbm := by rfl
@[simp] theorem State.updPut_sap (s : State) (cmd : Nat) (f : PutRun → PutRun) :
    (s.updPut cmd f).sap = s.sap := by rfl
@[simp] theorem State.updPut_host (s : State) (cmd : Nat) (f : PutRun → PutRun) :
    (s.updPut cmd f).host = s.host := by rfl
@[simp] theorem State.updPut_acc (s : State) (cmd : Nat) (f : PutRun → PutRun) :
    (s.updPut cmd f).acc = s.acc := by rfl
@[simp] theorem State.updPut_mem (s : State) (cmd : Nat) (f : PutRun → PutRun) :
    (s.updPut cmd f).mem = s.mem := by rfl
@[simp] theorem State.updPut_queues (s : State) (cmd : Nat) (f : PutRun → PutRun) :
    (s.updPut cmd f).queues = s.queues := by rfl
@[simp] theorem State.updPut_pcie (s : State) (cmd : Nat) (f : PutRun → PutRun) :
    (s.updPut cmd f).pcie = s.pcie := by rfl
@[simp] theorem State.updPut_time (s : State) (cmd : Nat) (f : PutRun → PutRun) :
    (s.updPut cmd f).time = s.time := by rfl
@[simp] theorem State.updPut_ingest (s : State) (cmd : Nat) (f : PutRun → PutRun) :
    (s.updPut cmd f).ingest = s.ingest := by rfl
@[simp] theorem State.updPut_compute (s : State) (cmd : Nat) (f : PutRun → PutRun) :
    (s.updPut cmd f).compute = s.compute := by rfl
@[simp] theorem State.updPut_canopy (s : State) (cmd : Nat) (f : PutRun → PutRun) :
    (s.updPut cmd f).canopy = s.canopy := by rfl
@[simp] theorem State.updPut_sort (s : State) (cmd : Nat) (f : PutRun → PutRun) :
    (s.updPut cmd f).sort = s.sort := by rfl
@[simp] theorem State.updPut_fabric (s : State) (cmd : Nat) (f : PutRun → PutRun) :
    (s.updPut cmd f).fabric = s.fabric := by rfl
@[simp] theorem State.updPut_twin (s : State) (cmd : Nat) (f : PutRun → PutRun) :
    (s.updPut cmd f).twin = s.twin := by rfl
@[simp] theorem State.updPut_bark (s : State) (cmd : Nat) (f : PutRun → PutRun) :
    (s.updPut cmd f).bark = s.bark := by rfl
@[simp] theorem State.updPut_security (s : State) (cmd : Nat) (f : PutRun → PutRun) :
    (s.updPut cmd f).security = s.security := by rfl
@[simp] theorem State.updPut_observe (s : State) (cmd : Nat) (f : PutRun → PutRun) :
    (s.updPut cmd f).observe = s.observe := by rfl
@[simp] theorem State.updPut_power (s : State) (cmd : Nat) (f : PutRun → PutRun) :
    (s.updPut cmd f).power = s.power := by rfl
@[simp] theorem State.updPut_reports (s : State) (cmd : Nat) (f : PutRun → PutRun) :
    (s.updPut cmd f).reports = s.reports := by rfl
@[simp] theorem State.updPut_free (s : State) (cmd : Nat) (f : PutRun → PutRun) :
    (s.updPut cmd f).free = s.free := by rfl
@[simp] theorem State.updPut_out (s : State) (cmd : Nat) (f : PutRun → PutRun) :
    (s.updPut cmd f).out = s.out := by rfl
@[simp] theorem State.updPut_rd (s : State) (cmd : Nat) (f : PutRun → PutRun) (fld : Field) (ix fu : Nat) :
    (s.updPut cmd f).rd fld ix fu = s.rd fld ix fu := by rfl
@[simp] theorem State.updPut_rdN (s : State) (cmd : Nat) (f : PutRun → PutRun) (fld : Field) (ix fu : Nat) :
    (s.updPut cmd f).rdN fld ix fu = s.rdN fld ix fu := by rfl
@[simp] theorem State.updPut_rdB (s : State) (cmd : Nat) (f : PutRun → PutRun) (fld : Field) (ix fu : Nat) :
    (s.updPut cmd f).rdB fld ix fu = s.rdB fld ix fu := by rfl
@[simp] theorem State.updPut_cmd (s : State) (cmd : Nat) (f : PutRun → PutRun) (cid : Nat) :
    (s.updPut cmd f).cmd? cid = s.cmd? cid := by rfl

/-! `State.dropPut` changes `gather` alone. -/
@[simp] theorem State.dropPut_pending (s : State) (cmd : Nat) :
    (s.dropPut cmd).pending = s.pending := by rfl
@[simp] theorem State.dropPut_variant (s : State) (cmd : Nat) :
    (s.dropPut cmd).variant = s.variant := by rfl
@[simp] theorem State.dropPut_revision (s : State) (cmd : Nat) :
    (s.dropPut cmd).revision = s.revision := by rfl
@[simp] theorem State.dropPut_regs (s : State) (cmd : Nat) :
    (s.dropPut cmd).regs = s.regs := by rfl
@[simp] theorem State.dropPut_hbm (s : State) (cmd : Nat) :
    (s.dropPut cmd).hbm = s.hbm := by rfl
@[simp] theorem State.dropPut_sap (s : State) (cmd : Nat) :
    (s.dropPut cmd).sap = s.sap := by rfl
@[simp] theorem State.dropPut_host (s : State) (cmd : Nat) :
    (s.dropPut cmd).host = s.host := by rfl
@[simp] theorem State.dropPut_acc (s : State) (cmd : Nat) :
    (s.dropPut cmd).acc = s.acc := by rfl
@[simp] theorem State.dropPut_mem (s : State) (cmd : Nat) :
    (s.dropPut cmd).mem = s.mem := by rfl
@[simp] theorem State.dropPut_queues (s : State) (cmd : Nat) :
    (s.dropPut cmd).queues = s.queues := by rfl
@[simp] theorem State.dropPut_pcie (s : State) (cmd : Nat) :
    (s.dropPut cmd).pcie = s.pcie := by rfl
@[simp] theorem State.dropPut_time (s : State) (cmd : Nat) :
    (s.dropPut cmd).time = s.time := by rfl
@[simp] theorem State.dropPut_ingest (s : State) (cmd : Nat) :
    (s.dropPut cmd).ingest = s.ingest := by rfl
@[simp] theorem State.dropPut_compute (s : State) (cmd : Nat) :
    (s.dropPut cmd).compute = s.compute := by rfl
@[simp] theorem State.dropPut_canopy (s : State) (cmd : Nat) :
    (s.dropPut cmd).canopy = s.canopy := by rfl
@[simp] theorem State.dropPut_sort (s : State) (cmd : Nat) :
    (s.dropPut cmd).sort = s.sort := by rfl
@[simp] theorem State.dropPut_fabric (s : State) (cmd : Nat) :
    (s.dropPut cmd).fabric = s.fabric := by rfl
@[simp] theorem State.dropPut_twin (s : State) (cmd : Nat) :
    (s.dropPut cmd).twin = s.twin := by rfl
@[simp] theorem State.dropPut_bark (s : State) (cmd : Nat) :
    (s.dropPut cmd).bark = s.bark := by rfl
@[simp] theorem State.dropPut_security (s : State) (cmd : Nat) :
    (s.dropPut cmd).security = s.security := by rfl
@[simp] theorem State.dropPut_observe (s : State) (cmd : Nat) :
    (s.dropPut cmd).observe = s.observe := by rfl
@[simp] theorem State.dropPut_power (s : State) (cmd : Nat) :
    (s.dropPut cmd).power = s.power := by rfl
@[simp] theorem State.dropPut_reports (s : State) (cmd : Nat) :
    (s.dropPut cmd).reports = s.reports := by rfl
@[simp] theorem State.dropPut_free (s : State) (cmd : Nat) :
    (s.dropPut cmd).free = s.free := by rfl
@[simp] theorem State.dropPut_out (s : State) (cmd : Nat) :
    (s.dropPut cmd).out = s.out := by rfl
@[simp] theorem State.dropPut_rd (s : State) (cmd : Nat) (fld : Field) (ix fu : Nat) :
    (s.dropPut cmd).rd fld ix fu = s.rd fld ix fu := by rfl
@[simp] theorem State.dropPut_rdN (s : State) (cmd : Nat) (fld : Field) (ix fu : Nat) :
    (s.dropPut cmd).rdN fld ix fu = s.rdN fld ix fu := by rfl
@[simp] theorem State.dropPut_rdB (s : State) (cmd : Nat) (fld : Field) (ix fu : Nat) :
    (s.dropPut cmd).rdB fld ix fu = s.rdB fld ix fu := by rfl
@[simp] theorem State.dropPut_cmd (s : State) (cmd : Nat) (cid : Nat) :
    (s.dropPut cmd).cmd? cid = s.cmd? cid := by rfl

/-! `State.addPut` changes `gather` alone. -/
@[simp] theorem State.addPut_pending (s : State) (r : PutRun) :
    (s.addPut r).pending = s.pending := by rfl
@[simp] theorem State.addPut_variant (s : State) (r : PutRun) :
    (s.addPut r).variant = s.variant := by rfl
@[simp] theorem State.addPut_revision (s : State) (r : PutRun) :
    (s.addPut r).revision = s.revision := by rfl
@[simp] theorem State.addPut_regs (s : State) (r : PutRun) :
    (s.addPut r).regs = s.regs := by rfl
@[simp] theorem State.addPut_hbm (s : State) (r : PutRun) :
    (s.addPut r).hbm = s.hbm := by rfl
@[simp] theorem State.addPut_sap (s : State) (r : PutRun) :
    (s.addPut r).sap = s.sap := by rfl
@[simp] theorem State.addPut_host (s : State) (r : PutRun) :
    (s.addPut r).host = s.host := by rfl
@[simp] theorem State.addPut_acc (s : State) (r : PutRun) :
    (s.addPut r).acc = s.acc := by rfl
@[simp] theorem State.addPut_mem (s : State) (r : PutRun) :
    (s.addPut r).mem = s.mem := by rfl
@[simp] theorem State.addPut_queues (s : State) (r : PutRun) :
    (s.addPut r).queues = s.queues := by rfl
@[simp] theorem State.addPut_pcie (s : State) (r : PutRun) :
    (s.addPut r).pcie = s.pcie := by rfl
@[simp] theorem State.addPut_time (s : State) (r : PutRun) :
    (s.addPut r).time = s.time := by rfl
@[simp] theorem State.addPut_ingest (s : State) (r : PutRun) :
    (s.addPut r).ingest = s.ingest := by rfl
@[simp] theorem State.addPut_compute (s : State) (r : PutRun) :
    (s.addPut r).compute = s.compute := by rfl
@[simp] theorem State.addPut_canopy (s : State) (r : PutRun) :
    (s.addPut r).canopy = s.canopy := by rfl
@[simp] theorem State.addPut_sort (s : State) (r : PutRun) :
    (s.addPut r).sort = s.sort := by rfl
@[simp] theorem State.addPut_fabric (s : State) (r : PutRun) :
    (s.addPut r).fabric = s.fabric := by rfl
@[simp] theorem State.addPut_twin (s : State) (r : PutRun) :
    (s.addPut r).twin = s.twin := by rfl
@[simp] theorem State.addPut_bark (s : State) (r : PutRun) :
    (s.addPut r).bark = s.bark := by rfl
@[simp] theorem State.addPut_security (s : State) (r : PutRun) :
    (s.addPut r).security = s.security := by rfl
@[simp] theorem State.addPut_observe (s : State) (r : PutRun) :
    (s.addPut r).observe = s.observe := by rfl
@[simp] theorem State.addPut_power (s : State) (r : PutRun) :
    (s.addPut r).power = s.power := by rfl
@[simp] theorem State.addPut_reports (s : State) (r : PutRun) :
    (s.addPut r).reports = s.reports := by rfl
@[simp] theorem State.addPut_free (s : State) (r : PutRun) :
    (s.addPut r).free = s.free := by rfl
@[simp] theorem State.addPut_out (s : State) (r : PutRun) :
    (s.addPut r).out = s.out := by rfl
@[simp] theorem State.addPut_rd (s : State) (r : PutRun) (fld : Field) (ix fu : Nat) :
    (s.addPut r).rd fld ix fu = s.rd fld ix fu := by rfl
@[simp] theorem State.addPut_rdN (s : State) (r : PutRun) (fld : Field) (ix fu : Nat) :
    (s.addPut r).rdN fld ix fu = s.rdN fld ix fu := by rfl
@[simp] theorem State.addPut_rdB (s : State) (r : PutRun) (fld : Field) (ix fu : Nat) :
    (s.addPut r).rdB fld ix fu = s.rdB fld ix fu := by rfl
@[simp] theorem State.addPut_cmd (s : State) (r : PutRun) (cid : Nat) :
    (s.addPut r).cmd? cid = s.cmd? cid := by rfl

/-! `State.addItems` changes `compute` alone. -/
@[simp] theorem State.addItems_pending (s : State) (l : List WorkItem) :
    (s.addItems l).pending = s.pending := by rfl
@[simp] theorem State.addItems_variant (s : State) (l : List WorkItem) :
    (s.addItems l).variant = s.variant := by rfl
@[simp] theorem State.addItems_revision (s : State) (l : List WorkItem) :
    (s.addItems l).revision = s.revision := by rfl
@[simp] theorem State.addItems_regs (s : State) (l : List WorkItem) :
    (s.addItems l).regs = s.regs := by rfl
@[simp] theorem State.addItems_hbm (s : State) (l : List WorkItem) :
    (s.addItems l).hbm = s.hbm := by rfl
@[simp] theorem State.addItems_sap (s : State) (l : List WorkItem) :
    (s.addItems l).sap = s.sap := by rfl
@[simp] theorem State.addItems_host (s : State) (l : List WorkItem) :
    (s.addItems l).host = s.host := by rfl
@[simp] theorem State.addItems_acc (s : State) (l : List WorkItem) :
    (s.addItems l).acc = s.acc := by rfl
@[simp] theorem State.addItems_mem (s : State) (l : List WorkItem) :
    (s.addItems l).mem = s.mem := by rfl
@[simp] theorem State.addItems_queues (s : State) (l : List WorkItem) :
    (s.addItems l).queues = s.queues := by rfl
@[simp] theorem State.addItems_pcie (s : State) (l : List WorkItem) :
    (s.addItems l).pcie = s.pcie := by rfl
@[simp] theorem State.addItems_time (s : State) (l : List WorkItem) :
    (s.addItems l).time = s.time := by rfl
@[simp] theorem State.addItems_ingest (s : State) (l : List WorkItem) :
    (s.addItems l).ingest = s.ingest := by rfl
@[simp] theorem State.addItems_canopy (s : State) (l : List WorkItem) :
    (s.addItems l).canopy = s.canopy := by rfl
@[simp] theorem State.addItems_sort (s : State) (l : List WorkItem) :
    (s.addItems l).sort = s.sort := by rfl
@[simp] theorem State.addItems_gather (s : State) (l : List WorkItem) :
    (s.addItems l).gather = s.gather := by rfl
@[simp] theorem State.addItems_fabric (s : State) (l : List WorkItem) :
    (s.addItems l).fabric = s.fabric := by rfl
@[simp] theorem State.addItems_twin (s : State) (l : List WorkItem) :
    (s.addItems l).twin = s.twin := by rfl
@[simp] theorem State.addItems_bark (s : State) (l : List WorkItem) :
    (s.addItems l).bark = s.bark := by rfl
@[simp] theorem State.addItems_security (s : State) (l : List WorkItem) :
    (s.addItems l).security = s.security := by rfl
@[simp] theorem State.addItems_observe (s : State) (l : List WorkItem) :
    (s.addItems l).observe = s.observe := by rfl
@[simp] theorem State.addItems_power (s : State) (l : List WorkItem) :
    (s.addItems l).power = s.power := by rfl
@[simp] theorem State.addItems_reports (s : State) (l : List WorkItem) :
    (s.addItems l).reports = s.reports := by rfl
@[simp] theorem State.addItems_free (s : State) (l : List WorkItem) :
    (s.addItems l).free = s.free := by rfl
@[simp] theorem State.addItems_out (s : State) (l : List WorkItem) :
    (s.addItems l).out = s.out := by rfl
@[simp] theorem State.addItems_rd (s : State) (l : List WorkItem) (fld : Field) (ix fu : Nat) :
    (s.addItems l).rd fld ix fu = s.rd fld ix fu := by rfl
@[simp] theorem State.addItems_rdN (s : State) (l : List WorkItem) (fld : Field) (ix fu : Nat) :
    (s.addItems l).rdN fld ix fu = s.rdN fld ix fu := by rfl
@[simp] theorem State.addItems_rdB (s : State) (l : List WorkItem) (fld : Field) (ix fu : Nat) :
    (s.addItems l).rdB fld ix fu = s.rdB fld ix fu := by rfl
@[simp] theorem State.addItems_cmd (s : State) (l : List WorkItem) (cid : Nat) :
    (s.addItems l).cmd? cid = s.cmd? cid := by rfl

/-! `State.noteHistory` changes `canopy` alone. -/
@[simp] theorem State.noteHistory_pending (s : State) (h : History) :
    (s.noteHistory h).pending = s.pending := by rfl
@[simp] theorem State.noteHistory_variant (s : State) (h : History) :
    (s.noteHistory h).variant = s.variant := by rfl
@[simp] theorem State.noteHistory_revision (s : State) (h : History) :
    (s.noteHistory h).revision = s.revision := by rfl
@[simp] theorem State.noteHistory_regs (s : State) (h : History) :
    (s.noteHistory h).regs = s.regs := by rfl
@[simp] theorem State.noteHistory_hbm (s : State) (h : History) :
    (s.noteHistory h).hbm = s.hbm := by rfl
@[simp] theorem State.noteHistory_sap (s : State) (h : History) :
    (s.noteHistory h).sap = s.sap := by rfl
@[simp] theorem State.noteHistory_host (s : State) (h : History) :
    (s.noteHistory h).host = s.host := by rfl
@[simp] theorem State.noteHistory_acc (s : State) (h : History) :
    (s.noteHistory h).acc = s.acc := by rfl
@[simp] theorem State.noteHistory_mem (s : State) (h : History) :
    (s.noteHistory h).mem = s.mem := by rfl
@[simp] theorem State.noteHistory_queues (s : State) (h : History) :
    (s.noteHistory h).queues = s.queues := by rfl
@[simp] theorem State.noteHistory_pcie (s : State) (h : History) :
    (s.noteHistory h).pcie = s.pcie := by rfl
@[simp] theorem State.noteHistory_time (s : State) (h : History) :
    (s.noteHistory h).time = s.time := by rfl
@[simp] theorem State.noteHistory_ingest (s : State) (h : History) :
    (s.noteHistory h).ingest = s.ingest := by rfl
@[simp] theorem State.noteHistory_compute (s : State) (h : History) :
    (s.noteHistory h).compute = s.compute := by rfl
@[simp] theorem State.noteHistory_sort (s : State) (h : History) :
    (s.noteHistory h).sort = s.sort := by rfl
@[simp] theorem State.noteHistory_gather (s : State) (h : History) :
    (s.noteHistory h).gather = s.gather := by rfl
@[simp] theorem State.noteHistory_fabric (s : State) (h : History) :
    (s.noteHistory h).fabric = s.fabric := by rfl
@[simp] theorem State.noteHistory_twin (s : State) (h : History) :
    (s.noteHistory h).twin = s.twin := by rfl
@[simp] theorem State.noteHistory_bark (s : State) (h : History) :
    (s.noteHistory h).bark = s.bark := by rfl
@[simp] theorem State.noteHistory_security (s : State) (h : History) :
    (s.noteHistory h).security = s.security := by rfl
@[simp] theorem State.noteHistory_observe (s : State) (h : History) :
    (s.noteHistory h).observe = s.observe := by rfl
@[simp] theorem State.noteHistory_power (s : State) (h : History) :
    (s.noteHistory h).power = s.power := by rfl
@[simp] theorem State.noteHistory_reports (s : State) (h : History) :
    (s.noteHistory h).reports = s.reports := by rfl
@[simp] theorem State.noteHistory_free (s : State) (h : History) :
    (s.noteHistory h).free = s.free := by rfl
@[simp] theorem State.noteHistory_out (s : State) (h : History) :
    (s.noteHistory h).out = s.out := by rfl
@[simp] theorem State.noteHistory_rd (s : State) (h : History) (fld : Field) (ix fu : Nat) :
    (s.noteHistory h).rd fld ix fu = s.rd fld ix fu := by rfl
@[simp] theorem State.noteHistory_rdN (s : State) (h : History) (fld : Field) (ix fu : Nat) :
    (s.noteHistory h).rdN fld ix fu = s.rdN fld ix fu := by rfl
@[simp] theorem State.noteHistory_rdB (s : State) (h : History) (fld : Field) (ix fu : Nat) :
    (s.noteHistory h).rdB fld ix fu = s.rdB fld ix fu := by rfl
@[simp] theorem State.noteHistory_cmd (s : State) (h : History) (cid : Nat) :
    (s.noteHistory h).cmd? cid = s.cmd? cid := by rfl

/-! `State.updDir` changes `security` alone. -/
@[simp] theorem State.updDir_pending (s : State) (f : Directory → Directory) :
    (s.updDir f).pending = s.pending := by rfl
@[simp] theorem State.updDir_variant (s : State) (f : Directory → Directory) :
    (s.updDir f).variant = s.variant := by rfl
@[simp] theorem State.updDir_revision (s : State) (f : Directory → Directory) :
    (s.updDir f).revision = s.revision := by rfl
@[simp] theorem State.updDir_regs (s : State) (f : Directory → Directory) :
    (s.updDir f).regs = s.regs := by rfl
@[simp] theorem State.updDir_hbm (s : State) (f : Directory → Directory) :
    (s.updDir f).hbm = s.hbm := by rfl
@[simp] theorem State.updDir_sap (s : State) (f : Directory → Directory) :
    (s.updDir f).sap = s.sap := by rfl
@[simp] theorem State.updDir_host (s : State) (f : Directory → Directory) :
    (s.updDir f).host = s.host := by rfl
@[simp] theorem State.updDir_acc (s : State) (f : Directory → Directory) :
    (s.updDir f).acc = s.acc := by rfl
@[simp] theorem State.updDir_mem (s : State) (f : Directory → Directory) :
    (s.updDir f).mem = s.mem := by rfl
@[simp] theorem State.updDir_queues (s : State) (f : Directory → Directory) :
    (s.updDir f).queues = s.queues := by rfl
@[simp] theorem State.updDir_pcie (s : State) (f : Directory → Directory) :
    (s.updDir f).pcie = s.pcie := by rfl
@[simp] theorem State.updDir_time (s : State) (f : Directory → Directory) :
    (s.updDir f).time = s.time := by rfl
@[simp] theorem State.updDir_ingest (s : State) (f : Directory → Directory) :
    (s.updDir f).ingest = s.ingest := by rfl
@[simp] theorem State.updDir_compute (s : State) (f : Directory → Directory) :
    (s.updDir f).compute = s.compute := by rfl
@[simp] theorem State.updDir_canopy (s : State) (f : Directory → Directory) :
    (s.updDir f).canopy = s.canopy := by rfl
@[simp] theorem State.updDir_sort (s : State) (f : Directory → Directory) :
    (s.updDir f).sort = s.sort := by rfl
@[simp] theorem State.updDir_gather (s : State) (f : Directory → Directory) :
    (s.updDir f).gather = s.gather := by rfl
@[simp] theorem State.updDir_fabric (s : State) (f : Directory → Directory) :
    (s.updDir f).fabric = s.fabric := by rfl
@[simp] theorem State.updDir_twin (s : State) (f : Directory → Directory) :
    (s.updDir f).twin = s.twin := by rfl
@[simp] theorem State.updDir_bark (s : State) (f : Directory → Directory) :
    (s.updDir f).bark = s.bark := by rfl
@[simp] theorem State.updDir_observe (s : State) (f : Directory → Directory) :
    (s.updDir f).observe = s.observe := by rfl
@[simp] theorem State.updDir_power (s : State) (f : Directory → Directory) :
    (s.updDir f).power = s.power := by rfl
@[simp] theorem State.updDir_reports (s : State) (f : Directory → Directory) :
    (s.updDir f).reports = s.reports := by rfl
@[simp] theorem State.updDir_free (s : State) (f : Directory → Directory) :
    (s.updDir f).free = s.free := by rfl
@[simp] theorem State.updDir_out (s : State) (f : Directory → Directory) :
    (s.updDir f).out = s.out := by rfl
@[simp] theorem State.updDir_rd (s : State) (f : Directory → Directory) (fld : Field) (ix fu : Nat) :
    (s.updDir f).rd fld ix fu = s.rd fld ix fu := by rfl
@[simp] theorem State.updDir_rdN (s : State) (f : Directory → Directory) (fld : Field) (ix fu : Nat) :
    (s.updDir f).rdN fld ix fu = s.rdN fld ix fu := by rfl
@[simp] theorem State.updDir_rdB (s : State) (f : Directory → Directory) (fld : Field) (ix fu : Nat) :
    (s.updDir f).rdB fld ix fu = s.rdB fld ix fu := by rfl
@[simp] theorem State.updDir_cmd (s : State) (f : Directory → Directory) (cid : Nat) :
    (s.updDir f).cmd? cid = s.cmd? cid := by rfl

/-! `State.updSet` changes `ingest` alone. -/
@[simp] theorem State.updSet_pending (s : State) (n : Nat) (f : StreamSet → StreamSet) :
    (s.updSet n f).pending = s.pending := by rfl
@[simp] theorem State.updSet_variant (s : State) (n : Nat) (f : StreamSet → StreamSet) :
    (s.updSet n f).variant = s.variant := by rfl
@[simp] theorem State.updSet_revision (s : State) (n : Nat) (f : StreamSet → StreamSet) :
    (s.updSet n f).revision = s.revision := by rfl
@[simp] theorem State.updSet_regs (s : State) (n : Nat) (f : StreamSet → StreamSet) :
    (s.updSet n f).regs = s.regs := by rfl
@[simp] theorem State.updSet_hbm (s : State) (n : Nat) (f : StreamSet → StreamSet) :
    (s.updSet n f).hbm = s.hbm := by rfl
@[simp] theorem State.updSet_sap (s : State) (n : Nat) (f : StreamSet → StreamSet) :
    (s.updSet n f).sap = s.sap := by rfl
@[simp] theorem State.updSet_host (s : State) (n : Nat) (f : StreamSet → StreamSet) :
    (s.updSet n f).host = s.host := by rfl
@[simp] theorem State.updSet_acc (s : State) (n : Nat) (f : StreamSet → StreamSet) :
    (s.updSet n f).acc = s.acc := by rfl
@[simp] theorem State.updSet_mem (s : State) (n : Nat) (f : StreamSet → StreamSet) :
    (s.updSet n f).mem = s.mem := by rfl
@[simp] theorem State.updSet_queues (s : State) (n : Nat) (f : StreamSet → StreamSet) :
    (s.updSet n f).queues = s.queues := by rfl
@[simp] theorem State.updSet_pcie (s : State) (n : Nat) (f : StreamSet → StreamSet) :
    (s.updSet n f).pcie = s.pcie := by rfl
@[simp] theorem State.updSet_time (s : State) (n : Nat) (f : StreamSet → StreamSet) :
    (s.updSet n f).time = s.time := by rfl
@[simp] theorem State.updSet_compute (s : State) (n : Nat) (f : StreamSet → StreamSet) :
    (s.updSet n f).compute = s.compute := by rfl
@[simp] theorem State.updSet_canopy (s : State) (n : Nat) (f : StreamSet → StreamSet) :
    (s.updSet n f).canopy = s.canopy := by rfl
@[simp] theorem State.updSet_sort (s : State) (n : Nat) (f : StreamSet → StreamSet) :
    (s.updSet n f).sort = s.sort := by rfl
@[simp] theorem State.updSet_gather (s : State) (n : Nat) (f : StreamSet → StreamSet) :
    (s.updSet n f).gather = s.gather := by rfl
@[simp] theorem State.updSet_fabric (s : State) (n : Nat) (f : StreamSet → StreamSet) :
    (s.updSet n f).fabric = s.fabric := by rfl
@[simp] theorem State.updSet_twin (s : State) (n : Nat) (f : StreamSet → StreamSet) :
    (s.updSet n f).twin = s.twin := by rfl
@[simp] theorem State.updSet_bark (s : State) (n : Nat) (f : StreamSet → StreamSet) :
    (s.updSet n f).bark = s.bark := by rfl
@[simp] theorem State.updSet_security (s : State) (n : Nat) (f : StreamSet → StreamSet) :
    (s.updSet n f).security = s.security := by rfl
@[simp] theorem State.updSet_observe (s : State) (n : Nat) (f : StreamSet → StreamSet) :
    (s.updSet n f).observe = s.observe := by rfl
@[simp] theorem State.updSet_power (s : State) (n : Nat) (f : StreamSet → StreamSet) :
    (s.updSet n f).power = s.power := by rfl
@[simp] theorem State.updSet_reports (s : State) (n : Nat) (f : StreamSet → StreamSet) :
    (s.updSet n f).reports = s.reports := by rfl
@[simp] theorem State.updSet_free (s : State) (n : Nat) (f : StreamSet → StreamSet) :
    (s.updSet n f).free = s.free := by rfl
@[simp] theorem State.updSet_out (s : State) (n : Nat) (f : StreamSet → StreamSet) :
    (s.updSet n f).out = s.out := by rfl
@[simp] theorem State.updSet_rd (s : State) (n : Nat) (f : StreamSet → StreamSet) (fld : Field) (ix fu : Nat) :
    (s.updSet n f).rd fld ix fu = s.rd fld ix fu := by rfl
@[simp] theorem State.updSet_rdN (s : State) (n : Nat) (f : StreamSet → StreamSet) (fld : Field) (ix fu : Nat) :
    (s.updSet n f).rdN fld ix fu = s.rdN fld ix fu := by rfl
@[simp] theorem State.updSet_rdB (s : State) (n : Nat) (f : StreamSet → StreamSet) (fld : Field) (ix fu : Nat) :
    (s.updSet n f).rdB fld ix fu = s.rdB fld ix fu := by rfl
@[simp] theorem State.updSet_cmd (s : State) (n : Nat) (f : StreamSet → StreamSet) (cid : Nat) :
    (s.updSet n f).cmd? cid = s.cmd? cid := by rfl

/-! `State.setFifo` changes `ingest` alone. -/
@[simp] theorem State.setFifo_pending (s : State) (port : Nat) (f : RxFifo → RxFifo) :
    (s.setFifo port f).pending = s.pending := by rfl
@[simp] theorem State.setFifo_variant (s : State) (port : Nat) (f : RxFifo → RxFifo) :
    (s.setFifo port f).variant = s.variant := by rfl
@[simp] theorem State.setFifo_revision (s : State) (port : Nat) (f : RxFifo → RxFifo) :
    (s.setFifo port f).revision = s.revision := by rfl
@[simp] theorem State.setFifo_regs (s : State) (port : Nat) (f : RxFifo → RxFifo) :
    (s.setFifo port f).regs = s.regs := by rfl
@[simp] theorem State.setFifo_hbm (s : State) (port : Nat) (f : RxFifo → RxFifo) :
    (s.setFifo port f).hbm = s.hbm := by rfl
@[simp] theorem State.setFifo_sap (s : State) (port : Nat) (f : RxFifo → RxFifo) :
    (s.setFifo port f).sap = s.sap := by rfl
@[simp] theorem State.setFifo_host (s : State) (port : Nat) (f : RxFifo → RxFifo) :
    (s.setFifo port f).host = s.host := by rfl
@[simp] theorem State.setFifo_acc (s : State) (port : Nat) (f : RxFifo → RxFifo) :
    (s.setFifo port f).acc = s.acc := by rfl
@[simp] theorem State.setFifo_mem (s : State) (port : Nat) (f : RxFifo → RxFifo) :
    (s.setFifo port f).mem = s.mem := by rfl
@[simp] theorem State.setFifo_queues (s : State) (port : Nat) (f : RxFifo → RxFifo) :
    (s.setFifo port f).queues = s.queues := by rfl
@[simp] theorem State.setFifo_pcie (s : State) (port : Nat) (f : RxFifo → RxFifo) :
    (s.setFifo port f).pcie = s.pcie := by rfl
@[simp] theorem State.setFifo_time (s : State) (port : Nat) (f : RxFifo → RxFifo) :
    (s.setFifo port f).time = s.time := by rfl
@[simp] theorem State.setFifo_compute (s : State) (port : Nat) (f : RxFifo → RxFifo) :
    (s.setFifo port f).compute = s.compute := by rfl
@[simp] theorem State.setFifo_canopy (s : State) (port : Nat) (f : RxFifo → RxFifo) :
    (s.setFifo port f).canopy = s.canopy := by rfl
@[simp] theorem State.setFifo_sort (s : State) (port : Nat) (f : RxFifo → RxFifo) :
    (s.setFifo port f).sort = s.sort := by rfl
@[simp] theorem State.setFifo_gather (s : State) (port : Nat) (f : RxFifo → RxFifo) :
    (s.setFifo port f).gather = s.gather := by rfl
@[simp] theorem State.setFifo_fabric (s : State) (port : Nat) (f : RxFifo → RxFifo) :
    (s.setFifo port f).fabric = s.fabric := by rfl
@[simp] theorem State.setFifo_twin (s : State) (port : Nat) (f : RxFifo → RxFifo) :
    (s.setFifo port f).twin = s.twin := by rfl
@[simp] theorem State.setFifo_bark (s : State) (port : Nat) (f : RxFifo → RxFifo) :
    (s.setFifo port f).bark = s.bark := by rfl
@[simp] theorem State.setFifo_security (s : State) (port : Nat) (f : RxFifo → RxFifo) :
    (s.setFifo port f).security = s.security := by rfl
@[simp] theorem State.setFifo_observe (s : State) (port : Nat) (f : RxFifo → RxFifo) :
    (s.setFifo port f).observe = s.observe := by rfl
@[simp] theorem State.setFifo_power (s : State) (port : Nat) (f : RxFifo → RxFifo) :
    (s.setFifo port f).power = s.power := by rfl
@[simp] theorem State.setFifo_reports (s : State) (port : Nat) (f : RxFifo → RxFifo) :
    (s.setFifo port f).reports = s.reports := by rfl
@[simp] theorem State.setFifo_free (s : State) (port : Nat) (f : RxFifo → RxFifo) :
    (s.setFifo port f).free = s.free := by rfl
@[simp] theorem State.setFifo_out (s : State) (port : Nat) (f : RxFifo → RxFifo) :
    (s.setFifo port f).out = s.out := by rfl
@[simp] theorem State.setFifo_rd (s : State) (port : Nat) (f : RxFifo → RxFifo) (fld : Field) (ix fu : Nat) :
    (s.setFifo port f).rd fld ix fu = s.rd fld ix fu := by rfl
@[simp] theorem State.setFifo_rdN (s : State) (port : Nat) (f : RxFifo → RxFifo) (fld : Field) (ix fu : Nat) :
    (s.setFifo port f).rdN fld ix fu = s.rdN fld ix fu := by rfl
@[simp] theorem State.setFifo_rdB (s : State) (port : Nat) (f : RxFifo → RxFifo) (fld : Field) (ix fu : Nat) :
    (s.setFifo port f).rdB fld ix fu = s.rdB fld ix fu := by rfl
@[simp] theorem State.setFifo_cmd (s : State) (port : Nat) (f : RxFifo → RxFifo) (cid : Nat) :
    (s.setFifo port f).cmd? cid = s.cmd? cid := by rfl

/-! `State.updBatches` changes `ingest` alone. -/
@[simp] theorem State.updBatches_pending (s : State) (set : Nat) (p : Batch → Bool) (f : Batch → Batch) :
    (s.updBatches set p f).pending = s.pending := by rfl
@[simp] theorem State.updBatches_variant (s : State) (set : Nat) (p : Batch → Bool) (f : Batch → Batch) :
    (s.updBatches set p f).variant = s.variant := by rfl
@[simp] theorem State.updBatches_revision (s : State) (set : Nat) (p : Batch → Bool) (f : Batch → Batch) :
    (s.updBatches set p f).revision = s.revision := by rfl
@[simp] theorem State.updBatches_regs (s : State) (set : Nat) (p : Batch → Bool) (f : Batch → Batch) :
    (s.updBatches set p f).regs = s.regs := by rfl
@[simp] theorem State.updBatches_hbm (s : State) (set : Nat) (p : Batch → Bool) (f : Batch → Batch) :
    (s.updBatches set p f).hbm = s.hbm := by rfl
@[simp] theorem State.updBatches_sap (s : State) (set : Nat) (p : Batch → Bool) (f : Batch → Batch) :
    (s.updBatches set p f).sap = s.sap := by rfl
@[simp] theorem State.updBatches_host (s : State) (set : Nat) (p : Batch → Bool) (f : Batch → Batch) :
    (s.updBatches set p f).host = s.host := by rfl
@[simp] theorem State.updBatches_acc (s : State) (set : Nat) (p : Batch → Bool) (f : Batch → Batch) :
    (s.updBatches set p f).acc = s.acc := by rfl
@[simp] theorem State.updBatches_mem (s : State) (set : Nat) (p : Batch → Bool) (f : Batch → Batch) :
    (s.updBatches set p f).mem = s.mem := by rfl
@[simp] theorem State.updBatches_queues (s : State) (set : Nat) (p : Batch → Bool) (f : Batch → Batch) :
    (s.updBatches set p f).queues = s.queues := by rfl
@[simp] theorem State.updBatches_pcie (s : State) (set : Nat) (p : Batch → Bool) (f : Batch → Batch) :
    (s.updBatches set p f).pcie = s.pcie := by rfl
@[simp] theorem State.updBatches_time (s : State) (set : Nat) (p : Batch → Bool) (f : Batch → Batch) :
    (s.updBatches set p f).time = s.time := by rfl
@[simp] theorem State.updBatches_compute (s : State) (set : Nat) (p : Batch → Bool) (f : Batch → Batch) :
    (s.updBatches set p f).compute = s.compute := by rfl
@[simp] theorem State.updBatches_canopy (s : State) (set : Nat) (p : Batch → Bool) (f : Batch → Batch) :
    (s.updBatches set p f).canopy = s.canopy := by rfl
@[simp] theorem State.updBatches_sort (s : State) (set : Nat) (p : Batch → Bool) (f : Batch → Batch) :
    (s.updBatches set p f).sort = s.sort := by rfl
@[simp] theorem State.updBatches_gather (s : State) (set : Nat) (p : Batch → Bool) (f : Batch → Batch) :
    (s.updBatches set p f).gather = s.gather := by rfl
@[simp] theorem State.updBatches_fabric (s : State) (set : Nat) (p : Batch → Bool) (f : Batch → Batch) :
    (s.updBatches set p f).fabric = s.fabric := by rfl
@[simp] theorem State.updBatches_twin (s : State) (set : Nat) (p : Batch → Bool) (f : Batch → Batch) :
    (s.updBatches set p f).twin = s.twin := by rfl
@[simp] theorem State.updBatches_bark (s : State) (set : Nat) (p : Batch → Bool) (f : Batch → Batch) :
    (s.updBatches set p f).bark = s.bark := by rfl
@[simp] theorem State.updBatches_security (s : State) (set : Nat) (p : Batch → Bool) (f : Batch → Batch) :
    (s.updBatches set p f).security = s.security := by rfl
@[simp] theorem State.updBatches_observe (s : State) (set : Nat) (p : Batch → Bool) (f : Batch → Batch) :
    (s.updBatches set p f).observe = s.observe := by rfl
@[simp] theorem State.updBatches_power (s : State) (set : Nat) (p : Batch → Bool) (f : Batch → Batch) :
    (s.updBatches set p f).power = s.power := by rfl
@[simp] theorem State.updBatches_reports (s : State) (set : Nat) (p : Batch → Bool) (f : Batch → Batch) :
    (s.updBatches set p f).reports = s.reports := by rfl
@[simp] theorem State.updBatches_free (s : State) (set : Nat) (p : Batch → Bool) (f : Batch → Batch) :
    (s.updBatches set p f).free = s.free := by rfl
@[simp] theorem State.updBatches_out (s : State) (set : Nat) (p : Batch → Bool) (f : Batch → Batch) :
    (s.updBatches set p f).out = s.out := by rfl
@[simp] theorem State.updBatches_rd (s : State) (set : Nat) (p : Batch → Bool) (f : Batch → Batch) (fld : Field) (ix fu : Nat) :
    (s.updBatches set p f).rd fld ix fu = s.rd fld ix fu := by rfl
@[simp] theorem State.updBatches_rdN (s : State) (set : Nat) (p : Batch → Bool) (f : Batch → Batch) (fld : Field) (ix fu : Nat) :
    (s.updBatches set p f).rdN fld ix fu = s.rdN fld ix fu := by rfl
@[simp] theorem State.updBatches_rdB (s : State) (set : Nat) (p : Batch → Bool) (f : Batch → Batch) (fld : Field) (ix fu : Nat) :
    (s.updBatches set p f).rdB fld ix fu = s.rdB fld ix fu := by rfl
@[simp] theorem State.updBatches_cmd (s : State) (set : Nat) (p : Batch → Bool) (f : Batch → Batch) (cid : Nat) :
    (s.updBatches set p f).cmd? cid = s.cmd? cid := by rfl

/-! `State.updConv` changes `compute` alone. -/
@[simp] theorem State.updConv_pending (s : State) (id : Nat) (f : Conv → Conv) :
    (s.updConv id f).pending = s.pending := by rfl
@[simp] theorem State.updConv_variant (s : State) (id : Nat) (f : Conv → Conv) :
    (s.updConv id f).variant = s.variant := by rfl
@[simp] theorem State.updConv_revision (s : State) (id : Nat) (f : Conv → Conv) :
    (s.updConv id f).revision = s.revision := by rfl
@[simp] theorem State.updConv_regs (s : State) (id : Nat) (f : Conv → Conv) :
    (s.updConv id f).regs = s.regs := by rfl
@[simp] theorem State.updConv_hbm (s : State) (id : Nat) (f : Conv → Conv) :
    (s.updConv id f).hbm = s.hbm := by rfl
@[simp] theorem State.updConv_sap (s : State) (id : Nat) (f : Conv → Conv) :
    (s.updConv id f).sap = s.sap := by rfl
@[simp] theorem State.updConv_host (s : State) (id : Nat) (f : Conv → Conv) :
    (s.updConv id f).host = s.host := by rfl
@[simp] theorem State.updConv_acc (s : State) (id : Nat) (f : Conv → Conv) :
    (s.updConv id f).acc = s.acc := by rfl
@[simp] theorem State.updConv_mem (s : State) (id : Nat) (f : Conv → Conv) :
    (s.updConv id f).mem = s.mem := by rfl
@[simp] theorem State.updConv_queues (s : State) (id : Nat) (f : Conv → Conv) :
    (s.updConv id f).queues = s.queues := by rfl
@[simp] theorem State.updConv_pcie (s : State) (id : Nat) (f : Conv → Conv) :
    (s.updConv id f).pcie = s.pcie := by rfl
@[simp] theorem State.updConv_time (s : State) (id : Nat) (f : Conv → Conv) :
    (s.updConv id f).time = s.time := by rfl
@[simp] theorem State.updConv_ingest (s : State) (id : Nat) (f : Conv → Conv) :
    (s.updConv id f).ingest = s.ingest := by rfl
@[simp] theorem State.updConv_canopy (s : State) (id : Nat) (f : Conv → Conv) :
    (s.updConv id f).canopy = s.canopy := by rfl
@[simp] theorem State.updConv_sort (s : State) (id : Nat) (f : Conv → Conv) :
    (s.updConv id f).sort = s.sort := by rfl
@[simp] theorem State.updConv_gather (s : State) (id : Nat) (f : Conv → Conv) :
    (s.updConv id f).gather = s.gather := by rfl
@[simp] theorem State.updConv_fabric (s : State) (id : Nat) (f : Conv → Conv) :
    (s.updConv id f).fabric = s.fabric := by rfl
@[simp] theorem State.updConv_twin (s : State) (id : Nat) (f : Conv → Conv) :
    (s.updConv id f).twin = s.twin := by rfl
@[simp] theorem State.updConv_bark (s : State) (id : Nat) (f : Conv → Conv) :
    (s.updConv id f).bark = s.bark := by rfl
@[simp] theorem State.updConv_security (s : State) (id : Nat) (f : Conv → Conv) :
    (s.updConv id f).security = s.security := by rfl
@[simp] theorem State.updConv_observe (s : State) (id : Nat) (f : Conv → Conv) :
    (s.updConv id f).observe = s.observe := by rfl
@[simp] theorem State.updConv_power (s : State) (id : Nat) (f : Conv → Conv) :
    (s.updConv id f).power = s.power := by rfl
@[simp] theorem State.updConv_reports (s : State) (id : Nat) (f : Conv → Conv) :
    (s.updConv id f).reports = s.reports := by rfl
@[simp] theorem State.updConv_free (s : State) (id : Nat) (f : Conv → Conv) :
    (s.updConv id f).free = s.free := by rfl
@[simp] theorem State.updConv_out (s : State) (id : Nat) (f : Conv → Conv) :
    (s.updConv id f).out = s.out := by rfl
@[simp] theorem State.updConv_rd (s : State) (id : Nat) (f : Conv → Conv) (fld : Field) (ix fu : Nat) :
    (s.updConv id f).rd fld ix fu = s.rd fld ix fu := by rfl
@[simp] theorem State.updConv_rdN (s : State) (id : Nat) (f : Conv → Conv) (fld : Field) (ix fu : Nat) :
    (s.updConv id f).rdN fld ix fu = s.rdN fld ix fu := by rfl
@[simp] theorem State.updConv_rdB (s : State) (id : Nat) (f : Conv → Conv) (fld : Field) (ix fu : Nat) :
    (s.updConv id f).rdB fld ix fu = s.rdB fld ix fu := by rfl
@[simp] theorem State.updConv_cmd (s : State) (id : Nat) (f : Conv → Conv) (cid : Nat) :
    (s.updConv id f).cmd? cid = s.cmd? cid := by rfl

/-! `State.emit` changes `out` alone. -/
@[simp] theorem State.emit_pending (s : State) (o : Output) :
    (s.emit o).pending = s.pending := by rfl
@[simp] theorem State.emit_variant (s : State) (o : Output) :
    (s.emit o).variant = s.variant := by rfl
@[simp] theorem State.emit_revision (s : State) (o : Output) :
    (s.emit o).revision = s.revision := by rfl
@[simp] theorem State.emit_regs (s : State) (o : Output) :
    (s.emit o).regs = s.regs := by rfl
@[simp] theorem State.emit_hbm (s : State) (o : Output) :
    (s.emit o).hbm = s.hbm := by rfl
@[simp] theorem State.emit_sap (s : State) (o : Output) :
    (s.emit o).sap = s.sap := by rfl
@[simp] theorem State.emit_host (s : State) (o : Output) :
    (s.emit o).host = s.host := by rfl
@[simp] theorem State.emit_acc (s : State) (o : Output) :
    (s.emit o).acc = s.acc := by rfl
@[simp] theorem State.emit_mem (s : State) (o : Output) :
    (s.emit o).mem = s.mem := by rfl
@[simp] theorem State.emit_queues (s : State) (o : Output) :
    (s.emit o).queues = s.queues := by rfl
@[simp] theorem State.emit_pcie (s : State) (o : Output) :
    (s.emit o).pcie = s.pcie := by rfl
@[simp] theorem State.emit_time (s : State) (o : Output) :
    (s.emit o).time = s.time := by rfl
@[simp] theorem State.emit_ingest (s : State) (o : Output) :
    (s.emit o).ingest = s.ingest := by rfl
@[simp] theorem State.emit_compute (s : State) (o : Output) :
    (s.emit o).compute = s.compute := by rfl
@[simp] theorem State.emit_canopy (s : State) (o : Output) :
    (s.emit o).canopy = s.canopy := by rfl
@[simp] theorem State.emit_sort (s : State) (o : Output) :
    (s.emit o).sort = s.sort := by rfl
@[simp] theorem State.emit_gather (s : State) (o : Output) :
    (s.emit o).gather = s.gather := by rfl
@[simp] theorem State.emit_fabric (s : State) (o : Output) :
    (s.emit o).fabric = s.fabric := by rfl
@[simp] theorem State.emit_twin (s : State) (o : Output) :
    (s.emit o).twin = s.twin := by rfl
@[simp] theorem State.emit_bark (s : State) (o : Output) :
    (s.emit o).bark = s.bark := by rfl
@[simp] theorem State.emit_security (s : State) (o : Output) :
    (s.emit o).security = s.security := by rfl
@[simp] theorem State.emit_observe (s : State) (o : Output) :
    (s.emit o).observe = s.observe := by rfl
@[simp] theorem State.emit_power (s : State) (o : Output) :
    (s.emit o).power = s.power := by rfl
@[simp] theorem State.emit_reports (s : State) (o : Output) :
    (s.emit o).reports = s.reports := by rfl
@[simp] theorem State.emit_free (s : State) (o : Output) :
    (s.emit o).free = s.free := by rfl
@[simp] theorem State.emit_rd (s : State) (o : Output) (fld : Field) (ix fu : Nat) :
    (s.emit o).rd fld ix fu = s.rd fld ix fu := by rfl
@[simp] theorem State.emit_rdN (s : State) (o : Output) (fld : Field) (ix fu : Nat) :
    (s.emit o).rdN fld ix fu = s.rdN fld ix fu := by rfl
@[simp] theorem State.emit_rdB (s : State) (o : Output) (fld : Field) (ix fu : Nat) :
    (s.emit o).rdB fld ix fu = s.rdB fld ix fu := by rfl
@[simp] theorem State.emit_cmd (s : State) (o : Output) (cid : Nat) :
    (s.emit o).cmd? cid = s.cmd? cid := by rfl

/-! `State.report` changes `reports` alone. -/
@[simp] theorem State.report_pending (s : State) (r : Report) :
    (s.report r).pending = s.pending := by rfl
@[simp] theorem State.report_variant (s : State) (r : Report) :
    (s.report r).variant = s.variant := by rfl
@[simp] theorem State.report_revision (s : State) (r : Report) :
    (s.report r).revision = s.revision := by rfl
@[simp] theorem State.report_regs (s : State) (r : Report) :
    (s.report r).regs = s.regs := by rfl
@[simp] theorem State.report_hbm (s : State) (r : Report) :
    (s.report r).hbm = s.hbm := by rfl
@[simp] theorem State.report_sap (s : State) (r : Report) :
    (s.report r).sap = s.sap := by rfl
@[simp] theorem State.report_host (s : State) (r : Report) :
    (s.report r).host = s.host := by rfl
@[simp] theorem State.report_acc (s : State) (r : Report) :
    (s.report r).acc = s.acc := by rfl
@[simp] theorem State.report_mem (s : State) (r : Report) :
    (s.report r).mem = s.mem := by rfl
@[simp] theorem State.report_queues (s : State) (r : Report) :
    (s.report r).queues = s.queues := by rfl
@[simp] theorem State.report_pcie (s : State) (r : Report) :
    (s.report r).pcie = s.pcie := by rfl
@[simp] theorem State.report_time (s : State) (r : Report) :
    (s.report r).time = s.time := by rfl
@[simp] theorem State.report_ingest (s : State) (r : Report) :
    (s.report r).ingest = s.ingest := by rfl
@[simp] theorem State.report_compute (s : State) (r : Report) :
    (s.report r).compute = s.compute := by rfl
@[simp] theorem State.report_canopy (s : State) (r : Report) :
    (s.report r).canopy = s.canopy := by rfl
@[simp] theorem State.report_sort (s : State) (r : Report) :
    (s.report r).sort = s.sort := by rfl
@[simp] theorem State.report_gather (s : State) (r : Report) :
    (s.report r).gather = s.gather := by rfl
@[simp] theorem State.report_fabric (s : State) (r : Report) :
    (s.report r).fabric = s.fabric := by rfl
@[simp] theorem State.report_twin (s : State) (r : Report) :
    (s.report r).twin = s.twin := by rfl
@[simp] theorem State.report_bark (s : State) (r : Report) :
    (s.report r).bark = s.bark := by rfl
@[simp] theorem State.report_security (s : State) (r : Report) :
    (s.report r).security = s.security := by rfl
@[simp] theorem State.report_observe (s : State) (r : Report) :
    (s.report r).observe = s.observe := by rfl
@[simp] theorem State.report_power (s : State) (r : Report) :
    (s.report r).power = s.power := by rfl
@[simp] theorem State.report_free (s : State) (r : Report) :
    (s.report r).free = s.free := by rfl
@[simp] theorem State.report_out (s : State) (r : Report) :
    (s.report r).out = s.out := by rfl
@[simp] theorem State.report_rd (s : State) (r : Report) (fld : Field) (ix fu : Nat) :
    (s.report r).rd fld ix fu = s.rd fld ix fu := by rfl
@[simp] theorem State.report_rdN (s : State) (r : Report) (fld : Field) (ix fu : Nat) :
    (s.report r).rdN fld ix fu = s.rdN fld ix fu := by rfl
@[simp] theorem State.report_rdB (s : State) (r : Report) (fld : Field) (ix fu : Nat) :
    (s.report r).rdB fld ix fu = s.rdB fld ix fu := by rfl
@[simp] theorem State.report_cmd (s : State) (r : Report) (cid : Nat) :
    (s.report r).cmd? cid = s.cmd? cid := by rfl

/-! `State.updFn` changes `pcie` alone. -/
@[simp] theorem State.updFn_pending (s : State) (n : Nat) (f : Fn → Fn) :
    (s.updFn n f).pending = s.pending := by rfl
@[simp] theorem State.updFn_variant (s : State) (n : Nat) (f : Fn → Fn) :
    (s.updFn n f).variant = s.variant := by rfl
@[simp] theorem State.updFn_revision (s : State) (n : Nat) (f : Fn → Fn) :
    (s.updFn n f).revision = s.revision := by rfl
@[simp] theorem State.updFn_regs (s : State) (n : Nat) (f : Fn → Fn) :
    (s.updFn n f).regs = s.regs := by rfl
@[simp] theorem State.updFn_hbm (s : State) (n : Nat) (f : Fn → Fn) :
    (s.updFn n f).hbm = s.hbm := by rfl
@[simp] theorem State.updFn_sap (s : State) (n : Nat) (f : Fn → Fn) :
    (s.updFn n f).sap = s.sap := by rfl
@[simp] theorem State.updFn_host (s : State) (n : Nat) (f : Fn → Fn) :
    (s.updFn n f).host = s.host := by rfl
@[simp] theorem State.updFn_acc (s : State) (n : Nat) (f : Fn → Fn) :
    (s.updFn n f).acc = s.acc := by rfl
@[simp] theorem State.updFn_mem (s : State) (n : Nat) (f : Fn → Fn) :
    (s.updFn n f).mem = s.mem := by rfl
@[simp] theorem State.updFn_queues (s : State) (n : Nat) (f : Fn → Fn) :
    (s.updFn n f).queues = s.queues := by rfl
@[simp] theorem State.updFn_time (s : State) (n : Nat) (f : Fn → Fn) :
    (s.updFn n f).time = s.time := by rfl
@[simp] theorem State.updFn_ingest (s : State) (n : Nat) (f : Fn → Fn) :
    (s.updFn n f).ingest = s.ingest := by rfl
@[simp] theorem State.updFn_compute (s : State) (n : Nat) (f : Fn → Fn) :
    (s.updFn n f).compute = s.compute := by rfl
@[simp] theorem State.updFn_canopy (s : State) (n : Nat) (f : Fn → Fn) :
    (s.updFn n f).canopy = s.canopy := by rfl
@[simp] theorem State.updFn_sort (s : State) (n : Nat) (f : Fn → Fn) :
    (s.updFn n f).sort = s.sort := by rfl
@[simp] theorem State.updFn_gather (s : State) (n : Nat) (f : Fn → Fn) :
    (s.updFn n f).gather = s.gather := by rfl
@[simp] theorem State.updFn_fabric (s : State) (n : Nat) (f : Fn → Fn) :
    (s.updFn n f).fabric = s.fabric := by rfl
@[simp] theorem State.updFn_twin (s : State) (n : Nat) (f : Fn → Fn) :
    (s.updFn n f).twin = s.twin := by rfl
@[simp] theorem State.updFn_bark (s : State) (n : Nat) (f : Fn → Fn) :
    (s.updFn n f).bark = s.bark := by rfl
@[simp] theorem State.updFn_security (s : State) (n : Nat) (f : Fn → Fn) :
    (s.updFn n f).security = s.security := by rfl
@[simp] theorem State.updFn_observe (s : State) (n : Nat) (f : Fn → Fn) :
    (s.updFn n f).observe = s.observe := by rfl
@[simp] theorem State.updFn_power (s : State) (n : Nat) (f : Fn → Fn) :
    (s.updFn n f).power = s.power := by rfl
@[simp] theorem State.updFn_reports (s : State) (n : Nat) (f : Fn → Fn) :
    (s.updFn n f).reports = s.reports := by rfl
@[simp] theorem State.updFn_free (s : State) (n : Nat) (f : Fn → Fn) :
    (s.updFn n f).free = s.free := by rfl
@[simp] theorem State.updFn_out (s : State) (n : Nat) (f : Fn → Fn) :
    (s.updFn n f).out = s.out := by rfl
@[simp] theorem State.updFn_rd (s : State) (n : Nat) (f : Fn → Fn) (fld : Field) (ix fu : Nat) :
    (s.updFn n f).rd fld ix fu = s.rd fld ix fu := by rfl
@[simp] theorem State.updFn_rdN (s : State) (n : Nat) (f : Fn → Fn) (fld : Field) (ix fu : Nat) :
    (s.updFn n f).rdN fld ix fu = s.rdN fld ix fu := by rfl
@[simp] theorem State.updFn_rdB (s : State) (n : Nat) (f : Fn → Fn) (fld : Field) (ix fu : Nat) :
    (s.updFn n f).rdB fld ix fu = s.rdB fld ix fu := by rfl
@[simp] theorem State.updFn_cmd (s : State) (n : Nat) (f : Fn → Fn) (cid : Nat) :
    (s.updFn n f).cmd? cid = s.cmd? cid := by rfl

/-! `State.inject` changes `fabric` alone. -/
@[simp] theorem State.inject_pending (s : State) (p : Packet) :
    (s.inject p).pending = s.pending := by rfl
@[simp] theorem State.inject_variant (s : State) (p : Packet) :
    (s.inject p).variant = s.variant := by rfl
@[simp] theorem State.inject_revision (s : State) (p : Packet) :
    (s.inject p).revision = s.revision := by rfl
@[simp] theorem State.inject_regs (s : State) (p : Packet) :
    (s.inject p).regs = s.regs := by rfl
@[simp] theorem State.inject_hbm (s : State) (p : Packet) :
    (s.inject p).hbm = s.hbm := by rfl
@[simp] theorem State.inject_sap (s : State) (p : Packet) :
    (s.inject p).sap = s.sap := by rfl
@[simp] theorem State.inject_host (s : State) (p : Packet) :
    (s.inject p).host = s.host := by rfl
@[simp] theorem State.inject_acc (s : State) (p : Packet) :
    (s.inject p).acc = s.acc := by rfl
@[simp] theorem State.inject_mem (s : State) (p : Packet) :
    (s.inject p).mem = s.mem := by rfl
@[simp] theorem State.inject_queues (s : State) (p : Packet) :
    (s.inject p).queues = s.queues := by rfl
@[simp] theorem State.inject_pcie (s : State) (p : Packet) :
    (s.inject p).pcie = s.pcie := by rfl
@[simp] theorem State.inject_time (s : State) (p : Packet) :
    (s.inject p).time = s.time := by rfl
@[simp] theorem State.inject_ingest (s : State) (p : Packet) :
    (s.inject p).ingest = s.ingest := by rfl
@[simp] theorem State.inject_compute (s : State) (p : Packet) :
    (s.inject p).compute = s.compute := by rfl
@[simp] theorem State.inject_canopy (s : State) (p : Packet) :
    (s.inject p).canopy = s.canopy := by rfl
@[simp] theorem State.inject_sort (s : State) (p : Packet) :
    (s.inject p).sort = s.sort := by rfl
@[simp] theorem State.inject_gather (s : State) (p : Packet) :
    (s.inject p).gather = s.gather := by rfl
@[simp] theorem State.inject_twin (s : State) (p : Packet) :
    (s.inject p).twin = s.twin := by rfl
@[simp] theorem State.inject_bark (s : State) (p : Packet) :
    (s.inject p).bark = s.bark := by rfl
@[simp] theorem State.inject_security (s : State) (p : Packet) :
    (s.inject p).security = s.security := by rfl
@[simp] theorem State.inject_observe (s : State) (p : Packet) :
    (s.inject p).observe = s.observe := by rfl
@[simp] theorem State.inject_power (s : State) (p : Packet) :
    (s.inject p).power = s.power := by rfl
@[simp] theorem State.inject_reports (s : State) (p : Packet) :
    (s.inject p).reports = s.reports := by rfl
@[simp] theorem State.inject_free (s : State) (p : Packet) :
    (s.inject p).free = s.free := by rfl
@[simp] theorem State.inject_out (s : State) (p : Packet) :
    (s.inject p).out = s.out := by rfl
@[simp] theorem State.inject_rd (s : State) (p : Packet) (fld : Field) (ix fu : Nat) :
    (s.inject p).rd fld ix fu = s.rd fld ix fu := by rfl
@[simp] theorem State.inject_rdN (s : State) (p : Packet) (fld : Field) (ix fu : Nat) :
    (s.inject p).rdN fld ix fu = s.rdN fld ix fu := by rfl
@[simp] theorem State.inject_rdB (s : State) (p : Packet) (fld : Field) (ix fu : Nat) :
    (s.inject p).rdB fld ix fu = s.rdB fld ix fu := by rfl
@[simp] theorem State.inject_cmd (s : State) (p : Packet) (cid : Nat) :
    (s.inject p).cmd? cid = s.cmd? cid := by rfl

/-! `State.updCmd` changes `queues` alone. -/
@[simp] theorem State.updCmd_pending (s : State) (id : Nat) (f : Cmd → Cmd) :
    (s.updCmd id f).pending = s.pending := by rfl
@[simp] theorem State.updCmd_variant (s : State) (id : Nat) (f : Cmd → Cmd) :
    (s.updCmd id f).variant = s.variant := by rfl
@[simp] theorem State.updCmd_revision (s : State) (id : Nat) (f : Cmd → Cmd) :
    (s.updCmd id f).revision = s.revision := by rfl
@[simp] theorem State.updCmd_regs (s : State) (id : Nat) (f : Cmd → Cmd) :
    (s.updCmd id f).regs = s.regs := by rfl
@[simp] theorem State.updCmd_hbm (s : State) (id : Nat) (f : Cmd → Cmd) :
    (s.updCmd id f).hbm = s.hbm := by rfl
@[simp] theorem State.updCmd_sap (s : State) (id : Nat) (f : Cmd → Cmd) :
    (s.updCmd id f).sap = s.sap := by rfl
@[simp] theorem State.updCmd_host (s : State) (id : Nat) (f : Cmd → Cmd) :
    (s.updCmd id f).host = s.host := by rfl
@[simp] theorem State.updCmd_acc (s : State) (id : Nat) (f : Cmd → Cmd) :
    (s.updCmd id f).acc = s.acc := by rfl
@[simp] theorem State.updCmd_mem (s : State) (id : Nat) (f : Cmd → Cmd) :
    (s.updCmd id f).mem = s.mem := by rfl
@[simp] theorem State.updCmd_pcie (s : State) (id : Nat) (f : Cmd → Cmd) :
    (s.updCmd id f).pcie = s.pcie := by rfl
@[simp] theorem State.updCmd_time (s : State) (id : Nat) (f : Cmd → Cmd) :
    (s.updCmd id f).time = s.time := by rfl
@[simp] theorem State.updCmd_ingest (s : State) (id : Nat) (f : Cmd → Cmd) :
    (s.updCmd id f).ingest = s.ingest := by rfl
@[simp] theorem State.updCmd_compute (s : State) (id : Nat) (f : Cmd → Cmd) :
    (s.updCmd id f).compute = s.compute := by rfl
@[simp] theorem State.updCmd_canopy (s : State) (id : Nat) (f : Cmd → Cmd) :
    (s.updCmd id f).canopy = s.canopy := by rfl
@[simp] theorem State.updCmd_sort (s : State) (id : Nat) (f : Cmd → Cmd) :
    (s.updCmd id f).sort = s.sort := by rfl
@[simp] theorem State.updCmd_gather (s : State) (id : Nat) (f : Cmd → Cmd) :
    (s.updCmd id f).gather = s.gather := by rfl
@[simp] theorem State.updCmd_fabric (s : State) (id : Nat) (f : Cmd → Cmd) :
    (s.updCmd id f).fabric = s.fabric := by rfl
@[simp] theorem State.updCmd_twin (s : State) (id : Nat) (f : Cmd → Cmd) :
    (s.updCmd id f).twin = s.twin := by rfl
@[simp] theorem State.updCmd_bark (s : State) (id : Nat) (f : Cmd → Cmd) :
    (s.updCmd id f).bark = s.bark := by rfl
@[simp] theorem State.updCmd_security (s : State) (id : Nat) (f : Cmd → Cmd) :
    (s.updCmd id f).security = s.security := by rfl
@[simp] theorem State.updCmd_observe (s : State) (id : Nat) (f : Cmd → Cmd) :
    (s.updCmd id f).observe = s.observe := by rfl
@[simp] theorem State.updCmd_power (s : State) (id : Nat) (f : Cmd → Cmd) :
    (s.updCmd id f).power = s.power := by rfl
@[simp] theorem State.updCmd_reports (s : State) (id : Nat) (f : Cmd → Cmd) :
    (s.updCmd id f).reports = s.reports := by rfl
@[simp] theorem State.updCmd_free (s : State) (id : Nat) (f : Cmd → Cmd) :
    (s.updCmd id f).free = s.free := by rfl
@[simp] theorem State.updCmd_out (s : State) (id : Nat) (f : Cmd → Cmd) :
    (s.updCmd id f).out = s.out := by rfl
@[simp] theorem State.updCmd_rd (s : State) (id : Nat) (f : Cmd → Cmd) (fld : Field) (ix fu : Nat) :
    (s.updCmd id f).rd fld ix fu = s.rd fld ix fu := by rfl
@[simp] theorem State.updCmd_rdN (s : State) (id : Nat) (f : Cmd → Cmd) (fld : Field) (ix fu : Nat) :
    (s.updCmd id f).rdN fld ix fu = s.rdN fld ix fu := by rfl
@[simp] theorem State.updCmd_rdB (s : State) (id : Nat) (f : Cmd → Cmd) (fld : Field) (ix fu : Nat) :
    (s.updCmd id f).rdB fld ix fu = s.rdB fld ix fu := by rfl

/-! `State.noteWork` changes `observe` alone. -/
@[simp] theorem State.noteWork_pending (s : State) (unit : Nat) :
    (s.noteWork unit).pending = s.pending := by rfl
@[simp] theorem State.noteWork_variant (s : State) (unit : Nat) :
    (s.noteWork unit).variant = s.variant := by rfl
@[simp] theorem State.noteWork_revision (s : State) (unit : Nat) :
    (s.noteWork unit).revision = s.revision := by rfl
@[simp] theorem State.noteWork_regs (s : State) (unit : Nat) :
    (s.noteWork unit).regs = s.regs := by rfl
@[simp] theorem State.noteWork_hbm (s : State) (unit : Nat) :
    (s.noteWork unit).hbm = s.hbm := by rfl
@[simp] theorem State.noteWork_sap (s : State) (unit : Nat) :
    (s.noteWork unit).sap = s.sap := by rfl
@[simp] theorem State.noteWork_host (s : State) (unit : Nat) :
    (s.noteWork unit).host = s.host := by rfl
@[simp] theorem State.noteWork_acc (s : State) (unit : Nat) :
    (s.noteWork unit).acc = s.acc := by rfl
@[simp] theorem State.noteWork_mem (s : State) (unit : Nat) :
    (s.noteWork unit).mem = s.mem := by rfl
@[simp] theorem State.noteWork_queues (s : State) (unit : Nat) :
    (s.noteWork unit).queues = s.queues := by rfl
@[simp] theorem State.noteWork_pcie (s : State) (unit : Nat) :
    (s.noteWork unit).pcie = s.pcie := by rfl
@[simp] theorem State.noteWork_time (s : State) (unit : Nat) :
    (s.noteWork unit).time = s.time := by rfl
@[simp] theorem State.noteWork_ingest (s : State) (unit : Nat) :
    (s.noteWork unit).ingest = s.ingest := by rfl
@[simp] theorem State.noteWork_compute (s : State) (unit : Nat) :
    (s.noteWork unit).compute = s.compute := by rfl
@[simp] theorem State.noteWork_canopy (s : State) (unit : Nat) :
    (s.noteWork unit).canopy = s.canopy := by rfl
@[simp] theorem State.noteWork_sort (s : State) (unit : Nat) :
    (s.noteWork unit).sort = s.sort := by rfl
@[simp] theorem State.noteWork_gather (s : State) (unit : Nat) :
    (s.noteWork unit).gather = s.gather := by rfl
@[simp] theorem State.noteWork_fabric (s : State) (unit : Nat) :
    (s.noteWork unit).fabric = s.fabric := by rfl
@[simp] theorem State.noteWork_twin (s : State) (unit : Nat) :
    (s.noteWork unit).twin = s.twin := by rfl
@[simp] theorem State.noteWork_bark (s : State) (unit : Nat) :
    (s.noteWork unit).bark = s.bark := by rfl
@[simp] theorem State.noteWork_security (s : State) (unit : Nat) :
    (s.noteWork unit).security = s.security := by rfl
@[simp] theorem State.noteWork_power (s : State) (unit : Nat) :
    (s.noteWork unit).power = s.power := by rfl
@[simp] theorem State.noteWork_reports (s : State) (unit : Nat) :
    (s.noteWork unit).reports = s.reports := by rfl
@[simp] theorem State.noteWork_free (s : State) (unit : Nat) :
    (s.noteWork unit).free = s.free := by rfl
@[simp] theorem State.noteWork_out (s : State) (unit : Nat) :
    (s.noteWork unit).out = s.out := by rfl
@[simp] theorem State.noteWork_rd (s : State) (unit : Nat) (fld : Field) (ix fu : Nat) :
    (s.noteWork unit).rd fld ix fu = s.rd fld ix fu := by rfl
@[simp] theorem State.noteWork_rdN (s : State) (unit : Nat) (fld : Field) (ix fu : Nat) :
    (s.noteWork unit).rdN fld ix fu = s.rdN fld ix fu := by rfl
@[simp] theorem State.noteWork_rdB (s : State) (unit : Nat) (fld : Field) (ix fu : Nat) :
    (s.noteWork unit).rdB fld ix fu = s.rdB fld ix fu := by rfl
@[simp] theorem State.noteWork_cmd (s : State) (unit : Nat) (cid : Nat) :
    (s.noteWork unit).cmd? cid = s.cmd? cid := by rfl

/-! `State.updCq` changes `queues` alone. -/
@[simp] theorem State.updCq_pending (s : State) (n : Nat) (f : Cq → Cq) :
    (s.updCq n f).pending = s.pending := by rfl
@[simp] theorem State.updCq_variant (s : State) (n : Nat) (f : Cq → Cq) :
    (s.updCq n f).variant = s.variant := by rfl
@[simp] theorem State.updCq_revision (s : State) (n : Nat) (f : Cq → Cq) :
    (s.updCq n f).revision = s.revision := by rfl
@[simp] theorem State.updCq_regs (s : State) (n : Nat) (f : Cq → Cq) :
    (s.updCq n f).regs = s.regs := by rfl
@[simp] theorem State.updCq_hbm (s : State) (n : Nat) (f : Cq → Cq) :
    (s.updCq n f).hbm = s.hbm := by rfl
@[simp] theorem State.updCq_sap (s : State) (n : Nat) (f : Cq → Cq) :
    (s.updCq n f).sap = s.sap := by rfl
@[simp] theorem State.updCq_host (s : State) (n : Nat) (f : Cq → Cq) :
    (s.updCq n f).host = s.host := by rfl
@[simp] theorem State.updCq_acc (s : State) (n : Nat) (f : Cq → Cq) :
    (s.updCq n f).acc = s.acc := by rfl
@[simp] theorem State.updCq_mem (s : State) (n : Nat) (f : Cq → Cq) :
    (s.updCq n f).mem = s.mem := by rfl
@[simp] theorem State.updCq_pcie (s : State) (n : Nat) (f : Cq → Cq) :
    (s.updCq n f).pcie = s.pcie := by rfl
@[simp] theorem State.updCq_time (s : State) (n : Nat) (f : Cq → Cq) :
    (s.updCq n f).time = s.time := by rfl
@[simp] theorem State.updCq_ingest (s : State) (n : Nat) (f : Cq → Cq) :
    (s.updCq n f).ingest = s.ingest := by rfl
@[simp] theorem State.updCq_compute (s : State) (n : Nat) (f : Cq → Cq) :
    (s.updCq n f).compute = s.compute := by rfl
@[simp] theorem State.updCq_canopy (s : State) (n : Nat) (f : Cq → Cq) :
    (s.updCq n f).canopy = s.canopy := by rfl
@[simp] theorem State.updCq_sort (s : State) (n : Nat) (f : Cq → Cq) :
    (s.updCq n f).sort = s.sort := by rfl
@[simp] theorem State.updCq_gather (s : State) (n : Nat) (f : Cq → Cq) :
    (s.updCq n f).gather = s.gather := by rfl
@[simp] theorem State.updCq_fabric (s : State) (n : Nat) (f : Cq → Cq) :
    (s.updCq n f).fabric = s.fabric := by rfl
@[simp] theorem State.updCq_twin (s : State) (n : Nat) (f : Cq → Cq) :
    (s.updCq n f).twin = s.twin := by rfl
@[simp] theorem State.updCq_bark (s : State) (n : Nat) (f : Cq → Cq) :
    (s.updCq n f).bark = s.bark := by rfl
@[simp] theorem State.updCq_security (s : State) (n : Nat) (f : Cq → Cq) :
    (s.updCq n f).security = s.security := by rfl
@[simp] theorem State.updCq_observe (s : State) (n : Nat) (f : Cq → Cq) :
    (s.updCq n f).observe = s.observe := by rfl
@[simp] theorem State.updCq_power (s : State) (n : Nat) (f : Cq → Cq) :
    (s.updCq n f).power = s.power := by rfl
@[simp] theorem State.updCq_reports (s : State) (n : Nat) (f : Cq → Cq) :
    (s.updCq n f).reports = s.reports := by rfl
@[simp] theorem State.updCq_free (s : State) (n : Nat) (f : Cq → Cq) :
    (s.updCq n f).free = s.free := by rfl
@[simp] theorem State.updCq_out (s : State) (n : Nat) (f : Cq → Cq) :
    (s.updCq n f).out = s.out := by rfl
@[simp] theorem State.updCq_rd (s : State) (n : Nat) (f : Cq → Cq) (fld : Field) (ix fu : Nat) :
    (s.updCq n f).rd fld ix fu = s.rd fld ix fu := by rfl
@[simp] theorem State.updCq_rdN (s : State) (n : Nat) (f : Cq → Cq) (fld : Field) (ix fu : Nat) :
    (s.updCq n f).rdN fld ix fu = s.rdN fld ix fu := by rfl
@[simp] theorem State.updCq_rdB (s : State) (n : Nat) (f : Cq → Cq) (fld : Field) (ix fu : Nat) :
    (s.updCq n f).rdB fld ix fu = s.rdB fld ix fu := by rfl

/-! `State.updSq` changes `queues` alone. -/
@[simp] theorem State.updSq_pending (s : State) (n : Nat) (f : Sq → Sq) :
    (s.updSq n f).pending = s.pending := by rfl
@[simp] theorem State.updSq_variant (s : State) (n : Nat) (f : Sq → Sq) :
    (s.updSq n f).variant = s.variant := by rfl
@[simp] theorem State.updSq_revision (s : State) (n : Nat) (f : Sq → Sq) :
    (s.updSq n f).revision = s.revision := by rfl
@[simp] theorem State.updSq_regs (s : State) (n : Nat) (f : Sq → Sq) :
    (s.updSq n f).regs = s.regs := by rfl
@[simp] theorem State.updSq_hbm (s : State) (n : Nat) (f : Sq → Sq) :
    (s.updSq n f).hbm = s.hbm := by rfl
@[simp] theorem State.updSq_sap (s : State) (n : Nat) (f : Sq → Sq) :
    (s.updSq n f).sap = s.sap := by rfl
@[simp] theorem State.updSq_host (s : State) (n : Nat) (f : Sq → Sq) :
    (s.updSq n f).host = s.host := by rfl
@[simp] theorem State.updSq_acc (s : State) (n : Nat) (f : Sq → Sq) :
    (s.updSq n f).acc = s.acc := by rfl
@[simp] theorem State.updSq_mem (s : State) (n : Nat) (f : Sq → Sq) :
    (s.updSq n f).mem = s.mem := by rfl
@[simp] theorem State.updSq_pcie (s : State) (n : Nat) (f : Sq → Sq) :
    (s.updSq n f).pcie = s.pcie := by rfl
@[simp] theorem State.updSq_time (s : State) (n : Nat) (f : Sq → Sq) :
    (s.updSq n f).time = s.time := by rfl
@[simp] theorem State.updSq_ingest (s : State) (n : Nat) (f : Sq → Sq) :
    (s.updSq n f).ingest = s.ingest := by rfl
@[simp] theorem State.updSq_compute (s : State) (n : Nat) (f : Sq → Sq) :
    (s.updSq n f).compute = s.compute := by rfl
@[simp] theorem State.updSq_canopy (s : State) (n : Nat) (f : Sq → Sq) :
    (s.updSq n f).canopy = s.canopy := by rfl
@[simp] theorem State.updSq_sort (s : State) (n : Nat) (f : Sq → Sq) :
    (s.updSq n f).sort = s.sort := by rfl
@[simp] theorem State.updSq_gather (s : State) (n : Nat) (f : Sq → Sq) :
    (s.updSq n f).gather = s.gather := by rfl
@[simp] theorem State.updSq_fabric (s : State) (n : Nat) (f : Sq → Sq) :
    (s.updSq n f).fabric = s.fabric := by rfl
@[simp] theorem State.updSq_twin (s : State) (n : Nat) (f : Sq → Sq) :
    (s.updSq n f).twin = s.twin := by rfl
@[simp] theorem State.updSq_bark (s : State) (n : Nat) (f : Sq → Sq) :
    (s.updSq n f).bark = s.bark := by rfl
@[simp] theorem State.updSq_security (s : State) (n : Nat) (f : Sq → Sq) :
    (s.updSq n f).security = s.security := by rfl
@[simp] theorem State.updSq_observe (s : State) (n : Nat) (f : Sq → Sq) :
    (s.updSq n f).observe = s.observe := by rfl
@[simp] theorem State.updSq_power (s : State) (n : Nat) (f : Sq → Sq) :
    (s.updSq n f).power = s.power := by rfl
@[simp] theorem State.updSq_reports (s : State) (n : Nat) (f : Sq → Sq) :
    (s.updSq n f).reports = s.reports := by rfl
@[simp] theorem State.updSq_free (s : State) (n : Nat) (f : Sq → Sq) :
    (s.updSq n f).free = s.free := by rfl
@[simp] theorem State.updSq_out (s : State) (n : Nat) (f : Sq → Sq) :
    (s.updSq n f).out = s.out := by rfl
@[simp] theorem State.updSq_rd (s : State) (n : Nat) (f : Sq → Sq) (fld : Field) (ix fu : Nat) :
    (s.updSq n f).rd fld ix fu = s.rd fld ix fu := by rfl
@[simp] theorem State.updSq_rdN (s : State) (n : Nat) (f : Sq → Sq) (fld : Field) (ix fu : Nat) :
    (s.updSq n f).rdN fld ix fu = s.rdN fld ix fu := by rfl
@[simp] theorem State.updSq_rdB (s : State) (n : Nat) (f : Sq → Sq) (fld : Field) (ix fu : Nat) :
    (s.updSq n f).rdB fld ix fu = s.rdB fld ix fu := by rfl

/-! `State.noteEvent` changes `queues` alone. -/
@[simp] theorem State.noteEvent_pending (s : State) (fn code ring : Nat) (detail : Word) :
    (s.noteEvent fn code ring detail).pending = s.pending := by rfl
@[simp] theorem State.noteEvent_variant (s : State) (fn code ring : Nat) (detail : Word) :
    (s.noteEvent fn code ring detail).variant = s.variant := by rfl
@[simp] theorem State.noteEvent_revision (s : State) (fn code ring : Nat) (detail : Word) :
    (s.noteEvent fn code ring detail).revision = s.revision := by rfl
@[simp] theorem State.noteEvent_regs (s : State) (fn code ring : Nat) (detail : Word) :
    (s.noteEvent fn code ring detail).regs = s.regs := by rfl
@[simp] theorem State.noteEvent_hbm (s : State) (fn code ring : Nat) (detail : Word) :
    (s.noteEvent fn code ring detail).hbm = s.hbm := by rfl
@[simp] theorem State.noteEvent_sap (s : State) (fn code ring : Nat) (detail : Word) :
    (s.noteEvent fn code ring detail).sap = s.sap := by rfl
@[simp] theorem State.noteEvent_host (s : State) (fn code ring : Nat) (detail : Word) :
    (s.noteEvent fn code ring detail).host = s.host := by rfl
@[simp] theorem State.noteEvent_acc (s : State) (fn code ring : Nat) (detail : Word) :
    (s.noteEvent fn code ring detail).acc = s.acc := by rfl
@[simp] theorem State.noteEvent_mem (s : State) (fn code ring : Nat) (detail : Word) :
    (s.noteEvent fn code ring detail).mem = s.mem := by rfl
@[simp] theorem State.noteEvent_pcie (s : State) (fn code ring : Nat) (detail : Word) :
    (s.noteEvent fn code ring detail).pcie = s.pcie := by rfl
@[simp] theorem State.noteEvent_time (s : State) (fn code ring : Nat) (detail : Word) :
    (s.noteEvent fn code ring detail).time = s.time := by rfl
@[simp] theorem State.noteEvent_ingest (s : State) (fn code ring : Nat) (detail : Word) :
    (s.noteEvent fn code ring detail).ingest = s.ingest := by rfl
@[simp] theorem State.noteEvent_compute (s : State) (fn code ring : Nat) (detail : Word) :
    (s.noteEvent fn code ring detail).compute = s.compute := by rfl
@[simp] theorem State.noteEvent_canopy (s : State) (fn code ring : Nat) (detail : Word) :
    (s.noteEvent fn code ring detail).canopy = s.canopy := by rfl
@[simp] theorem State.noteEvent_sort (s : State) (fn code ring : Nat) (detail : Word) :
    (s.noteEvent fn code ring detail).sort = s.sort := by rfl
@[simp] theorem State.noteEvent_gather (s : State) (fn code ring : Nat) (detail : Word) :
    (s.noteEvent fn code ring detail).gather = s.gather := by rfl
@[simp] theorem State.noteEvent_fabric (s : State) (fn code ring : Nat) (detail : Word) :
    (s.noteEvent fn code ring detail).fabric = s.fabric := by rfl
@[simp] theorem State.noteEvent_twin (s : State) (fn code ring : Nat) (detail : Word) :
    (s.noteEvent fn code ring detail).twin = s.twin := by rfl
@[simp] theorem State.noteEvent_bark (s : State) (fn code ring : Nat) (detail : Word) :
    (s.noteEvent fn code ring detail).bark = s.bark := by rfl
@[simp] theorem State.noteEvent_security (s : State) (fn code ring : Nat) (detail : Word) :
    (s.noteEvent fn code ring detail).security = s.security := by rfl
@[simp] theorem State.noteEvent_observe (s : State) (fn code ring : Nat) (detail : Word) :
    (s.noteEvent fn code ring detail).observe = s.observe := by rfl
@[simp] theorem State.noteEvent_power (s : State) (fn code ring : Nat) (detail : Word) :
    (s.noteEvent fn code ring detail).power = s.power := by rfl
@[simp] theorem State.noteEvent_reports (s : State) (fn code ring : Nat) (detail : Word) :
    (s.noteEvent fn code ring detail).reports = s.reports := by rfl
@[simp] theorem State.noteEvent_free (s : State) (fn code ring : Nat) (detail : Word) :
    (s.noteEvent fn code ring detail).free = s.free := by rfl
@[simp] theorem State.noteEvent_out (s : State) (fn code ring : Nat) (detail : Word) :
    (s.noteEvent fn code ring detail).out = s.out := by rfl
@[simp] theorem State.noteEvent_rd (s : State) (fn code ring : Nat) (detail : Word) (fld : Field) (ix fu : Nat) :
    (s.noteEvent fn code ring detail).rd fld ix fu = s.rd fld ix fu := by rfl
@[simp] theorem State.noteEvent_rdN (s : State) (fn code ring : Nat) (detail : Word) (fld : Field) (ix fu : Nat) :
    (s.noteEvent fn code ring detail).rdN fld ix fu = s.rdN fld ix fu := by rfl
@[simp] theorem State.noteEvent_rdB (s : State) (fn code ring : Nat) (detail : Word) (fld : Field) (ix fu : Nat) :
    (s.noteEvent fn code ring detail).rdB fld ix fu = s.rdB fld ix fu := by rfl

/-! `State.mapTiles` changes `power` alone. -/
@[simp] theorem State.mapTiles_pending (s : State) (f : Nat → Nat) :
    (s.mapTiles f).pending = s.pending := by rfl
@[simp] theorem State.mapTiles_variant (s : State) (f : Nat → Nat) :
    (s.mapTiles f).variant = s.variant := by rfl
@[simp] theorem State.mapTiles_revision (s : State) (f : Nat → Nat) :
    (s.mapTiles f).revision = s.revision := by rfl
@[simp] theorem State.mapTiles_regs (s : State) (f : Nat → Nat) :
    (s.mapTiles f).regs = s.regs := by rfl
@[simp] theorem State.mapTiles_hbm (s : State) (f : Nat → Nat) :
    (s.mapTiles f).hbm = s.hbm := by rfl
@[simp] theorem State.mapTiles_sap (s : State) (f : Nat → Nat) :
    (s.mapTiles f).sap = s.sap := by rfl
@[simp] theorem State.mapTiles_host (s : State) (f : Nat → Nat) :
    (s.mapTiles f).host = s.host := by rfl
@[simp] theorem State.mapTiles_acc (s : State) (f : Nat → Nat) :
    (s.mapTiles f).acc = s.acc := by rfl
@[simp] theorem State.mapTiles_mem (s : State) (f : Nat → Nat) :
    (s.mapTiles f).mem = s.mem := by rfl
@[simp] theorem State.mapTiles_queues (s : State) (f : Nat → Nat) :
    (s.mapTiles f).queues = s.queues := by rfl
@[simp] theorem State.mapTiles_pcie (s : State) (f : Nat → Nat) :
    (s.mapTiles f).pcie = s.pcie := by rfl
@[simp] theorem State.mapTiles_time (s : State) (f : Nat → Nat) :
    (s.mapTiles f).time = s.time := by rfl
@[simp] theorem State.mapTiles_ingest (s : State) (f : Nat → Nat) :
    (s.mapTiles f).ingest = s.ingest := by rfl
@[simp] theorem State.mapTiles_compute (s : State) (f : Nat → Nat) :
    (s.mapTiles f).compute = s.compute := by rfl
@[simp] theorem State.mapTiles_canopy (s : State) (f : Nat → Nat) :
    (s.mapTiles f).canopy = s.canopy := by rfl
@[simp] theorem State.mapTiles_sort (s : State) (f : Nat → Nat) :
    (s.mapTiles f).sort = s.sort := by rfl
@[simp] theorem State.mapTiles_gather (s : State) (f : Nat → Nat) :
    (s.mapTiles f).gather = s.gather := by rfl
@[simp] theorem State.mapTiles_fabric (s : State) (f : Nat → Nat) :
    (s.mapTiles f).fabric = s.fabric := by rfl
@[simp] theorem State.mapTiles_twin (s : State) (f : Nat → Nat) :
    (s.mapTiles f).twin = s.twin := by rfl
@[simp] theorem State.mapTiles_bark (s : State) (f : Nat → Nat) :
    (s.mapTiles f).bark = s.bark := by rfl
@[simp] theorem State.mapTiles_security (s : State) (f : Nat → Nat) :
    (s.mapTiles f).security = s.security := by rfl
@[simp] theorem State.mapTiles_observe (s : State) (f : Nat → Nat) :
    (s.mapTiles f).observe = s.observe := by rfl
@[simp] theorem State.mapTiles_reports (s : State) (f : Nat → Nat) :
    (s.mapTiles f).reports = s.reports := by rfl
@[simp] theorem State.mapTiles_free (s : State) (f : Nat → Nat) :
    (s.mapTiles f).free = s.free := by rfl
@[simp] theorem State.mapTiles_out (s : State) (f : Nat → Nat) :
    (s.mapTiles f).out = s.out := by rfl
@[simp] theorem State.mapTiles_rd (s : State) (f : Nat → Nat) (fld : Field) (ix fu : Nat) :
    (s.mapTiles f).rd fld ix fu = s.rd fld ix fu := by rfl
@[simp] theorem State.mapTiles_rdN (s : State) (f : Nat → Nat) (fld : Field) (ix fu : Nat) :
    (s.mapTiles f).rdN fld ix fu = s.rdN fld ix fu := by rfl
@[simp] theorem State.mapTiles_rdB (s : State) (f : Nat → Nat) (fld : Field) (ix fu : Nat) :
    (s.mapTiles f).rdB fld ix fu = s.rdB fld ix fu := by rfl
@[simp] theorem State.mapTiles_cmd (s : State) (f : Nat → Nat) (cid : Nat) :
    (s.mapTiles f).cmd? cid = s.cmd? cid := by rfl

/-! `State.mapEngines` changes `power` alone. -/
@[simp] theorem State.mapEngines_pending (s : State) (f : Nat → Nat) :
    (s.mapEngines f).pending = s.pending := by rfl
@[simp] theorem State.mapEngines_variant (s : State) (f : Nat → Nat) :
    (s.mapEngines f).variant = s.variant := by rfl
@[simp] theorem State.mapEngines_revision (s : State) (f : Nat → Nat) :
    (s.mapEngines f).revision = s.revision := by rfl
@[simp] theorem State.mapEngines_regs (s : State) (f : Nat → Nat) :
    (s.mapEngines f).regs = s.regs := by rfl
@[simp] theorem State.mapEngines_hbm (s : State) (f : Nat → Nat) :
    (s.mapEngines f).hbm = s.hbm := by rfl
@[simp] theorem State.mapEngines_sap (s : State) (f : Nat → Nat) :
    (s.mapEngines f).sap = s.sap := by rfl
@[simp] theorem State.mapEngines_host (s : State) (f : Nat → Nat) :
    (s.mapEngines f).host = s.host := by rfl
@[simp] theorem State.mapEngines_acc (s : State) (f : Nat → Nat) :
    (s.mapEngines f).acc = s.acc := by rfl
@[simp] theorem State.mapEngines_mem (s : State) (f : Nat → Nat) :
    (s.mapEngines f).mem = s.mem := by rfl
@[simp] theorem State.mapEngines_queues (s : State) (f : Nat → Nat) :
    (s.mapEngines f).queues = s.queues := by rfl
@[simp] theorem State.mapEngines_pcie (s : State) (f : Nat → Nat) :
    (s.mapEngines f).pcie = s.pcie := by rfl
@[simp] theorem State.mapEngines_time (s : State) (f : Nat → Nat) :
    (s.mapEngines f).time = s.time := by rfl
@[simp] theorem State.mapEngines_ingest (s : State) (f : Nat → Nat) :
    (s.mapEngines f).ingest = s.ingest := by rfl
@[simp] theorem State.mapEngines_compute (s : State) (f : Nat → Nat) :
    (s.mapEngines f).compute = s.compute := by rfl
@[simp] theorem State.mapEngines_canopy (s : State) (f : Nat → Nat) :
    (s.mapEngines f).canopy = s.canopy := by rfl
@[simp] theorem State.mapEngines_sort (s : State) (f : Nat → Nat) :
    (s.mapEngines f).sort = s.sort := by rfl
@[simp] theorem State.mapEngines_gather (s : State) (f : Nat → Nat) :
    (s.mapEngines f).gather = s.gather := by rfl
@[simp] theorem State.mapEngines_fabric (s : State) (f : Nat → Nat) :
    (s.mapEngines f).fabric = s.fabric := by rfl
@[simp] theorem State.mapEngines_twin (s : State) (f : Nat → Nat) :
    (s.mapEngines f).twin = s.twin := by rfl
@[simp] theorem State.mapEngines_bark (s : State) (f : Nat → Nat) :
    (s.mapEngines f).bark = s.bark := by rfl
@[simp] theorem State.mapEngines_security (s : State) (f : Nat → Nat) :
    (s.mapEngines f).security = s.security := by rfl
@[simp] theorem State.mapEngines_observe (s : State) (f : Nat → Nat) :
    (s.mapEngines f).observe = s.observe := by rfl
@[simp] theorem State.mapEngines_reports (s : State) (f : Nat → Nat) :
    (s.mapEngines f).reports = s.reports := by rfl
@[simp] theorem State.mapEngines_free (s : State) (f : Nat → Nat) :
    (s.mapEngines f).free = s.free := by rfl
@[simp] theorem State.mapEngines_out (s : State) (f : Nat → Nat) :
    (s.mapEngines f).out = s.out := by rfl
@[simp] theorem State.mapEngines_rd (s : State) (f : Nat → Nat) (fld : Field) (ix fu : Nat) :
    (s.mapEngines f).rd fld ix fu = s.rd fld ix fu := by rfl
@[simp] theorem State.mapEngines_rdN (s : State) (f : Nat → Nat) (fld : Field) (ix fu : Nat) :
    (s.mapEngines f).rdN fld ix fu = s.rdN fld ix fu := by rfl
@[simp] theorem State.mapEngines_rdB (s : State) (f : Nat → Nat) (fld : Field) (ix fu : Nat) :
    (s.mapEngines f).rdB fld ix fu = s.rdB fld ix fu := by rfl
@[simp] theorem State.mapEngines_cmd (s : State) (f : Nat → Nat) (cid : Nat) :
    (s.mapEngines f).cmd? cid = s.cmd? cid := by rfl

/-! `State.clipTiles` changes `power` alone. -/
@[simp] theorem State.clipTiles_pending (s : State) :
    (s.clipTiles).pending = s.pending := by rfl
@[simp] theorem State.clipTiles_variant (s : State) :
    (s.clipTiles).variant = s.variant := by rfl
@[simp] theorem State.clipTiles_revision (s : State) :
    (s.clipTiles).revision = s.revision := by rfl
@[simp] theorem State.clipTiles_regs (s : State) :
    (s.clipTiles).regs = s.regs := by rfl
@[simp] theorem State.clipTiles_hbm (s : State) :
    (s.clipTiles).hbm = s.hbm := by rfl
@[simp] theorem State.clipTiles_sap (s : State) :
    (s.clipTiles).sap = s.sap := by rfl
@[simp] theorem State.clipTiles_host (s : State) :
    (s.clipTiles).host = s.host := by rfl
@[simp] theorem State.clipTiles_acc (s : State) :
    (s.clipTiles).acc = s.acc := by rfl
@[simp] theorem State.clipTiles_mem (s : State) :
    (s.clipTiles).mem = s.mem := by rfl
@[simp] theorem State.clipTiles_queues (s : State) :
    (s.clipTiles).queues = s.queues := by rfl
@[simp] theorem State.clipTiles_pcie (s : State) :
    (s.clipTiles).pcie = s.pcie := by rfl
@[simp] theorem State.clipTiles_time (s : State) :
    (s.clipTiles).time = s.time := by rfl
@[simp] theorem State.clipTiles_ingest (s : State) :
    (s.clipTiles).ingest = s.ingest := by rfl
@[simp] theorem State.clipTiles_compute (s : State) :
    (s.clipTiles).compute = s.compute := by rfl
@[simp] theorem State.clipTiles_canopy (s : State) :
    (s.clipTiles).canopy = s.canopy := by rfl
@[simp] theorem State.clipTiles_sort (s : State) :
    (s.clipTiles).sort = s.sort := by rfl
@[simp] theorem State.clipTiles_gather (s : State) :
    (s.clipTiles).gather = s.gather := by rfl
@[simp] theorem State.clipTiles_fabric (s : State) :
    (s.clipTiles).fabric = s.fabric := by rfl
@[simp] theorem State.clipTiles_twin (s : State) :
    (s.clipTiles).twin = s.twin := by rfl
@[simp] theorem State.clipTiles_bark (s : State) :
    (s.clipTiles).bark = s.bark := by rfl
@[simp] theorem State.clipTiles_security (s : State) :
    (s.clipTiles).security = s.security := by rfl
@[simp] theorem State.clipTiles_observe (s : State) :
    (s.clipTiles).observe = s.observe := by rfl
@[simp] theorem State.clipTiles_reports (s : State) :
    (s.clipTiles).reports = s.reports := by rfl
@[simp] theorem State.clipTiles_free (s : State) :
    (s.clipTiles).free = s.free := by rfl
@[simp] theorem State.clipTiles_out (s : State) :
    (s.clipTiles).out = s.out := by rfl
@[simp] theorem State.clipTiles_rd (s : State) (fld : Field) (ix fu : Nat) :
    (s.clipTiles).rd fld ix fu = s.rd fld ix fu := by rfl
@[simp] theorem State.clipTiles_rdN (s : State) (fld : Field) (ix fu : Nat) :
    (s.clipTiles).rdN fld ix fu = s.rdN fld ix fu := by rfl
@[simp] theorem State.clipTiles_rdB (s : State) (fld : Field) (ix fu : Nat) :
    (s.clipTiles).rdB fld ix fu = s.rdB fld ix fu := by rfl
@[simp] theorem State.clipTiles_cmd (s : State) (cid : Nat) :
    (s.clipTiles).cmd? cid = s.cmd? cid := by rfl

/-! `State.awaitOff` changes `power` alone. -/
@[simp] theorem State.awaitOff_pending (s : State) (j cmd : Nat) :
    (s.awaitOff j cmd).pending = s.pending := by rfl
@[simp] theorem State.awaitOff_variant (s : State) (j cmd : Nat) :
    (s.awaitOff j cmd).variant = s.variant := by rfl
@[simp] theorem State.awaitOff_revision (s : State) (j cmd : Nat) :
    (s.awaitOff j cmd).revision = s.revision := by rfl
@[simp] theorem State.awaitOff_regs (s : State) (j cmd : Nat) :
    (s.awaitOff j cmd).regs = s.regs := by rfl
@[simp] theorem State.awaitOff_hbm (s : State) (j cmd : Nat) :
    (s.awaitOff j cmd).hbm = s.hbm := by rfl
@[simp] theorem State.awaitOff_sap (s : State) (j cmd : Nat) :
    (s.awaitOff j cmd).sap = s.sap := by rfl
@[simp] theorem State.awaitOff_host (s : State) (j cmd : Nat) :
    (s.awaitOff j cmd).host = s.host := by rfl
@[simp] theorem State.awaitOff_acc (s : State) (j cmd : Nat) :
    (s.awaitOff j cmd).acc = s.acc := by rfl
@[simp] theorem State.awaitOff_mem (s : State) (j cmd : Nat) :
    (s.awaitOff j cmd).mem = s.mem := by rfl
@[simp] theorem State.awaitOff_queues (s : State) (j cmd : Nat) :
    (s.awaitOff j cmd).queues = s.queues := by rfl
@[simp] theorem State.awaitOff_pcie (s : State) (j cmd : Nat) :
    (s.awaitOff j cmd).pcie = s.pcie := by rfl
@[simp] theorem State.awaitOff_time (s : State) (j cmd : Nat) :
    (s.awaitOff j cmd).time = s.time := by rfl
@[simp] theorem State.awaitOff_ingest (s : State) (j cmd : Nat) :
    (s.awaitOff j cmd).ingest = s.ingest := by rfl
@[simp] theorem State.awaitOff_compute (s : State) (j cmd : Nat) :
    (s.awaitOff j cmd).compute = s.compute := by rfl
@[simp] theorem State.awaitOff_canopy (s : State) (j cmd : Nat) :
    (s.awaitOff j cmd).canopy = s.canopy := by rfl
@[simp] theorem State.awaitOff_sort (s : State) (j cmd : Nat) :
    (s.awaitOff j cmd).sort = s.sort := by rfl
@[simp] theorem State.awaitOff_gather (s : State) (j cmd : Nat) :
    (s.awaitOff j cmd).gather = s.gather := by rfl
@[simp] theorem State.awaitOff_fabric (s : State) (j cmd : Nat) :
    (s.awaitOff j cmd).fabric = s.fabric := by rfl
@[simp] theorem State.awaitOff_twin (s : State) (j cmd : Nat) :
    (s.awaitOff j cmd).twin = s.twin := by rfl
@[simp] theorem State.awaitOff_bark (s : State) (j cmd : Nat) :
    (s.awaitOff j cmd).bark = s.bark := by rfl
@[simp] theorem State.awaitOff_security (s : State) (j cmd : Nat) :
    (s.awaitOff j cmd).security = s.security := by rfl
@[simp] theorem State.awaitOff_observe (s : State) (j cmd : Nat) :
    (s.awaitOff j cmd).observe = s.observe := by rfl
@[simp] theorem State.awaitOff_reports (s : State) (j cmd : Nat) :
    (s.awaitOff j cmd).reports = s.reports := by rfl
@[simp] theorem State.awaitOff_free (s : State) (j cmd : Nat) :
    (s.awaitOff j cmd).free = s.free := by rfl
@[simp] theorem State.awaitOff_out (s : State) (j cmd : Nat) :
    (s.awaitOff j cmd).out = s.out := by rfl
@[simp] theorem State.awaitOff_rd (s : State) (j cmd : Nat) (fld : Field) (ix fu : Nat) :
    (s.awaitOff j cmd).rd fld ix fu = s.rd fld ix fu := by rfl
@[simp] theorem State.awaitOff_rdN (s : State) (j cmd : Nat) (fld : Field) (ix fu : Nat) :
    (s.awaitOff j cmd).rdN fld ix fu = s.rdN fld ix fu := by rfl
@[simp] theorem State.awaitOff_rdB (s : State) (j cmd : Nat) (fld : Field) (ix fu : Nat) :
    (s.awaitOff j cmd).rdB fld ix fu = s.rdB fld ix fu := by rfl
@[simp] theorem State.awaitOff_cmd (s : State) (j cmd : Nat) (cid : Nat) :
    (s.awaitOff j cmd).cmd? cid = s.cmd? cid := by rfl

/-! `State.awaitOn` changes `power` alone. -/
@[simp] theorem State.awaitOn_pending (s : State) (j cmd : Nat) :
    (s.awaitOn j cmd).pending = s.pending := by rfl
@[simp] theorem State.awaitOn_variant (s : State) (j cmd : Nat) :
    (s.awaitOn j cmd).variant = s.variant := by rfl
@[simp] theorem State.awaitOn_revision (s : State) (j cmd : Nat) :
    (s.awaitOn j cmd).revision = s.revision := by rfl
@[simp] theorem State.awaitOn_regs (s : State) (j cmd : Nat) :
    (s.awaitOn j cmd).regs = s.regs := by rfl
@[simp] theorem State.awaitOn_hbm (s : State) (j cmd : Nat) :
    (s.awaitOn j cmd).hbm = s.hbm := by rfl
@[simp] theorem State.awaitOn_sap (s : State) (j cmd : Nat) :
    (s.awaitOn j cmd).sap = s.sap := by rfl
@[simp] theorem State.awaitOn_host (s : State) (j cmd : Nat) :
    (s.awaitOn j cmd).host = s.host := by rfl
@[simp] theorem State.awaitOn_acc (s : State) (j cmd : Nat) :
    (s.awaitOn j cmd).acc = s.acc := by rfl
@[simp] theorem State.awaitOn_mem (s : State) (j cmd : Nat) :
    (s.awaitOn j cmd).mem = s.mem := by rfl
@[simp] theorem State.awaitOn_queues (s : State) (j cmd : Nat) :
    (s.awaitOn j cmd).queues = s.queues := by rfl
@[simp] theorem State.awaitOn_pcie (s : State) (j cmd : Nat) :
    (s.awaitOn j cmd).pcie = s.pcie := by rfl
@[simp] theorem State.awaitOn_time (s : State) (j cmd : Nat) :
    (s.awaitOn j cmd).time = s.time := by rfl
@[simp] theorem State.awaitOn_ingest (s : State) (j cmd : Nat) :
    (s.awaitOn j cmd).ingest = s.ingest := by rfl
@[simp] theorem State.awaitOn_compute (s : State) (j cmd : Nat) :
    (s.awaitOn j cmd).compute = s.compute := by rfl
@[simp] theorem State.awaitOn_canopy (s : State) (j cmd : Nat) :
    (s.awaitOn j cmd).canopy = s.canopy := by rfl
@[simp] theorem State.awaitOn_sort (s : State) (j cmd : Nat) :
    (s.awaitOn j cmd).sort = s.sort := by rfl
@[simp] theorem State.awaitOn_gather (s : State) (j cmd : Nat) :
    (s.awaitOn j cmd).gather = s.gather := by rfl
@[simp] theorem State.awaitOn_fabric (s : State) (j cmd : Nat) :
    (s.awaitOn j cmd).fabric = s.fabric := by rfl
@[simp] theorem State.awaitOn_twin (s : State) (j cmd : Nat) :
    (s.awaitOn j cmd).twin = s.twin := by rfl
@[simp] theorem State.awaitOn_bark (s : State) (j cmd : Nat) :
    (s.awaitOn j cmd).bark = s.bark := by rfl
@[simp] theorem State.awaitOn_security (s : State) (j cmd : Nat) :
    (s.awaitOn j cmd).security = s.security := by rfl
@[simp] theorem State.awaitOn_observe (s : State) (j cmd : Nat) :
    (s.awaitOn j cmd).observe = s.observe := by rfl
@[simp] theorem State.awaitOn_reports (s : State) (j cmd : Nat) :
    (s.awaitOn j cmd).reports = s.reports := by rfl
@[simp] theorem State.awaitOn_free (s : State) (j cmd : Nat) :
    (s.awaitOn j cmd).free = s.free := by rfl
@[simp] theorem State.awaitOn_out (s : State) (j cmd : Nat) :
    (s.awaitOn j cmd).out = s.out := by rfl
@[simp] theorem State.awaitOn_rd (s : State) (j cmd : Nat) (fld : Field) (ix fu : Nat) :
    (s.awaitOn j cmd).rd fld ix fu = s.rd fld ix fu := by rfl
@[simp] theorem State.awaitOn_rdN (s : State) (j cmd : Nat) (fld : Field) (ix fu : Nat) :
    (s.awaitOn j cmd).rdN fld ix fu = s.rdN fld ix fu := by rfl
@[simp] theorem State.awaitOn_rdB (s : State) (j cmd : Nat) (fld : Field) (ix fu : Nat) :
    (s.awaitOn j cmd).rdB fld ix fu = s.rdB fld ix fu := by rfl
@[simp] theorem State.awaitOn_cmd (s : State) (j cmd : Nat) (cid : Nat) :
    (s.awaitOn j cmd).cmd? cid = s.cmd? cid := by rfl

/-! `State.updLine` changes `queues` alone. -/
@[simp] theorem State.updLine_pending (s : State) (g : Nat) (f : Line → Line) :
    (s.updLine g f).pending = s.pending := by rfl
@[simp] theorem State.updLine_variant (s : State) (g : Nat) (f : Line → Line) :
    (s.updLine g f).variant = s.variant := by rfl
@[simp] theorem State.updLine_revision (s : State) (g : Nat) (f : Line → Line) :
    (s.updLine g f).revision = s.revision := by rfl
@[simp] theorem State.updLine_regs (s : State) (g : Nat) (f : Line → Line) :
    (s.updLine g f).regs = s.regs := by rfl
@[simp] theorem State.updLine_hbm (s : State) (g : Nat) (f : Line → Line) :
    (s.updLine g f).hbm = s.hbm := by rfl
@[simp] theorem State.updLine_sap (s : State) (g : Nat) (f : Line → Line) :
    (s.updLine g f).sap = s.sap := by rfl
@[simp] theorem State.updLine_host (s : State) (g : Nat) (f : Line → Line) :
    (s.updLine g f).host = s.host := by rfl
@[simp] theorem State.updLine_acc (s : State) (g : Nat) (f : Line → Line) :
    (s.updLine g f).acc = s.acc := by rfl
@[simp] theorem State.updLine_mem (s : State) (g : Nat) (f : Line → Line) :
    (s.updLine g f).mem = s.mem := by rfl
@[simp] theorem State.updLine_pcie (s : State) (g : Nat) (f : Line → Line) :
    (s.updLine g f).pcie = s.pcie := by rfl
@[simp] theorem State.updLine_time (s : State) (g : Nat) (f : Line → Line) :
    (s.updLine g f).time = s.time := by rfl
@[simp] theorem State.updLine_ingest (s : State) (g : Nat) (f : Line → Line) :
    (s.updLine g f).ingest = s.ingest := by rfl
@[simp] theorem State.updLine_compute (s : State) (g : Nat) (f : Line → Line) :
    (s.updLine g f).compute = s.compute := by rfl
@[simp] theorem State.updLine_canopy (s : State) (g : Nat) (f : Line → Line) :
    (s.updLine g f).canopy = s.canopy := by rfl
@[simp] theorem State.updLine_sort (s : State) (g : Nat) (f : Line → Line) :
    (s.updLine g f).sort = s.sort := by rfl
@[simp] theorem State.updLine_gather (s : State) (g : Nat) (f : Line → Line) :
    (s.updLine g f).gather = s.gather := by rfl
@[simp] theorem State.updLine_fabric (s : State) (g : Nat) (f : Line → Line) :
    (s.updLine g f).fabric = s.fabric := by rfl
@[simp] theorem State.updLine_twin (s : State) (g : Nat) (f : Line → Line) :
    (s.updLine g f).twin = s.twin := by rfl
@[simp] theorem State.updLine_bark (s : State) (g : Nat) (f : Line → Line) :
    (s.updLine g f).bark = s.bark := by rfl
@[simp] theorem State.updLine_security (s : State) (g : Nat) (f : Line → Line) :
    (s.updLine g f).security = s.security := by rfl
@[simp] theorem State.updLine_observe (s : State) (g : Nat) (f : Line → Line) :
    (s.updLine g f).observe = s.observe := by rfl
@[simp] theorem State.updLine_power (s : State) (g : Nat) (f : Line → Line) :
    (s.updLine g f).power = s.power := by rfl
@[simp] theorem State.updLine_reports (s : State) (g : Nat) (f : Line → Line) :
    (s.updLine g f).reports = s.reports := by rfl
@[simp] theorem State.updLine_free (s : State) (g : Nat) (f : Line → Line) :
    (s.updLine g f).free = s.free := by rfl
@[simp] theorem State.updLine_out (s : State) (g : Nat) (f : Line → Line) :
    (s.updLine g f).out = s.out := by rfl
@[simp] theorem State.updLine_rd (s : State) (g : Nat) (f : Line → Line) (fld : Field) (ix fu : Nat) :
    (s.updLine g f).rd fld ix fu = s.rd fld ix fu := by rfl
@[simp] theorem State.updLine_rdN (s : State) (g : Nat) (f : Line → Line) (fld : Field) (ix fu : Nat) :
    (s.updLine g f).rdN fld ix fu = s.rdN fld ix fu := by rfl
@[simp] theorem State.updLine_rdB (s : State) (g : Nat) (f : Line → Line) (fld : Field) (ix fu : Nat) :
    (s.updLine g f).rdB fld ix fu = s.rdB fld ix fu := by rfl

/-! `State.wr` changes `regs` alone. -/
@[simp] theorem State.wr_pending (s : State) (f : Field) (v : DWord) (idx : Nat) (fn : Nat) :
    (s.wr f v idx fn).pending = s.pending := by rfl
@[simp] theorem State.wr_variant (s : State) (f : Field) (v : DWord) (idx : Nat) (fn : Nat) :
    (s.wr f v idx fn).variant = s.variant := by rfl
@[simp] theorem State.wr_revision (s : State) (f : Field) (v : DWord) (idx : Nat) (fn : Nat) :
    (s.wr f v idx fn).revision = s.revision := by rfl
@[simp] theorem State.wr_hbm (s : State) (f : Field) (v : DWord) (idx : Nat) (fn : Nat) :
    (s.wr f v idx fn).hbm = s.hbm := by rfl
@[simp] theorem State.wr_sap (s : State) (f : Field) (v : DWord) (idx : Nat) (fn : Nat) :
    (s.wr f v idx fn).sap = s.sap := by rfl
@[simp] theorem State.wr_host (s : State) (f : Field) (v : DWord) (idx : Nat) (fn : Nat) :
    (s.wr f v idx fn).host = s.host := by rfl
@[simp] theorem State.wr_acc (s : State) (f : Field) (v : DWord) (idx : Nat) (fn : Nat) :
    (s.wr f v idx fn).acc = s.acc := by rfl
@[simp] theorem State.wr_mem (s : State) (f : Field) (v : DWord) (idx : Nat) (fn : Nat) :
    (s.wr f v idx fn).mem = s.mem := by rfl
@[simp] theorem State.wr_queues (s : State) (f : Field) (v : DWord) (idx : Nat) (fn : Nat) :
    (s.wr f v idx fn).queues = s.queues := by rfl
@[simp] theorem State.wr_pcie (s : State) (f : Field) (v : DWord) (idx : Nat) (fn : Nat) :
    (s.wr f v idx fn).pcie = s.pcie := by rfl
@[simp] theorem State.wr_time (s : State) (f : Field) (v : DWord) (idx : Nat) (fn : Nat) :
    (s.wr f v idx fn).time = s.time := by rfl
@[simp] theorem State.wr_ingest (s : State) (f : Field) (v : DWord) (idx : Nat) (fn : Nat) :
    (s.wr f v idx fn).ingest = s.ingest := by rfl
@[simp] theorem State.wr_compute (s : State) (f : Field) (v : DWord) (idx : Nat) (fn : Nat) :
    (s.wr f v idx fn).compute = s.compute := by rfl
@[simp] theorem State.wr_canopy (s : State) (f : Field) (v : DWord) (idx : Nat) (fn : Nat) :
    (s.wr f v idx fn).canopy = s.canopy := by rfl
@[simp] theorem State.wr_sort (s : State) (f : Field) (v : DWord) (idx : Nat) (fn : Nat) :
    (s.wr f v idx fn).sort = s.sort := by rfl
@[simp] theorem State.wr_gather (s : State) (f : Field) (v : DWord) (idx : Nat) (fn : Nat) :
    (s.wr f v idx fn).gather = s.gather := by rfl
@[simp] theorem State.wr_fabric (s : State) (f : Field) (v : DWord) (idx : Nat) (fn : Nat) :
    (s.wr f v idx fn).fabric = s.fabric := by rfl
@[simp] theorem State.wr_twin (s : State) (f : Field) (v : DWord) (idx : Nat) (fn : Nat) :
    (s.wr f v idx fn).twin = s.twin := by rfl
@[simp] theorem State.wr_bark (s : State) (f : Field) (v : DWord) (idx : Nat) (fn : Nat) :
    (s.wr f v idx fn).bark = s.bark := by rfl
@[simp] theorem State.wr_security (s : State) (f : Field) (v : DWord) (idx : Nat) (fn : Nat) :
    (s.wr f v idx fn).security = s.security := by rfl
@[simp] theorem State.wr_observe (s : State) (f : Field) (v : DWord) (idx : Nat) (fn : Nat) :
    (s.wr f v idx fn).observe = s.observe := by rfl
@[simp] theorem State.wr_power (s : State) (f : Field) (v : DWord) (idx : Nat) (fn : Nat) :
    (s.wr f v idx fn).power = s.power := by rfl
@[simp] theorem State.wr_reports (s : State) (f : Field) (v : DWord) (idx : Nat) (fn : Nat) :
    (s.wr f v idx fn).reports = s.reports := by rfl
@[simp] theorem State.wr_free (s : State) (f : Field) (v : DWord) (idx : Nat) (fn : Nat) :
    (s.wr f v idx fn).free = s.free := by rfl
@[simp] theorem State.wr_out (s : State) (f : Field) (v : DWord) (idx : Nat) (fn : Nat) :
    (s.wr f v idx fn).out = s.out := by rfl
@[simp] theorem State.wr_cmd (s : State) (f : Field) (v : DWord) (idx : Nat) (fn : Nat) (cid : Nat) :
    (s.wr f v idx fn).cmd? cid = s.cmd? cid := by rfl

/-! `State.resetFnRegs` changes `regs` alone. -/
@[simp] theorem State.resetFnRegs_pending (s : State) (fn : Nat) :
    (s.resetFnRegs fn).pending = s.pending := by rfl
@[simp] theorem State.resetFnRegs_variant (s : State) (fn : Nat) :
    (s.resetFnRegs fn).variant = s.variant := by rfl
@[simp] theorem State.resetFnRegs_revision (s : State) (fn : Nat) :
    (s.resetFnRegs fn).revision = s.revision := by rfl
@[simp] theorem State.resetFnRegs_hbm (s : State) (fn : Nat) :
    (s.resetFnRegs fn).hbm = s.hbm := by rfl
@[simp] theorem State.resetFnRegs_sap (s : State) (fn : Nat) :
    (s.resetFnRegs fn).sap = s.sap := by rfl
@[simp] theorem State.resetFnRegs_host (s : State) (fn : Nat) :
    (s.resetFnRegs fn).host = s.host := by rfl
@[simp] theorem State.resetFnRegs_acc (s : State) (fn : Nat) :
    (s.resetFnRegs fn).acc = s.acc := by rfl
@[simp] theorem State.resetFnRegs_mem (s : State) (fn : Nat) :
    (s.resetFnRegs fn).mem = s.mem := by rfl
@[simp] theorem State.resetFnRegs_queues (s : State) (fn : Nat) :
    (s.resetFnRegs fn).queues = s.queues := by rfl
@[simp] theorem State.resetFnRegs_pcie (s : State) (fn : Nat) :
    (s.resetFnRegs fn).pcie = s.pcie := by rfl
@[simp] theorem State.resetFnRegs_time (s : State) (fn : Nat) :
    (s.resetFnRegs fn).time = s.time := by rfl
@[simp] theorem State.resetFnRegs_ingest (s : State) (fn : Nat) :
    (s.resetFnRegs fn).ingest = s.ingest := by rfl
@[simp] theorem State.resetFnRegs_compute (s : State) (fn : Nat) :
    (s.resetFnRegs fn).compute = s.compute := by rfl
@[simp] theorem State.resetFnRegs_canopy (s : State) (fn : Nat) :
    (s.resetFnRegs fn).canopy = s.canopy := by rfl
@[simp] theorem State.resetFnRegs_sort (s : State) (fn : Nat) :
    (s.resetFnRegs fn).sort = s.sort := by rfl
@[simp] theorem State.resetFnRegs_gather (s : State) (fn : Nat) :
    (s.resetFnRegs fn).gather = s.gather := by rfl
@[simp] theorem State.resetFnRegs_fabric (s : State) (fn : Nat) :
    (s.resetFnRegs fn).fabric = s.fabric := by rfl
@[simp] theorem State.resetFnRegs_twin (s : State) (fn : Nat) :
    (s.resetFnRegs fn).twin = s.twin := by rfl
@[simp] theorem State.resetFnRegs_bark (s : State) (fn : Nat) :
    (s.resetFnRegs fn).bark = s.bark := by rfl
@[simp] theorem State.resetFnRegs_security (s : State) (fn : Nat) :
    (s.resetFnRegs fn).security = s.security := by rfl
@[simp] theorem State.resetFnRegs_observe (s : State) (fn : Nat) :
    (s.resetFnRegs fn).observe = s.observe := by rfl
@[simp] theorem State.resetFnRegs_power (s : State) (fn : Nat) :
    (s.resetFnRegs fn).power = s.power := by rfl
@[simp] theorem State.resetFnRegs_reports (s : State) (fn : Nat) :
    (s.resetFnRegs fn).reports = s.reports := by rfl
@[simp] theorem State.resetFnRegs_free (s : State) (fn : Nat) :
    (s.resetFnRegs fn).free = s.free := by rfl
@[simp] theorem State.resetFnRegs_out (s : State) (fn : Nat) :
    (s.resetFnRegs fn).out = s.out := by rfl
@[simp] theorem State.resetFnRegs_cmd (s : State) (fn : Nat) (cid : Nat) :
    (s.resetFnRegs fn).cmd? cid = s.cmd? cid := by rfl

/-! `State.extendMeasure` changes `security` alone. -/
@[simp] theorem State.extendMeasure_pending (s : State) (i : Nat) (digest : List Byte) :
    (s.extendMeasure i digest).pending = s.pending := by rfl
@[simp] theorem State.extendMeasure_variant (s : State) (i : Nat) (digest : List Byte) :
    (s.extendMeasure i digest).variant = s.variant := by rfl
@[simp] theorem State.extendMeasure_revision (s : State) (i : Nat) (digest : List Byte) :
    (s.extendMeasure i digest).revision = s.revision := by rfl
@[simp] theorem State.extendMeasure_regs (s : State) (i : Nat) (digest : List Byte) :
    (s.extendMeasure i digest).regs = s.regs := by rfl
@[simp] theorem State.extendMeasure_hbm (s : State) (i : Nat) (digest : List Byte) :
    (s.extendMeasure i digest).hbm = s.hbm := by rfl
@[simp] theorem State.extendMeasure_sap (s : State) (i : Nat) (digest : List Byte) :
    (s.extendMeasure i digest).sap = s.sap := by rfl
@[simp] theorem State.extendMeasure_host (s : State) (i : Nat) (digest : List Byte) :
    (s.extendMeasure i digest).host = s.host := by rfl
@[simp] theorem State.extendMeasure_acc (s : State) (i : Nat) (digest : List Byte) :
    (s.extendMeasure i digest).acc = s.acc := by rfl
@[simp] theorem State.extendMeasure_mem (s : State) (i : Nat) (digest : List Byte) :
    (s.extendMeasure i digest).mem = s.mem := by rfl
@[simp] theorem State.extendMeasure_queues (s : State) (i : Nat) (digest : List Byte) :
    (s.extendMeasure i digest).queues = s.queues := by rfl
@[simp] theorem State.extendMeasure_pcie (s : State) (i : Nat) (digest : List Byte) :
    (s.extendMeasure i digest).pcie = s.pcie := by rfl
@[simp] theorem State.extendMeasure_time (s : State) (i : Nat) (digest : List Byte) :
    (s.extendMeasure i digest).time = s.time := by rfl
@[simp] theorem State.extendMeasure_ingest (s : State) (i : Nat) (digest : List Byte) :
    (s.extendMeasure i digest).ingest = s.ingest := by rfl
@[simp] theorem State.extendMeasure_compute (s : State) (i : Nat) (digest : List Byte) :
    (s.extendMeasure i digest).compute = s.compute := by rfl
@[simp] theorem State.extendMeasure_canopy (s : State) (i : Nat) (digest : List Byte) :
    (s.extendMeasure i digest).canopy = s.canopy := by rfl
@[simp] theorem State.extendMeasure_sort (s : State) (i : Nat) (digest : List Byte) :
    (s.extendMeasure i digest).sort = s.sort := by rfl
@[simp] theorem State.extendMeasure_gather (s : State) (i : Nat) (digest : List Byte) :
    (s.extendMeasure i digest).gather = s.gather := by rfl
@[simp] theorem State.extendMeasure_fabric (s : State) (i : Nat) (digest : List Byte) :
    (s.extendMeasure i digest).fabric = s.fabric := by rfl
@[simp] theorem State.extendMeasure_twin (s : State) (i : Nat) (digest : List Byte) :
    (s.extendMeasure i digest).twin = s.twin := by rfl
@[simp] theorem State.extendMeasure_bark (s : State) (i : Nat) (digest : List Byte) :
    (s.extendMeasure i digest).bark = s.bark := by rfl
@[simp] theorem State.extendMeasure_observe (s : State) (i : Nat) (digest : List Byte) :
    (s.extendMeasure i digest).observe = s.observe := by rfl
@[simp] theorem State.extendMeasure_power (s : State) (i : Nat) (digest : List Byte) :
    (s.extendMeasure i digest).power = s.power := by rfl
@[simp] theorem State.extendMeasure_reports (s : State) (i : Nat) (digest : List Byte) :
    (s.extendMeasure i digest).reports = s.reports := by rfl
@[simp] theorem State.extendMeasure_free (s : State) (i : Nat) (digest : List Byte) :
    (s.extendMeasure i digest).free = s.free := by rfl
@[simp] theorem State.extendMeasure_out (s : State) (i : Nat) (digest : List Byte) :
    (s.extendMeasure i digest).out = s.out := by rfl
@[simp] theorem State.extendMeasure_rd (s : State) (i : Nat) (digest : List Byte) (fld : Field) (ix fu : Nat) :
    (s.extendMeasure i digest).rd fld ix fu = s.rd fld ix fu := by rfl
@[simp] theorem State.extendMeasure_rdN (s : State) (i : Nat) (digest : List Byte) (fld : Field) (ix fu : Nat) :
    (s.extendMeasure i digest).rdN fld ix fu = s.rdN fld ix fu := by rfl
@[simp] theorem State.extendMeasure_rdB (s : State) (i : Nat) (digest : List Byte) (fld : Field) (ix fu : Nat) :
    (s.extendMeasure i digest).rdB fld ix fu = s.rdB fld ix fu := by rfl
@[simp] theorem State.extendMeasure_cmd (s : State) (i : Nat) (digest : List Byte) (cid : Nat) :
    (s.extendMeasure i digest).cmd? cid = s.cmd? cid := by rfl

/-! `State.updSample` changes `bark` alone. -/
@[simp] theorem State.updSample_pending (s : State) (stem tile : Nat) (f : Sample → Sample) :
    (s.updSample stem tile f).pending = s.pending := by rfl
@[simp] theorem State.updSample_variant (s : State) (stem tile : Nat) (f : Sample → Sample) :
    (s.updSample stem tile f).variant = s.variant := by rfl
@[simp] theorem State.updSample_revision (s : State) (stem tile : Nat) (f : Sample → Sample) :
    (s.updSample stem tile f).revision = s.revision := by rfl
@[simp] theorem State.updSample_regs (s : State) (stem tile : Nat) (f : Sample → Sample) :
    (s.updSample stem tile f).regs = s.regs := by rfl
@[simp] theorem State.updSample_hbm (s : State) (stem tile : Nat) (f : Sample → Sample) :
    (s.updSample stem tile f).hbm = s.hbm := by rfl
@[simp] theorem State.updSample_sap (s : State) (stem tile : Nat) (f : Sample → Sample) :
    (s.updSample stem tile f).sap = s.sap := by rfl
@[simp] theorem State.updSample_host (s : State) (stem tile : Nat) (f : Sample → Sample) :
    (s.updSample stem tile f).host = s.host := by rfl
@[simp] theorem State.updSample_acc (s : State) (stem tile : Nat) (f : Sample → Sample) :
    (s.updSample stem tile f).acc = s.acc := by rfl
@[simp] theorem State.updSample_mem (s : State) (stem tile : Nat) (f : Sample → Sample) :
    (s.updSample stem tile f).mem = s.mem := by rfl
@[simp] theorem State.updSample_queues (s : State) (stem tile : Nat) (f : Sample → Sample) :
    (s.updSample stem tile f).queues = s.queues := by rfl
@[simp] theorem State.updSample_pcie (s : State) (stem tile : Nat) (f : Sample → Sample) :
    (s.updSample stem tile f).pcie = s.pcie := by rfl
@[simp] theorem State.updSample_time (s : State) (stem tile : Nat) (f : Sample → Sample) :
    (s.updSample stem tile f).time = s.time := by rfl
@[simp] theorem State.updSample_ingest (s : State) (stem tile : Nat) (f : Sample → Sample) :
    (s.updSample stem tile f).ingest = s.ingest := by rfl
@[simp] theorem State.updSample_compute (s : State) (stem tile : Nat) (f : Sample → Sample) :
    (s.updSample stem tile f).compute = s.compute := by rfl
@[simp] theorem State.updSample_canopy (s : State) (stem tile : Nat) (f : Sample → Sample) :
    (s.updSample stem tile f).canopy = s.canopy := by rfl
@[simp] theorem State.updSample_sort (s : State) (stem tile : Nat) (f : Sample → Sample) :
    (s.updSample stem tile f).sort = s.sort := by rfl
@[simp] theorem State.updSample_gather (s : State) (stem tile : Nat) (f : Sample → Sample) :
    (s.updSample stem tile f).gather = s.gather := by rfl
@[simp] theorem State.updSample_fabric (s : State) (stem tile : Nat) (f : Sample → Sample) :
    (s.updSample stem tile f).fabric = s.fabric := by rfl
@[simp] theorem State.updSample_twin (s : State) (stem tile : Nat) (f : Sample → Sample) :
    (s.updSample stem tile f).twin = s.twin := by rfl
@[simp] theorem State.updSample_security (s : State) (stem tile : Nat) (f : Sample → Sample) :
    (s.updSample stem tile f).security = s.security := by rfl
@[simp] theorem State.updSample_observe (s : State) (stem tile : Nat) (f : Sample → Sample) :
    (s.updSample stem tile f).observe = s.observe := by rfl
@[simp] theorem State.updSample_power (s : State) (stem tile : Nat) (f : Sample → Sample) :
    (s.updSample stem tile f).power = s.power := by rfl
@[simp] theorem State.updSample_reports (s : State) (stem tile : Nat) (f : Sample → Sample) :
    (s.updSample stem tile f).reports = s.reports := by rfl
@[simp] theorem State.updSample_free (s : State) (stem tile : Nat) (f : Sample → Sample) :
    (s.updSample stem tile f).free = s.free := by rfl
@[simp] theorem State.updSample_out (s : State) (stem tile : Nat) (f : Sample → Sample) :
    (s.updSample stem tile f).out = s.out := by rfl
@[simp] theorem State.updSample_rd (s : State) (stem tile : Nat) (f : Sample → Sample) (fld : Field) (ix fu : Nat) :
    (s.updSample stem tile f).rd fld ix fu = s.rd fld ix fu := by rfl
@[simp] theorem State.updSample_rdN (s : State) (stem tile : Nat) (f : Sample → Sample) (fld : Field) (ix fu : Nat) :
    (s.updSample stem tile f).rdN fld ix fu = s.rdN fld ix fu := by rfl
@[simp] theorem State.updSample_rdB (s : State) (stem tile : Nat) (f : Sample → Sample) (fld : Field) (ix fu : Nat) :
    (s.updSample stem tile f).rdB fld ix fu = s.rdB fld ix fu := by rfl
@[simp] theorem State.updSample_cmd (s : State) (stem tile : Nat) (f : Sample → Sample) (cid : Nat) :
    (s.updSample stem tile f).cmd? cid = s.cmd? cid := by rfl

/-! `State.standAt` changes `bark` alone. -/
@[simp] theorem State.standAt_pending (s : State) (stem tile pos : Nat) :
    (s.standAt stem tile pos).pending = s.pending := by rfl
@[simp] theorem State.standAt_variant (s : State) (stem tile pos : Nat) :
    (s.standAt stem tile pos).variant = s.variant := by rfl
@[simp] theorem State.standAt_revision (s : State) (stem tile pos : Nat) :
    (s.standAt stem tile pos).revision = s.revision := by rfl
@[simp] theorem State.standAt_regs (s : State) (stem tile pos : Nat) :
    (s.standAt stem tile pos).regs = s.regs := by rfl
@[simp] theorem State.standAt_hbm (s : State) (stem tile pos : Nat) :
    (s.standAt stem tile pos).hbm = s.hbm := by rfl
@[simp] theorem State.standAt_sap (s : State) (stem tile pos : Nat) :
    (s.standAt stem tile pos).sap = s.sap := by rfl
@[simp] theorem State.standAt_host (s : State) (stem tile pos : Nat) :
    (s.standAt stem tile pos).host = s.host := by rfl
@[simp] theorem State.standAt_acc (s : State) (stem tile pos : Nat) :
    (s.standAt stem tile pos).acc = s.acc := by rfl
@[simp] theorem State.standAt_mem (s : State) (stem tile pos : Nat) :
    (s.standAt stem tile pos).mem = s.mem := by rfl
@[simp] theorem State.standAt_queues (s : State) (stem tile pos : Nat) :
    (s.standAt stem tile pos).queues = s.queues := by rfl
@[simp] theorem State.standAt_pcie (s : State) (stem tile pos : Nat) :
    (s.standAt stem tile pos).pcie = s.pcie := by rfl
@[simp] theorem State.standAt_time (s : State) (stem tile pos : Nat) :
    (s.standAt stem tile pos).time = s.time := by rfl
@[simp] theorem State.standAt_ingest (s : State) (stem tile pos : Nat) :
    (s.standAt stem tile pos).ingest = s.ingest := by rfl
@[simp] theorem State.standAt_compute (s : State) (stem tile pos : Nat) :
    (s.standAt stem tile pos).compute = s.compute := by rfl
@[simp] theorem State.standAt_canopy (s : State) (stem tile pos : Nat) :
    (s.standAt stem tile pos).canopy = s.canopy := by rfl
@[simp] theorem State.standAt_sort (s : State) (stem tile pos : Nat) :
    (s.standAt stem tile pos).sort = s.sort := by rfl
@[simp] theorem State.standAt_gather (s : State) (stem tile pos : Nat) :
    (s.standAt stem tile pos).gather = s.gather := by rfl
@[simp] theorem State.standAt_fabric (s : State) (stem tile pos : Nat) :
    (s.standAt stem tile pos).fabric = s.fabric := by rfl
@[simp] theorem State.standAt_twin (s : State) (stem tile pos : Nat) :
    (s.standAt stem tile pos).twin = s.twin := by rfl
@[simp] theorem State.standAt_security (s : State) (stem tile pos : Nat) :
    (s.standAt stem tile pos).security = s.security := by rfl
@[simp] theorem State.standAt_observe (s : State) (stem tile pos : Nat) :
    (s.standAt stem tile pos).observe = s.observe := by rfl
@[simp] theorem State.standAt_power (s : State) (stem tile pos : Nat) :
    (s.standAt stem tile pos).power = s.power := by rfl
@[simp] theorem State.standAt_reports (s : State) (stem tile pos : Nat) :
    (s.standAt stem tile pos).reports = s.reports := by rfl
@[simp] theorem State.standAt_free (s : State) (stem tile pos : Nat) :
    (s.standAt stem tile pos).free = s.free := by rfl
@[simp] theorem State.standAt_out (s : State) (stem tile pos : Nat) :
    (s.standAt stem tile pos).out = s.out := by rfl
@[simp] theorem State.standAt_rd (s : State) (stem tile pos : Nat) (fld : Field) (ix fu : Nat) :
    (s.standAt stem tile pos).rd fld ix fu = s.rd fld ix fu := by rfl
@[simp] theorem State.standAt_rdN (s : State) (stem tile pos : Nat) (fld : Field) (ix fu : Nat) :
    (s.standAt stem tile pos).rdN fld ix fu = s.rdN fld ix fu := by rfl
@[simp] theorem State.standAt_rdB (s : State) (stem tile pos : Nat) (fld : Field) (ix fu : Nat) :
    (s.standAt stem tile pos).rdB fld ix fu = s.rdB fld ix fu := by rfl
@[simp] theorem State.standAt_cmd (s : State) (stem tile pos : Nat) (cid : Nat) :
    (s.standAt stem tile pos).cmd? cid = s.cmd? cid := by rfl

/-! `State.updItem` changes `compute` alone. -/
@[simp] theorem State.updItem_pending (s : State) (i : Nat) (f : WorkItem → WorkItem) :
    (s.updItem i f).pending = s.pending := by rfl
@[simp] theorem State.updItem_variant (s : State) (i : Nat) (f : WorkItem → WorkItem) :
    (s.updItem i f).variant = s.variant := by rfl
@[simp] theorem State.updItem_revision (s : State) (i : Nat) (f : WorkItem → WorkItem) :
    (s.updItem i f).revision = s.revision := by rfl
@[simp] theorem State.updItem_regs (s : State) (i : Nat) (f : WorkItem → WorkItem) :
    (s.updItem i f).regs = s.regs := by rfl
@[simp] theorem State.updItem_hbm (s : State) (i : Nat) (f : WorkItem → WorkItem) :
    (s.updItem i f).hbm = s.hbm := by rfl
@[simp] theorem State.updItem_sap (s : State) (i : Nat) (f : WorkItem → WorkItem) :
    (s.updItem i f).sap = s.sap := by rfl
@[simp] theorem State.updItem_host (s : State) (i : Nat) (f : WorkItem → WorkItem) :
    (s.updItem i f).host = s.host := by rfl
@[simp] theorem State.updItem_acc (s : State) (i : Nat) (f : WorkItem → WorkItem) :
    (s.updItem i f).acc = s.acc := by rfl
@[simp] theorem State.updItem_mem (s : State) (i : Nat) (f : WorkItem → WorkItem) :
    (s.updItem i f).mem = s.mem := by rfl
@[simp] theorem State.updItem_queues (s : State) (i : Nat) (f : WorkItem → WorkItem) :
    (s.updItem i f).queues = s.queues := by rfl
@[simp] theorem State.updItem_pcie (s : State) (i : Nat) (f : WorkItem → WorkItem) :
    (s.updItem i f).pcie = s.pcie := by rfl
@[simp] theorem State.updItem_time (s : State) (i : Nat) (f : WorkItem → WorkItem) :
    (s.updItem i f).time = s.time := by rfl
@[simp] theorem State.updItem_ingest (s : State) (i : Nat) (f : WorkItem → WorkItem) :
    (s.updItem i f).ingest = s.ingest := by rfl
@[simp] theorem State.updItem_canopy (s : State) (i : Nat) (f : WorkItem → WorkItem) :
    (s.updItem i f).canopy = s.canopy := by rfl
@[simp] theorem State.updItem_sort (s : State) (i : Nat) (f : WorkItem → WorkItem) :
    (s.updItem i f).sort = s.sort := by rfl
@[simp] theorem State.updItem_gather (s : State) (i : Nat) (f : WorkItem → WorkItem) :
    (s.updItem i f).gather = s.gather := by rfl
@[simp] theorem State.updItem_fabric (s : State) (i : Nat) (f : WorkItem → WorkItem) :
    (s.updItem i f).fabric = s.fabric := by rfl
@[simp] theorem State.updItem_twin (s : State) (i : Nat) (f : WorkItem → WorkItem) :
    (s.updItem i f).twin = s.twin := by rfl
@[simp] theorem State.updItem_bark (s : State) (i : Nat) (f : WorkItem → WorkItem) :
    (s.updItem i f).bark = s.bark := by rfl
@[simp] theorem State.updItem_security (s : State) (i : Nat) (f : WorkItem → WorkItem) :
    (s.updItem i f).security = s.security := by rfl
@[simp] theorem State.updItem_observe (s : State) (i : Nat) (f : WorkItem → WorkItem) :
    (s.updItem i f).observe = s.observe := by rfl
@[simp] theorem State.updItem_power (s : State) (i : Nat) (f : WorkItem → WorkItem) :
    (s.updItem i f).power = s.power := by rfl
@[simp] theorem State.updItem_reports (s : State) (i : Nat) (f : WorkItem → WorkItem) :
    (s.updItem i f).reports = s.reports := by rfl
@[simp] theorem State.updItem_free (s : State) (i : Nat) (f : WorkItem → WorkItem) :
    (s.updItem i f).free = s.free := by rfl
@[simp] theorem State.updItem_out (s : State) (i : Nat) (f : WorkItem → WorkItem) :
    (s.updItem i f).out = s.out := by rfl
@[simp] theorem State.updItem_rd (s : State) (i : Nat) (f : WorkItem → WorkItem) (fld : Field) (ix fu : Nat) :
    (s.updItem i f).rd fld ix fu = s.rd fld ix fu := by rfl
@[simp] theorem State.updItem_rdN (s : State) (i : Nat) (f : WorkItem → WorkItem) (fld : Field) (ix fu : Nat) :
    (s.updItem i f).rdN fld ix fu = s.rdN fld ix fu := by rfl
@[simp] theorem State.updItem_rdB (s : State) (i : Nat) (f : WorkItem → WorkItem) (fld : Field) (ix fu : Nat) :
    (s.updItem i f).rdB fld ix fu = s.rdB fld ix fu := by rfl
@[simp] theorem State.updItem_cmd (s : State) (i : Nat) (f : WorkItem → WorkItem) (cid : Nat) :
    (s.updItem i f).cmd? cid = s.cmd? cid := by rfl

/-! `State.putAcc` changes `acc` alone. -/
@[simp] theorem State.putAcc_pending (s : State) (w : WorkItem) (tile : Nat) (acc : List (List Nat)) :
    (s.putAcc w tile acc).pending = s.pending := by rfl
@[simp] theorem State.putAcc_variant (s : State) (w : WorkItem) (tile : Nat) (acc : List (List Nat)) :
    (s.putAcc w tile acc).variant = s.variant := by rfl
@[simp] theorem State.putAcc_revision (s : State) (w : WorkItem) (tile : Nat) (acc : List (List Nat)) :
    (s.putAcc w tile acc).revision = s.revision := by rfl
@[simp] theorem State.putAcc_regs (s : State) (w : WorkItem) (tile : Nat) (acc : List (List Nat)) :
    (s.putAcc w tile acc).regs = s.regs := by rfl
@[simp] theorem State.putAcc_hbm (s : State) (w : WorkItem) (tile : Nat) (acc : List (List Nat)) :
    (s.putAcc w tile acc).hbm = s.hbm := by rfl
@[simp] theorem State.putAcc_sap (s : State) (w : WorkItem) (tile : Nat) (acc : List (List Nat)) :
    (s.putAcc w tile acc).sap = s.sap := by rfl
@[simp] theorem State.putAcc_host (s : State) (w : WorkItem) (tile : Nat) (acc : List (List Nat)) :
    (s.putAcc w tile acc).host = s.host := by rfl
@[simp] theorem State.putAcc_mem (s : State) (w : WorkItem) (tile : Nat) (acc : List (List Nat)) :
    (s.putAcc w tile acc).mem = s.mem := by rfl
@[simp] theorem State.putAcc_queues (s : State) (w : WorkItem) (tile : Nat) (acc : List (List Nat)) :
    (s.putAcc w tile acc).queues = s.queues := by rfl
@[simp] theorem State.putAcc_pcie (s : State) (w : WorkItem) (tile : Nat) (acc : List (List Nat)) :
    (s.putAcc w tile acc).pcie = s.pcie := by rfl
@[simp] theorem State.putAcc_time (s : State) (w : WorkItem) (tile : Nat) (acc : List (List Nat)) :
    (s.putAcc w tile acc).time = s.time := by rfl
@[simp] theorem State.putAcc_ingest (s : State) (w : WorkItem) (tile : Nat) (acc : List (List Nat)) :
    (s.putAcc w tile acc).ingest = s.ingest := by rfl
@[simp] theorem State.putAcc_compute (s : State) (w : WorkItem) (tile : Nat) (acc : List (List Nat)) :
    (s.putAcc w tile acc).compute = s.compute := by rfl
@[simp] theorem State.putAcc_canopy (s : State) (w : WorkItem) (tile : Nat) (acc : List (List Nat)) :
    (s.putAcc w tile acc).canopy = s.canopy := by rfl
@[simp] theorem State.putAcc_sort (s : State) (w : WorkItem) (tile : Nat) (acc : List (List Nat)) :
    (s.putAcc w tile acc).sort = s.sort := by rfl
@[simp] theorem State.putAcc_gather (s : State) (w : WorkItem) (tile : Nat) (acc : List (List Nat)) :
    (s.putAcc w tile acc).gather = s.gather := by rfl
@[simp] theorem State.putAcc_fabric (s : State) (w : WorkItem) (tile : Nat) (acc : List (List Nat)) :
    (s.putAcc w tile acc).fabric = s.fabric := by rfl
@[simp] theorem State.putAcc_twin (s : State) (w : WorkItem) (tile : Nat) (acc : List (List Nat)) :
    (s.putAcc w tile acc).twin = s.twin := by rfl
@[simp] theorem State.putAcc_bark (s : State) (w : WorkItem) (tile : Nat) (acc : List (List Nat)) :
    (s.putAcc w tile acc).bark = s.bark := by rfl
@[simp] theorem State.putAcc_security (s : State) (w : WorkItem) (tile : Nat) (acc : List (List Nat)) :
    (s.putAcc w tile acc).security = s.security := by rfl
@[simp] theorem State.putAcc_observe (s : State) (w : WorkItem) (tile : Nat) (acc : List (List Nat)) :
    (s.putAcc w tile acc).observe = s.observe := by rfl
@[simp] theorem State.putAcc_power (s : State) (w : WorkItem) (tile : Nat) (acc : List (List Nat)) :
    (s.putAcc w tile acc).power = s.power := by rfl
@[simp] theorem State.putAcc_reports (s : State) (w : WorkItem) (tile : Nat) (acc : List (List Nat)) :
    (s.putAcc w tile acc).reports = s.reports := by rfl
@[simp] theorem State.putAcc_free (s : State) (w : WorkItem) (tile : Nat) (acc : List (List Nat)) :
    (s.putAcc w tile acc).free = s.free := by rfl
@[simp] theorem State.putAcc_out (s : State) (w : WorkItem) (tile : Nat) (acc : List (List Nat)) :
    (s.putAcc w tile acc).out = s.out := by rfl
@[simp] theorem State.putAcc_rd (s : State) (w : WorkItem) (tile : Nat) (acc : List (List Nat)) (fld : Field) (ix fu : Nat) :
    (s.putAcc w tile acc).rd fld ix fu = s.rd fld ix fu := by rfl
@[simp] theorem State.putAcc_rdN (s : State) (w : WorkItem) (tile : Nat) (acc : List (List Nat)) (fld : Field) (ix fu : Nat) :
    (s.putAcc w tile acc).rdN fld ix fu = s.rdN fld ix fu := by rfl
@[simp] theorem State.putAcc_rdB (s : State) (w : WorkItem) (tile : Nat) (acc : List (List Nat)) (fld : Field) (ix fu : Nat) :
    (s.putAcc w tile acc).rdB fld ix fu = s.rdB fld ix fu := by rfl
@[simp] theorem State.putAcc_cmd (s : State) (w : WorkItem) (tile : Nat) (acc : List (List Nat)) (cid : Nat) :
    (s.putAcc w tile acc).cmd? cid = s.cmd? cid := by rfl

/-! `State.dropItems` changes `compute` alone. -/
@[simp] theorem State.dropItems_pending (s : State) (id : Nat) :
    (s.dropItems id).pending = s.pending := by rfl
@[simp] theorem State.dropItems_variant (s : State) (id : Nat) :
    (s.dropItems id).variant = s.variant := by rfl
@[simp] theorem State.dropItems_revision (s : State) (id : Nat) :
    (s.dropItems id).revision = s.revision := by rfl
@[simp] theorem State.dropItems_regs (s : State) (id : Nat) :
    (s.dropItems id).regs = s.regs := by rfl
@[simp] theorem State.dropItems_hbm (s : State) (id : Nat) :
    (s.dropItems id).hbm = s.hbm := by rfl
@[simp] theorem State.dropItems_sap (s : State) (id : Nat) :
    (s.dropItems id).sap = s.sap := by rfl
@[simp] theorem State.dropItems_host (s : State) (id : Nat) :
    (s.dropItems id).host = s.host := by rfl
@[simp] theorem State.dropItems_acc (s : State) (id : Nat) :
    (s.dropItems id).acc = s.acc := by rfl
@[simp] theorem State.dropItems_mem (s : State) (id : Nat) :
    (s.dropItems id).mem = s.mem := by rfl
@[simp] theorem State.dropItems_queues (s : State) (id : Nat) :
    (s.dropItems id).queues = s.queues := by rfl
@[simp] theorem State.dropItems_pcie (s : State) (id : Nat) :
    (s.dropItems id).pcie = s.pcie := by rfl
@[simp] theorem State.dropItems_time (s : State) (id : Nat) :
    (s.dropItems id).time = s.time := by rfl
@[simp] theorem State.dropItems_ingest (s : State) (id : Nat) :
    (s.dropItems id).ingest = s.ingest := by rfl
@[simp] theorem State.dropItems_canopy (s : State) (id : Nat) :
    (s.dropItems id).canopy = s.canopy := by rfl
@[simp] theorem State.dropItems_sort (s : State) (id : Nat) :
    (s.dropItems id).sort = s.sort := by rfl
@[simp] theorem State.dropItems_gather (s : State) (id : Nat) :
    (s.dropItems id).gather = s.gather := by rfl
@[simp] theorem State.dropItems_fabric (s : State) (id : Nat) :
    (s.dropItems id).fabric = s.fabric := by rfl
@[simp] theorem State.dropItems_twin (s : State) (id : Nat) :
    (s.dropItems id).twin = s.twin := by rfl
@[simp] theorem State.dropItems_bark (s : State) (id : Nat) :
    (s.dropItems id).bark = s.bark := by rfl
@[simp] theorem State.dropItems_security (s : State) (id : Nat) :
    (s.dropItems id).security = s.security := by rfl
@[simp] theorem State.dropItems_observe (s : State) (id : Nat) :
    (s.dropItems id).observe = s.observe := by rfl
@[simp] theorem State.dropItems_power (s : State) (id : Nat) :
    (s.dropItems id).power = s.power := by rfl
@[simp] theorem State.dropItems_reports (s : State) (id : Nat) :
    (s.dropItems id).reports = s.reports := by rfl
@[simp] theorem State.dropItems_free (s : State) (id : Nat) :
    (s.dropItems id).free = s.free := by rfl
@[simp] theorem State.dropItems_out (s : State) (id : Nat) :
    (s.dropItems id).out = s.out := by rfl
@[simp] theorem State.dropItems_rd (s : State) (id : Nat) (fld : Field) (ix fu : Nat) :
    (s.dropItems id).rd fld ix fu = s.rd fld ix fu := by rfl
@[simp] theorem State.dropItems_rdN (s : State) (id : Nat) (fld : Field) (ix fu : Nat) :
    (s.dropItems id).rdN fld ix fu = s.rdN fld ix fu := by rfl
@[simp] theorem State.dropItems_rdB (s : State) (id : Nat) (fld : Field) (ix fu : Nat) :
    (s.dropItems id).rdB fld ix fu = s.rdB fld ix fu := by rfl
@[simp] theorem State.dropItems_cmd (s : State) (id : Nat) (cid : Nat) :
    (s.dropItems id).cmd? cid = s.cmd? cid := by rfl

/-! `State.addProgram` changes `compute` alone. -/
@[simp] theorem State.addProgram_pending (s : State) (p : Program) :
    (s.addProgram p).pending = s.pending := by rfl
@[simp] theorem State.addProgram_variant (s : State) (p : Program) :
    (s.addProgram p).variant = s.variant := by rfl
@[simp] theorem State.addProgram_revision (s : State) (p : Program) :
    (s.addProgram p).revision = s.revision := by rfl
@[simp] theorem State.addProgram_regs (s : State) (p : Program) :
    (s.addProgram p).regs = s.regs := by rfl
@[simp] theorem State.addProgram_hbm (s : State) (p : Program) :
    (s.addProgram p).hbm = s.hbm := by rfl
@[simp] theorem State.addProgram_sap (s : State) (p : Program) :
    (s.addProgram p).sap = s.sap := by rfl
@[simp] theorem State.addProgram_host (s : State) (p : Program) :
    (s.addProgram p).host = s.host := by rfl
@[simp] theorem State.addProgram_acc (s : State) (p : Program) :
    (s.addProgram p).acc = s.acc := by rfl
@[simp] theorem State.addProgram_mem (s : State) (p : Program) :
    (s.addProgram p).mem = s.mem := by rfl
@[simp] theorem State.addProgram_queues (s : State) (p : Program) :
    (s.addProgram p).queues = s.queues := by rfl
@[simp] theorem State.addProgram_pcie (s : State) (p : Program) :
    (s.addProgram p).pcie = s.pcie := by rfl
@[simp] theorem State.addProgram_time (s : State) (p : Program) :
    (s.addProgram p).time = s.time := by rfl
@[simp] theorem State.addProgram_ingest (s : State) (p : Program) :
    (s.addProgram p).ingest = s.ingest := by rfl
@[simp] theorem State.addProgram_canopy (s : State) (p : Program) :
    (s.addProgram p).canopy = s.canopy := by rfl
@[simp] theorem State.addProgram_sort (s : State) (p : Program) :
    (s.addProgram p).sort = s.sort := by rfl
@[simp] theorem State.addProgram_gather (s : State) (p : Program) :
    (s.addProgram p).gather = s.gather := by rfl
@[simp] theorem State.addProgram_fabric (s : State) (p : Program) :
    (s.addProgram p).fabric = s.fabric := by rfl
@[simp] theorem State.addProgram_twin (s : State) (p : Program) :
    (s.addProgram p).twin = s.twin := by rfl
@[simp] theorem State.addProgram_bark (s : State) (p : Program) :
    (s.addProgram p).bark = s.bark := by rfl
@[simp] theorem State.addProgram_security (s : State) (p : Program) :
    (s.addProgram p).security = s.security := by rfl
@[simp] theorem State.addProgram_observe (s : State) (p : Program) :
    (s.addProgram p).observe = s.observe := by rfl
@[simp] theorem State.addProgram_power (s : State) (p : Program) :
    (s.addProgram p).power = s.power := by rfl
@[simp] theorem State.addProgram_reports (s : State) (p : Program) :
    (s.addProgram p).reports = s.reports := by rfl
@[simp] theorem State.addProgram_free (s : State) (p : Program) :
    (s.addProgram p).free = s.free := by rfl
@[simp] theorem State.addProgram_out (s : State) (p : Program) :
    (s.addProgram p).out = s.out := by rfl
@[simp] theorem State.addProgram_rd (s : State) (p : Program) (fld : Field) (ix fu : Nat) :
    (s.addProgram p).rd fld ix fu = s.rd fld ix fu := by rfl
@[simp] theorem State.addProgram_rdN (s : State) (p : Program) (fld : Field) (ix fu : Nat) :
    (s.addProgram p).rdN fld ix fu = s.rdN fld ix fu := by rfl
@[simp] theorem State.addProgram_rdB (s : State) (p : Program) (fld : Field) (ix fu : Nat) :
    (s.addProgram p).rdB fld ix fu = s.rdB fld ix fu := by rfl
@[simp] theorem State.addProgram_cmd (s : State) (p : Program) (cid : Nat) :
    (s.addProgram p).cmd? cid = s.cmd? cid := by rfl

/-! `State.updProgram` changes `compute` alone. -/
@[simp] theorem State.updProgram_pending (s : State) (id : Nat) (f : Program → Program) :
    (s.updProgram id f).pending = s.pending := by rfl
@[simp] theorem State.updProgram_variant (s : State) (id : Nat) (f : Program → Program) :
    (s.updProgram id f).variant = s.variant := by rfl
@[simp] theorem State.updProgram_revision (s : State) (id : Nat) (f : Program → Program) :
    (s.updProgram id f).revision = s.revision := by rfl
@[simp] theorem State.updProgram_regs (s : State) (id : Nat) (f : Program → Program) :
    (s.updProgram id f).regs = s.regs := by rfl
@[simp] theorem State.updProgram_hbm (s : State) (id : Nat) (f : Program → Program) :
    (s.updProgram id f).hbm = s.hbm := by rfl
@[simp] theorem State.updProgram_sap (s : State) (id : Nat) (f : Program → Program) :
    (s.updProgram id f).sap = s.sap := by rfl
@[simp] theorem State.updProgram_host (s : State) (id : Nat) (f : Program → Program) :
    (s.updProgram id f).host = s.host := by rfl
@[simp] theorem State.updProgram_acc (s : State) (id : Nat) (f : Program → Program) :
    (s.updProgram id f).acc = s.acc := by rfl
@[simp] theorem State.updProgram_mem (s : State) (id : Nat) (f : Program → Program) :
    (s.updProgram id f).mem = s.mem := by rfl
@[simp] theorem State.updProgram_queues (s : State) (id : Nat) (f : Program → Program) :
    (s.updProgram id f).queues = s.queues := by rfl
@[simp] theorem State.updProgram_pcie (s : State) (id : Nat) (f : Program → Program) :
    (s.updProgram id f).pcie = s.pcie := by rfl
@[simp] theorem State.updProgram_time (s : State) (id : Nat) (f : Program → Program) :
    (s.updProgram id f).time = s.time := by rfl
@[simp] theorem State.updProgram_ingest (s : State) (id : Nat) (f : Program → Program) :
    (s.updProgram id f).ingest = s.ingest := by rfl
@[simp] theorem State.updProgram_canopy (s : State) (id : Nat) (f : Program → Program) :
    (s.updProgram id f).canopy = s.canopy := by rfl
@[simp] theorem State.updProgram_sort (s : State) (id : Nat) (f : Program → Program) :
    (s.updProgram id f).sort = s.sort := by rfl
@[simp] theorem State.updProgram_gather (s : State) (id : Nat) (f : Program → Program) :
    (s.updProgram id f).gather = s.gather := by rfl
@[simp] theorem State.updProgram_fabric (s : State) (id : Nat) (f : Program → Program) :
    (s.updProgram id f).fabric = s.fabric := by rfl
@[simp] theorem State.updProgram_twin (s : State) (id : Nat) (f : Program → Program) :
    (s.updProgram id f).twin = s.twin := by rfl
@[simp] theorem State.updProgram_bark (s : State) (id : Nat) (f : Program → Program) :
    (s.updProgram id f).bark = s.bark := by rfl
@[simp] theorem State.updProgram_security (s : State) (id : Nat) (f : Program → Program) :
    (s.updProgram id f).security = s.security := by rfl
@[simp] theorem State.updProgram_observe (s : State) (id : Nat) (f : Program → Program) :
    (s.updProgram id f).observe = s.observe := by rfl
@[simp] theorem State.updProgram_power (s : State) (id : Nat) (f : Program → Program) :
    (s.updProgram id f).power = s.power := by rfl
@[simp] theorem State.updProgram_reports (s : State) (id : Nat) (f : Program → Program) :
    (s.updProgram id f).reports = s.reports := by rfl
@[simp] theorem State.updProgram_free (s : State) (id : Nat) (f : Program → Program) :
    (s.updProgram id f).free = s.free := by rfl
@[simp] theorem State.updProgram_out (s : State) (id : Nat) (f : Program → Program) :
    (s.updProgram id f).out = s.out := by rfl
@[simp] theorem State.updProgram_rd (s : State) (id : Nat) (f : Program → Program) (fld : Field) (ix fu : Nat) :
    (s.updProgram id f).rd fld ix fu = s.rd fld ix fu := by rfl
@[simp] theorem State.updProgram_rdN (s : State) (id : Nat) (f : Program → Program) (fld : Field) (ix fu : Nat) :
    (s.updProgram id f).rdN fld ix fu = s.rdN fld ix fu := by rfl
@[simp] theorem State.updProgram_rdB (s : State) (id : Nat) (f : Program → Program) (fld : Field) (ix fu : Nat) :
    (s.updProgram id f).rdB fld ix fu = s.rdB fld ix fu := by rfl
@[simp] theorem State.updProgram_cmd (s : State) (id : Nat) (f : Program → Program) (cid : Nat) :
    (s.updProgram id f).cmd? cid = s.cmd? cid := by rfl

/-! `State.emptyReads` changes `compute` alone. -/
@[simp] theorem State.emptyReads_pending (s : State) (stem tile : Nat) :
    (s.emptyReads stem tile).pending = s.pending := by rfl
@[simp] theorem State.emptyReads_variant (s : State) (stem tile : Nat) :
    (s.emptyReads stem tile).variant = s.variant := by rfl
@[simp] theorem State.emptyReads_revision (s : State) (stem tile : Nat) :
    (s.emptyReads stem tile).revision = s.revision := by rfl
@[simp] theorem State.emptyReads_regs (s : State) (stem tile : Nat) :
    (s.emptyReads stem tile).regs = s.regs := by rfl
@[simp] theorem State.emptyReads_hbm (s : State) (stem tile : Nat) :
    (s.emptyReads stem tile).hbm = s.hbm := by rfl
@[simp] theorem State.emptyReads_sap (s : State) (stem tile : Nat) :
    (s.emptyReads stem tile).sap = s.sap := by rfl
@[simp] theorem State.emptyReads_host (s : State) (stem tile : Nat) :
    (s.emptyReads stem tile).host = s.host := by rfl
@[simp] theorem State.emptyReads_acc (s : State) (stem tile : Nat) :
    (s.emptyReads stem tile).acc = s.acc := by rfl
@[simp] theorem State.emptyReads_mem (s : State) (stem tile : Nat) :
    (s.emptyReads stem tile).mem = s.mem := by rfl
@[simp] theorem State.emptyReads_queues (s : State) (stem tile : Nat) :
    (s.emptyReads stem tile).queues = s.queues := by rfl
@[simp] theorem State.emptyReads_pcie (s : State) (stem tile : Nat) :
    (s.emptyReads stem tile).pcie = s.pcie := by rfl
@[simp] theorem State.emptyReads_time (s : State) (stem tile : Nat) :
    (s.emptyReads stem tile).time = s.time := by rfl
@[simp] theorem State.emptyReads_ingest (s : State) (stem tile : Nat) :
    (s.emptyReads stem tile).ingest = s.ingest := by rfl
@[simp] theorem State.emptyReads_canopy (s : State) (stem tile : Nat) :
    (s.emptyReads stem tile).canopy = s.canopy := by rfl
@[simp] theorem State.emptyReads_sort (s : State) (stem tile : Nat) :
    (s.emptyReads stem tile).sort = s.sort := by rfl
@[simp] theorem State.emptyReads_gather (s : State) (stem tile : Nat) :
    (s.emptyReads stem tile).gather = s.gather := by rfl
@[simp] theorem State.emptyReads_fabric (s : State) (stem tile : Nat) :
    (s.emptyReads stem tile).fabric = s.fabric := by rfl
@[simp] theorem State.emptyReads_twin (s : State) (stem tile : Nat) :
    (s.emptyReads stem tile).twin = s.twin := by rfl
@[simp] theorem State.emptyReads_bark (s : State) (stem tile : Nat) :
    (s.emptyReads stem tile).bark = s.bark := by rfl
@[simp] theorem State.emptyReads_security (s : State) (stem tile : Nat) :
    (s.emptyReads stem tile).security = s.security := by rfl
@[simp] theorem State.emptyReads_observe (s : State) (stem tile : Nat) :
    (s.emptyReads stem tile).observe = s.observe := by rfl
@[simp] theorem State.emptyReads_power (s : State) (stem tile : Nat) :
    (s.emptyReads stem tile).power = s.power := by rfl
@[simp] theorem State.emptyReads_reports (s : State) (stem tile : Nat) :
    (s.emptyReads stem tile).reports = s.reports := by rfl
@[simp] theorem State.emptyReads_free (s : State) (stem tile : Nat) :
    (s.emptyReads stem tile).free = s.free := by rfl
@[simp] theorem State.emptyReads_out (s : State) (stem tile : Nat) :
    (s.emptyReads stem tile).out = s.out := by rfl
@[simp] theorem State.emptyReads_rd (s : State) (stem tile : Nat) (fld : Field) (ix fu : Nat) :
    (s.emptyReads stem tile).rd fld ix fu = s.rd fld ix fu := by rfl
@[simp] theorem State.emptyReads_rdN (s : State) (stem tile : Nat) (fld : Field) (ix fu : Nat) :
    (s.emptyReads stem tile).rdN fld ix fu = s.rdN fld ix fu := by rfl
@[simp] theorem State.emptyReads_rdB (s : State) (stem tile : Nat) (fld : Field) (ix fu : Nat) :
    (s.emptyReads stem tile).rdB fld ix fu = s.rdB fld ix fu := by rfl
@[simp] theorem State.emptyReads_cmd (s : State) (stem tile : Nat) (cid : Nat) :
    (s.emptyReads stem tile).cmd? cid = s.cmd? cid := by rfl

/-! `State.dropReads` changes `compute` alone. -/
@[simp] theorem State.dropReads_pending (s : State) (t : Thread) (a n : Nat) :
    (s.dropReads t a n).pending = s.pending := by rfl
@[simp] theorem State.dropReads_variant (s : State) (t : Thread) (a n : Nat) :
    (s.dropReads t a n).variant = s.variant := by rfl
@[simp] theorem State.dropReads_revision (s : State) (t : Thread) (a n : Nat) :
    (s.dropReads t a n).revision = s.revision := by rfl
@[simp] theorem State.dropReads_regs (s : State) (t : Thread) (a n : Nat) :
    (s.dropReads t a n).regs = s.regs := by rfl
@[simp] theorem State.dropReads_hbm (s : State) (t : Thread) (a n : Nat) :
    (s.dropReads t a n).hbm = s.hbm := by rfl
@[simp] theorem State.dropReads_sap (s : State) (t : Thread) (a n : Nat) :
    (s.dropReads t a n).sap = s.sap := by rfl
@[simp] theorem State.dropReads_host (s : State) (t : Thread) (a n : Nat) :
    (s.dropReads t a n).host = s.host := by rfl
@[simp] theorem State.dropReads_acc (s : State) (t : Thread) (a n : Nat) :
    (s.dropReads t a n).acc = s.acc := by rfl
@[simp] theorem State.dropReads_mem (s : State) (t : Thread) (a n : Nat) :
    (s.dropReads t a n).mem = s.mem := by rfl
@[simp] theorem State.dropReads_queues (s : State) (t : Thread) (a n : Nat) :
    (s.dropReads t a n).queues = s.queues := by rfl
@[simp] theorem State.dropReads_pcie (s : State) (t : Thread) (a n : Nat) :
    (s.dropReads t a n).pcie = s.pcie := by rfl
@[simp] theorem State.dropReads_time (s : State) (t : Thread) (a n : Nat) :
    (s.dropReads t a n).time = s.time := by rfl
@[simp] theorem State.dropReads_ingest (s : State) (t : Thread) (a n : Nat) :
    (s.dropReads t a n).ingest = s.ingest := by rfl
@[simp] theorem State.dropReads_canopy (s : State) (t : Thread) (a n : Nat) :
    (s.dropReads t a n).canopy = s.canopy := by rfl
@[simp] theorem State.dropReads_sort (s : State) (t : Thread) (a n : Nat) :
    (s.dropReads t a n).sort = s.sort := by rfl
@[simp] theorem State.dropReads_gather (s : State) (t : Thread) (a n : Nat) :
    (s.dropReads t a n).gather = s.gather := by rfl
@[simp] theorem State.dropReads_fabric (s : State) (t : Thread) (a n : Nat) :
    (s.dropReads t a n).fabric = s.fabric := by rfl
@[simp] theorem State.dropReads_twin (s : State) (t : Thread) (a n : Nat) :
    (s.dropReads t a n).twin = s.twin := by rfl
@[simp] theorem State.dropReads_bark (s : State) (t : Thread) (a n : Nat) :
    (s.dropReads t a n).bark = s.bark := by rfl
@[simp] theorem State.dropReads_security (s : State) (t : Thread) (a n : Nat) :
    (s.dropReads t a n).security = s.security := by rfl
@[simp] theorem State.dropReads_observe (s : State) (t : Thread) (a n : Nat) :
    (s.dropReads t a n).observe = s.observe := by rfl
@[simp] theorem State.dropReads_power (s : State) (t : Thread) (a n : Nat) :
    (s.dropReads t a n).power = s.power := by rfl
@[simp] theorem State.dropReads_reports (s : State) (t : Thread) (a n : Nat) :
    (s.dropReads t a n).reports = s.reports := by rfl
@[simp] theorem State.dropReads_free (s : State) (t : Thread) (a n : Nat) :
    (s.dropReads t a n).free = s.free := by rfl
@[simp] theorem State.dropReads_out (s : State) (t : Thread) (a n : Nat) :
    (s.dropReads t a n).out = s.out := by rfl
@[simp] theorem State.dropReads_rd (s : State) (t : Thread) (a n : Nat) (fld : Field) (ix fu : Nat) :
    (s.dropReads t a n).rd fld ix fu = s.rd fld ix fu := by rfl
@[simp] theorem State.dropReads_rdN (s : State) (t : Thread) (a n : Nat) (fld : Field) (ix fu : Nat) :
    (s.dropReads t a n).rdN fld ix fu = s.rdN fld ix fu := by rfl
@[simp] theorem State.dropReads_rdB (s : State) (t : Thread) (a n : Nat) (fld : Field) (ix fu : Nat) :
    (s.dropReads t a n).rdB fld ix fu = s.rdB fld ix fu := by rfl
@[simp] theorem State.dropReads_cmd (s : State) (t : Thread) (a n : Nat) (cid : Nat) :
    (s.dropReads t a n).cmd? cid = s.cmd? cid := by rfl

/-! `State.updThread` changes `compute` alone. -/
@[simp] theorem State.updThread_pending (s : State) (t : Thread) (f : Thread → Thread) :
    (s.updThread t f).pending = s.pending := by rfl
@[simp] theorem State.updThread_variant (s : State) (t : Thread) (f : Thread → Thread) :
    (s.updThread t f).variant = s.variant := by rfl
@[simp] theorem State.updThread_revision (s : State) (t : Thread) (f : Thread → Thread) :
    (s.updThread t f).revision = s.revision := by rfl
@[simp] theorem State.updThread_regs (s : State) (t : Thread) (f : Thread → Thread) :
    (s.updThread t f).regs = s.regs := by rfl
@[simp] theorem State.updThread_hbm (s : State) (t : Thread) (f : Thread → Thread) :
    (s.updThread t f).hbm = s.hbm := by rfl
@[simp] theorem State.updThread_sap (s : State) (t : Thread) (f : Thread → Thread) :
    (s.updThread t f).sap = s.sap := by rfl
@[simp] theorem State.updThread_host (s : State) (t : Thread) (f : Thread → Thread) :
    (s.updThread t f).host = s.host := by rfl
@[simp] theorem State.updThread_acc (s : State) (t : Thread) (f : Thread → Thread) :
    (s.updThread t f).acc = s.acc := by rfl
@[simp] theorem State.updThread_mem (s : State) (t : Thread) (f : Thread → Thread) :
    (s.updThread t f).mem = s.mem := by rfl
@[simp] theorem State.updThread_queues (s : State) (t : Thread) (f : Thread → Thread) :
    (s.updThread t f).queues = s.queues := by rfl
@[simp] theorem State.updThread_pcie (s : State) (t : Thread) (f : Thread → Thread) :
    (s.updThread t f).pcie = s.pcie := by rfl
@[simp] theorem State.updThread_time (s : State) (t : Thread) (f : Thread → Thread) :
    (s.updThread t f).time = s.time := by rfl
@[simp] theorem State.updThread_ingest (s : State) (t : Thread) (f : Thread → Thread) :
    (s.updThread t f).ingest = s.ingest := by rfl
@[simp] theorem State.updThread_canopy (s : State) (t : Thread) (f : Thread → Thread) :
    (s.updThread t f).canopy = s.canopy := by rfl
@[simp] theorem State.updThread_sort (s : State) (t : Thread) (f : Thread → Thread) :
    (s.updThread t f).sort = s.sort := by rfl
@[simp] theorem State.updThread_gather (s : State) (t : Thread) (f : Thread → Thread) :
    (s.updThread t f).gather = s.gather := by rfl
@[simp] theorem State.updThread_fabric (s : State) (t : Thread) (f : Thread → Thread) :
    (s.updThread t f).fabric = s.fabric := by rfl
@[simp] theorem State.updThread_twin (s : State) (t : Thread) (f : Thread → Thread) :
    (s.updThread t f).twin = s.twin := by rfl
@[simp] theorem State.updThread_bark (s : State) (t : Thread) (f : Thread → Thread) :
    (s.updThread t f).bark = s.bark := by rfl
@[simp] theorem State.updThread_security (s : State) (t : Thread) (f : Thread → Thread) :
    (s.updThread t f).security = s.security := by rfl
@[simp] theorem State.updThread_observe (s : State) (t : Thread) (f : Thread → Thread) :
    (s.updThread t f).observe = s.observe := by rfl
@[simp] theorem State.updThread_power (s : State) (t : Thread) (f : Thread → Thread) :
    (s.updThread t f).power = s.power := by rfl
@[simp] theorem State.updThread_reports (s : State) (t : Thread) (f : Thread → Thread) :
    (s.updThread t f).reports = s.reports := by rfl
@[simp] theorem State.updThread_free (s : State) (t : Thread) (f : Thread → Thread) :
    (s.updThread t f).free = s.free := by rfl
@[simp] theorem State.updThread_out (s : State) (t : Thread) (f : Thread → Thread) :
    (s.updThread t f).out = s.out := by rfl
@[simp] theorem State.updThread_rd (s : State) (t : Thread) (f : Thread → Thread) (fld : Field) (ix fu : Nat) :
    (s.updThread t f).rd fld ix fu = s.rd fld ix fu := by rfl
@[simp] theorem State.updThread_rdN (s : State) (t : Thread) (f : Thread → Thread) (fld : Field) (ix fu : Nat) :
    (s.updThread t f).rdN fld ix fu = s.rdN fld ix fu := by rfl
@[simp] theorem State.updThread_rdB (s : State) (t : Thread) (f : Thread → Thread) (fld : Field) (ix fu : Nat) :
    (s.updThread t f).rdB fld ix fu = s.rdB fld ix fu := by rfl
@[simp] theorem State.updThread_cmd (s : State) (t : Thread) (f : Thread → Thread) (cid : Nat) :
    (s.updThread t f).cmd? cid = s.cmd? cid := by rfl

/-! `State.setTwig` changes `compute` alone. -/
@[simp] theorem State.setTwig_pending (s : State) (x : TwigTile) :
    (s.setTwig x).pending = s.pending := by rfl
@[simp] theorem State.setTwig_variant (s : State) (x : TwigTile) :
    (s.setTwig x).variant = s.variant := by rfl
@[simp] theorem State.setTwig_revision (s : State) (x : TwigTile) :
    (s.setTwig x).revision = s.revision := by rfl
@[simp] theorem State.setTwig_regs (s : State) (x : TwigTile) :
    (s.setTwig x).regs = s.regs := by rfl
@[simp] theorem State.setTwig_hbm (s : State) (x : TwigTile) :
    (s.setTwig x).hbm = s.hbm := by rfl
@[simp] theorem State.setTwig_sap (s : State) (x : TwigTile) :
    (s.setTwig x).sap = s.sap := by rfl
@[simp] theorem State.setTwig_host (s : State) (x : TwigTile) :
    (s.setTwig x).host = s.host := by rfl
@[simp] theorem State.setTwig_acc (s : State) (x : TwigTile) :
    (s.setTwig x).acc = s.acc := by rfl
@[simp] theorem State.setTwig_mem (s : State) (x : TwigTile) :
    (s.setTwig x).mem = s.mem := by rfl
@[simp] theorem State.setTwig_queues (s : State) (x : TwigTile) :
    (s.setTwig x).queues = s.queues := by rfl
@[simp] theorem State.setTwig_pcie (s : State) (x : TwigTile) :
    (s.setTwig x).pcie = s.pcie := by rfl
@[simp] theorem State.setTwig_time (s : State) (x : TwigTile) :
    (s.setTwig x).time = s.time := by rfl
@[simp] theorem State.setTwig_ingest (s : State) (x : TwigTile) :
    (s.setTwig x).ingest = s.ingest := by rfl
@[simp] theorem State.setTwig_canopy (s : State) (x : TwigTile) :
    (s.setTwig x).canopy = s.canopy := by rfl
@[simp] theorem State.setTwig_sort (s : State) (x : TwigTile) :
    (s.setTwig x).sort = s.sort := by rfl
@[simp] theorem State.setTwig_gather (s : State) (x : TwigTile) :
    (s.setTwig x).gather = s.gather := by rfl
@[simp] theorem State.setTwig_fabric (s : State) (x : TwigTile) :
    (s.setTwig x).fabric = s.fabric := by rfl
@[simp] theorem State.setTwig_twin (s : State) (x : TwigTile) :
    (s.setTwig x).twin = s.twin := by rfl
@[simp] theorem State.setTwig_bark (s : State) (x : TwigTile) :
    (s.setTwig x).bark = s.bark := by rfl
@[simp] theorem State.setTwig_security (s : State) (x : TwigTile) :
    (s.setTwig x).security = s.security := by rfl
@[simp] theorem State.setTwig_observe (s : State) (x : TwigTile) :
    (s.setTwig x).observe = s.observe := by rfl
@[simp] theorem State.setTwig_power (s : State) (x : TwigTile) :
    (s.setTwig x).power = s.power := by rfl
@[simp] theorem State.setTwig_reports (s : State) (x : TwigTile) :
    (s.setTwig x).reports = s.reports := by rfl
@[simp] theorem State.setTwig_free (s : State) (x : TwigTile) :
    (s.setTwig x).free = s.free := by rfl
@[simp] theorem State.setTwig_out (s : State) (x : TwigTile) :
    (s.setTwig x).out = s.out := by rfl
@[simp] theorem State.setTwig_rd (s : State) (x : TwigTile) (fld : Field) (ix fu : Nat) :
    (s.setTwig x).rd fld ix fu = s.rd fld ix fu := by rfl
@[simp] theorem State.setTwig_rdN (s : State) (x : TwigTile) (fld : Field) (ix fu : Nat) :
    (s.setTwig x).rdN fld ix fu = s.rdN fld ix fu := by rfl
@[simp] theorem State.setTwig_rdB (s : State) (x : TwigTile) (fld : Field) (ix fu : Nat) :
    (s.setTwig x).rdB fld ix fu = s.rdB fld ix fu := by rfl
@[simp] theorem State.setTwig_cmd (s : State) (x : TwigTile) (cid : Nat) :
    (s.setTwig x).cmd? cid = s.cmd? cid := by rfl

/-! `State.updTable` changes `compute` alone. -/
@[simp] theorem State.updTable_pending (s : State) (t : Nat) (f : Table → Table) :
    (s.updTable t f).pending = s.pending := by rfl
@[simp] theorem State.updTable_variant (s : State) (t : Nat) (f : Table → Table) :
    (s.updTable t f).variant = s.variant := by rfl
@[simp] theorem State.updTable_revision (s : State) (t : Nat) (f : Table → Table) :
    (s.updTable t f).revision = s.revision := by rfl
@[simp] theorem State.updTable_regs (s : State) (t : Nat) (f : Table → Table) :
    (s.updTable t f).regs = s.regs := by rfl
@[simp] theorem State.updTable_hbm (s : State) (t : Nat) (f : Table → Table) :
    (s.updTable t f).hbm = s.hbm := by rfl
@[simp] theorem State.updTable_sap (s : State) (t : Nat) (f : Table → Table) :
    (s.updTable t f).sap = s.sap := by rfl
@[simp] theorem State.updTable_host (s : State) (t : Nat) (f : Table → Table) :
    (s.updTable t f).host = s.host := by rfl
@[simp] theorem State.updTable_acc (s : State) (t : Nat) (f : Table → Table) :
    (s.updTable t f).acc = s.acc := by rfl
@[simp] theorem State.updTable_mem (s : State) (t : Nat) (f : Table → Table) :
    (s.updTable t f).mem = s.mem := by rfl
@[simp] theorem State.updTable_queues (s : State) (t : Nat) (f : Table → Table) :
    (s.updTable t f).queues = s.queues := by rfl
@[simp] theorem State.updTable_pcie (s : State) (t : Nat) (f : Table → Table) :
    (s.updTable t f).pcie = s.pcie := by rfl
@[simp] theorem State.updTable_time (s : State) (t : Nat) (f : Table → Table) :
    (s.updTable t f).time = s.time := by rfl
@[simp] theorem State.updTable_ingest (s : State) (t : Nat) (f : Table → Table) :
    (s.updTable t f).ingest = s.ingest := by rfl
@[simp] theorem State.updTable_canopy (s : State) (t : Nat) (f : Table → Table) :
    (s.updTable t f).canopy = s.canopy := by rfl
@[simp] theorem State.updTable_sort (s : State) (t : Nat) (f : Table → Table) :
    (s.updTable t f).sort = s.sort := by rfl
@[simp] theorem State.updTable_gather (s : State) (t : Nat) (f : Table → Table) :
    (s.updTable t f).gather = s.gather := by rfl
@[simp] theorem State.updTable_fabric (s : State) (t : Nat) (f : Table → Table) :
    (s.updTable t f).fabric = s.fabric := by rfl
@[simp] theorem State.updTable_twin (s : State) (t : Nat) (f : Table → Table) :
    (s.updTable t f).twin = s.twin := by rfl
@[simp] theorem State.updTable_bark (s : State) (t : Nat) (f : Table → Table) :
    (s.updTable t f).bark = s.bark := by rfl
@[simp] theorem State.updTable_security (s : State) (t : Nat) (f : Table → Table) :
    (s.updTable t f).security = s.security := by rfl
@[simp] theorem State.updTable_observe (s : State) (t : Nat) (f : Table → Table) :
    (s.updTable t f).observe = s.observe := by rfl
@[simp] theorem State.updTable_power (s : State) (t : Nat) (f : Table → Table) :
    (s.updTable t f).power = s.power := by rfl
@[simp] theorem State.updTable_reports (s : State) (t : Nat) (f : Table → Table) :
    (s.updTable t f).reports = s.reports := by rfl
@[simp] theorem State.updTable_free (s : State) (t : Nat) (f : Table → Table) :
    (s.updTable t f).free = s.free := by rfl
@[simp] theorem State.updTable_out (s : State) (t : Nat) (f : Table → Table) :
    (s.updTable t f).out = s.out := by rfl
@[simp] theorem State.updTable_rd (s : State) (t : Nat) (f : Table → Table) (fld : Field) (ix fu : Nat) :
    (s.updTable t f).rd fld ix fu = s.rd fld ix fu := by rfl
@[simp] theorem State.updTable_rdN (s : State) (t : Nat) (f : Table → Table) (fld : Field) (ix fu : Nat) :
    (s.updTable t f).rdN fld ix fu = s.rdN fld ix fu := by rfl
@[simp] theorem State.updTable_rdB (s : State) (t : Nat) (f : Table → Table) (fld : Field) (ix fu : Nat) :
    (s.updTable t f).rdB fld ix fu = s.rdB fld ix fu := by rfl
@[simp] theorem State.updTable_cmd (s : State) (t : Nat) (f : Table → Table) (cid : Nat) :
    (s.updTable t f).cmd? cid = s.cmd? cid := by rfl

/-! `State.failOutTable` changes `compute` alone. -/
@[simp] theorem State.failOutTable_pending (s : State) (id : Nat) :
    (s.failOutTable id).pending = s.pending := by rfl
@[simp] theorem State.failOutTable_variant (s : State) (id : Nat) :
    (s.failOutTable id).variant = s.variant := by rfl
@[simp] theorem State.failOutTable_revision (s : State) (id : Nat) :
    (s.failOutTable id).revision = s.revision := by rfl
@[simp] theorem State.failOutTable_regs (s : State) (id : Nat) :
    (s.failOutTable id).regs = s.regs := by rfl
@[simp] theorem State.failOutTable_hbm (s : State) (id : Nat) :
    (s.failOutTable id).hbm = s.hbm := by rfl
@[simp] theorem State.failOutTable_sap (s : State) (id : Nat) :
    (s.failOutTable id).sap = s.sap := by rfl
@[simp] theorem State.failOutTable_host (s : State) (id : Nat) :
    (s.failOutTable id).host = s.host := by rfl
@[simp] theorem State.failOutTable_acc (s : State) (id : Nat) :
    (s.failOutTable id).acc = s.acc := by rfl
@[simp] theorem State.failOutTable_mem (s : State) (id : Nat) :
    (s.failOutTable id).mem = s.mem := by rfl
@[simp] theorem State.failOutTable_queues (s : State) (id : Nat) :
    (s.failOutTable id).queues = s.queues := by rfl
@[simp] theorem State.failOutTable_pcie (s : State) (id : Nat) :
    (s.failOutTable id).pcie = s.pcie := by rfl
@[simp] theorem State.failOutTable_time (s : State) (id : Nat) :
    (s.failOutTable id).time = s.time := by rfl
@[simp] theorem State.failOutTable_ingest (s : State) (id : Nat) :
    (s.failOutTable id).ingest = s.ingest := by rfl
@[simp] theorem State.failOutTable_canopy (s : State) (id : Nat) :
    (s.failOutTable id).canopy = s.canopy := by rfl
@[simp] theorem State.failOutTable_sort (s : State) (id : Nat) :
    (s.failOutTable id).sort = s.sort := by rfl
@[simp] theorem State.failOutTable_gather (s : State) (id : Nat) :
    (s.failOutTable id).gather = s.gather := by rfl
@[simp] theorem State.failOutTable_fabric (s : State) (id : Nat) :
    (s.failOutTable id).fabric = s.fabric := by rfl
@[simp] theorem State.failOutTable_twin (s : State) (id : Nat) :
    (s.failOutTable id).twin = s.twin := by rfl
@[simp] theorem State.failOutTable_bark (s : State) (id : Nat) :
    (s.failOutTable id).bark = s.bark := by rfl
@[simp] theorem State.failOutTable_security (s : State) (id : Nat) :
    (s.failOutTable id).security = s.security := by rfl
@[simp] theorem State.failOutTable_observe (s : State) (id : Nat) :
    (s.failOutTable id).observe = s.observe := by rfl
@[simp] theorem State.failOutTable_power (s : State) (id : Nat) :
    (s.failOutTable id).power = s.power := by rfl
@[simp] theorem State.failOutTable_reports (s : State) (id : Nat) :
    (s.failOutTable id).reports = s.reports := by rfl
@[simp] theorem State.failOutTable_free (s : State) (id : Nat) :
    (s.failOutTable id).free = s.free := by rfl
@[simp] theorem State.failOutTable_out (s : State) (id : Nat) :
    (s.failOutTable id).out = s.out := by rfl
@[simp] theorem State.failOutTable_rd (s : State) (id : Nat) (fld : Field) (ix fu : Nat) :
    (s.failOutTable id).rd fld ix fu = s.rd fld ix fu := by rfl
@[simp] theorem State.failOutTable_rdN (s : State) (id : Nat) (fld : Field) (ix fu : Nat) :
    (s.failOutTable id).rdN fld ix fu = s.rdN fld ix fu := by rfl
@[simp] theorem State.failOutTable_rdB (s : State) (id : Nat) (fld : Field) (ix fu : Nat) :
    (s.failOutTable id).rdB fld ix fu = s.rdB fld ix fu := by rfl
@[simp] theorem State.failOutTable_cmd (s : State) (id : Nat) (cid : Nat) :
    (s.failOutTable id).cmd? cid = s.cmd? cid := by rfl

/-! `State.updPrior` changes `gather` alone. -/
@[simp] theorem State.updPrior_pending (s : State) (t : Nat) (f : Prior → Prior) :
    (s.updPrior t f).pending = s.pending := by rfl
@[simp] theorem State.updPrior_variant (s : State) (t : Nat) (f : Prior → Prior) :
    (s.updPrior t f).variant = s.variant := by rfl
@[simp] theorem State.updPrior_revision (s : State) (t : Nat) (f : Prior → Prior) :
    (s.updPrior t f).revision = s.revision := by rfl
@[simp] theorem State.updPrior_regs (s : State) (t : Nat) (f : Prior → Prior) :
    (s.updPrior t f).regs = s.regs := by rfl
@[simp] theorem State.updPrior_hbm (s : State) (t : Nat) (f : Prior → Prior) :
    (s.updPrior t f).hbm = s.hbm := by rfl
@[simp] theorem State.updPrior_sap (s : State) (t : Nat) (f : Prior → Prior) :
    (s.updPrior t f).sap = s.sap := by rfl
@[simp] theorem State.updPrior_host (s : State) (t : Nat) (f : Prior → Prior) :
    (s.updPrior t f).host = s.host := by rfl
@[simp] theorem State.updPrior_acc (s : State) (t : Nat) (f : Prior → Prior) :
    (s.updPrior t f).acc = s.acc := by rfl
@[simp] theorem State.updPrior_mem (s : State) (t : Nat) (f : Prior → Prior) :
    (s.updPrior t f).mem = s.mem := by rfl
@[simp] theorem State.updPrior_queues (s : State) (t : Nat) (f : Prior → Prior) :
    (s.updPrior t f).queues = s.queues := by rfl
@[simp] theorem State.updPrior_pcie (s : State) (t : Nat) (f : Prior → Prior) :
    (s.updPrior t f).pcie = s.pcie := by rfl
@[simp] theorem State.updPrior_time (s : State) (t : Nat) (f : Prior → Prior) :
    (s.updPrior t f).time = s.time := by rfl
@[simp] theorem State.updPrior_ingest (s : State) (t : Nat) (f : Prior → Prior) :
    (s.updPrior t f).ingest = s.ingest := by rfl
@[simp] theorem State.updPrior_compute (s : State) (t : Nat) (f : Prior → Prior) :
    (s.updPrior t f).compute = s.compute := by rfl
@[simp] theorem State.updPrior_canopy (s : State) (t : Nat) (f : Prior → Prior) :
    (s.updPrior t f).canopy = s.canopy := by rfl
@[simp] theorem State.updPrior_sort (s : State) (t : Nat) (f : Prior → Prior) :
    (s.updPrior t f).sort = s.sort := by rfl
@[simp] theorem State.updPrior_fabric (s : State) (t : Nat) (f : Prior → Prior) :
    (s.updPrior t f).fabric = s.fabric := by rfl
@[simp] theorem State.updPrior_twin (s : State) (t : Nat) (f : Prior → Prior) :
    (s.updPrior t f).twin = s.twin := by rfl
@[simp] theorem State.updPrior_bark (s : State) (t : Nat) (f : Prior → Prior) :
    (s.updPrior t f).bark = s.bark := by rfl
@[simp] theorem State.updPrior_security (s : State) (t : Nat) (f : Prior → Prior) :
    (s.updPrior t f).security = s.security := by rfl
@[simp] theorem State.updPrior_observe (s : State) (t : Nat) (f : Prior → Prior) :
    (s.updPrior t f).observe = s.observe := by rfl
@[simp] theorem State.updPrior_power (s : State) (t : Nat) (f : Prior → Prior) :
    (s.updPrior t f).power = s.power := by rfl
@[simp] theorem State.updPrior_reports (s : State) (t : Nat) (f : Prior → Prior) :
    (s.updPrior t f).reports = s.reports := by rfl
@[simp] theorem State.updPrior_free (s : State) (t : Nat) (f : Prior → Prior) :
    (s.updPrior t f).free = s.free := by rfl
@[simp] theorem State.updPrior_out (s : State) (t : Nat) (f : Prior → Prior) :
    (s.updPrior t f).out = s.out := by rfl
@[simp] theorem State.updPrior_rd (s : State) (t : Nat) (f : Prior → Prior) (fld : Field) (ix fu : Nat) :
    (s.updPrior t f).rd fld ix fu = s.rd fld ix fu := by rfl
@[simp] theorem State.updPrior_rdN (s : State) (t : Nat) (f : Prior → Prior) (fld : Field) (ix fu : Nat) :
    (s.updPrior t f).rdN fld ix fu = s.rdN fld ix fu := by rfl
@[simp] theorem State.updPrior_rdB (s : State) (t : Nat) (f : Prior → Prior) (fld : Field) (ix fu : Nat) :
    (s.updPrior t f).rdB fld ix fu = s.rdB fld ix fu := by rfl
@[simp] theorem State.updPrior_cmd (s : State) (t : Nat) (f : Prior → Prior) (cid : Nat) :
    (s.updPrior t f).cmd? cid = s.cmd? cid := by rfl

/-! `State.dropBurlOf` changes `gather` alone. -/
@[simp] theorem State.dropBurlOf_pending (s : State) (t gen : Nat) :
    (s.dropBurlOf t gen).pending = s.pending := by rfl
@[simp] theorem State.dropBurlOf_variant (s : State) (t gen : Nat) :
    (s.dropBurlOf t gen).variant = s.variant := by rfl
@[simp] theorem State.dropBurlOf_revision (s : State) (t gen : Nat) :
    (s.dropBurlOf t gen).revision = s.revision := by rfl
@[simp] theorem State.dropBurlOf_regs (s : State) (t gen : Nat) :
    (s.dropBurlOf t gen).regs = s.regs := by rfl
@[simp] theorem State.dropBurlOf_hbm (s : State) (t gen : Nat) :
    (s.dropBurlOf t gen).hbm = s.hbm := by rfl
@[simp] theorem State.dropBurlOf_sap (s : State) (t gen : Nat) :
    (s.dropBurlOf t gen).sap = s.sap := by rfl
@[simp] theorem State.dropBurlOf_host (s : State) (t gen : Nat) :
    (s.dropBurlOf t gen).host = s.host := by rfl
@[simp] theorem State.dropBurlOf_acc (s : State) (t gen : Nat) :
    (s.dropBurlOf t gen).acc = s.acc := by rfl
@[simp] theorem State.dropBurlOf_mem (s : State) (t gen : Nat) :
    (s.dropBurlOf t gen).mem = s.mem := by rfl
@[simp] theorem State.dropBurlOf_queues (s : State) (t gen : Nat) :
    (s.dropBurlOf t gen).queues = s.queues := by rfl
@[simp] theorem State.dropBurlOf_pcie (s : State) (t gen : Nat) :
    (s.dropBurlOf t gen).pcie = s.pcie := by rfl
@[simp] theorem State.dropBurlOf_time (s : State) (t gen : Nat) :
    (s.dropBurlOf t gen).time = s.time := by rfl
@[simp] theorem State.dropBurlOf_ingest (s : State) (t gen : Nat) :
    (s.dropBurlOf t gen).ingest = s.ingest := by rfl
@[simp] theorem State.dropBurlOf_compute (s : State) (t gen : Nat) :
    (s.dropBurlOf t gen).compute = s.compute := by rfl
@[simp] theorem State.dropBurlOf_canopy (s : State) (t gen : Nat) :
    (s.dropBurlOf t gen).canopy = s.canopy := by rfl
@[simp] theorem State.dropBurlOf_sort (s : State) (t gen : Nat) :
    (s.dropBurlOf t gen).sort = s.sort := by rfl
@[simp] theorem State.dropBurlOf_fabric (s : State) (t gen : Nat) :
    (s.dropBurlOf t gen).fabric = s.fabric := by rfl
@[simp] theorem State.dropBurlOf_twin (s : State) (t gen : Nat) :
    (s.dropBurlOf t gen).twin = s.twin := by rfl
@[simp] theorem State.dropBurlOf_bark (s : State) (t gen : Nat) :
    (s.dropBurlOf t gen).bark = s.bark := by rfl
@[simp] theorem State.dropBurlOf_security (s : State) (t gen : Nat) :
    (s.dropBurlOf t gen).security = s.security := by rfl
@[simp] theorem State.dropBurlOf_observe (s : State) (t gen : Nat) :
    (s.dropBurlOf t gen).observe = s.observe := by rfl
@[simp] theorem State.dropBurlOf_power (s : State) (t gen : Nat) :
    (s.dropBurlOf t gen).power = s.power := by rfl
@[simp] theorem State.dropBurlOf_reports (s : State) (t gen : Nat) :
    (s.dropBurlOf t gen).reports = s.reports := by rfl
@[simp] theorem State.dropBurlOf_free (s : State) (t gen : Nat) :
    (s.dropBurlOf t gen).free = s.free := by rfl
@[simp] theorem State.dropBurlOf_out (s : State) (t gen : Nat) :
    (s.dropBurlOf t gen).out = s.out := by rfl
@[simp] theorem State.dropBurlOf_rd (s : State) (t gen : Nat) (fld : Field) (ix fu : Nat) :
    (s.dropBurlOf t gen).rd fld ix fu = s.rd fld ix fu := by rfl
@[simp] theorem State.dropBurlOf_rdN (s : State) (t gen : Nat) (fld : Field) (ix fu : Nat) :
    (s.dropBurlOf t gen).rdN fld ix fu = s.rdN fld ix fu := by rfl
@[simp] theorem State.dropBurlOf_rdB (s : State) (t gen : Nat) (fld : Field) (ix fu : Nat) :
    (s.dropBurlOf t gen).rdB fld ix fu = s.rdB fld ix fu := by rfl
@[simp] theorem State.dropBurlOf_cmd (s : State) (t gen : Nat) (cid : Nat) :
    (s.dropBurlOf t gen).cmd? cid = s.cmd? cid := by rfl

/-! `State.wrN` changes `regs` alone. -/
@[simp] theorem State.wrN_pending (s : State) (f : Field) (v : Nat) (idx fn : Nat) :
    (s.wrN f v idx fn).pending = s.pending := by rfl
@[simp] theorem State.wrN_variant (s : State) (f : Field) (v : Nat) (idx fn : Nat) :
    (s.wrN f v idx fn).variant = s.variant := by rfl
@[simp] theorem State.wrN_revision (s : State) (f : Field) (v : Nat) (idx fn : Nat) :
    (s.wrN f v idx fn).revision = s.revision := by rfl
@[simp] theorem State.wrN_hbm (s : State) (f : Field) (v : Nat) (idx fn : Nat) :
    (s.wrN f v idx fn).hbm = s.hbm := by rfl
@[simp] theorem State.wrN_sap (s : State) (f : Field) (v : Nat) (idx fn : Nat) :
    (s.wrN f v idx fn).sap = s.sap := by rfl
@[simp] theorem State.wrN_host (s : State) (f : Field) (v : Nat) (idx fn : Nat) :
    (s.wrN f v idx fn).host = s.host := by rfl
@[simp] theorem State.wrN_acc (s : State) (f : Field) (v : Nat) (idx fn : Nat) :
    (s.wrN f v idx fn).acc = s.acc := by rfl
@[simp] theorem State.wrN_mem (s : State) (f : Field) (v : Nat) (idx fn : Nat) :
    (s.wrN f v idx fn).mem = s.mem := by rfl
@[simp] theorem State.wrN_queues (s : State) (f : Field) (v : Nat) (idx fn : Nat) :
    (s.wrN f v idx fn).queues = s.queues := by rfl
@[simp] theorem State.wrN_pcie (s : State) (f : Field) (v : Nat) (idx fn : Nat) :
    (s.wrN f v idx fn).pcie = s.pcie := by rfl
@[simp] theorem State.wrN_time (s : State) (f : Field) (v : Nat) (idx fn : Nat) :
    (s.wrN f v idx fn).time = s.time := by rfl
@[simp] theorem State.wrN_ingest (s : State) (f : Field) (v : Nat) (idx fn : Nat) :
    (s.wrN f v idx fn).ingest = s.ingest := by rfl
@[simp] theorem State.wrN_compute (s : State) (f : Field) (v : Nat) (idx fn : Nat) :
    (s.wrN f v idx fn).compute = s.compute := by rfl
@[simp] theorem State.wrN_canopy (s : State) (f : Field) (v : Nat) (idx fn : Nat) :
    (s.wrN f v idx fn).canopy = s.canopy := by rfl
@[simp] theorem State.wrN_sort (s : State) (f : Field) (v : Nat) (idx fn : Nat) :
    (s.wrN f v idx fn).sort = s.sort := by rfl
@[simp] theorem State.wrN_gather (s : State) (f : Field) (v : Nat) (idx fn : Nat) :
    (s.wrN f v idx fn).gather = s.gather := by rfl
@[simp] theorem State.wrN_fabric (s : State) (f : Field) (v : Nat) (idx fn : Nat) :
    (s.wrN f v idx fn).fabric = s.fabric := by rfl
@[simp] theorem State.wrN_twin (s : State) (f : Field) (v : Nat) (idx fn : Nat) :
    (s.wrN f v idx fn).twin = s.twin := by rfl
@[simp] theorem State.wrN_bark (s : State) (f : Field) (v : Nat) (idx fn : Nat) :
    (s.wrN f v idx fn).bark = s.bark := by rfl
@[simp] theorem State.wrN_security (s : State) (f : Field) (v : Nat) (idx fn : Nat) :
    (s.wrN f v idx fn).security = s.security := by rfl
@[simp] theorem State.wrN_observe (s : State) (f : Field) (v : Nat) (idx fn : Nat) :
    (s.wrN f v idx fn).observe = s.observe := by rfl
@[simp] theorem State.wrN_power (s : State) (f : Field) (v : Nat) (idx fn : Nat) :
    (s.wrN f v idx fn).power = s.power := by rfl
@[simp] theorem State.wrN_reports (s : State) (f : Field) (v : Nat) (idx fn : Nat) :
    (s.wrN f v idx fn).reports = s.reports := by rfl
@[simp] theorem State.wrN_free (s : State) (f : Field) (v : Nat) (idx fn : Nat) :
    (s.wrN f v idx fn).free = s.free := by rfl
@[simp] theorem State.wrN_out (s : State) (f : Field) (v : Nat) (idx fn : Nat) :
    (s.wrN f v idx fn).out = s.out := by rfl
@[simp] theorem State.wrN_cmd (s : State) (f : Field) (v : Nat) (idx fn : Nat) (cid : Nat) :
    (s.wrN f v idx fn).cmd? cid = s.cmd? cid := by rfl

/-! `State.wrB` changes `regs` alone. -/
@[simp] theorem State.wrB_pending (s : State) (f : Field) (v : Bool) (idx fn : Nat) :
    (s.wrB f v idx fn).pending = s.pending := by rfl
@[simp] theorem State.wrB_variant (s : State) (f : Field) (v : Bool) (idx fn : Nat) :
    (s.wrB f v idx fn).variant = s.variant := by rfl
@[simp] theorem State.wrB_revision (s : State) (f : Field) (v : Bool) (idx fn : Nat) :
    (s.wrB f v idx fn).revision = s.revision := by rfl
@[simp] theorem State.wrB_hbm (s : State) (f : Field) (v : Bool) (idx fn : Nat) :
    (s.wrB f v idx fn).hbm = s.hbm := by rfl
@[simp] theorem State.wrB_sap (s : State) (f : Field) (v : Bool) (idx fn : Nat) :
    (s.wrB f v idx fn).sap = s.sap := by rfl
@[simp] theorem State.wrB_host (s : State) (f : Field) (v : Bool) (idx fn : Nat) :
    (s.wrB f v idx fn).host = s.host := by rfl
@[simp] theorem State.wrB_acc (s : State) (f : Field) (v : Bool) (idx fn : Nat) :
    (s.wrB f v idx fn).acc = s.acc := by rfl
@[simp] theorem State.wrB_mem (s : State) (f : Field) (v : Bool) (idx fn : Nat) :
    (s.wrB f v idx fn).mem = s.mem := by rfl
@[simp] theorem State.wrB_queues (s : State) (f : Field) (v : Bool) (idx fn : Nat) :
    (s.wrB f v idx fn).queues = s.queues := by rfl
@[simp] theorem State.wrB_pcie (s : State) (f : Field) (v : Bool) (idx fn : Nat) :
    (s.wrB f v idx fn).pcie = s.pcie := by rfl
@[simp] theorem State.wrB_time (s : State) (f : Field) (v : Bool) (idx fn : Nat) :
    (s.wrB f v idx fn).time = s.time := by rfl
@[simp] theorem State.wrB_ingest (s : State) (f : Field) (v : Bool) (idx fn : Nat) :
    (s.wrB f v idx fn).ingest = s.ingest := by rfl
@[simp] theorem State.wrB_compute (s : State) (f : Field) (v : Bool) (idx fn : Nat) :
    (s.wrB f v idx fn).compute = s.compute := by rfl
@[simp] theorem State.wrB_canopy (s : State) (f : Field) (v : Bool) (idx fn : Nat) :
    (s.wrB f v idx fn).canopy = s.canopy := by rfl
@[simp] theorem State.wrB_sort (s : State) (f : Field) (v : Bool) (idx fn : Nat) :
    (s.wrB f v idx fn).sort = s.sort := by rfl
@[simp] theorem State.wrB_gather (s : State) (f : Field) (v : Bool) (idx fn : Nat) :
    (s.wrB f v idx fn).gather = s.gather := by rfl
@[simp] theorem State.wrB_fabric (s : State) (f : Field) (v : Bool) (idx fn : Nat) :
    (s.wrB f v idx fn).fabric = s.fabric := by rfl
@[simp] theorem State.wrB_twin (s : State) (f : Field) (v : Bool) (idx fn : Nat) :
    (s.wrB f v idx fn).twin = s.twin := by rfl
@[simp] theorem State.wrB_bark (s : State) (f : Field) (v : Bool) (idx fn : Nat) :
    (s.wrB f v idx fn).bark = s.bark := by rfl
@[simp] theorem State.wrB_security (s : State) (f : Field) (v : Bool) (idx fn : Nat) :
    (s.wrB f v idx fn).security = s.security := by rfl
@[simp] theorem State.wrB_observe (s : State) (f : Field) (v : Bool) (idx fn : Nat) :
    (s.wrB f v idx fn).observe = s.observe := by rfl
@[simp] theorem State.wrB_power (s : State) (f : Field) (v : Bool) (idx fn : Nat) :
    (s.wrB f v idx fn).power = s.power := by rfl
@[simp] theorem State.wrB_reports (s : State) (f : Field) (v : Bool) (idx fn : Nat) :
    (s.wrB f v idx fn).reports = s.reports := by rfl
@[simp] theorem State.wrB_free (s : State) (f : Field) (v : Bool) (idx fn : Nat) :
    (s.wrB f v idx fn).free = s.free := by rfl
@[simp] theorem State.wrB_out (s : State) (f : Field) (v : Bool) (idx fn : Nat) :
    (s.wrB f v idx fn).out = s.out := by rfl
@[simp] theorem State.wrB_cmd (s : State) (f : Field) (v : Bool) (idx fn : Nat) (cid : Nat) :
    (s.wrB f v idx fn).cmd? cid = s.cmd? cid := by rfl

/-! `State.count` changes `regs` alone. -/
@[simp] theorem State.count_pending (s : State) (f : Field) (n : Nat) (idx fn : Nat) :
    (s.count f n idx fn).pending = s.pending := by rfl
@[simp] theorem State.count_variant (s : State) (f : Field) (n : Nat) (idx fn : Nat) :
    (s.count f n idx fn).variant = s.variant := by rfl
@[simp] theorem State.count_revision (s : State) (f : Field) (n : Nat) (idx fn : Nat) :
    (s.count f n idx fn).revision = s.revision := by rfl
@[simp] theorem State.count_hbm (s : State) (f : Field) (n : Nat) (idx fn : Nat) :
    (s.count f n idx fn).hbm = s.hbm := by rfl
@[simp] theorem State.count_sap (s : State) (f : Field) (n : Nat) (idx fn : Nat) :
    (s.count f n idx fn).sap = s.sap := by rfl
@[simp] theorem State.count_host (s : State) (f : Field) (n : Nat) (idx fn : Nat) :
    (s.count f n idx fn).host = s.host := by rfl
@[simp] theorem State.count_acc (s : State) (f : Field) (n : Nat) (idx fn : Nat) :
    (s.count f n idx fn).acc = s.acc := by rfl
@[simp] theorem State.count_mem (s : State) (f : Field) (n : Nat) (idx fn : Nat) :
    (s.count f n idx fn).mem = s.mem := by rfl
@[simp] theorem State.count_queues (s : State) (f : Field) (n : Nat) (idx fn : Nat) :
    (s.count f n idx fn).queues = s.queues := by rfl
@[simp] theorem State.count_pcie (s : State) (f : Field) (n : Nat) (idx fn : Nat) :
    (s.count f n idx fn).pcie = s.pcie := by rfl
@[simp] theorem State.count_time (s : State) (f : Field) (n : Nat) (idx fn : Nat) :
    (s.count f n idx fn).time = s.time := by rfl
@[simp] theorem State.count_ingest (s : State) (f : Field) (n : Nat) (idx fn : Nat) :
    (s.count f n idx fn).ingest = s.ingest := by rfl
@[simp] theorem State.count_compute (s : State) (f : Field) (n : Nat) (idx fn : Nat) :
    (s.count f n idx fn).compute = s.compute := by rfl
@[simp] theorem State.count_canopy (s : State) (f : Field) (n : Nat) (idx fn : Nat) :
    (s.count f n idx fn).canopy = s.canopy := by rfl
@[simp] theorem State.count_sort (s : State) (f : Field) (n : Nat) (idx fn : Nat) :
    (s.count f n idx fn).sort = s.sort := by rfl
@[simp] theorem State.count_gather (s : State) (f : Field) (n : Nat) (idx fn : Nat) :
    (s.count f n idx fn).gather = s.gather := by rfl
@[simp] theorem State.count_fabric (s : State) (f : Field) (n : Nat) (idx fn : Nat) :
    (s.count f n idx fn).fabric = s.fabric := by rfl
@[simp] theorem State.count_twin (s : State) (f : Field) (n : Nat) (idx fn : Nat) :
    (s.count f n idx fn).twin = s.twin := by rfl
@[simp] theorem State.count_bark (s : State) (f : Field) (n : Nat) (idx fn : Nat) :
    (s.count f n idx fn).bark = s.bark := by rfl
@[simp] theorem State.count_security (s : State) (f : Field) (n : Nat) (idx fn : Nat) :
    (s.count f n idx fn).security = s.security := by rfl
@[simp] theorem State.count_observe (s : State) (f : Field) (n : Nat) (idx fn : Nat) :
    (s.count f n idx fn).observe = s.observe := by rfl
@[simp] theorem State.count_power (s : State) (f : Field) (n : Nat) (idx fn : Nat) :
    (s.count f n idx fn).power = s.power := by rfl
@[simp] theorem State.count_reports (s : State) (f : Field) (n : Nat) (idx fn : Nat) :
    (s.count f n idx fn).reports = s.reports := by rfl
@[simp] theorem State.count_free (s : State) (f : Field) (n : Nat) (idx fn : Nat) :
    (s.count f n idx fn).free = s.free := by rfl
@[simp] theorem State.count_out (s : State) (f : Field) (n : Nat) (idx fn : Nat) :
    (s.count f n idx fn).out = s.out := by rfl
@[simp] theorem State.count_cmd (s : State) (f : Field) (n : Nat) (idx fn : Nat) (cid : Nat) :
    (s.count f n idx fn).cmd? cid = s.cmd? cid := by rfl

/-! `State.countSat` changes `regs` alone. -/
@[simp] theorem State.countSat_pending (s : State) (f : Field) (n : Nat) (idx fn : Nat) :
    (s.countSat f n idx fn).pending = s.pending := by rfl
@[simp] theorem State.countSat_variant (s : State) (f : Field) (n : Nat) (idx fn : Nat) :
    (s.countSat f n idx fn).variant = s.variant := by rfl
@[simp] theorem State.countSat_revision (s : State) (f : Field) (n : Nat) (idx fn : Nat) :
    (s.countSat f n idx fn).revision = s.revision := by rfl
@[simp] theorem State.countSat_hbm (s : State) (f : Field) (n : Nat) (idx fn : Nat) :
    (s.countSat f n idx fn).hbm = s.hbm := by rfl
@[simp] theorem State.countSat_sap (s : State) (f : Field) (n : Nat) (idx fn : Nat) :
    (s.countSat f n idx fn).sap = s.sap := by rfl
@[simp] theorem State.countSat_host (s : State) (f : Field) (n : Nat) (idx fn : Nat) :
    (s.countSat f n idx fn).host = s.host := by rfl
@[simp] theorem State.countSat_acc (s : State) (f : Field) (n : Nat) (idx fn : Nat) :
    (s.countSat f n idx fn).acc = s.acc := by rfl
@[simp] theorem State.countSat_mem (s : State) (f : Field) (n : Nat) (idx fn : Nat) :
    (s.countSat f n idx fn).mem = s.mem := by rfl
@[simp] theorem State.countSat_queues (s : State) (f : Field) (n : Nat) (idx fn : Nat) :
    (s.countSat f n idx fn).queues = s.queues := by rfl
@[simp] theorem State.countSat_pcie (s : State) (f : Field) (n : Nat) (idx fn : Nat) :
    (s.countSat f n idx fn).pcie = s.pcie := by rfl
@[simp] theorem State.countSat_time (s : State) (f : Field) (n : Nat) (idx fn : Nat) :
    (s.countSat f n idx fn).time = s.time := by rfl
@[simp] theorem State.countSat_ingest (s : State) (f : Field) (n : Nat) (idx fn : Nat) :
    (s.countSat f n idx fn).ingest = s.ingest := by rfl
@[simp] theorem State.countSat_compute (s : State) (f : Field) (n : Nat) (idx fn : Nat) :
    (s.countSat f n idx fn).compute = s.compute := by rfl
@[simp] theorem State.countSat_canopy (s : State) (f : Field) (n : Nat) (idx fn : Nat) :
    (s.countSat f n idx fn).canopy = s.canopy := by rfl
@[simp] theorem State.countSat_sort (s : State) (f : Field) (n : Nat) (idx fn : Nat) :
    (s.countSat f n idx fn).sort = s.sort := by rfl
@[simp] theorem State.countSat_gather (s : State) (f : Field) (n : Nat) (idx fn : Nat) :
    (s.countSat f n idx fn).gather = s.gather := by rfl
@[simp] theorem State.countSat_fabric (s : State) (f : Field) (n : Nat) (idx fn : Nat) :
    (s.countSat f n idx fn).fabric = s.fabric := by rfl
@[simp] theorem State.countSat_twin (s : State) (f : Field) (n : Nat) (idx fn : Nat) :
    (s.countSat f n idx fn).twin = s.twin := by rfl
@[simp] theorem State.countSat_bark (s : State) (f : Field) (n : Nat) (idx fn : Nat) :
    (s.countSat f n idx fn).bark = s.bark := by rfl
@[simp] theorem State.countSat_security (s : State) (f : Field) (n : Nat) (idx fn : Nat) :
    (s.countSat f n idx fn).security = s.security := by rfl
@[simp] theorem State.countSat_observe (s : State) (f : Field) (n : Nat) (idx fn : Nat) :
    (s.countSat f n idx fn).observe = s.observe := by rfl
@[simp] theorem State.countSat_power (s : State) (f : Field) (n : Nat) (idx fn : Nat) :
    (s.countSat f n idx fn).power = s.power := by rfl
@[simp] theorem State.countSat_reports (s : State) (f : Field) (n : Nat) (idx fn : Nat) :
    (s.countSat f n idx fn).reports = s.reports := by rfl
@[simp] theorem State.countSat_free (s : State) (f : Field) (n : Nat) (idx fn : Nat) :
    (s.countSat f n idx fn).free = s.free := by rfl
@[simp] theorem State.countSat_out (s : State) (f : Field) (n : Nat) (idx fn : Nat) :
    (s.countSat f n idx fn).out = s.out := by rfl
@[simp] theorem State.countSat_cmd (s : State) (f : Field) (n : Nat) (idx fn : Nat) (cid : Nat) :
    (s.countSat f n idx fn).cmd? cid = s.cmd? cid := by rfl

/-! `State.finish` changes `queues` alone. -/
@[simp] theorem State.finish_pending (s : State) (id : Nat) (st : Half) (detail : Word) :
    (s.finish id st detail).pending = s.pending := by rfl
@[simp] theorem State.finish_variant (s : State) (id : Nat) (st : Half) (detail : Word) :
    (s.finish id st detail).variant = s.variant := by rfl
@[simp] theorem State.finish_revision (s : State) (id : Nat) (st : Half) (detail : Word) :
    (s.finish id st detail).revision = s.revision := by rfl
@[simp] theorem State.finish_regs (s : State) (id : Nat) (st : Half) (detail : Word) :
    (s.finish id st detail).regs = s.regs := by rfl
@[simp] theorem State.finish_hbm (s : State) (id : Nat) (st : Half) (detail : Word) :
    (s.finish id st detail).hbm = s.hbm := by rfl
@[simp] theorem State.finish_sap (s : State) (id : Nat) (st : Half) (detail : Word) :
    (s.finish id st detail).sap = s.sap := by rfl
@[simp] theorem State.finish_host (s : State) (id : Nat) (st : Half) (detail : Word) :
    (s.finish id st detail).host = s.host := by rfl
@[simp] theorem State.finish_acc (s : State) (id : Nat) (st : Half) (detail : Word) :
    (s.finish id st detail).acc = s.acc := by rfl
@[simp] theorem State.finish_mem (s : State) (id : Nat) (st : Half) (detail : Word) :
    (s.finish id st detail).mem = s.mem := by rfl
@[simp] theorem State.finish_pcie (s : State) (id : Nat) (st : Half) (detail : Word) :
    (s.finish id st detail).pcie = s.pcie := by rfl
@[simp] theorem State.finish_time (s : State) (id : Nat) (st : Half) (detail : Word) :
    (s.finish id st detail).time = s.time := by rfl
@[simp] theorem State.finish_ingest (s : State) (id : Nat) (st : Half) (detail : Word) :
    (s.finish id st detail).ingest = s.ingest := by rfl
@[simp] theorem State.finish_compute (s : State) (id : Nat) (st : Half) (detail : Word) :
    (s.finish id st detail).compute = s.compute := by rfl
@[simp] theorem State.finish_canopy (s : State) (id : Nat) (st : Half) (detail : Word) :
    (s.finish id st detail).canopy = s.canopy := by rfl
@[simp] theorem State.finish_sort (s : State) (id : Nat) (st : Half) (detail : Word) :
    (s.finish id st detail).sort = s.sort := by rfl
@[simp] theorem State.finish_gather (s : State) (id : Nat) (st : Half) (detail : Word) :
    (s.finish id st detail).gather = s.gather := by rfl
@[simp] theorem State.finish_fabric (s : State) (id : Nat) (st : Half) (detail : Word) :
    (s.finish id st detail).fabric = s.fabric := by rfl
@[simp] theorem State.finish_twin (s : State) (id : Nat) (st : Half) (detail : Word) :
    (s.finish id st detail).twin = s.twin := by rfl
@[simp] theorem State.finish_bark (s : State) (id : Nat) (st : Half) (detail : Word) :
    (s.finish id st detail).bark = s.bark := by rfl
@[simp] theorem State.finish_security (s : State) (id : Nat) (st : Half) (detail : Word) :
    (s.finish id st detail).security = s.security := by rfl
@[simp] theorem State.finish_observe (s : State) (id : Nat) (st : Half) (detail : Word) :
    (s.finish id st detail).observe = s.observe := by rfl
@[simp] theorem State.finish_power (s : State) (id : Nat) (st : Half) (detail : Word) :
    (s.finish id st detail).power = s.power := by rfl
@[simp] theorem State.finish_reports (s : State) (id : Nat) (st : Half) (detail : Word) :
    (s.finish id st detail).reports = s.reports := by rfl
@[simp] theorem State.finish_free (s : State) (id : Nat) (st : Half) (detail : Word) :
    (s.finish id st detail).free = s.free := by rfl
@[simp] theorem State.finish_out (s : State) (id : Nat) (st : Half) (detail : Word) :
    (s.finish id st detail).out = s.out := by rfl
@[simp] theorem State.finish_rd (s : State) (id : Nat) (st : Half) (detail : Word) (fld : Field) (ix fu : Nat) :
    (s.finish id st detail).rd fld ix fu = s.rd fld ix fu := by rfl
@[simp] theorem State.finish_rdN (s : State) (id : Nat) (st : Half) (detail : Word) (fld : Field) (ix fu : Nat) :
    (s.finish id st detail).rdN fld ix fu = s.rdN fld ix fu := by rfl
@[simp] theorem State.finish_rdB (s : State) (id : Nat) (st : Half) (detail : Word) (fld : Field) (ix fu : Nat) :
    (s.finish id st detail).rdB fld ix fu = s.rdB fld ix fu := by rfl

end Sys2Proof.Machine
end

