-- ==== Sys2Proof/Laws/Registers.lean ====
section
/-! SUPPORT. What reading a register field after writing one gives. -/
namespace Sys2Proof.Machine

theorem regFind_regPut (l : List (RegKey × DWord)) (q k : RegKey) (v : DWord) :
    regFind (regPut l q v) k = if q = k then some v else regFind l k := by
  induction l with
  | nil => simp [regPut, regFind]
  | cons h t ih =>
    obtain ⟨j, w⟩ := h
    unfold regPut
    split <;> simp only [regFind, ih]
    · subst_vars; split <;> rfl
    · by_cases h1 : j = k
      · subst h1; simp [Ne.symm ‹_›]
      · simp [h1]

/-- A field reads as its last written value, cut to its width, and no other field changes. -/
theorem State.rd_wr (s : State) (f g : Field) (v : DWord) (i n j m : Nat) :
    (s.wr f v i n).rd g j m = if f.key i n = g.key j m then v &&& lowMask f.width else s.rd g j m := by
  simp only [State.rd, State.wr, regFind_regPut]
  split <;> rfl

@[simp] theorem State.rd_wr_same (s : State) (f : Field) (v : DWord) (i n : Nat) :
    (s.wr f v i n).rd f i n = v &&& lowMask f.width := by simp [State.rd_wr]

theorem State.rd_wr_other (s : State) (f g : Field) (v : DWord) (i n j m : Nat) (h : f.key i n ≠ g.key j m) :
    (s.wr f v i n).rd g j m = s.rd g j m := by simp [State.rd_wr, h]

theorem State.rdN_wr (s : State) (f g : Field) (v : DWord) (i n j m : Nat) :
    (s.wr f v i n).rdN g j m = if f.key i n = g.key j m then (v &&& lowMask f.width).toNat else s.rdN g j m := by
  unfold State.rdN; rw [State.rd_wr]; split <;> rfl

theorem State.rdB_wr (s : State) (f g : Field) (v : DWord) (i n j m : Nat) :
    (s.wr f v i n).rdB g j m = if f.key i n = g.key j m then (v &&& lowMask f.width != 0) else s.rdB g j m := by
  unfold State.rdB; rw [State.rd_wr]; split <;> rfl

/-- Cutting a number to w bits keeps its w low bits. -/
theorem toNat_and_lowMask (x : DWord) (w : Nat) (h : w ≤ 64) : (x &&& lowMask w).toNat = x.toNat % 2 ^ w := by
  have h1 : 2 ^ w ≤ 2 ^ 64 := Nat.pow_le_pow_right (by decide) h
  have h2 : (2 ^ w - 1) % 2 ^ 64 = 2 ^ w - 1 := Nat.mod_eq_of_lt (by omega)
  rw [BitVec.toNat_and, lowMask, BitVec.toNat_ofNat, h2, Nat.and_two_pow_sub_one_eq_mod]

theorem State.rdN_wrN (s : State) (f g : Field) (v : Nat) (i n j m : Nat) (h : f.width ≤ 64) :
    (s.wrN f v i n).rdN g j m = if f.key i n = g.key j m then v % 2 ^ f.width else s.rdN g j m := by
  unfold State.wrN
  rw [State.rdN_wr, toNat_and_lowMask _ _ h, BitVec.toNat_ofNat]
  rw [Nat.mod_mod_of_dvd _ (Nat.pow_dvd_pow 2 h)]

/-- The registers, and the part's variant that fixes reset values, are all that a read looks at. -/
theorem State.rd_congr (s t : State) (hr : t.regs = s.regs) (hv : t.variant = s.variant) (f : Field) (i n : Nat) :
    t.rd f i n = s.rd f i n := by simp [State.rd, hr, hv]

theorem State.rdB_wrB (s : State) (f g : Field) (v : Bool) (i n j m : Nat) (h : 0 < f.width) :
    (s.wrB f v i n).rdB g j m = if f.key i n = g.key j m then v else s.rdB g j m := by
  unfold State.wrB
  rw [State.rdB_wr]
  split
  · have e : (1#64 : DWord) &&& lowMask f.width = 1#64 := by
      obtain ⟨k, hk⟩ : ∃ k, f.width = k + 1 := ⟨f.width - 1, by omega⟩
      have e1 : (2 ^ f.width - 1) % 2 ^ 64 % 2 = 1 := by
        rw [Nat.mod_mod_of_dvd _ (by decide), hk, Nat.pow_succ]
        have := Nat.two_pow_pos k
        omega
      apply BitVec.eq_of_toNat_eq
      simp only [lowMask, BitVec.toNat_and, BitVec.toNat_ofNat]
      rw [show 1 % 2 ^ 64 = 1 from rfl, Nat.one_and_eq_mod_two, e1]
    cases v <;> simp [e]
  · rfl

theorem State.rdN_wrB (s : State) (f g : Field) (v : Bool) (i n j m : Nat) (h : f.key i n ≠ g.key j m) :
    (s.wrB f v i n).rdN g j m = s.rdN g j m := by unfold State.wrB; rw [State.rdN_wr, if_neg h]

theorem State.rdB_wrN (s : State) (f g : Field) (v : Nat) (i n j m : Nat) (h : f.key i n ≠ g.key j m) :
    (s.wrN f v i n).rdB g j m = s.rdB g j m := by unfold State.wrN; rw [State.rdB_wr, if_neg h]

theorem State.rd_wrN (s : State) (f g : Field) (v : Nat) (i n j m : Nat) :
    (s.wrN f v i n).rd g j m = if f.key i n = g.key j m then BitVec.ofNat 64 v &&& lowMask f.width else s.rd g j m :=
  s.rd_wr ..

theorem State.rd_wrB (s : State) (f g : Field) (v : Bool) (i n j m : Nat) :
    (s.wrB f v i n).rd g j m = if f.key i n = g.key j m then (if v then 1 else 0) &&& lowMask f.width else s.rd g j m :=
  s.rd_wr ..

theorem State.rd_count (s : State) (f g : Field) (k i n j m : Nat) :
    (s.count f k i n).rd g j m
      = if f.key i n = g.key j m then (s.rd f i n + BitVec.ofNat 64 k) &&& lowMask f.width else s.rd g j m :=
  s.rd_wr ..

theorem State.rdN_countSat (s : State) (f g : Field) (k i n j m : Nat) (h : f.width ≤ 64) :
    (s.countSat f k i n).rdN g j m
      = if f.key i n = g.key j m then satTo f.width (s.rdN f i n + k) else s.rdN g j m := by
  unfold State.countSat
  rw [State.rdN_wrN _ _ _ _ _ _ _ _ h]
  split
  · exact Nat.mod_eq_of_lt (Nat.lt_of_le_of_lt (Nat.min_le_right ..) (by have := Nat.two_pow_pos f.width; omega))
  · rfl

end Sys2Proof.Machine
end

