-- ==== Sys2Proof/Laws/Answers.lean ====
section
/-! SUPPORT. Reading the answer of a meaning, and reading through record updates. -/
namespace Sys2Proof.Machine

/-! The answer of a meaning: it keeps the queue of commands and what the part is, and all else is the meaning's. -/
@[simp] theorem State.after_pending (s t : State) : (s.after t).pending = s.pending := by rfl
@[simp] theorem State.after_variant (s t : State) : (s.after t).variant = s.variant := by rfl
@[simp] theorem State.after_revision (s t : State) : (s.after t).revision = s.revision := by rfl
@[simp] theorem State.after_regs (s t : State) : (s.after t).regs = t.regs := by rfl
@[simp] theorem State.after_hbm (s t : State) : (s.after t).hbm = t.hbm := by rfl
@[simp] theorem State.after_sap (s t : State) : (s.after t).sap = t.sap := by rfl
@[simp] theorem State.after_host (s t : State) : (s.after t).host = t.host := by rfl
@[simp] theorem State.after_acc (s t : State) : (s.after t).acc = t.acc := by rfl
@[simp] theorem State.after_mem (s t : State) : (s.after t).mem = t.mem := by rfl
@[simp] theorem State.after_queues (s t : State) : (s.after t).queues = t.queues := by rfl
@[simp] theorem State.after_pcie (s t : State) : (s.after t).pcie = t.pcie := by rfl
@[simp] theorem State.after_time (s t : State) : (s.after t).time = t.time := by rfl
@[simp] theorem State.after_ingest (s t : State) : (s.after t).ingest = t.ingest := by rfl
@[simp] theorem State.after_compute (s t : State) : (s.after t).compute = t.compute := by rfl
@[simp] theorem State.after_canopy (s t : State) : (s.after t).canopy = t.canopy := by rfl
@[simp] theorem State.after_sort (s t : State) : (s.after t).sort = t.sort := by rfl
@[simp] theorem State.after_gather (s t : State) : (s.after t).gather = t.gather := by rfl
@[simp] theorem State.after_fabric (s t : State) : (s.after t).fabric = t.fabric := by rfl
@[simp] theorem State.after_twin (s t : State) : (s.after t).twin = t.twin := by rfl
@[simp] theorem State.after_bark (s t : State) : (s.after t).bark = t.bark := by rfl
@[simp] theorem State.after_security (s t : State) : (s.after t).security = t.security := by rfl
@[simp] theorem State.after_observe (s t : State) : (s.after t).observe = t.observe := by rfl
@[simp] theorem State.after_power (s t : State) : (s.after t).power = t.power := by rfl
@[simp] theorem State.after_reports (s t : State) : (s.after t).reports = t.reports := by rfl
@[simp] theorem State.after_free (s t : State) : (s.after t).free = t.free := by rfl
@[simp] theorem State.after_out (s t : State) : (s.after t).out = t.out := by rfl
@[simp] theorem State.after_cmd (s t : State) (i : Nat) : (s.after t).cmd? i = t.cmd? i := by rfl
@[simp] theorem State.after_rd (s t : State) (h : t.variant = s.variant) (f : Field) (i n : Nat) :
    (s.after t).rd f i n = t.rd f i n := by simp [State.rd, h]
@[simp] theorem State.after_rdN (s t : State) (h : t.variant = s.variant) (f : Field) (i n : Nat) :
    (s.after t).rdN f i n = t.rdN f i n := by simp [State.rdN, h]
@[simp] theorem State.after_rdB (s t : State) (h : t.variant = s.variant) (f : Field) (i n : Nat) :
    (s.after t).rdB f i n = t.rdB f i n := by simp [State.rdB, h]
/-- A meaning that changes neither the queue of commands nor the part answers its own state. -/
theorem State.after_eq (s t : State) (hp : t.pending = s.pending) (hv : t.variant = s.variant)
    (hr : t.revision = s.revision) : s.after t = t := by cases t; simp_all [State.after]
@[simp] theorem State.after_self (s : State) : s.after s = s := by rfl

/-! A record update that keeps the registers and the variant is not seen by a read of a register; one that keeps the queues
is not seen by a look-up of a command. -/
@[simp] theorem State.rd_mk (s : State) (v : Config.Variant) (h : v = s.variant) {x0 x2 x4 x5 x6 x7 x8 x9 x10 x11 x12 x13 x14 x15 x16 x17 x18 x19 x20 x21 x22 x23 x24 x25} (f : Field) (i n : Nat) :
    (State.mk x0 v x2 s.regs x4 x5 x6 x7 x8 x9 x10 x11 x12 x13 x14 x15 x16 x17 x18 x19 x20 x21 x22 x23 x24 x25).rd f i n = s.rd f i n := by subst h; rfl
@[simp] theorem State.rdN_mk (s : State) (v : Config.Variant) (h : v = s.variant) {x0 x2 x4 x5 x6 x7 x8 x9 x10 x11 x12 x13 x14 x15 x16 x17 x18 x19 x20 x21 x22 x23 x24 x25} (f : Field) (i n : Nat) :
    (State.mk x0 v x2 s.regs x4 x5 x6 x7 x8 x9 x10 x11 x12 x13 x14 x15 x16 x17 x18 x19 x20 x21 x22 x23 x24 x25).rdN f i n = s.rdN f i n := by subst h; rfl
@[simp] theorem State.rdB_mk (s : State) (v : Config.Variant) (h : v = s.variant) {x0 x2 x4 x5 x6 x7 x8 x9 x10 x11 x12 x13 x14 x15 x16 x17 x18 x19 x20 x21 x22 x23 x24 x25} (f : Field) (i n : Nat) :
    (State.mk x0 v x2 s.regs x4 x5 x6 x7 x8 x9 x10 x11 x12 x13 x14 x15 x16 x17 x18 x19 x20 x21 x22 x23 x24 x25).rdB f i n = s.rdB f i n := by subst h; rfl
@[simp] theorem State.cmd_mk (s : State) {x0 x1 x2 x3 x4 x5 x6 x7 x8 x10 x11 x12 x13 x14 x15 x16 x17 x18 x19 x20 x21 x22 x23 x24 x25} (i : Nat) :
    (State.mk x0 x1 x2 x3 x4 x5 x6 x7 x8 s.queues x10 x11 x12 x13 x14 x15 x16 x17 x18 x19 x20 x21 x22 x23 x24 x25).cmd? i = s.cmd? i := rfl

end Sys2Proof.Machine
end

