-- ==== Sys2Proof/Laws/Alloc.lean ====
section
/-! SUPPORT. Laws of where firmware places what it allocates in HBM. -/
namespace Sys2Proof.Machine

/-- A place that has been chosen is one of the free ranges of the partition: n bytes of it are usable and owned. -/
theorem State.placeHbm_mem {s : State} {part n align a : Nat} {others : List Extent}
    (h : (s.placeHbm part n align others).2 = some a) : a ∈ s.hbmPlaces part n align others ∧ s.hbmOk part a n = true := by
  have hm : a ∈ s.hbmPlaces part n align others := List.mem_of_getElem? h
  refine ⟨hm, ?_⟩
  have := (List.mem_filter.mp hm).2
  simp only [Bool.and_eq_true] at this
  exact this.1

/-- Where some range is free a place is chosen. -/
theorem State.placeHbm_isSome {s : State} {part n align : Nat} {others : List Extent}
    (h : s.hbmPlaces part n align others ≠ []) : (s.placeHbm part n align others).2.isSome = true := by
  have hl : 0 < (s.hbmPlaces part n align others).length := List.length_pos_iff.mpr h
  have hk : (s.choose (s.hbmPlaces part n align others).length).1 < (s.hbmPlaces part n align others).length := by
    unfold State.choose Config.pick
    split
    · exact hl
    · exact Nat.mod_lt _ hl
  simp only [State.placeHbm, Option.isSome_iff_exists]
  exact ⟨_, List.getElem?_eq_getElem hk⟩

/-- Burl has no room on a Stem whose units, with those of the other partitions, would be more than 64 (R384). -/
theorem State.placeBurl_none {s : State} {part units stem : Nat} (h : 64 < units) : (s.placeBurl part units stem).2 = none := by
  have h0 : units ≠ 0 := by omega
  have no (u : State) (b : BurlAlloc) (hb : b.units = units) : u.burlOk b = false := by
    have : b.units ≠ 0 := by omega
    simp only [State.burlOk, Bool.or_eq_false_iff, Bool.and_eq_false_iff, beq_eq_false_iff_ne, decide_eq_false_iff_not]
    exact ⟨this, .inr (by omega)⟩
  simp only [State.placeBurl, if_neg h0]
  refine List.find?_eq_none.mpr fun b hb => ?_
  have hb : b ∈ burlPlaces part stem units (sliceBanks s.variant) :=
    (List.mem_append.mp hb).elim List.mem_of_mem_drop List.mem_of_mem_take
  have : b.units = units := by
    simp only [burlPlaces, List.mem_flatMap, List.mem_map] at hb
    obtain ⟨_, _, _, _, _, _, rfl⟩ := hb
    rfl
  simp [no _ b this]

end Sys2Proof.Machine
end

