-- ==== Sys2Proof/Laws/Bits.lean ====
section
/-! SUPPORT. Laws of bit fields. -/
namespace Sys2Proof.Machine

theorem getBits_lt (x lo w : Nat) : getBits x lo w < 2 ^ w := Nat.mod_lt _ (Nat.two_pow_pos w)

/-- A number split at a field: what stands above it, the field, and what stands below. -/
theorem split_field (x lo w : Nat) :
    x = (x / 2 ^ (lo + w)) * 2 ^ (lo + w) + getBits x lo w * 2 ^ lo + x % 2 ^ lo := by
  have h1 : x = x / 2 ^ lo * 2 ^ lo + x % 2 ^ lo := by rw [Nat.mul_comm]; exact (Nat.div_add_mod x (2 ^ lo)).symm
  have h2 : x / 2 ^ lo = x / 2 ^ lo / 2 ^ w * 2 ^ w + x / 2 ^ lo % 2 ^ w := by
    rw [Nat.mul_comm]; exact (Nat.div_add_mod _ (2 ^ w)).symm
  have h3 : x / 2 ^ lo / 2 ^ w = x / 2 ^ (lo + w) := by rw [Nat.div_div_eq_div_mul, ← Nat.pow_add]
  have h4 : getBits x lo w = x / 2 ^ lo % 2 ^ w := by simp [getBits, Nat.shiftRight_eq_div_pow]
  rw [h3, ← h4] at h2
  calc x = x / 2 ^ lo * 2 ^ lo + x % 2 ^ lo := h1
    _ = (x / 2 ^ (lo + w) * 2 ^ w + getBits x lo w) * 2 ^ lo + x % 2 ^ lo := by rw [← h2]
    _ = _ := by rw [Nat.add_mul, Nat.mul_assoc, ← Nat.pow_add, Nat.add_comm w lo]

/-- What a number with a field replaced is. -/
theorem putBits_eq (x lo w v : Nat) :
    putBits x lo w v = (x / 2 ^ (lo + w)) * 2 ^ (lo + w) + (v % 2 ^ w) * 2 ^ lo + x % 2 ^ lo := by
  have h := split_field x lo w
  have e : x - getBits x lo w * 2 ^ lo = (x / 2 ^ (lo + w)) * 2 ^ (lo + w) + x % 2 ^ lo := by omega
  simp only [putBits, Nat.shiftLeft_eq]
  rw [e]
  omega

theorem getBits_compose (a b c lo w : Nat) (hb : b < 2 ^ w) (hc : c < 2 ^ lo) :
    getBits (a * 2 ^ (lo + w) + b * 2 ^ lo + c) lo w = b := by
  have e : a * 2 ^ (lo + w) + b * 2 ^ lo + c = 2 ^ lo * (a * 2 ^ w + b) + c := by
    rw [Nat.pow_add, Nat.mul_add]
    simp only [Nat.mul_comm, Nat.mul_left_comm]
  rw [getBits, Nat.shiftRight_eq_div_pow, e, Nat.mul_add_div (Nat.two_pow_pos lo), Nat.div_eq_of_lt hc, Nat.add_zero,
    Nat.mul_add_mod_of_lt' hb]
where
  Nat.mul_add_mod_of_lt' {a b n : Nat} (h : b < n) : (a * n + b) % n = b := by
    rw [Nat.add_comm, Nat.add_mul_mod_self_right, Nat.mod_eq_of_lt h]

/-- A replaced field reads as its new value, cut to its width. -/
theorem getBits_putBits_same (x lo w v : Nat) : getBits (putBits x lo w v) lo w = v % 2 ^ w := by
  rw [putBits_eq]
  exact getBits_compose _ _ _ _ _ (Nat.mod_lt _ (Nat.two_pow_pos w)) (Nat.mod_lt _ (Nat.two_pow_pos lo))

/-- A field above the replaced one reads as before. -/
theorem getBits_putBits_above (x lo w v l k : Nat) (h : lo + w ≤ l) : getBits (putBits x lo w v) l k = getBits x l k := by
  obtain ⟨d, rfl⟩ : ∃ d, l = lo + w + d := ⟨l - (lo + w), by omega⟩
  simp only [getBits, Nat.shiftRight_add]
  congr 2
  rw [← Nat.shiftRight_add, ← Nat.shiftRight_add, Nat.shiftRight_eq_div_pow, Nat.shiftRight_eq_div_pow, putBits_eq]
  have h1 : v % 2 ^ w * 2 ^ lo + x % 2 ^ lo < 2 ^ (lo + w) := by
    have a := Nat.mod_lt v (Nat.two_pow_pos w)
    have b := Nat.mod_lt x (Nat.two_pow_pos lo)
    rw [Nat.pow_add, Nat.mul_comm (2 ^ lo)]
    calc v % 2 ^ w * 2 ^ lo + x % 2 ^ lo < v % 2 ^ w * 2 ^ lo + 2 ^ lo := by omega
      _ = (v % 2 ^ w + 1) * 2 ^ lo := by rw [Nat.add_mul, Nat.one_mul]
      _ ≤ 2 ^ w * 2 ^ lo := Nat.mul_le_mul_right _ a
  rw [Nat.add_assoc, Nat.mul_comm (x / 2 ^ (lo + w)), Nat.mul_add_div (Nat.two_pow_pos _), Nat.div_eq_of_lt h1, Nat.add_zero]

/-- A field below the replaced one reads as before. -/
theorem getBits_putBits_below (x lo w v l k : Nat) (h : l + k ≤ lo) : getBits (putBits x lo w v) l k = getBits x l k := by
  obtain ⟨d, rfl⟩ : ∃ d, lo = l + k + d := ⟨lo - (l + k), by omega⟩
  have e (y : Nat) : y >>> l % 2 ^ k = y % 2 ^ (l + k + d) / 2 ^ l % 2 ^ k := by
    have h2 : y % 2 ^ (l + k + d) / 2 ^ l = y / 2 ^ l % 2 ^ (k + d) := by
      rw [Nat.add_assoc, Nat.pow_add, Nat.mod_mul_right_div_self]
    rw [h2, Nat.mod_mod_of_dvd _ (Nat.pow_dvd_pow 2 (by omega)), Nat.shiftRight_eq_div_pow]
  simp only [getBits]
  rw [e, e x]
  congr 2
  rw [putBits_eq]
  have h1 := Nat.mod_lt x (Nat.two_pow_pos (l + k + d))
  have e1 : (x / 2 ^ (l + k + d + w)) * 2 ^ (l + k + d + w) + (v % 2 ^ w) * 2 ^ (l + k + d) + x % 2 ^ (l + k + d)
      = x % 2 ^ (l + k + d) + 2 ^ (l + k + d) * ((x / 2 ^ (l + k + d + w)) * 2 ^ w + v % 2 ^ w) := by
    rw [Nat.mul_add, Nat.pow_add 2 (l + k + d) w]
    simp only [Nat.mul_comm, Nat.mul_left_comm, Nat.mul_assoc]
    omega
  rw [e1, Nat.add_mul_mod_self_left, Nat.mod_eq_of_lt h1]

/-- A field of a number cut to its low bits reads as before where it lies inside them. -/
theorem getBits_mod (x n l k : Nat) (h : l + k ≤ n) : getBits (x % 2 ^ n) l k = getBits x l k := by
  obtain ⟨d, rfl⟩ : ∃ d, n = l + k + d := ⟨n - (l + k), by omega⟩
  simp only [getBits, Nat.shiftRight_eq_div_pow]
  rw [Nat.add_assoc, Nat.pow_add, Nat.mod_mul_right_div_self, Nat.mod_mod_of_dvd _ (Nat.pow_dvd_pow 2 (by omega))]

end Sys2Proof.Machine
end

