-- ==== Sys2Proof/Laws/Banks.lean ====
section
/-! SUPPORT. Laws of the Sapwood banks. -/
namespace Sys2Proof.Machine

/-- A bank whose state is set reads as that state. -/
theorem State.bankState_setBank_same (s : State) (b : BankId) (st : Nat) (hb : b.bank < 12) (hs : st < 4) :
    (s.setBank b st).bankState b = st := by
  unfold State.bankState State.setBank
  rw [State.rdN_wrN _ _ _ _ _ _ _ _ (by decide), if_pos rfl]
  rw [show Fld.sapTilePwrState_bank_state.width = 24 from rfl, getBits_mod _ _ _ _ (by omega), getBits_putBits_same]
  omega

/-- Another bank's state is not touched. -/
theorem State.bankState_setBank_other (s : State) (b c : BankId) (st : Nat) (hb : b.bank < 12) (hc : c.bank < 12)
    (hbt : b.tile < 64) (hct : c.tile < 64) (h : b ≠ c) : (s.setBank b st).bankState c = s.bankState c := by
  unfold State.bankState State.setBank
  rw [State.rdN_wrN _ _ _ _ _ _ _ _ (by decide)]
  split
  · rename_i hk
    have hi : tileIdx b.stem b.tile = tileIdx c.stem c.tile := by simpa [Field.key] using hk
    have hne : b.bank ≠ c.bank := by
      intro e
      apply h
      simp only [tileIdx] at hi
      cases b; cases c
      simp_all; omega
    rw [hi, show Fld.sapTilePwrState_bank_state.width = 24 from rfl, getBits_mod _ _ _ _ (by omega)]
    by_cases hlt : b.bank < c.bank
    · rw [getBits_putBits_above _ _ _ _ _ _ (by omega)]
    · rw [getBits_putBits_below _ _ _ _ _ _ (by omega)]
  · rfl

end Sys2Proof.Machine
end

