-- ==== Sys2Proof/Laws/Commands.lean ====
section
/-! SUPPORT. Laws of the answers of meanings and of the commands in flight. -/
namespace Sys2Proof.Machine

/-! Answers. -/

theorem answer_true (s t : State) : answer s true t = .next (s.after t) := rfl

theorem answer_of {ok : Bool} (s t : State) (h : ok = true) : answer s ok t = .next (s.after t) := by subst h; rfl

/-- A meaning that answers a next state has units that exist, and its next state keeps the queue and the part. -/
theorem answer_eq_next {s t u : State} {ok : Bool} (h : answer s ok t = .next u) : ok = true ∧ u = s.after t := by
  cases ok with
  | true => exact ⟨rfl, by simpa [answer] using h.symm⟩
  | false => simp [answer] at h

theorem answer_next {s t : State} {ok : Bool} (h : ok = true) :
    ∃ u, answer s ok t = .next u ∧ u.pending = s.pending ∧ u.variant = s.variant ∧ u.revision = s.revision :=
  ⟨_, answer_of s t h, rfl, rfl, rfl⟩

theorem completes_of {c : Instr} {s t : State} {ok : Bool} {p : State → Prop} (e : exec c s = answer s ok t)
    (h : ok = true) (hp : p (s.after t)) : Completes c s p := ⟨s.after t, by rw [e, answer_of _ _ h], hp⟩

/-! Lists of records with a number. -/

theorem find?_updWhere {α : Type} (l : List α) (p q : α → Bool) (f : α → α) (h : ∀ x, q (f x) = q x) :
    (updWhere l p f).find? q = (l.find? q).map (fun x => if p x then f x else x) := by
  induction l with
  | nil => rfl
  | cons a r ih =>
    have hq : q (if p a then f a else a) = q a := by split <;> simp [h]
    simp only [updWhere, List.map_cons, List.find?_cons, hq]
    split
    · rfl
    · exact ih

/-- A record outside those updated stays as it is. -/
theorem find?_updWhere_other {α : Type} (l : List α) (p q : α → Bool) (f : α → α) (h : ∀ x, q (f x) = q x)
    (d : ∀ x, q x = true → p x = false) : (updWhere l p f).find? q = l.find? q := by
  rw [find?_updWhere l p q f h]
  cases e : l.find? q with
  | none => rfl
  | some a => simp [d a (List.find?_some e)]

/-! Commands in flight. -/

theorem State.cmd?_id {s : State} {id : Nat} {c : Cmd} (h : s.cmd? id = some c) : c.id = id := by
  simpa using List.find?_some h

/-- A change to a command that keeps its number is seen in that command alone. -/
theorem State.cmd?_updCmd (s : State) (id j : Nat) (f : Cmd → Cmd) (hf : ∀ c, (f c).id = c.id) :
    (s.updCmd id f).cmd? j = if j = id then (s.cmd? j).map f else s.cmd? j := by
  simp only [State.cmd?, State.updCmd]
  rw [find?_updWhere _ _ _ _ (by simp [hf])]
  cases e : s.queues.cmds.find? (fun c => c.id == j) with
  | none => simp
  | some a =>
    have ha : a.id = j := by simpa using List.find?_some e
    by_cases hj : j = id <;> simp [ha, hj]

/-- A command that finishes its engine work has the status and detail that it finished with. -/
theorem State.cmd?_finish (s : State) (id j : Nat) (st : Half) (d : Word) :
    (s.finish id st d).cmd? j =
      if j = id then (s.cmd? j).map (fun c => { c with phase := .finished, status := st, detail := d, endNs := s.now }) else s.cmd? j :=
  s.cmd?_updCmd id j _ (fun _ => rfl)

theorem State.ended_finish {s : State} {id : Nat} {c : Cmd} (st : Half) (d : Word) (h : s.cmd? id = some c) :
    (s.finish id st d).Ended id st d :=
  ⟨_, by rw [State.cmd?_finish, if_pos rfl, h]; rfl, rfl, rfl, rfl⟩

/-- What a command that an engine runs is. -/
theorem State.running_eq_some {s : State} {id cls op : Nat} {c : Cmd} :
    s.running id cls op = some c ↔ s.cmd? id = some c ∧ c.phase = .running ∧ c.engineClass = cls ∧ c.opcode = op := by
  unfold State.running
  cases s.cmd? id with
  | none => simp
  | some d =>
    simp only [Option.some.injEq]
    split
    · rename_i h
      simp only [Bool.and_eq_true, beq_iff_eq] at h
      constructor
      · rintro ⟨⟩; exact ⟨rfl, h.1.1, h.1.2, h.2⟩
      · rintro ⟨⟨⟩, -⟩; rfl
    · rename_i h
      simp only [Bool.and_eq_true, beq_iff_eq] at h
      constructor
      · intro h; cases h
      · rintro ⟨⟨⟩, h1, h2, h3⟩; exact absurd ⟨⟨h1, h2⟩, h3⟩ h

theorem State.onCmd_running {s : State} {id cls op : Nat} {c : Cmd} (f : Cmd → State) (h : s.running id cls op = some c) :
    s.onCmd id cls op f = f c := by simp [State.onCmd, h]

theorem State.onCmd_absent {s : State} {id cls op : Nat} (f : Cmd → State) (h : s.running id cls op = none) :
    s.onCmd id cls op f = s := by simp [State.onCmd, h]

theorem State.onStart_fresh {s : State} {id cls op : Nat} {c : Cmd} (f : State → Cmd → State)
    (h : s.running id cls op = some c) (hs : c.started = false) :
    s.onStart id cls op f = f (s.updCmd id (fun c => { c with started := true })) c := by simp [State.onStart, h, hs]

theorem State.onStart_started {s : State} {id cls op : Nat} {c : Cmd} (f : State → Cmd → State)
    (h : s.running id cls op = some c) (hs : c.started = true) : s.onStart id cls op f = s := by
  simp [State.onStart, h, hs]

end Sys2Proof.Machine
end

