-- ==== Sys2Proof/Laws/Memory.lean ====
section
/-! SUPPORT. Laws of the memories: a byte reads as it was stored last, a store leaves every other byte alone, and every
operation keeps the canonical form. -/
namespace Sys2Proof.Machine

theorem memWfFrom_mono {m : List Host.Cell} {lo hi : Nat} (h : memWfFrom hi m = true) (le : lo ≤ hi) :
    memWfFrom lo m = true := by
  cases m with
  | nil => rfl
  | cons c r =>
    obtain ⟨k, v⟩ := c
    simp only [memWfFrom, Bool.and_eq_true, decide_eq_true_eq] at h ⊢
    exact ⟨⟨by omega, h.1.2⟩, h.2⟩

theorem memGet_below {m : List Host.Cell} {lo a : Nat} (h : memWfFrom lo m = true) (lt : a < lo) :
    memGet m a = unlisted := by
  induction m generalizing lo with
  | nil => rfl
  | cons c r ih =>
    obtain ⟨k, v⟩ := c
    simp only [memWfFrom, Bool.and_eq_true, decide_eq_true_eq] at h
    have hk : k ≠ a := by omega
    simp only [memGet, if_neg hk]
    exact ih h.2 (by omega)

theorem memWfFrom_memSet {m : List Host.Cell} {lo a : Nat} (v : Byte) (h : memWfFrom lo m = true) (le : lo ≤ a) :
    memWfFrom lo (memSet m a v) = true := by
  induction m generalizing lo with
  | nil =>
    simp only [memSet]
    split
    · rfl
    · simpa [memWfFrom] using And.intro le ‹_›
  | cons c r ih =>
    obtain ⟨k, w⟩ := c
    simp only [memWfFrom, Bool.and_eq_true, decide_eq_true_eq] at h
    obtain ⟨⟨h1, h2⟩, h3⟩ := h
    simp only [memSet]
    split
    · split
      · simp [memWfFrom, h1, h2, h3]
      · rename_i hlt hv
        have hk : a + 1 ≤ k := by omega
        simp [memWfFrom, le, h2, h3, hv, hk]
    · split
      · subst_vars
        split
        · exact memWfFrom_mono h3 (by omega)
        · simp [memWfFrom, le, h3, ‹_›]
      · have : k + 1 ≤ a := by omega
        simp [memWfFrom, h1, h2, ih h3 this]

/-- A store of one byte keeps the canonical form. -/
theorem memWf_memSet {m : List Host.Cell} (a : Nat) (v : Byte) (h : memWf m = true) : memWf (memSet m a v) = true :=
  memWfFrom_memSet v h (Nat.zero_le a)

/-- A store keeps the canonical form. -/
theorem memWf_memWrite {m : List Host.Cell} (a : Nat) (l : List Byte) (h : memWf m = true) :
    memWf (memWrite m a l) = true := by
  induction l generalizing m a with
  | nil => exact h
  | cons b r ih => exact ih (a + 1) (memWf_memSet a b h)

theorem memWfFrom_filter {m : List Host.Cell} {lo : Nat} (p : Host.Cell → Bool) (h : memWfFrom lo m = true) :
    memWfFrom lo (m.filter p) = true := by
  induction m generalizing lo with
  | nil => rfl
  | cons c r ih =>
    obtain ⟨k, v⟩ := c
    simp only [memWfFrom, Bool.and_eq_true, decide_eq_true_eq] at h
    by_cases hp : p (k, v) = true
    · simp [hp, memWfFrom, h.1.1, h.1.2, ih h.2]
    · simp only [List.filter_cons, hp]
      exact memWfFrom_mono (ih h.2) (by omega)

/-- Clearing a range keeps the canonical form. -/
theorem memWf_memClear {m : List Host.Cell} (lo hi : Nat) (h : memWf m = true) : memWf (memClear m lo hi) = true :=
  memWfFrom_filter _ h

/-- A byte reads as it was stored last. -/
theorem memGet_memSet {m : List Host.Cell} {lo : Nat} (a b : Nat) (v : Byte) (h : memWfFrom lo m = true) :
    memGet (memSet m a v) b = if a = b then v else memGet m b := by
  induction m generalizing lo with
  | nil =>
    simp only [memSet]
    split
    · subst_vars; split <;> rfl
    · simp [memGet]
  | cons c r ih =>
    obtain ⟨k, w⟩ := c
    simp only [memWfFrom, Bool.and_eq_true, decide_eq_true_eq] at h
    obtain ⟨⟨h1, h2⟩, h3⟩ := h
    simp only [memSet]
    split
    · split
      · by_cases hab : a = b
        · subst hab; subst_vars
          have : k ≠ a := by omega
          simp [memGet, this, memGet_below h3 (show a < k + 1 by omega)]
        · simp [hab]
      · simp [memGet]
    · split
      · subst_vars
        split
        · by_cases hab : k = b
          · subst hab; subst_vars; simp [memGet_below h3 (show k < k + 1 by omega)]
          · simp [memGet, hab]
        · by_cases hab : k = b <;> simp [memGet, hab]
      · by_cases hkb : k = b
        · subst hkb
          have hak : ¬ a = k := ‹_›
          simp [memGet, hak]
        · simp [memGet, hkb, ih h3]

@[simp] theorem memGet_memSet_same {m : List Host.Cell} (a : Nat) (v : Byte) (h : memWf m = true) :
    memGet (memSet m a v) a = v := by simp [memGet_memSet a a v h]

theorem memGet_memSet_other {m : List Host.Cell} (a b : Nat) (v : Byte) (h : memWf m = true) (ne : a ≠ b) :
    memGet (memSet m a v) b = memGet m b := by simp [memGet_memSet a b v h, ne]

/-- A byte outside the stored ones reads as before; one inside reads as stored. -/
theorem memGet_memWrite {m : List Host.Cell} (a b : Nat) (l : List Byte) (h : memWf m = true) :
    memGet (memWrite m a l) b = if h' : a ≤ b ∧ b < a + l.length then l[b - a]'(by omega) else memGet m b := by
  induction l generalizing m a with
  | nil => rw [dif_neg (by simp only [List.length_nil]; omega)]; rfl
  | cons x r ih =>
    simp only [memWrite]
    rw [ih (a + 1) (memWf_memSet a x h)]
    by_cases h1 : a + 1 ≤ b ∧ b < a + 1 + r.length
    · have h2 : a ≤ b ∧ b < a + (x :: r).length := by simp; omega
      simp only [dif_pos h1, dif_pos h2]
      have : b - a = (b - (a + 1)) + 1 := by omega
      simp [this]
    · simp only [dif_neg h1, memGet_memSet a b x h]
      by_cases hab : a = b
      · subst hab; simp
      · have h2 : ¬ (a ≤ b ∧ b < a + (x :: r).length) := by simp; omega
        rw [dif_neg h2, if_neg hab]

theorem memGet_memWrite_outside {m : List Host.Cell} (a b : Nat) (l : List Byte) (h : memWf m = true)
    (out : b < a ∨ a + l.length ≤ b) : memGet (memWrite m a l) b = memGet m b := by
  rw [memGet_memWrite a b l h, dif_neg (by omega)]

theorem memGet_filter_key {m : List Host.Cell} (p : Nat → Bool) (b : Nat) :
    memGet (m.filter (fun c => p c.1)) b = if p b then memGet m b else unlisted := by
  induction m with
  | nil => simp [memGet]
  | cons c r ih =>
    obtain ⟨k, v⟩ := c
    by_cases hp : p k = true
    · simp only [List.filter_cons, hp, if_true, memGet, ih]
      by_cases hk : k = b
      · subst hk; simp [hp]
      · simp [hk]
    · rw [List.filter_cons_of_neg (by simpa using hp), ih]
      by_cases hk : k = b
      · subst hk; simp [hp]
      · simp [memGet, hk]

/-- A cleared range reads zero, and every other byte as before. -/
theorem memGet_memClear (m : List Host.Cell) (lo hi b : Nat) :
    memGet (memClear m lo hi) b = if lo ≤ b ∧ b < hi then unlisted else memGet m b := by
  unfold memClear
  have := memGet_filter_key (m := m) (fun k => decide (k < lo) || decide (hi ≤ k)) b
  rw [this]
  by_cases h : lo ≤ b ∧ b < hi
  · have h1 : ¬ b < lo := by omega
    have h2 : ¬ hi ≤ b := by omega
    simp [h, h1, h2]
  · simp only [h, if_false]
    rw [if_pos]
    simp; omega

/-- The memories have their canonical form after reset. -/
theorem State.reset_memOk : State.reset.MemOk := ⟨rfl, rfl, rfl, rfl⟩

end Sys2Proof.Machine
end

