-- ==== Sys2Proof/Laws/Time.lean ====
section
/-! SUPPORT. Laws of the time that clock islands have. -/
namespace Sys2Proof.Machine

/-- An island's correction lies within 2 ns of the count that it follows. -/
theorem leafPoint_near (epoch isl t : Nat) : leafPoint epoch isl t ≤ t + 2 ∧ t ≤ leafPoint epoch isl t + 2 := by
  unfold leafPoint
  have h1 := Nat.mod_lt (Config.leafLead isl epoch t) (show 0 < 3 by decide)
  have h2 := Nat.mod_lt (Config.leafBack epoch t) (show 0 < 3 by decide)
  omega

/-- The greatest of some numbers and a bound that all of them keep. -/
theorem foldl_max_le (f : Nat → Nat) (n : Nat) (l : List Nat) (m : Nat) (hm : m ≤ n) (h : ∀ i ∈ l, f i ≤ n) :
    l.foldl (fun m i => max m (f i)) m ≤ n := by
  induction l generalizing m with
  | nil => exact hm
  | cons a l ih =>
    exact ih (max m (f a)) (Nat.max_le.mpr ⟨hm, h a (by simp)⟩) (fun i hi => h i (by simp [hi]))

/-- The first of some numbers is at most the greatest of them. -/
theorem le_foldl_max (f : Nat → Nat) (l : List Nat) (m : Nat) : m ≤ l.foldl (fun m i => max m (f i)) m := by
  induction l generalizing m with
  | nil => exact Nat.le_refl m
  | cons a l ih => exact Nat.le_trans (Nat.le_max_left m (f a)) (ih (max m (f a)))

/-- The time of an island in a state, between two bounds on the Crown network's count. -/
theorem State.leaf_near (s : State) (isl a b : Nat) (ha : a + 2 ≤ s.now.toNat) (hb : s.now.toNat + 2 ≤ b) (h : b < 2 ^ 64) :
    a ≤ (s.leaf isl).toNat ∧ (s.leaf isl).toNat ≤ b := by
  unfold State.leaf
  split
  · omega
  · have hlo : s.now.toNat ≤ leafCount s.time.epoch isl s.now.toNat + 2 := by
      have h0 := (leafPoint_near s.time.epoch isl s.now.toNat).2
      have h1 : max 0 (leafPoint s.time.epoch isl (s.now.toNat - 0)) ≤ leafCount s.time.epoch isl s.now.toNat :=
        le_foldl_max (fun i => leafPoint s.time.epoch isl (s.now.toNat - i)) [1, 2, 3, 4] _
      simp only [Nat.sub_zero, Nat.zero_max] at h1
      omega
    have hhi : leafCount s.time.epoch isl s.now.toNat ≤ s.now.toNat + 2 :=
      foldl_max_le _ _ _ _ (Nat.zero_le _) (fun i _ => by
        have := (leafPoint_near s.time.epoch isl (s.now.toNat - i)).1
        omega)
    rw [BitVec.toNat_ofNat, Nat.mod_eq_of_lt (by omega)]
    omega

end Sys2Proof.Machine
end

