-- ==== Sys2Proof/Tests/Slice0.lean ====
section
/-! SUPPORT. The model's own tests: ill-formed commands are refused, the worked examples of the spec, and for each statement of
Certificates/Slice0/Obligations.lean a state and operands that meet its hypotheses (the theorems named test_witness_…, by the statement's
name), together with what the command then does there. -/
namespace Sys2Proof.Tests
set_option Elab.async false
open Sys2Proof.Machine

/-- What a command answers has a property. -/
def nx (c : Instr) (s : State) (p : State → Bool) : Bool := match exec c s with | .next t => p t | _ => false

/-- The bits of a descriptor from the fields (byte, value). -/
def desc (l : List (Nat × Nat)) : Desc := BitVec.ofNat 512 (l.foldl (fun a x => a + x.2 * 2 ^ (8 * x.1)) 0)

/-- A device that is READY and OPERATIONAL, whose physical function is a bus master, with Bark's windows open for every partition. -/
def base : State :=
  let s := { State.reset with
    security := { State.reset.security with perst := false }
    pcie := { State.reset.pcie with fns := [{ num := 0, busMaster := true, msixEnable := true }] } }
  let s := (s.wrN Fld.secBootStatus_stage 7).wrN Fld.brkStatus_mode 1
  (List.range 11).foldl (fun s t =>
    let i := 64 * t
    ((((((s.wrB Fld.brkFwCtl_enable true i).wrB Fld.brkFwCtl_any_partition true i).wrB Fld.brkFwCtl_read true i).wrB
      Fld.brkFwCtl_write true i).wrB Fld.brkFwCtl_atomic true i).wrN Fld.brkFwBase_base 0 i).wrN Fld.brkFwLimit_limit (2 ^ 36 - 1) i) s

/-- The same state long after everything in it. -/
def later (s : State) : State := { s with time := { s.time with uptime := 2 ^ 63 } }

/-- The command in flight with number 5 of an engine class and an opcode, with fields of its base descriptor and of its extensions. -/
def cmdOf (cls op : Nat) (l : List (Nat × Nat) := []) (ext : List Desc := []) : Cmd :=
  { id := 5, sq := 0, fn := 0, part := 0, crit := 0, descs := desc ((0, op) :: (1, cls) :: l) :: ext, phase := .running }

/-- A state with that command in flight. -/
def fly (s : State) (c : Cmd) : State := { s with queues := { s.queues with cmds := s.queues.cmds ++ [c] } }

/-- The command with number 5 has ended with a status and a detail. -/
def ended (t : State) (st : Half) (d : Word) : Bool :=
  match t.cmd? 5 with | some c => c.phase == .finished && c.status == st && c.detail == d | none => false

/-! Ill-formed commands: one for each check. -/

theorem test_ill_formed_refused :
    ([Instr.sensorPortLinkUp 16, .vacatedAck 4, .registerWrite 64 0 4 0, .registerWrite 0 0x4000000 4 0, .railTrip 10,
      .ideIntegrityFailure 8 none, .dumpSlotFree 2, .coreSampleSwitch 0 64, .ppsOutFall 2, .bankDrainDone 0 0 12, .srcCfgWrite 64 0,
      .doorbellReadReturn 256 true [], .ringStartReadReturn 4096 true [], .linkTrainingRetry 6, .laneSpareSwitch 0 9, .twigFence 4096,
      .gatherChunk 0 8, .wearSample [⟨.engine 0 .sort 1, 0⟩], .unitHang 1, .thermalSample [[0]],
      .samplesStageComplete [⟨0, 68⟩]]).all (fun c => !wellFormed c) = true := by decide

theorem test_ill_formed_faults : ∀ s : State, exec (.railTrip 10) s = .fault .noSuchUnit := fun _ => rfl

/-! 01 structure. -/

theorem test_witness_StepRunsTheFrontCommand : (match step { base with pending := [.powerCap 5, .nop 1] } with
    | .next t => t.pending == [.nop 1] | _ => false) = true := by decide +kernel

theorem test_witness_IdleStepTicks : (match step base with | .next t => t.time.now == 1 && t.time.uptime == 1 | _ => false) = true ∧
    base.canConfirm = false ∧ base.detachDue = false ∧
    (match step { base with reports := [{ source := 0x08 }] } with
      | .next t => t.reports == [] && t.rd Fld.brkSrcCnt_reports 8 == 1 | _ => false) = true := by decide +kernel

/-! 02 time. -/

/-- A device whose time unit is in a state, with source_sel 1. -/
def timed (st : Nat) : State := ((base.wrN Fld.timStatus_state st).wrN Fld.timCtrl_source_sel 1)

theorem test_witness_PpsEdgesLockTheTimeUnit : (timed tsLocked).timeRole ≠ 2 ∧
    nx (.ppsInEdge 1001) (timed tsLocked) (fun t => t.time.badEdges == 1) = true ∧
    nx (.ppsInEdge (-1001)) { timed tsLocked with time := { (timed tsLocked).time with badEdges := 2 } }
      (fun t => t.timeState == tsHoldover && t.rdN Fld.timStatus_clock_class == 7) = true ∧
    nx (.ppsInEdge 1000) (timed tsLocked) (fun t => t.time.badEdges == 0 && t.timeState == tsLocked) = true ∧
    nx (.ppsInEdge 7) { (timed tsLocked).wrN Fld.timNextSec_next_sec 3 with time := { base.time with nextSecPending := true } }
      (fun t => t.now == 3000000000 && t.time.phaseErr == 0 && t.time.epoch == 1) = true ∧
    nx (.ppsInEdge 1000) (timed tsFreerun) (fun t => t.time.phaseErr == 0) = true ∧
    nx (.ppsInEdge 19) { timed tsLocking with time := { (timed tsLocking).time with goodEdges := 15 } }
      (fun t => t.timeState == tsLocked && t.rdN Fld.timStatus_clock_class == 6) = true ∧
    nx .timeInputLoss (timed tsLocking) (fun t => t.timeState == tsFreerun) = true ∧
    nx .timeInputsReturn (timed tsHoldover) (fun t => t.timeState == tsLocking && t.rdN Fld.timStatus_clock_class == 248) = true ∧
    nx .holdoverExpired (later (timed tsHoldover)) (fun t => t.reports.length == 1) = true ∧
    nx .holdoverExpired ((timed tsHoldover).wrN Fld.timCtrl_holdover_max_s 1) (fun t => t.reports.length == 0) = true := by decide +kernel

theorem test_witness_TimeOfDayAndPpsOutputs : base.takesRegs 0 = true ∧
    nx (.timNextSecWrite 1) { base with time := { base.time with portsUp := true } } (fun t => t.rdN Fld.timNextSec_next_sec == 1) = true ∧
    nx (.timNextSecWrite 2) { base with time := { base.time with portsUp := true } } (fun t => t.rdB Fld.timStatus_tod_conflict) = true ∧
    nx (.timNextSecWrite 9) base (fun t => t.time.nextSecPending) = true ∧
    nx (.ppsOutEdge 1) { (timed tsLocked).wrB Fld.timPpsOut_enable true 1 with time := { base.time with now := 1000000000 } }
      (fun t => t.time.ppsOut1 && !t.time.ppsOut0) = true ∧
    nx (.ppsOutFall 1) { base.wrN Fld.timPpsOut_width_us 1000000 1 with time := { base.time with now := 100000, ppsOut1 := true } }
      (fun t => !t.time.ppsOut1) = true ∧
    nx (.ppsOutFall 1) { base with time := { base.time with now := 99999, ppsOut1 := true } } (fun t => t.time.ppsOut1) = true := by
  decide +kernel

theorem test_witness_IslandsStayWithinTwoNanoseconds : base.now.toNat + 2 < 2 ^ 64 ∧ (3 : Nat) ≤ 4 ∧
    base.leaf crownIsland = 0 ∧ unitIsland (unitId 5 3 63) = 0x5C3F ∧ unitIsland (unitId 9 0 5) = crownIsland := by decide +kernel

/-- A device whose sensor port 15 is up and enabled. -/
def port15 : State := (((((((base.wrB Fld.timStatus_tree_calibrated true).wrB Fld.siuCtrl_enable true).wrB Fld.siuPortCfg_enable true 15).wrB
  Fld.siuPortCfg_link_up true 15).wrB Fld.timPortCfg_enable true 15).wrN Fld.timPortCfg_profile 0 15))

theorem test_witness_PtpPortsServeTime : port15.ptpOn 15 = true ∧
    nx (.ptpSyncTx 15) port15 (fun t => t.out.length == 2) = true ∧ nx (.ptpAnnounceTx 15) port15 (fun t => t.out.length == 1) = true ∧
    -- R128: once an interval
    nx (.ptpSyncTx 15) port15 (fun t => nx (.ptpSyncTx 15) t (fun u => u.out.length == 2)) = true ∧
    nx (.ptpAnnounceTx 15) port15 (fun t => nx (.ptpAnnounceTx 15) t (fun u => u.out.length == 1)) = true ∧
    nx (.ptpPassiveTimeout 15) (port15.wrB Fld.timPortStat_passive true 15) (fun t => t.rdB Fld.timPortStat_passive 15) = true ∧
    nx (.ptpPassiveTimeout 15) (later (port15.wrB Fld.timPortStat_passive true 15)) (fun t => !t.rdB Fld.timPortStat_passive 15) = true ∧
    nx (.ptpDelayReq 15 false 7) port15 (fun t => t.out == [.ptp 15 0 false 0x9 7 []]) = true ∧
    nx (.ptpAnnounceRx 15 true) port15 (fun t => t.rdB Fld.timPortStat_passive 15) = true ∧
    nx (.followerDelayMeasure 100 150 1000 1050 6) (((base.wrN Fld.wblLinkCfg_role 2 0).wrN Fld.twnStatus_role 2))
      (fun t => t.rdN Fld.timStatus_clock_class == 6 && t.time.linkDelayNs == 50) = true := by decide +kernel

theorem test_witness_EveryStepAnswersAndKeepsTheQueue : State.QueueOk { base with pending := [.nop 5, .railTrip 9] } := by
  intro c h; simp at h; rcases h with rfl | rfl <;> rfl
/-! 03 memory. -/

theorem test_witness_HbmErrorsAndRepairs : (base.wrB Fld.hbmPatrolCtrl_enable true).hbmPlace 0x40 = some (0, 0x40) ∧
    nx (.patrolScrub 0x47 (some .corrected)) (base.wrB Fld.hbmPatrolCtrl_enable true)
      (fun t => t.rd Fld.hbmStackEccCe_ce_count 0 == 1 && t.errAt 0x40 == none) = true ∧
    nx (.patrolScrub 0x47 (some .uncorrectable)) (base.wrB Fld.hbmPatrolCtrl_enable true)
      (fun t => t.rdN Fld.hbmStackErrAddr_ue_addr 0 == 0x40 && t.reports.length == 1) = true ∧
    nx (.softPprComplete 3 7) { base with mem := { base.mem with softPpr := [(3, 7)] } }
      (fun t => t.rdN Fld.hbmStackStatus_soft_ppr_count 3 == 1 && t.bark.graftLog.length == 1) = true ∧
    nx (.vacatedAck 3) (base.wrB Fld.hbmStackStatus_retire_pending true 3) (fun t => t.mem.migrating == [3]) = true ∧
    nx (.retireMigrationDone 3) { (base.wrN Fld.hbmStackStatus_pending_pc 31 3) with mem := { base.mem with migrating := [3], retireQueue := [(3, 8)] } }
      (fun t => t.rdN Fld.hbmStackStatus_pending_pc 3 == 8 && (t.rdN Fld.hbmStackStatus_retired_pc_mask 3).testBit 31) = true := by
  decide +kernel

/-- A device with bank 11 of tile 63 of Stem 3 in a state, and a byte in it. -/
def banked (st : Nat) : State :=
  { (base.setBank ⟨3, 63, 11⟩ st) with sap := memSet [] (bankBase ⟨3, 63, 11⟩ + 0x1FFFF) 7 }

theorem test_witness_SapwoodBanksChangePower : (banked bankStarting).bankState ⟨3, 63, 11⟩ = bankStarting ∧
    nx (.bankPowerUpDone 3 63 11) (banked bankStarting) (fun t => t.bankState ⟨3, 63, 11⟩ == bankOn && t.sap == []) = true ∧
    nx (.bankDrainDone 3 63 11) (banked bankDraining) (fun t => t.bankState ⟨3, 63, 11⟩ == bankOff && t.sap == []) = true ∧
    nx (.sapTilePwrReqWrite 3 63 0x7FF) base
      (fun t => t.bankState ⟨3, 63, 11⟩ == bankDraining && t.bankState ⟨3, 63, 0⟩ == bankOn) = true ∧
    (cmdOf 0 9 [(16, 3), (17, 63), (18, 0x800)]).bankList = [⟨3, 63, 11⟩] ∧
    nx (.bankPower 5) (fly base (cmdOf 0 9 [(16, 3), (17, 63), (18, 0x800)]))
      (fun t => t.bankState ⟨3, 63, 11⟩ == bankDraining) = true ∧
    nx (.bankDrainDone 3 63 11) (fly (banked bankDraining) { (cmdOf 0 9 [(16, 3), (17, 63), (18, 0x800)]) with started := true }) (fun t => ended t stSuccess 0) = true ∧
    nx (.bankRetire 3 63 11) (base.wrN Fld.sapStemStatus_spare_positions 0 3)
      (fun t => t.bankState ⟨3, 63, 11⟩ == bankOff && t.bark.graftLog.length == 1) = true ∧
    nx (.sapwoodScrubDone 0) { (banked bankOn) with mem := { base.mem with handOvers := [⟨.bank ⟨3, 63, 11⟩, none, []⟩] } }
      (fun t => t.sap == [] && t.mem.handOvers == []) = true ∧
    -- R53: the patrol finds an error in a Sapwood word; R66, R67: a window that takes HBM over from partition 1 gives nothing before it is zeroed
    nx (.patrolScrub 0x100000000003 (some .uncorrectable)) (base.wrB Fld.hbmPatrolCtrl_enable true) (fun t => t.errAt 0x100000000000 == some .uncorrectable) = true ∧
    (let s := { base with mem := { base.mem with given := [{ target := 0, lo := 0, hi := 4096, part := some 1 }] } };
      let s := (s.wrB Fld.brkFwCtl_any_partition false 0).winChanged 0;
      s.winHeld 0 = true ∧ s.fwPasses 0 { part := 0, crit := 0, stream := 0 } .read 0 8 = false) ∧
    nx (.hbmZeroDone 0) { base with hbm := [(4095, 1), (4096, 1)], mem := { base.mem with handOvers := [⟨.hbm 0 4096 8192, some 1, []⟩] } }
      (fun t => t.hbm == [(4095, 1)]) = true := by decide +kernel

/-! 04 Bark and register writes. -/

theorem test_witness_LockedSetUpRegistersAreReadOnly : (base.wrB Fld.pciSetupLock_lock true).locked = true ∧
    Fld.brkCsCfg_ftti_ms ∈ Reg.brkCsCfg.info.fields ∧ Fld.brkCsCfg_ftti_ms.access = .rwl ∧ Reg.brkCsCfg.info.perFn = false ∧
    nx (.registerWrite 0 Reg.brkCsCfg.info.offset 4 0x00140000) (base.wrB Fld.pciSetupLock_lock true)
      (fun t => t.rdN Fld.brkCsCfg_ftti_ms == base.rdN Fld.brkCsCfg_ftti_ms) = true := by decide +kernel

theorem test_witness_RegisterWritesTakeEffect : locate Reg.brkTdmaCfg.info.offset = some (.brkTdmaCfg, 0, 0) ∧
    locate 0x3C0108 = some (.trcPertSeed, 0, 0) ∧ locate 0x3C010B = some (.trcPertSeed, 0, 3) ∧
    nx (.registerWrite 0 Reg.brkTdmaCfg.info.offset 4 0xFFFFFFFF) base
      (fun t => t.rdN Fld.brkTdmaCfg_slot_us == 2 ^ Fld.brkTdmaCfg_slot_us.width - 1) = true ∧
    ((base.wrN Fld.secDebugStatus_unlocked 3).wrN Fld.brkStatus_mode 3).pertUnlocked = true ∧
    nx (.pertRegisterWrite 0 0x3C0108 8 5) ((base.wrN Fld.secDebugStatus_unlocked 3).wrN Fld.brkStatus_mode 3)
      (fun t => t.observe.pertState == 5) = true := by decide +kernel

theorem test_witness_BarkCountsAndReacts : base.mode = modeOperational ∧ base.barkRuns = true ∧ knownSource 0x1D = true ∧ sourceClass 0x00 = 2 ∧
    nx (.barkReport { source := 0x1D }) ((base.wrN Fld.brkSrcCfg_reaction 0 0x1D))
      (fun t => t.mode == 1 && t.rd Fld.brkSrcCnt_reports 0x1D == 1) = true ∧
    nx (.barkReport { source := 0x1D }) ((base.wrN Fld.brkSrcCfg_reaction 2 0x1D))
      (fun t => t.mode == 2 && t.bark.faultLow && t.rdN Fld.brkStatus_safe_source == 0x1D) = true ∧
    nx .lockstepMismatch base (fun t => t.mode == 2 && !t.barkRuns && nx .barkRestart t (fun u => u.barkRuns && u.mode == 2)) = true ∧
    nx .barkClockLost base (fun t => t.rdN Fld.brkStatus_safe_source == 1) = true ∧
    nx .barkVectorHoldExpire { base with
        bark := { base.bark with vectorHeld := true }
        pcie := { base.pcie with fns := [{ num := 0, busMaster := true, msixEnable := true, unmasked := [0] }] } }
      (fun t => t.out == [.msix 0 0]) = true ∧
    nx .barkVectorHoldExpire { base with bark := { base.bark with vectorHeld := true, lastVectorNs := some 0 } }
      (fun t => t.bark.vectorHeld) = true := by decide +kernel

/-- A device in the safe state, with nothing that blocks a release. -/
def safe : State := { base.wrN Fld.brkStatus_mode 2 with time := { base.time with now := 1000000000 } }

theorem test_witness_SafeStateEndsAtRelease : safe.releaseBlock = none ∧
    nx (.safeRelease 5) (fly safe (cmdOf 0 0xA0)) (fun t => t.mode == 1 && ended t stSuccess 0) = true ∧
    (let s := { safe with bark := { safe.bark with faultLow := true, sampleSets := [] } };
      nx (.safeRelease 5) (fly (s.wrN Fld.brkStatus_mode 1) (cmdOf 0 0xA0)) (fun t => t.mode == 1)) = true ∧
    nx (.srcCfgWrite 0x3F 3) base (fun t => t.rdN Fld.brkSrcCfg_reaction 0x3F == 2) = true ∧
    -- R464: an FTTI of 20 ms, two lanes and a lag of 200 µs are accepted
    nx (.csCfgWrite 0x101400C8) base
      (fun t => t.rdN Fld.brkCsCfg_ftti_ms == 20 && t.rdN Fld.brkCsCfg_lag_us == 200 && !t.rdB Fld.brkCsCfg_cfg_error) = true ∧
    nx (.csCfgWrite 0x301300C8) base (fun t => t.rdB Fld.brkCsCfg_cfg_error) = true ∧
    nx (.faultLogRead 5) (fly { base with bark := { base.bark with faultLog := [{ seq := 4, time := 0, source := 8, cls := 0, reaction := 0, kind := 0 }] } }
      (cmdOf 0 0xA1 [(16, 1), (20, 4), (24, 0x10000), (32, 5)])) (fun t => ended t stSuccess 1 && t.host != []) = true := by
  decide +kernel
/-! 05 queues. -/

/-- A device with ring group 64 of function 0, its line polled, and ring 1024 of it. -/
def ring (st : SqState) (f : Sq → Sq := id) : State :=
  { base with queues := { base.queues with
      groups := [{ num := 64, fn := 0, dbLine := 0x1000, headLine := 0x2000 }], lines := [{ group := 64, reading := true }]
      sqs := [f { num := 1024, fn := 0, part := 0, crit := 0, log2 := 4, base := 0x10000, state := st }]
      cqs := [{ num := 1025, fn := 0, log2 := 4, base := 0x20000, vector := 1 }] } }

/-- A command waiting on ring 1024 with its record for ring 1025. -/
def waiting (l : List (Nat × Nat)) (f : Cmd → Cmd := id) : State := fly (ring .on) (f { cmdOf 0xC 0 ((48, 1025) :: l) with sq := 1024, phase := .waiting })

theorem test_witness_DoorbellAndFetchRows :
    nx (.doorbellPoll 64) { ring .on with queues := { (ring .on).queues with lines := [{ group := 64 }] } } (fun t => t.out == [.hostRead 0 0x1000 64]) = true ∧
    nx (.lineIdleTimeout 64) { ring .on with time := { base.time with now := 50000 } } (fun t => t.queues.lines.all (fun l => !l.active)) = true ∧
    nx (.doorbellReadReturn 64 true [⟨0x1000, [3]⟩]) (ring .on) (fun t => (t.sq? 1024).map (·.tail) == some 3) = true ∧
    nx (.doorbellReadReturn 64 true [⟨0x1000, [17]⟩]) (ring .on) (fun t => (t.sq? 1024).map (·.state) == some .error) = true ∧
    nx (.doorbellReadReturn 64 false []) (ring .on) (fun t => (t.sq? 1024).map (·.state) == some .error) = true ∧
    nx (.descriptorFetchReturn 1024 true [⟨0x10000, [0x00, 0x0C]⟩, ⟨0x10030, [1, 4]⟩]) (ring .on (fun q => { q with tail := 1, reading := 1 }))
  (fun t => (t.sq? 1024).map (·.fetchedCopy) == some 1 && t.queues.cmds.map (fun c => (c.id, c.opcode, c.engineClass, c.phase)) == [(0, 0, 0xC, .waiting)]) = true ∧
    nx (.descriptorFetchReturn 1024 false []) (ring .on (fun q => { q with tail := 1, reading := 1 })) (fun t => (t.sq? 1024).map (·.state) == some .error) = true ∧
    (let l : Line := { group := 64, readAt := some 100 }
 let s := { ring .on with queues := { (ring .on).queues with lines := [l] }, time := { base.time with now := 349 } }
 s.lineDue l = false ∧ nx (.doorbellPoll 64) s (fun t => t == s) = true ∧
 nx (.doorbellPoll 64) { s with time := { s.time with now := 350 } } (fun t => t.out == [.hostRead 0 0x1000 64]) = true) := by
  decide +kernel

theorem test_witness_CommandsDispatchRetireAndComplete :
    nx (.commandDispatch 5) (waiting [] (fun c => { c with waitMet := true })) (fun t => (t.cmd? 5).map (fun c => (c.phase, c.slot)) == some (.running, some 1025) && (t.cq? 1025).map (·.reserved) == some 1) = true ∧
    nx (.commandRetire 5) (waiting [] (fun c => { c with phase := .finished, slot := some 1025 }))
  (fun t => t.queues.cmds == [] && (t.cq? 1025).map (·.posted) == some 1 && t.host != []) = true ∧
    (memRead ((ring .on).issueRecord 1025 (List.replicate 32 1) false false).host 0x20000 8 == [1, 1, 1, 1, 1, 0x81, 1, 1]) = true ∧
    nx (.headLineReadReturn 1025 true [⟨0x2004, [1]⟩]) ({ ring .on with queues := { (ring .on).queues with cqs := [{ num := 1025, fn := 0, log2 := 4, base := 0x20000, vector := 1, posted := 1, postedCopy := 1, headReading := true }] } })
  (fun t => (t.cq? 1025).map (·.head) == some 1) = true ∧
    nx (.headLineReadReturn 1025 true [⟨0x2004, [2]⟩]) ({ ring .on with queues := { (ring .on).queues with cqs := [{ num := 1025, fn := 0, log2 := 4, base := 0x20000, vector := 1, posted := 1, postedCopy := 1, headReading := true }] } })
  (fun t => (t.cq? 1025).map (·.head) == some 0 && t.queues.events.map (·.code) == [7]) = true ∧
    (let w := waiting [] (fun c => { c with waitMet := true, slotSince := some 0 })
 let s := { w with queues := { w.queues with cqs := [{ num := 1025, fn := 0, log2 := 4, base := 0x20000, vector := 1, posted := 16, postedCopy := 16 }] } }
 nx (.cqStallTimeout 5) (later s) (fun t => t.queues.events.map (·.code) == [1] && nx (.cqStallTimeout 5) t (fun u => u == t)) = true ∧
 nx (.cqStallTimeout 5) s (fun t => t == s) = true) ∧
    nx (.knotWaitTimeout 5) (later (waiting [(8, 7), (10, 1 + 16 * 9)])) (fun t => t.queues.events.map (·.code) == [2]) = true ∧
nx (.knotWaitTimeout 5) (waiting [(8, 7), (10, 1 + 16 * 9)]) (fun t => t.queues.events == []) = true ∧
    -- R98: the posted counts of ring 1025 disagree; its event and the command's record go to ring 0
nx (.commandRetire 5) { (waiting [] (fun c => { c with phase := .finished, slot := some 1025 })) with queues := { (waiting [] (fun c => { c with phase := .finished, slot := some 1025 })).queues with cqs := [{ num := 1025, fn := 0, log2 := 4, base := 0x20000, vector := 1, posted := 1, reserved := 1 }, { num := 0, fn := 0, log2 := 4, base := 0x30000, vector := 0 }] } }
  (fun t => t.queues.cmds == [] && (t.cq? 1025).map (fun q => (q.fault, q.reserved, q.posted)) == some (true, 0, 1) && (t.cq? 0).map (fun q => (q.posted, q.reserved)) == some (2, 0) && memRead t.host 0x30002 2 == [6, 0] && t.reports.map (·.source) == [0x15]) = true ∧
    nx (.commandRetire 5) { (waiting [] (fun c => { c with phase := .finished, slot := some 1025 })) with queues := { (waiting [] (fun c => { c with phase := .finished, slot := some 1025 })).queues with cqs := [{ num := 1025, fn := 0, log2 := 4, base := 0x20000, vector := 1, posted := 1, reserved := 1 }, { num := 0, fn := 0, log2 := 1, base := 0x30000, vector := 0, posted := 1, postedCopy := 1 }] } }
  (fun t => t.queues.cmds.map (·.slot) == [none] && (t.cq? 0).map (·.posted) == some 2) = true ∧
    nx (.commandDispatch 5) (waiting [] (fun c => { c with waitMet := true })) (fun t => (t.cmd? 5).map (fun c => (c.turn, c.srSeed)) == some (1, t.rd Fld.tileSrSeed_seed)) = true ∧
    (let full (r : Bool) : State := { ring .on with queues := { (ring .on).queues with cqs := [{ num := 1025, fn := 0, log2 := 4, base := 0x20000, vector := 1, posted := 16, postedCopy := 16, headReading := r }] } }
 nx (.headLineReadReturn 1025 true [⟨0x2004, [1]⟩]) (full false) (fun t => (t.cq? 1025).map (·.head) == some 0) = true ∧
 ((full false).seekHead 1025).out = [.hostRead 0 0x2000 64]) ∧
    (let s := later { ring .on with queues := { (ring .on).queues with cqs := [{ num := 1025, fn := 0, log2 := 4, base := 0x20000, vector := 1, coalesced := 1, coalesceUs := 9 }] } }
 nx (.cqCoalesceTimeout 1025) { s with time := base.time } (fun t => (t.cq? 1025).map (·.coalesced) == some 1) = true ∧
 nx (.cqCoalesceTimeout 1025) { s with pcie := { s.pcie with fns := [{ num := 0, busMaster := true, msixEnable := true, unmasked := [1] }] } } (fun t => t.out == [.msix 0 1]) = true ∧
 nx (.cqCoalesceTimeout 1025) { s with pcie := { s.pcie with fns := [{ num := 0, busMaster := false }] } } (fun t => t.queues.held == [.message 0 1]) = true) ∧
    (let e : QEvent := { fn := 0, code := 1, ring := 7, detail := 0 }
 (({ ring .on with queues := { (ring .on).queues with held := [HeldWrite.event e] } }).noteEvent 0 1 7 0).queues.held.map (fun (h : HeldWrite) => match h with | .event e => e.count | _ => 0) = [2]) ∧
    (let s := { ring .on with queues := { (ring .on).queues with cqs := [{ num := 1025, fn := 0, log2 := 4, base := 0x20000, vector := 1 }, { num := adminRing 0, fn := 0, log2 := 4, base := 0x30000, vector := 0, fault := true }] } }
 s.recordsStop 0 = true ∧ (s.issueRecord 1025 (List.replicate 32 1) false false).host = []) ∧
    nx (.busMasterChange 0 false) base (fun t => t.pcie.fns.map (·.busMaster) == [false]) = true ∧
  nx (.busMasterChange 0 true) { base with pcie := { base.pcie with fns := [{ num := 0 }] } } (fun t => t.pcie.fns.map (·.busMaster) == [true]) = true := by
  decide +kernel

theorem test_witness_RingsAreCreatedAndOrdered :
    nx (.sqCreate 5) (fly { ring .on with queues := { (ring .on).queues with sqs := [] } } (cmdOf 0 1 [(16, 1039), (20, 4), (24, 0x5000)]))
  (fun t => (t.sq? 1039).map (fun q => (q.base, q.state)) == some (0x5000, .off) && ended t stSuccess 0) = true ∧
    nx (.sqCreate 5) (fly (ring .on) (cmdOf 0 1 [(16, 1024), (20, 4)])) (fun t => ended t stRingState 2) = true ∧
    nx (.cqCreate 5) (fly (ring .on) (cmdOf 0 2 [(16, 1039), (20, 16), (24, 0x5000)])) (fun t => (t.cq? 1039).isSome && ended t stSuccess 0) = true ∧
    nx (.ringEnable 5) (fly (ring .off) (cmdOf 0 3 [(16, 1024)])) (fun t => (t.sq? 1024).map (·.state) == some .starting && ended t stSuccess 0) = true ∧
    nx (.ringEnable 5) (fly (ring .draining) (cmdOf 0 3 [(16, 1024)])) (fun t => (t.sq? 1024).map (·.reenable) == some true) = true ∧
    nx (.ringDrain 5 true []) (fly (ring .starting) (cmdOf 0 3 [(16, 1024), (18, 1)])) (fun t => (t.sq? 1024).map (·.drainPending) == some true) = true ∧
    nx (.ringKill 5) (fly (ring .on) (cmdOf 0 3 [(16, 1024), (18, 2)])) (fun t => (t.sq? 1024).map (·.state) == some .off) = true ∧
    nx (.ringDeleteSq 5) (fly (ring .off) (cmdOf 0 3 [(16, 1024), (18, 3)])) (fun t => t.queues.sqs == [] && ended t stSuccess 0) = true ∧
    nx (.ringDeleteCq 5) (fly (ring .off) (cmdOf 0 3 [(16, 1025), (18, 4)])) (fun t => t.queues.cqs == [] && ended t stSuccess 0) = true ∧
    nx (.ringDrain 5 true []) (fly (ring .on) (cmdOf 0 3 [(16, 1040), (18, 1)])) (fun t => ended t stRingState 0xFF) = true ∧
    nx (.ringStartReadReturn 1024 true [⟨0x1000, [0xFF, 0xFF, 0xFF, 0xFF]⟩]) (ring .starting) (fun t => (t.sq? 1024).map (fun q => (q.state, q.fetched, q.tail)) == some (.on, 0xFFFFFFFF, 0xFFFFFFFF)) = true ∧
    nx (.groupAlloc 5) (fly base (cmdOf 0 4 [(16, 255), (24, 0x1000), (32, 0x2000)])) (fun t => t.groupFn 255 == some 0 && ended t stSuccess 255) = true ∧
    nx (.groupFree 5) (fly { ring .off with queues := { (ring .off).queues with sqs := [], cqs := [] } } (cmdOf 0 5 [(16, 64)])) (fun t => t.groupFn 64 == none) = true ∧
    nx (.adminCfgEnable 0 0x80000410) (((base.wrN Fld.crnAdminSqBase_base 1 0).wrN Fld.crnAdminCqBase_base 2 0))
  (fun t => (t.sq? (adminRing 0)).map (fun q => (q.state, q.log2, q.base)) == some (.on, 16, 4096) && (t.cq? (adminRing 0)).map (·.log2) == some 4) = true := by
  decide +kernel

theorem test_witness_KnotsCountSignals :
    knotsOkFrom 0 base.queues.knots = true ∧
    nx (.nop 5) (fly base (cmdOf 0xC 0)) (fun t => ended t stSuccess 0) = true ∧
    nx (.knotSignal 5) (fly ((((base.wrB Fld.crnKnotOwner_valid7 true 1).wrN Fld.crnKnotOwner_partition7 0 1).setKnot 4095 0xFFFFFFFFFFFFFFFF)) (cmdOf 0xC 1 [(18, 4095), (20, 1)]))
  (fun t => t.queues.knots == [] && ended t stKnotWrap 4095) = true ∧
    nx (.knotSignal 5) (fly (base.setKnot 4095 1) (cmdOf 0xC 1 [(18, 4095), (20, 1)])) (fun t => ended t stOwnership 18) = true ∧
    nx (.knotReset 5) (fly (waiting [(8, 7), (10, 1 + 16 * 9)] (fun c => { c with id := 6 })) (cmdOf 0xC 2 [(18, 7), (20, 9)]))
  (fun t => t.knot 7 == 9 && ended t stSuccess 0 && (t.cmd? 6).map (·.waitMet) == some true) = true ∧
    nx (.knotArm 5) (fly base (cmdOf 0xC 3 [(18, 7), (20, 1), (28, 3)])) (fun t => t.queues.arms.map (·.vector) == [3] && ended t stSuccess 0) = true := by
  decide +kernel

/-- Block 0 of the Knots has no owner field that a write sets (R99, R120). -/
theorem test_knotBlock0HasNoOwner :
    nx (.registerWrite 0 Reg.crnKnotOwner.info.offset 8 0xFFFFFFFFFFFFFFFF) base
      (fun t => (t.regRead 0 Reg.crnKnotOwner.info.offset 8).2 == [0, 0xBF, 0xBF, 0xBF, 0xBF, 0xBF, 0xBF, 0xBF]) = true := by
  decide +kernel

/-! 06 sweep ingest. -/

/-- The key of the test sensor, its Ethernet frame with a 4-byte FCS round a UDP payload, and a point packet of one point. -/
def key : FrameKey := { port := 15, srcMac := 7, srcIp := mappedV4 0x0A000001, udpPort := 0x0940, sensorId := 9 }
def udp (p : List Byte) : List Byte :=
  let n := p.length + 8
  [1, 0, 0x5E, 0, 0, 1, 0, 0, 0, 0, 0, 7, 8, 0] ++ ([0x45, 0] ++ natToBytesBE 2 (n + 20) ++ [0, 0, 0, 0, 1, 17, 0, 0, 10, 0, 0, 1, 224, 0, 0, 1])
    ++ (natToBytesBE 2 1 ++ natToBytesBE 2 0x0940 ++ natToBytesBE 2 n ++ [0, 0]) ++ p ++ [0, 0, 0, 0]
def packet : List Byte :=
  natToBytes 4 magicPoint ++ [1, 1] ++ [9, 0] ++ List.replicate 8 0 ++ [1, 0] ++ List.replicate 14 0
    ++ natToBytes 3 1000 ++ natToBytes 3 0xFFFFFF ++ List.replicate 10 0

/-- A stream set of 100 ms windows with its table, and a context for the sensor. -/
def cfg0 : SetCfg := { depth := 1, poseSource := 0, periodUs := 100000, phaseUs := 0, graceUs := 0, maxAuto := 0, maxPoints := 100, closeKnot := 7, route := some 63 }
def sensor : Ctx := {
  id := 131071, key := key, state := .active, format := .pointPacket, template := false, auto := false, timeSource := false,
  set := 255, calib := 0, program := 0, part := 0, ageMs := 1, lagNs := 0, maxPoints := 8, extQ := [0x3F800000, 0, 0, 0], extT := [0, 0, 0], maxRangeMm := 0 }
def ingest (f : Ingest → Ingest := id) : State :=
  let s := ((base.wrB Fld.siuCtrl_enable true).wrB Fld.siuPortCfg_enable true 15).wrB Fld.timStatus_tree_calibrated true
  { s with ingest := f { s.ingest with sets := [{ num := 255, part := 0, cfg := cfg0, nextClose := some 0 }], ctxs := [sensor], cache := [131071] }
           time := { s.time with now := 5000000 } }
def linkUp (s : State) : State := s.wrB Fld.siuPortCfg_link_up true 15
def queued : QFrame := { stamp := 5000000, length := 100, key := key, srcUdpPort := 1, isV6 := false, payload := packet, ctx := 131071 }
def inFifo (f : QFrame) : State := ingest (fun i => { i with fifos := List.replicate 15 {} ++ [{ frames := [f], wr := 1, wrCopy := 1 }] })
def raw : RawPoint := {
  ctx := 131071, base := 5000000, offsetNs := 0, metric := false, x := 1, y := 2, z := 3, intensity := 0, beam := 0, ret := 0,
  set := 255, lagNs := 0, extQ := [0x3F800000, 0, 0, 0], extT := [0, 0, 0] }

/-- The stream set of the test sensor, 5 ms into its window 0 and 100 ms into it. -/
def set0 : StreamSet := { num := 255, part := 0, cfg := cfg0, nextClose := some 0 }
def late : State := { ingest with time := { base.time with now := 100000010 } }

/-- Window 0 is open after 5 ms, and window 2 is not, whatever the time of the SIU's clock island is. -/
theorem test_windowOpen (s : State) (h : s.now.toNat = 5000000) : s.windowOpen set0 0 = true ∧ s.windowOpen set0 2 = false := by
  have := s.leaf_near siuIsland 4999998 5000002 (by omega) (by omega) (by decide)
  simp [State.windowOpen, set0, cfg0, SetCfg.start, SetCfg.stop, SetCfg.closes]
  omega

theorem test_witness_SensorFramesReachTheirContext_dropsPoint :
    (ingest (fun i => { i with deskew := [{ raw with offsetNs := 200000000 }] })).set? 255 = some set0 ∧
    set0.cfg.window ({ raw with offsetNs := 200000000 } : RawPoint).time = 2 ∧
    (ingest (fun i => { i with deskew := [{ raw with offsetNs := 200000000 }] })).windowOpen set0 2 = false ∧
    (ingest (fun i => { i with deskew := [{ raw with offsetNs := 200000000 }] })).ctx? 131071 = some sensor :=
  ⟨by decide +kernel, by decide +kernel, (test_windowOpen _ (by decide +kernel)).2, by decide +kernel⟩

theorem test_witness_SensorFramesReachTheirContext_ages :
    (ingest).ctx? 131071 = some sensor ∧ sensor.template = false ∧ sensor.ageMs ≠ 0 ∧ sensor.auto = false ∧ sensor.state = .active ∧
    sensor.lastNs.toNat + sensor.ageMs * 1000000 ≤ ((ingest).leaf siuIsland).toNat ∧
    ((ingest).leaf siuIsland).toNat < sensor.lastNs.toNat + 6 * 1000000 := by
  have := (ingest).leaf_near siuIsland 4999998 5000002 (by decide +kernel) (by decide +kernel) (by decide)
  have h : sensor.lastNs.toNat + sensor.ageMs * 1000000 = 1000000 := by decide +kernel
  have h' : sensor.lastNs.toNat = 0 := by decide +kernel
  exact ⟨by decide +kernel, by decide +kernel, by decide +kernel, by decide +kernel, by decide +kernel, by omega, by omega⟩

theorem test_witness_SweepWindowsOpenAndClose_closes :
    late.set? 255 = some set0 ∧ set0.nextClose = some 0 ∧ cfg0.closes 0 ≤ ((late.leaf siuIsland).toNat : Int) ∧
    (((ingest).leaf siuIsland).toNat : Int) < cfg0.closes 0 := by
  have h1 := late.leaf_near siuIsland 100000000 100000020 (by decide +kernel) (by decide +kernel) (by decide)
  have h2 := (ingest).leaf_near siuIsland 4999998 5000002 (by decide +kernel) (by decide +kernel) (by decide)
  have h : cfg0.closes 0 = 100000000 := by decide +kernel
  exact ⟨by decide +kernel, by decide +kernel, by omega, by omega⟩

theorem test_witness_SensorFramesReachTheirContext :
    -- R141: a frame for the solicited-node group of another address
((linkUp (ingest)).takesMac 15 ([0x33, 0x33, 0xFF, 1, 2, 3] ++ List.replicate 58 0)) = false ∧
    ((linkUp (ingest)).takesMac 15 (udp packet)) = true ∧
    nx (.sensorPortLinkUp 15) (ingest) (fun t => t.portReceives 15) = true ∧
    nx (.sensorPortLinkDown 15) (linkUp (ingest)) (fun t => !t.portReceives 15) = true ∧
    nx (.sensorFrameRx 15 (udp packet) false) (linkUp (ingest)) (fun t => t.rd Fld.siuPortCnt_count (7 * 15 + pcFcs) == 1 && (t.fifo 15).frames == []) = true ∧
    nx (.sensorFrameRx 15 (udp packet) true) (linkUp (ingest)) (fun t => t.rd Fld.siuPortCnt_count (7 * 15 + pcRx) == 1 &&
  (t.fifo 15).frames.map (fun f => (f.key, f.payload)) == [(key, packet)]) = true ∧
    nx (.sensorFrameRx 15 (udp packet) true) (linkUp (ingest (fun i => { i with ctxs := [{ sensor with state := .disabled }] })))
  (fun t => t.rd Fld.siuPortCnt_count (7 * 15 + pcRx) == 1 && (t.fifo 15).frames == []) = true ∧
    nx (.frameParse 15) (inFifo queued) (fun t => (t.fifo 15).frames == [] && t.ingest.deskew.map (fun p => (p.x, p.y, p.z, p.base)) == [(1000, -1, 0, 5000000)]) = true ∧
    nx (.contextFetchDone 131071) (ingest (fun i => { i with cache := [], fetching := [131071] })) (fun t => t.ingest.cache == [131071] && t.ingest.fetching == []) = true ∧
    nx (.discoveryHoldoffExpire key) (later (ingest (fun i => { i with filter := [(key, 0)] }))) (fun t => t.ingest.filter == []) = true ∧
nx (.discoveryHoldoffExpire key) (ingest (fun i => { i with filter := [(key, 0)] })) (fun t => t.ingest.filter == [(key, 0)]) = true ∧
    nx (.ingestHeadLineRead true [⟨0x3004, [2]⟩]) (ingest (fun i => { i with headLine := 0x3000, discovery := some { log2 := 4, base := 0x4000 }, events := some { log2 := 4, base := 0x5000 } }))
  (fun t => t.ingest.events.map (·.readCount) == some 2 && t.ingest.discovery.map (·.readCount) == some 0) = true := by
  decide +kernel

/-- A batch of window 0 of the set, re-expressed or not, and devices that hold some. -/
def sweepBatch (re : Bool) : Batch := ⟨255, 0, re, [], false, true, 0⟩
def sweeps (route : Option Nat) (l : List Batch) (f : State → State := id) : State :=
  f (ingest (fun i => { i with batches := l, sets := [{ set0 with cfg := { cfg0 with route := route } }] }))
def table63 (q : List QBatch := []) (s : State) : State :=
  { s with compute := { base.compute with tables := [{ id := 63, part := 0, cfg := default, queue := q }] } }
/-- A RUN that takes no points. -/
def bare (s : State) : State := { s with queues := { s.queues with runs := [{ cmd := 9, handle := 0, part := 0, set := 255, frameCount := 0 }] } }

theorem test_witness_SweepWindowsOpenAndClose :
    ((sweeps none [sweepBatch false] bare).nextBatch 255 == some (sweepBatch false) && (sweeps none [sweepBatch false] bare).batchTo (sweepBatch false) == .nowhere) = true ∧
    ((sweeps none [sweepBatch false]).nextBatch 255 == none && (sweeps none [sweepBatch false]).batchTo (sweepBatch false) == .waits) = true ∧
    ((sweeps (some 63) [sweepBatch true, sweepBatch false] (table63 [])).nextBatch 255 == some (sweepBatch false) &&
  !(sweeps (some 63) [sweepBatch true, sweepBatch false] (table63 [])).canPush (sweepBatch true)) = true ∧
    ((sweeps (some 63) [sweepBatch true] (table63 [])).nextBatch 255 == some (sweepBatch true)) = true ∧
    ((sweeps (some (0x1000 + 63 * 64)) []).batchTo ⟨255, 1, false, [], false, true, 0⟩ == .table 63) = true ∧
    ((sweeps (some 63) [sweepBatch false] (table63 (List.replicate 64 default))).canPush (sweepBatch false)) = false ∧
    nx (.batchTimeout 255) (later (ingest (fun i => { i with batches := [⟨255, 0, false, [], false, false, 0⟩] }))) (fun t => t.ingest.batches.map (·.closed) == [true]) = true ∧
nx (.batchTimeout 255) (ingest (fun i => { i with batches := [⟨255, 0, false, [], false, false, 0⟩] })) (fun t => t.ingest.batches.map (·.closed) == [false]) = true ∧
    nx (.batchPush 255) { ingest (fun i => { i with batches := [⟨255, 0, false, [], false, true, 0⟩] }) with compute := { base.compute with tables := [{ id := 63, part := 0, cfg := default }] } }
  (fun t => t.ingest.batches == [] && t.compute.tables.map (fun t => (t.accepted, t.queue.map (·.window))) == [(1, [some 0])]) = true ∧
    nx (.windowStart 255) (ingest (fun i => { i with sets := [{ num := 255, part := 0, cfg := cfg0, next := some { cfg0 with periodUs := 1000 } }] }))
  (fun t => (t.set? 255).map (fun x => (x.cfg.periodUs, x.next, x.windows)) == some (1000, none, [])) = true ∧
    nx (.windowFrameReady 255) (ingest (fun i => { i with sets := [{ num := 255, part := 0, cfg := cfg0, windows := [{ k := 0, isOpen := false, livePushed := true, rePushed := true }] }] }))
  (fun t => t.knot 7 == 1 && (t.set? 255).map (fun x => x.windows.map (·.ready)) == some [true]) = true := by
  decide +kernel

/-- The 128-byte image of the test sensor's context, at HBM address 0x1000. -/
def image : State := { ingest with hbm := memWrite [] 0x1000 sensor.bytes }

/-- The same image in host memory, as one of a template or not, and the body of the command that brings it. -/
def brings (tp : Bool) : State :=
  { image with ingest := { (ingest).ingest with ctxs := [] }, host := memWrite [] 0x1000 { sensor with template := tp }.bytes }
def bringer (tp : Bool) : Cmd := cmdOf 0 (if tp then 0x13 else 0x11) [(24, 0x1000)]

/-- What SENSOR_ADD and TEMPLATE_SET ask of an image that they accept. -/
def accepts (s : State) (c : Cmd) (tp : Bool) : Bool :=
  match s.imageLoad c true (c.b 24 8) 128 with
  | (s1, .ok p) =>
    let x := ctxOf 0 c.part p
    !imageBad p && x.template == tp && x.state == .active && !s1.setElsewhere c.part x.set && (s1.set? x.set).isSome &&
      (tp || (s1.keyHolder x.key none).isNone) && s1.freeCtx.isSome && s1.admissionFault x.set [x] == none && (s1.cmd? c.id).isSome
  | _ => false

/-- A configuration of stream set 255 of 50 ms windows, and the device that takes it. -/
def setter : Cmd := cmdOf 0 0x10 [(16, 255), (18, 1), (20, 50000), (32, 100)]
def takesSet : State := fly (ingest) setter

theorem test_witness_IngestSetUpCommands_firmware : (takesSet.firmwareCfg 255 0 (setter.setCfg true)).2.isSome = true := by
  have h := @State.placeHbm_isSome (takesSet.updSet 255 (fun x => { x with next := none })) 0 (setter.setCfg true).bufferBytes 64 []
    (by decide +kernel)
  simpa [State.firmwareCfg] using h

theorem test_witness_IngestSetUpCommands :
    ((takesSet.running 5 0 0x10).isSome && !takesSet.setElsewhere 0 255 && !takesSet.setInUse 255 && (takesSet.set? 255).isSome &&
  (takesSet.updSet 255 (fun x => { x with cfg := setter.setCfg true })).admissionFault 255 [] == none) = true ∧
    (accepts (fly (brings false) (bringer false)) (bringer false) false && accepts (fly (brings true) (bringer true)) (bringer true) true) = true ∧
    nx (.ctxRead 5) (fly { (ingest (fun i => { i with ctxs := [{ sensor with basic := true }] })) with queues := { base.queues with runs := [{ cmd := 9, handle := 0, part := 0, set := 255, frameCount := 0 }] } } (cmdOf 1 2 [(16, 131071), (24, 0x1000)])) (fun t => ended t stOwnership 16) = true ∧
    nx (.setWrite 5) (fly (ingest (fun i => { i with sets := [] })) (cmdOf 1 4 [(16, 255), (18, 1), (20, 50000), (32, 100)]))
  (fun t => (t.set? 255).map (fun x => x.next.map (·.periodUs)) == some (some 50000) && ended t stSuccess 0) = true ∧
    nx (.setWrite 5) (fly { ingest with queues := { base.queues with runs := [{ cmd := 9, handle := 0, part := 0, set := 255, frameCount := 0 }] } } (cmdOf 1 4 [(16, 255)]))
  (fun t => ended t stSetInUse 255) = true ∧
    nx (.sensorRemove 5) (fly (ingest) (cmdOf 0 0x12 [(16, 131071)])) (fun t => t.ingest.ctxs == [] && ended t stSuccess 0) = true ∧
    nx (.sensorRemove 5) (fly (ingest (fun i => { i with ctxs := [{ sensor with part := 1 }] })) (cmdOf 0 0x12 [(16, 131071)])) (fun t => ended t stOwnership 16) = true ∧
    nx (.sensorRead 5) (fly (ingest) (cmdOf 0 0x18 [(16, 131071), (24, 0x1000)])) (fun t => ended t stSuccess 0) = true ∧
    nx (.sensorRead 5) (fly (ingest) (cmdOf 0 0x18 [(16, 1)])) (fun t => ended t stContextAbsent 1) = true ∧
    nx (.ctxRead 5) (fly (ingest) (cmdOf 1 2 [(16, 131071), (24, 0x1000)])) (fun t => ended t stSuccess 0 && memRead t.hbm 0x1000 80 == sensor.bytes.take 80) = true ∧
    nx (.ctxWrite 5) (fly { image with ingest := { (ingest).ingest with ctxs := [] } } (cmdOf 1 1 [(16, 131071), (24, 0x1000)]))
  (fun t => ended t stSuccess 0 && t.ingest.ctxs == [sensor]) = true ∧
    nx (.calibLoad 5) (fly { ingest with host := memWrite [] 0x1000 [1] } (cmdOf 0 0x14 [(16, 1023), (24, 0x1000), (32, 32)]))
  (fun t => ended t stSuccess 0 && t.ingest.calibs.map (fun k => (k.num, k.entries.length)) == [(1023, 1)]) = true ∧
    nx (.programLoad 5) (fly { ingest with hbm := memWrite [] 0x1000 [5] } (cmdOf 1 3 [(16, 8191), (18, 1), (24, 0x1000)])) (fun t => ended t stSuccess 0 && t.ingest.store == [(8191, 5)]) = true ∧
    nx (.programLoad 5) (fly (ingest) (cmdOf 1 3 [(16, 8191), (18, 2), (24, 0x1000)])) (fun t => ended t stProgramRange 0) = true ∧
    nx (.poseSourceConfig 5) (fly (ingest) (cmdOf 0 0x15 [(16, 15), (18, 200)])) (fun t => ended t stSuccess 0 && t.ingest.poses.map (fun p => (p.num, p.gapMs)) == [(15, 200)]) = true ∧
    nx (.posePush 5) (fly { ingest (fun i => { i with poses := [{ num := 15 }] }) with host := memWrite [] 0x1000 (natToBytes 8 1 ++ List.replicate 12 0 ++ natToBytes 4 0x3F800000) }
  (cmdOf 0 0x16 [(16, 15), (17, 2), (24, 0x1000)])) (fun t => ended t stPoseRejected 1 && t.ingest.poses.map (fun p => p.records.map (·.t)) == [[1]]) = true ∧
    nx (.ingestQueues 5) (fly (ingest) (cmdOf 0 0x17 [(16, 4), (17, 5), (24, 0x4000), (32, 0x5000), (40, 0x3000)]))
  (fun t => ended t stSuccess 0 && t.ingest.events.map (fun r => (r.log2, r.base)) == some (5, 0x5000) && t.ingest.headLine == 0x3000) = true := by
  decide +kernel

/-! 08 voxel tables. -/

/-- A one-Stem table of eight slots in HBM, its configuration and a state that has it. -/
def tcfg : TableCfg := { (default : TableCfg) with log2 := 3, n := 1, inHbm := true, reduce := 0, maxCells := 2, voxel := [100, 100, 100], cIn := 1, splitDepth := 1, origin := [0, 0, 0], base := 0x10000, accBase := 0x20000, crop := [0, 9, 0, 9, 0, 9] }
def tab (f : Table → Table) : State := { base with compute := { base.compute with tables := [f { id := 63, part := 0, cfg := tcfg }] } }
def batch (w : Option Int) (cmd : Option Nat) : QBatch := { window := w, final := true, points := [], batch := 0, cmd := cmd, last := true }
def order (clear : Bool) : TableOrder := { cmd := 5, clear := clear, waitFinal := false, out := ⟨0, true, ⟨0, 0, 0⟩, 0x30000⟩, batchesBefore := 0, pinsBefore := [] }

theorem test_witness_VoxelTablesTakeBatches :
    nx (.vheBatchAccept 63) (tab (fun t => { t with queue := [batch none (some 5)] })) (fun t => (t.table? 63).map (fun x => (x.state, x.queue.map (·.accepted))) == some (.filling, [true])) = true ∧
    nx (.vheBatchAccept 63) (tab (fun t => { t with queue := [batch (some 4) none] })) (fun t => (t.table? 63).map (fun x => (x.state, x.frameTag)) == some (.filling, some 4)) = true ∧
    nx (.vheBatchAccept 63) (tab (fun t => { t with queue := [{ batch (some 3) none with points := [default] }], frameTag := some 4 })) (fun t => (t.table? 63).map (fun x => (x.queue, x.counts.stalePoints)) == some ([], 1)) = true ∧
    nx (.vheChunk 63) (fly (tab (fun t => { t with queue := [{ batch none (some 5) with accepted := true }] })) (cmdOf 2 3)) (fun t => (t.table? 63).map (fun x => (x.queue, x.finalSeen)) == some ([], true) && ended t stSuccess 0) = true ∧
    nx (.vheInsert 5) (fly { tab id with hbm := [(0x1000, 1)] } (cmdOf 2 3 [(16, 63), (20, 1), (24, 0x1000)])) (fun t => (t.table? 63).map (fun x => x.queue.map (fun q => (q.points.map (·.x), q.cmd, q.last))) == some [([1], some 5, true)]) = true ∧
    nx (.maxprobeRead 3) (base.wrN Fld.vheStemMaxprobe_max_probe 5 3) (fun t => t.rdN Fld.vheStemMaxprobe_max_probe 3 == 0 && t.out == [.completion 0 0 [5, 0, 0, 0, 0, 0, 0, 0]]) = true := by
  decide +kernel

theorem test_witness_VoxelTableCommands :
    nx (.voxelGridSet 5) (fly (ingest) (cmdOf 0 0x20 [(16, 255), (18, 100), (20, 100), (22, 100)] [desc [(8, 9)]])) (fun t => (t.set? 255).map (fun x => x.grid.map (·.length)) == some (some 12) && ended t stSuccess 0) = true ∧
    nx (.voxelAdmitCheck 5) (fly { ingest with queues := { base.queues with packages := [{ handle := 65535, part := 0, minBanks := 0, tiles := [0, 0, 0, 0] }] } } (cmdOf 0 0x21 [(16, 255), (18, 65535)])) (fun t => (t.cmd? 5).map (·.status) == some stSuccess) = true ∧
    nx (.vheCreate 5) (fly base (cmdOf 2 1 [(16, 63), (17, 0x80 + 12), (31, 0)] [desc [(4, 0x10000), (10, 0x40000)], desc [(8, 9)]])) (fun t => ended t stSuccess (BitVec.ofNat 32 ((t.table? 63).map (·.cfg.rowBytes)).get!) && (t.table? 63).map (fun x => (x.state, x.epoch, x.cfg.log2)) == some (.empty, 1, 12)) = true ∧
    nx (.vheCreate 5) (fly (tab id) (cmdOf 2 1 [(16, 63)])) (fun t => ended t stTableExists 63) = true ∧
    nx (.vheClear 5) (fly (tab id) (cmdOf 2 2 [(16, 63)])) (fun t => (t.table? 63).map (fun x => x.orders.map (fun o => (o.cmd, o.clear))) == some [(5, true)]) = true ∧
    nx (.vheClearEffect 63) (fly (tab (fun t => { t with state := .filling, orders := [order true] })) (cmdOf 2 2 [(16, 63)])) (fun t => (t.table? 63).map (·.state) == some .clearing) = true ∧
    nx (.vheClearEffect 63) (fly (tab (fun t => { t with state := .clearing, epoch := 126, cells := [9, 0, 0, 0], orders := [order true] })) (cmdOf 2 2 [(16, 63)]))
  (fun t => (t.table? 63).map (fun x => (x.state, x.epoch, x.cells)) == some (.empty, 127, [0, 0, 0, 0]) && ended t stSuccess 0) = true ∧
    nx (.vheFinalise 5) (fly (tab id) (cmdOf 2 4 [(16, 63), (17, 4), (24, 0x30000)])) (fun t => (t.table? 63).map (fun x => x.orders.map (fun o => (o.clear, o.out.base))) == some [(false, 0x30000)]) = true ∧
    nx (.vheFinaliseEffect 63) (fly (tab (fun t => { t with state := .filling, orders := [order false] })) (cmdOf 2 4 [(16, 63)])) (fun t => (t.table? 63).map (·.state) == some .final && ended t stSuccess 0) = true ∧
    nx (.vheLookup 5) (fly (tab (fun t => { t with state := .final, pins := [5] })) (cmdOf 2 5 [(16, 63), (17, 0x80), (20, 1), (24, 0x1000), (32, 0x2000)])) (fun t => ended t stSuccess 0 && memRead t.hbm 0x2000 4 == [0, 0, 0, 0x40]) = true ∧
    nx (.vheDestroy 5) (fly (tab id) (cmdOf 2 6 [(16, 63)])) (fun t => t.compute.tables == [] && ended t stSuccess 0) = true ∧
    nx (.vheLookup 5) (fly base (cmdOf 2 5 [(16, 63)])) (fun t => ended t stTableAbsent 63) = true ∧
    nx (.vheClear 5) (fly (tab (fun t => { t with part := 1 })) (cmdOf 2 2 [(16, 63)])) (fun t => ended t stOwnership 16) = true ∧
  nx (.vheInsert 5) (fly (tab (fun t => { t with part := 1 })) (cmdOf 2 3 [(16, 63)])) (fun t => ended t stOwnership 16) = true ∧
  nx (.vheFinalise 5) (fly (tab (fun t => { t with part := 1 })) (cmdOf 2 4 [(16, 63)])) (fun t => ended t stOwnership 16) = true ∧
  nx (.vheLookup 5) (fly (tab (fun t => { t with part := 1 })) (cmdOf 2 5 [(16, 63)])) (fun t => ended t stOwnership 16) = true ∧
  nx (.vheDestroy 5) (fly (tab (fun t => { t with part := 1 })) (cmdOf 2 6 [(16, 63)])) (fun t => ended t stOwnership 16) = true := by
  decide +kernel

/-! 09 sparse convolutions. -/

/-- Table 62 FINAL with one cell in Stem 0 beside an EMPTY table 63, and a layer of command 5 from 62 to 63. -/
def layer (f : Conv → Conv) (g : Table → Table := id) : State := { base with compute := { base.compute with
  tables := [{ id := 62, part := 0, cfg := tcfg, state := .final, cells := [1, 0, 0, 0] }, g { id := 63, part := 0, cfg := tcfg }]
  convs := [f { cmd := 5, mode := .strided, inTable := 62, outTable := 63, mapOnly := false, mapPhase := false }] } }
def group1 : SiteGroup := { stem := 0, num := 0, pairs := [⟨0, 0, 0, false⟩], itemsLeft := 1 }
def args : KmeArgs := (cmdOf 3 1 [(16, 62), (17, 63), (18, 2), (19, 2), (20, 2)]).kmeArgs

theorem test_witness_SparseLayersMakeTheirSites :
    nx (.sparseAdmitCheck 5) (fly { ingest with queues := { base.queues with packages := [{ handle := 1, part := 0, minBanks := 0, tiles := [0, 0, 0, 0] }] } } (cmdOf 0 0x30 [(16, 255), (18, 1)])) (fun t => ended t stSuccess 0xFFFFFFFF) = true ∧
    nx (.spillPoolSet 5) (fly base (cmdOf 0 0x31 [(24, 0x100000), (32, 1)])) (fun t => t.compute.spillPools == [(0, 0x100000, 1)] && ended t stSuccess 0) = true ∧
    nx (.spillPoolSet 5) (fly { base with compute := { base.compute with spillPools := [(0, 1, 1), (1, 2, 2)] } } (cmdOf 0 0x31)) (fun t => t.compute.spillPools == [(1, 2, 2)] && ended t stSuccess 0) = true ∧
    nx (.kmeConv 5) (fly (layer id) (cmdOf 3 1 [(16, 61)])) (fun t => ended t stTableAbsent 61) = true ∧
    nx (.kmeMapWrite 5) (fly { layer id with compute := { (layer id).compute with convs := [] } } (cmdOf 3 2 [(16, 62 + 128), (17, 63), (28, 0x100000), (34, 0x100000)]))
  (fun t => (t.table? 63).map (fun x => (x.state, x.heldBy)) == some (.filling, some 5) && (t.table? 62).map (·.pins) == some [5] &&
    (t.conv? 5).map (fun v => (v.mapPhase, v.mapOnly)) == some (false, true)) = true ∧
    nx (.kmeConv 5) (fly { layer id with compute := { (layer id).compute with convs := [] } } (cmdOf 3 1 [(16, 62 + 128), (17, 63), (24, 0x40)] [desc [(4, 0x40000), (10, 0x50000), (16, 0x40), (21, 0x40), (32, 1)]]))
  (fun t => (t.table? 63).map (fun x => (x.state, x.heldBy)) == some (.filling, some 5) && (t.conv? 5).map (·.mapOnly) == some false) = true ∧
    nx (.sitePhaseEnd 5) (fly (layer (fun v => { v with siteDone := [1, 0, 0, 0] }) (fun t => { t with state := .filling, heldBy := some 5, cells := [1, 0, 0, 0] })) (cmdOf 3 1 [(16, 62), (17, 63)] [desc [(32, 1)]]))
  (fun t => (t.table? 63).map (·.state) == some .final && (t.conv? 5).map (·.mapPhase) == some true) = true ∧
    nx (.sitePhaseEnd 5) (fly (layer (fun v => { v with siteDone := [1, 0, 0, 0] }) (fun t => { t with state := .filling, heldBy := some 5, cells := [1, 0, 0, 0] })) (cmdOf 3 1 [(16, 62), (17, 63)] [desc []]))
  (fun t => ended t stFeaturePlacement 3) = true ∧
    nx (.spillUseRead 3) ((base.wrN Fld.kmeStemSpillUse_in_use 2 3).wrN Fld.kmeStemSpillUse_high_water 3 3) (fun t => t.rdN Fld.kmeStemSpillUse_high_water 3 == 0 && t.out == [.completion 0 0 [2, 0, 3, 0]]) = true ∧
    args.offsets.length = 27 ∧ args.candidates (4, -1, 0) = ((List.range 27).map (fun k => (4 - ((k / 9 : Nat) - 1 : Int), -1 - ((k / 3 % 3 : Nat) - 1 : Int), 0 - ((k % 3 : Nat) - 1 : Int)))) ∧ args.inputCell (0, 0, 0) (-1, 1, 0) = some (-1, 1, 0) ∧
    nx (.kmeConv 5) (fly (layer id (fun t => { t with part := 1 })) (cmdOf 3 1 [(16, 62), (17, 63)])) (fun t => ended t stOwnership 17) = true ∧
  nx (.kmeMapWrite 5) (fly { layer id with compute := { (layer id).compute with tables := [{ id := 62, part := 1, cfg := tcfg }, { id := 63, part := 0, cfg := tcfg }] } } (cmdOf 3 2 [(16, 62), (17, 63)])) (fun t => ended t stOwnership 16) = true ∧
    (let v : Conv := { cmd := 5, mode := .strided, inTable := 62, outTable := 63, mapOnly := false, mapPhase := false }
 let c : Cmd := { cmdOf 3 1 [(16, 62), (17, 63)] with started := true }
 let s := fly (fly (layer id (fun t => { t with state := .filling, heldBy := some 5 })) c) { c with id := 6, crit := 3 }
 let s := { s with compute := { s.compute with convs := [v, { v with cmd := 6 }] } }
 let turn (k n : Nat) : EngineTurn := { unit := kmeUnit 0 k, cmd := n, units := 0 }
 s.kmeTurn c 0 = none ∧ nx (.kmeSiteChunk 5 0) s (fun t => t == s) = true ∧
 (({ s with compute := { s.compute with turns := [turn 0 5] } }).kmeTurn { c with id := 6, crit := 3 } 0).isSome = true) ∧
    { args with mode := .strided, stride := [2, 2, 2] }.candidates (5, -1, 0) = List.replicate 27 (2, -1, 0) := by
  decide +kernel

theorem test_witness_SparseLayersGatherPairs :
    nx (.spillChunkClaim 5 0 0) (fly (layer (fun v => { v with mapPhase := true, groups := [{ group1 with waitingChunks := true, spilled := true }], freeChunks := [[3], [], [], []] })) (cmdOf 3 1 [(16, 62), (17, 63), (40, 0x100000), (46, 1)]))
  (fun t => (t.conv? 5).map (fun v => (v.groups.map (fun g => (g.chunks, g.waitingChunks)), v.freeChunks)) == some ([([3], false)], [[], [], [], []])) = true ∧
    nx (.spillChunkClaim 5 0 0) (fly (layer (fun v => { v with mapPhase := true, groups := [{ group1 with waitingChunks := true, spilled := true }] })) (cmdOf 3 1 [(16, 62), (17, 63)])) (fun t => ended t stSpillFull 0) = true ∧
    nx (.spillReadback 5 0 0) (fly (layer (fun v => { v with mapPhase := true, groups := [{ group1 with pairs := [], spilled := true }] })) (cmdOf 3 1 [(16, 62), (17, 63)]))
  (fun t => (t.conv? 5).map (fun v => v.groups.map (·.readBack)) == some [true] && t.compute.items.map (·.kind) == [.conv 0 0 0]) = true := by
  decide +kernel

/-! 10 tile arithmetic. -/

/-- A product of one row and one block by tile 63 of Stem 3, and work items on it. -/
def gemm : List (Nat × Nat) := [(24, 1), (28, 0x1000), (34, 0x2000), (40, 0x3000)]
def onTile : List Desc := [desc [(10, 32), (13, 64), (56, 2 ^ 63)]]
def item (k : ItemKind) (f : WorkItem → WorkItem := id) : WorkItem := f { cmd := 5, kind := k, stem := 3, tile := none }
def items (l : List WorkItem) (c : Cmd := cmdOf 4 1 gemm onTile) : State :=
  fly { base with compute := { base.compute with items := l } } { c with started := true }

/-- No Stem is on. -/
def stemsOff : State := (List.range 4).foldl (fun s j => s.wrN Fld.pwrStemStatus_state 0 j) base

theorem test_witness_TileCommandsDealTheirItems :
    nx (.tileGemm 5) (fly base (cmdOf 4 1 gemm onTile)) (fun t => t.compute.items.map (fun w => (w.kind, w.stem, w.fixedTile)) == [(.gemm 0 1 0, 3, some 63)]) = true ∧
    nx (.tileGemm 5) (fly base (cmdOf 4 1 [(16, 0x20)] onTile)) (fun t => (t.cmd? 5).map (·.status) == some stFormatPair) = true ∧
    nx (.tileGemm 5) (fly base (cmdOf 4 1 gemm [desc []])) (fun t => ended t stTilePlacement 4) = true ∧
    nx (.tileConvert 5) (fly base (cmdOf 4 2 [(20, 1), (24, 0x1000), (30, 0x2000)] [desc [(56, 2 ^ 63)]])) (fun t => t.compute.items.map (fun w => (w.kind, w.stem)) == [(.convert 0 1, 3)]) = true ∧
    nx (.gemm 5) (fly stemsOff (cmdOf 0 0x40 gemm)) (fun t => ended t stResource 0) = true ∧
    nx (.convert 5) (fly stemsOff (cmdOf 0 0x41)) (fun t => ended t stResource 0) = true ∧
    nx (.workItemStart 1) (items [item (.gemm 0 1 0) (fun w => { w with done := true, tile := some 63, fixedTile := some 63 }), item (.gemm 1 1 0) (fun w => { w with fixedTile := some 63 })])
  (fun t => t.compute.items.map (·.tile) == [some 63, some 63]) = true ∧
    nx (.workItemStart 0) (items [item (.gemm 0 1 0) (fun w => { w with fixedTile := some 62 })]) (fun t => t.compute.items.length == 1) = true := by
  decide +kernel

theorem test_witness_TilePassesAdvanceTheirItems :
    nx (.gemmPass 0) (items [item (.gemm 0 1 0) (fun w => { w with tile := some 63 }), item (.gemm 1 1 0)]) (fun t => t.compute.items.map (fun w => (w.done, w.broadcasts)) == [(true, 1), (false, 0)]) = true ∧
    nx (.gemmPass 0) (items [item (.gemm 0 1 0) (fun w => { w with tile := some 63, kind := .convert 0 1 }), item (.gemm 1 1 0)] (cmdOf 4 2 [(20, 1), (24, 0x1000), (30, 0x2000)] onTile))
  (fun t => t.compute.items.map (·.done) == [true, false] && t.rd Fld.tileStemPasses_passes 3 == 1) = true ∧
    nx (.gemmPass 0) (items [item (.gemm 0 1 0)]) (fun t => t.compute.items.map (·.broadcasts) == [0]) = true := by
  decide +kernel

/-! 11 Twig threads. -/

/-- Thread slot 15 of tile 63 of Stem 3 (number 4095) at pc 0x1000 with an instruction word there, and values of x10 and x11. -/
def twig (w : Nat) (a b : DWord := 0) (f : Thread → Thread := id) : State :=
  let t : Thread := { stem := 3, tile := 63, slot := 15, cmd := 5, index := 0, pc := 0x1000, regs := List.replicate 10 0 ++ [a, b] ++ List.replicate 20 0 }
  let base := (base.wrB Fld.crnKnotOwner_valid0 true 1).wrN Fld.crnKnotOwner_partition0 0 1
  fly { base with compute := { base.compute with
      programs := [{ cmd := 5, part := 0, entry := 0x1000, slots := [(3, 63, 15)], arg := 0, stackBase := 0, stackKib := 0, limitUs := 0, arrayAccess := false, saveBase := 0x8000, tiles := [0, 0, 0, 2 ^ 63], started := true }]
      threads := [f t], icache := [{ stem := 3, tile := 63, line := 0x1000, bytes := natToBytes 64 w }] } } (cmdOf 4 0x10 [(16, 0x1000), (22, 0x8000)] [desc [(4, 0x8000), (56, 2 ^ 63)]])
def thread0 (t : State) (p : Thread → Bool) : Bool := match t.compute.threads with | x :: _ => p x | [] => false

theorem test_witness_TwigIntegerInstructionsRetire :
    nx (.twigIntegerOp 4095) (twig 0xFFF50293) (fun t => thread0 t (fun x => x.x 5 == -1 && x.pc == 0x1004 && x.instret == 1)) = true ∧
    nx (.twigIntegerOp 4095) (twig 0xFFF50293 0 0 (fun t => { t with state := .stalled })) (fun t => thread0 t (fun x => x.pc == 0x1000)) = true ∧
    -- R294: slot 0 of the tile is next after slot 15, which issued last
(let s := twig 0xFFF50293; let u := s.turned { (default : Thread) with stem := 3, tile := 63, slot := 15 }
 nx (.twigIntegerOp 4095) { u with compute := { u.compute with
    threads := u.compute.threads ++ [{ stem := 3, tile := 63, slot := 0, cmd := 5, index := 1, pc := 0x1000, regs := List.replicate 32 0 }] } }
  (fun t => thread0 t (fun x => x.pc == 0x1000))) = true ∧
    nx (.twigMuldiv 4095) (twig 0x02B542B3 7) (fun t => thread0 t (fun x => x.pendingResult == some ⟨5, -1⟩ && x.state == .stalled)) = true ∧
    nx (.twigLoadReturn 4095) (twig 0 0 0 (fun t => { t with state := .stalled, pendingResult := some ⟨5, 9⟩ })) (fun t => thread0 t (fun x => x.x 5 == 9 && x.state == .ready)) = true ∧
    nx (.twigCsrRead 4095) (twig 0xC02022F3 0 0 (fun t => { t with instret := 7 })) (fun t => thread0 t (fun x => x.x 5 == 7 && x.instret == 8)) = true ∧
    nx (.twTime 4095) { twig 0x0800028B with time := { base.time with now := 77 } } (fun t => thread0 t (fun x => x.pc == 0x1004 && x.instret == 1)) = true ∧
    nx (.twTid 4095) (twig 0x0A00028B) (fun t => thread0 t (fun x => x.x 5 == t.identityWord 3 63 15)) = true ∧
    nx (.twigFence 4095) (twig 0x0FF0000F) (fun t => thread0 t (fun x => x.pc == 0x1004)) = true ∧
    nx (.twAcq 4095) (twig 0x0000000B) (fun t => thread0 t (fun x => x.pc == 0x1004)) = true ∧
    nx (.twRel 4095) (twig 0x0200000B) (fun t => thread0 t (fun x => x.pc == 0x1004)) = true ∧
    nx (.fenceI 4095) (twig 0x0000100F) (fun t => t.compute.icache == []) = true ∧
    nx (.twYield 4095) (twig 0x0400000B) (fun t => thread0 t (·.yielded)) = true ∧
    nx (.ecallEbreak 4095) (twig 0x00000073) (fun t => ended t stTwigBreak 0x1000) = true ∧
    nx (.twigIllegalInstruction 4095) (twig 0) (fun t => ended t stTwigIllegal 0) = true ∧
    nx (.twExit 4095) (twig 0x0605000B 1) (fun t => ended t stSuccess 1) = true := by
  decide +kernel

theorem test_witness_TwigMemoryInstructionsRetire :
    nx (.twigLoad 4095) { twig 0x00853283 0x2000 with hbm := [(0x200F, 0x80)] } (fun t => thread0 t (fun x => x.pendingResult == some ⟨5, 0x8000000000000000⟩)) = true ∧
    nx (.twigLoad 4095) (twig 0x00153283 0x203C) (fun t => (t.cmd? 5).map (·.status) == some stTwigMisaligned) = true ∧
    nx (.twigStore 4095) (twig 0x00B53423 0x2000 0x77) (fun t => memRead t.hbm 0x2008 8 == natToBytes 8 0x77) = true ∧
    nx (.twigAmo 4095) { twig 0x00B532AF 0x2000 3 with hbm := [(0x2000, 4)] } (fun t => memRead t.hbm 0x2000 1 == [7] && thread0 t (fun x => x.pendingResult == some ⟨5, 4⟩)) = true ∧
    nx (.twCas 4095) { twig 0x00B5228B 0x2000 3 with hbm := [(0x2008, 4)] } (fun t => memRead t.hbm 0x2000 1 == [3]) = true ∧
    nx (.twCas 4095) (twig 0x00B5228B 0x2001 3) (fun t => (t.cmd? 5).map (·.status) == some stTwigMisaligned) = true ∧
    decodeTwig 0x02B5128B = (.knotWait 5 10 11, 4) ∧
    nx (.knotWait 4095) ((twig 0x02B5128B 0xFFFF000000000800 2).setKnot 0x800 2) (fun t => thread0 t (fun x => x.x 5 == 2)) = true ∧
    nx (.knotWait 4095) ((twig 0x02B5128B 0xFFFF000000000800 2).setKnot 0x800 1) (fun t => thread0 t (fun x => x.state == .waiting && x.knotWait == some (5, 0x800, 2))) = true ∧
    nx (.knotSig 4095) (twig 0x00B5100B 0xFFFF000000000800 2) (fun t => t.knot 0x800 == 2) = true ∧
    nx (.knotRd 4095) ((twig 0x0405128B 0xFFFF000000000800).setKnot 0x800 1) (fun t => thread0 t (fun x => x.pendingResult == some ⟨5, 1⟩)) = true ∧
    nx (.knotRd 4095) (twig 0x0405128B 0xFFFF000000000000) (fun t => ended t stTwigKnot 0) = true := by
  decide +kernel

def program (f : Program → Program) (g : Thread → Thread := id) : State :=
  let s := twig 0 0 0 g
  { s with compute := { s.compute with programs := s.compute.programs.map f } }

theorem test_witness_TwigProgramsStartAndSuspend :
    nx (.twigRun 5) (fly base (cmdOf 4 0x10 [(16, 0x1000), (22, 0x8000)] [desc [(4, 0x8000), (56, 2 ^ 63)]])) (fun t => t.compute.programs.map (fun p => (p.entry, p.slots)) == [(0x1000, [(3, 63, 15)])]) = true ∧
    nx (.twigRun 5) (fly base (cmdOf 4 0x10 [] [desc [(4, 0x8000)]])) (fun t => ended t stTilePlacement 4) = true ∧
    nx (.twigRun 5) (fly base (cmdOf 4 0x10 [(22, 1)] [desc [(56, 2 ^ 63)]])) (fun t => ended t stTilePlacement 3) = true ∧
    nx (.twigThreadsStart 5) (let s := program (fun p => { p with started := false, arg := 9 }); { s with compute := { s.compute with threads := [] } })
  (fun t => thread0 t (fun x => x.pc == 0x1000 && x.x 10 == 9 && x.slot == 15)) = true ∧
    nx (.twigSuspendDone 5) (program (fun p => { p with suspending := [(3, 63)] })) (fun t => (t.program? 5).map (fun p => (p.suspended, p.suspending)) == some ([(3, 63)], []) && thread0 t (·.state == .suspended)) = true ∧
    nx (.twigResume 5) (program (fun p => { p with suspended := [(3, 63)] }) (fun t => { t with state := .suspended })) (fun t => (t.program? 5).map (·.suspended) == some [] && thread0 t (·.state == .ready)) = true ∧
    nx (.twigWatchdog 5) { program (fun p => { p with since := some 0, limitUs := 1 }) with time := { base.time with now := 1001 } }
  (fun t => ended t stTwigWatchdog 0 && thread0 t (·.state == .exited)) = true ∧
    nx (.twigWatchdog 5) { program (fun p => { p with since := some 0, limitUs := 1 }) with time := { base.time with now := 1000 } }
  (fun t => !ended t stTwigWatchdog 0 && thread0 t (·.state == .ready)) = true ∧
    nx (.programRun 5) (fly { base with queues := { base.queues with packages := [{ handle := 1, part := 0, minBanks := 0, tiles := [0, 0, 0, 0], programs := [] }] } } (cmdOf 0 0x42 [(16, 1), (18, 3)])) (fun t => (t.cmd? 5).map (·.phase) == some .finished) = true := by
  decide +kernel

/-! 12 packages and RUN. -/

def pkg : Package := { handle := 65535, part := 0, minBanks := 0, tiles := [0, 0, 0, 0] }
def runs (r : List Run) (f : Cmd → Cmd := id) : State :=
  let s := { ingest with queues := { base.queues with packages := [pkg], runs := r } }
  fly s (f (cmdOf 0 8 [(16, 65535), (18, 255), (20, 1)]))
def run0 : Run := { cmd := 5, handle := 65535, part := 0, set := 255, frameCount := 1 }

theorem test_witness_PackagesLoadAndRun :
    nx (.packageLoad 5 { minBanks := 0, tiles := [0, 0, 0, 0], reason := 7 }) (fly base (cmdOf 0 6 [(24, 0x1000), (32, 16)])) (fun t => ended t stFirmware 7 && t.queues.packages == []) = true ∧
    nx (.packageLoad 5 { minBanks := 0, tiles := [0, 0, 0, 0], hbmBytes := 2 ^ 60 }) (fly base (cmdOf 0 6 [(24, 0x1000), (32, 16)])) (fun t => ended t stResource 0) = true ∧
    nx (.packageUnload 5) (fly { base with queues := { base.queues with packages := [pkg] } } (cmdOf 0 7 [(16, 65535)])) (fun t => t.queues.packages == [] && ended t stSuccess 0) = true ∧
    nx (.packageUnload 5) (fly base (cmdOf 0 7 [(16, 65535)])) (fun t => ended t stOwnership 16) = true ∧
    nx (.run 5) (runs []) (fun t => t.queues.runs == [run0]) = true ∧
    nx (.run 5) (fly base (cmdOf 0 8 [(16, 65535), (18, 254)])) (fun t => ended t stSetUndefined 254) = true ∧
    nx (.run 5) (runs [{ run0 with waiting := [{ k := 3 }] }] (fun c => { c with started := true, slot := some 65 })) (fun t => (t.run? 5).map (fun r => (r.frameActive, r.window.k, r.waiting)) == some (true, 3, [])) = true ∧
    nx (.runFrameComplete 5 {}) (runs [{ run0 with frameActive := true }] (fun c => { c with started := true, slot := some 65 })) (fun t => t.queues.runs == [] && (t.cmd? 5).map (·.frames) == some 1) = true ∧
    nx (.run 5) (let s := runs []; s.updSet 255 (fun x => { x with grid := some [1, 1, 1, 0, 0, 0, 0, 1, 0, 1, 0, 1] })) (fun t => t.queues.runs == [run0] && (t.set? 255).map (·.grid) == some none) = true ∧
    nx (.run 5) (let s := fly { ingest with queues := { base.queues with packages := [{ pkg with maps := [{ (default : CMap) with bands := 1, width := 16, height := 16, cBlocks := 1, inHbm := true, base := 2 ^ 47 }] }] } } (cmdOf 0 8 [(16, 65535), (18, 255), (20, 1)]); s) (fun t => ended t stResource 0 && t.queues.runs == []) = true ∧
    (let s := fly { ingest with queues := { base.queues with packages := [pkg], sqs := [{ num := 0, fn := 0, part := 0, crit := 0, log2 := 4, base := 0x10000, state := .draining }] } } (cmdOf 0 8 [(16, 65535), (18, 255)])
 nx (.run 5) s (fun t => ended t stSuccess 0 && t.queues.runs == [])) = true ∧
    nx (.run 5) (let s := runs [{ run0 with waiting := [{ k := 3 }] }] (fun c => { c with started := true, slot := some 65 }); { s with canopy := { s.canopy with resets := [254, 255], limits := [(255, 7)] }, sort := { s.sort with overrides := [{ set := 255, iouThr := 0, scoreThr := 1, maxOut := 2 }] } }) (fun t => (t.run? 5).map (fun r => (r.historyReset, r.historyLimit, r.nms.map (·.maxOut))) == some (true, some 7, some 2) && t.canopy.resets == [254]) = true ∧
    nx (.runFrameComplete 5 { status := 0x0500 }) (runs [{ run0 with frameActive := true }] (fun c => { c with started := true, slot := some 65 })) (fun t => t.queues.runs.length == 1 && (t.cmd? 5).map (·.frames) == some 0) = true ∧
    nx (.runFrameComplete 5 { boxes := [List.replicate 32 0] }) (runs [{ run0 with frameActive := true, nms := some { set := 255, iouThr := 0, scoreThr := 0, maxOut := 2 } }] (fun c => { c with started := true, slot := some 65 })) (fun t => t.queues.runs.length == 1 && (t.cmd? 5).map (·.frames) == some 0) = true ∧
    (let r : Run := { run0 with frameActive := true, tables := [63] }
 let s := { runs [r] (fun c => { c with started := true, slot := some 65 }) with compute := { base.compute with tables := [{ id := 63, part := 0, cfg := default }] } }
 s.pointsIn r = false ∧ nx (.runFrameComplete 5 {}) s (fun t => t.queues.runs.length == 1) = true) ∧
    -- R436: frame k0 of the shadow, whose warp may have to wait for the lead's history buffer
(let r : Run := { run0 with frameActive := true, window := { k := 9 } }
 let s := (((runs [r]).wrN Fld.twnStatus_state 3).wrN Fld.twnStatus_role 2).wrN Fld.twnFirstFrame_k0 9
 let s := { s with twin := { s.twin with syncDone := true, list := [(255, 65535)] }, queues := { s.queues with packages := [{ pkg with history := some default }] } }
 s.run? 5 = some r ∧ s.pointsIn r = true ∧ s.twinState = 3 ∧ s.twinRole = 2 ∧ r.window.k = s.k0 ∧ (s.package? 0 65535).any (fun p => p.history.isSome) = true) := by
  decide +kernel

/-! 13 Canopy. -/

/-- Map 255 of 16 × 16 cells in one block in HBM, and map 254 like it. -/
def map0 (id base : Nat) : CMap := { id := id, part := 0, fmt := 0, inHbm := true, bands := 1, width := 16, height := 16, cBlocks := 1, firstStem := 0, x0 := 0, y0 := 0, vx := 100, vy := 100, ox := 0, oy := 0, base := base, t0 := 0, m := 0, offset := 0, valid := 1 }
def maps (l : List CMap) (c : Cmd) : State :=
  let s := tab (fun t => { t with state := .final })
  fly { s with canopy := { base.canopy with maps := l } } c
def warp : Cmd := cmdOf 5 5 [(16, 255), (17, 254)]

theorem test_witness_CanopyMapsAndTheirCommands :
    nx (.cnpMapDefine 5) (maps [] (cmdOf 5 1 [(16, 255), (17, 0x10), (32, 100), (34, 100)] [desc [(4, 0x10000)]])) (fun t => (t.map? 255).map (fun m => (m.base, m.valid, m.width)) == some (0x10000, 0, 16) && ended t stSuccess 0) = true ∧
    nx (.cnpMapDefine 5) (maps [map0 255 0x10000] (cmdOf 5 1 [(16, 255)])) (fun t => ended t stMapExists 255) = true ∧
    nx (.cnpMapDefine 5) (maps [] (cmdOf 5 1 [(16, 255), (17, 0x30)] [desc [(4, 2 ^ 47)]])) (fun t => ended t stMapPlacement 0) = true ∧
    nx (.cnpMapFree 5) (maps [map0 255 0] (cmdOf 5 2 [(16, 255)])) (fun t => t.canopy.maps == [] && ended t stSuccess 0) = true ∧
    (let c := cmdOf 5 2 [(16, 255)]; ended ((maps [] c).dispatchMaps c) stMapAbsent 255) = true ∧
    nx (.cnpFold 5) (maps [map0 255 0] (cmdOf 5 3 [(16, 63), (17, 255), (22, 1), (26, 0x40000), (32, 0x40)])) (fun t => (t.table? 63).map (·.pins) == some [5] && t.canopy.runs.map (·.cmd) == [5]) = true ∧
    nx (.cnpWarp 5) (maps [map0 255 0, map0 254 0x10000] warp) (fun t => t.canopy.runs.map (·.cmd) == [5]) = true ∧
    (let t := (maps [map0 255 0, map0 254 0x10000] warp).dispatchMaps warp
 (t.cmd? 5).map (·.phase) == some .running && (t.map? 254).map (fun m => (m.holds.map (·.cmd), m.valid)) == some ([5], 0) && (t.map? 255).map (fun m => (m.pins.map (·.cmd), m.valid)) == some ([5], 1)) = true ∧
    ended ((maps [{ map0 255 0 with valid := 0 }, map0 254 0x10000] warp).dispatchMaps warp) stMapInvalid 0xFF00 = true ∧
    ended ((maps [{ map0 255 0 with part := 1 }, map0 254 0x10000] warp).dispatchMaps warp) stOwnership 16 = true ∧
    (let c := cmdOf 5 5 [(16, 255), (17, 255)]; ended ((maps [map0 255 0] c).dispatchMaps c) stMapAlias 255) = true ∧
    (maps [map0 255 0, { map0 254 0 with pins := [⟨9, 1⟩] }] warp).mapsReady warp = false ∧
    nx (.cnpWarp 5) (maps [map0 255 0, { map0 254 0 with width := 32 }] warp) (fun t => ended t stMapGeometry 254 && t.canopy.runs == []) = true ∧
    nx (.cnpDevox 5) (maps [] (cmdOf 5 6 [(20, 1), (24, 0x1000), (30, 0x2000)] [desc [(10, 63), (11, 0x40)]])) (fun t => t.canopy.runs.map (·.cmd) == [5]) = true ∧
    nx (.cnpDense 5) (maps [map0 255 0, map0 254 0x10000] (cmdOf 5 4 [(16, 255), (17, 254)] [desc [(56, 2 ^ 63)]])) (fun t => t.compute.items.map (·.kind) == [.dense 0 0]) = true ∧
    nx (.historyReset 5) (fly (ingest) (cmdOf 0 0x50 [(16, 255)])) (fun t => t.canopy.resets == [255] && ended t stSuccess 0) = true ∧
    nx (.historyLimit 5) (fly (ingest) (cmdOf 0 0x51 [(16, 255), (20, 9)])) (fun t => t.canopy.limits == [(255, 9)] && ended t stSuccess 0) = true := by
  decide +kernel

theorem test_witness_CanopyUnitsAndDensePassesAdvance :
    nx (.canopyUnit 5 0) { maps [map0 255 0, { map0 254 0x10000 with holds := [⟨5, 1⟩] }] { cmdOf 5 6 [(20, 1), (24, 0x1000), (30, 0x2000)] [desc [(10, 63), (11, 0x40)]] with started := true } with canopy := { base.canopy with runs := [{ cmd := 5 }] } }
  (fun t => (t.cmd? 5).map (·.phase) == some .finished && t.canopy.runs == []) = true ∧
    (let c : Cmd := { cmdOf 5 6 [(20, 1), (24, 0x1000), (30, 0x2000)] [desc [(10, 63), (11, 0x40)]] with started := true }
 let s := fly { maps [map0 255 0, { map0 254 0x10000 with holds := [⟨5, 1⟩] }] c with canopy := { base.canopy with maps := [map0 255 0, { map0 254 0x10000 with holds := [⟨5, 1⟩] }], runs := [{ cmd := 5 }, { cmd := 6 }] } } { c with id := 6, crit := 3 }
 nx (.canopyUnit 5 0) s (fun t => t == s) = true) := by
  decide +kernel

/-! 14 sort and selection. -/

/-- A running command of the Sort engines with its operands in HBM, on the engine of Stem 0. -/
def sorting (c : Cmd) (hbm : List (Nat × List Byte)) (on : Bool := true) : State :=
  let s := { base with hbm := hbm.foldl (fun m x => memWrite m x.1 x.2) [] }
  fly (if on then { s with sort := { s.sort with runs := [{ cmd := 5, stems := [0] }] } } else s) { c with started := on }
def words (l : List Nat) : List Byte := l.flatMap (fun (n : Nat) => natToBytes 4 n)

/-- The row of eight scores of the example of R350 to R353, and its top-k with a threshold of 0.3. -/
def scores : List Byte := words [0x3F68F5C3, 0x3DF5C28F, 0x3F0CCCCD, 0x3F0CCCCD, 0x7FC00000, 0x3E8F5C29, 0x3F0CCCCD, 0x3ECCCCCD]
def topk (k : Nat) : Cmd := cmdOf 6 2 [(16, 0x5A), (17, 0x11), (20, 8), (24, 0x10000), (36, 0x20000), (42, 0x30000)]
  [desc [(10, 64), (18, 64), (22, 64), (26, 0x40000), (32, k - 1), (40, 0x3E99999A)]]

/-- The two lists of the example of the merge. -/
def mergeHbm : List (Nat × List Byte) :=
  [(0x10000, natToBytes 6 0x11000 ++ natToBytes 6 0x12000 ++ words [3] ++ natToBytes 6 0x13000 ++ natToBytes 6 0x14000 ++ words [3]),
   (0x11000, words [0x3F68F5C3, 0x3F0CCCCD, 0x3ECCCCCD]), (0x12000, words [100, 102, 107]),
   (0x13000, words [0x3F451EB8, 0x3F0CCCCD, 0x3F000000]), (0x14000, words [205, 102, 210])]

/-- A device with Stem 0 alone ON, and room in HBM for one scratch area or for none. -/
def roomFor (pages : Nat) : State :=
  let s := [1, 2, 3].foldl (fun s j => s.wrN Fld.pwrStemStatus_state 0 j) base
  ([1, 2, 3].foldl (fun s t => s.wrB Fld.brkFwCtl_enable false (64 * t)) s).wrN Fld.brkFwLimit_limit pages 0
def basicSort : Cmd := cmdOf 0 0x60 [(16, 0x5A), (17, 1), (20, 8), (24, 0x10000), (36, 0x20000), (42, 0x30000)] [desc [(10, 64), (18, 64), (22, 64), (26, 0x40000), (32, 4096)]]

/-- The top-k with another command of a higher class at its engine, which has had its first chunk of the row. -/
def rival (crit : Nat) : State :=
  let s := fly (sorting (topk 3) [(0x10000, scores)]) { topk 3 with id := 6, crit := crit, started := true }
  { s with sort := { s.sort with runs := [{ cmd := 5, stems := [0], chunk := [1, 0, 0, 0] }, { cmd := 6, stems := [0] }] }
           compute := { s.compute with turns := [{ unit := unitId 7 0 0, cmd := 5, units := 1 }] } }
def merge : Cmd := cmdOf 6 3 [(16, 0xFA), (17, 0x10), (18, 3), (24, 0x10000), (30, 0x20000), (36, 0x30000), (42, 0x40000)]
def nms : Cmd := cmdOf 6 4 [(17, 1), (20, 2), (24, 0x10000), (30, 0x20000), (36, 0x30000), (42, 1), (44, 1)] [desc [(4, 0x3F000000), (12, 64), (16, 64)]]

theorem test_witness_SortCommandsBeginTheirRows :
    nx (.srtTopk 5) (sorting (topk 3) [] false) (fun t => t.sort.runs == [{ cmd := 5, stems := [0] }]) = true ∧
    nx (.srtSort 5) (sorting (cmdOf 6 1 [(16, 0x5A), (17, 1), (20, 8), (24, 0x10000), (36, 0x20000), (42, 0x30000)] [desc [(10, 64), (18, 64), (22, 64), (26, 0x40000), (32, 4096)]]) [] false)
  (fun t => t.sort.runs == [{ cmd := 5, stems := [0] }]) = true ∧
    nx (.srtSort 5) (sorting (cmdOf 6 1 [(16, 0x5A), (17, 1), (20, 8), (24, 0x10001), (36, 0x20000), (42, 0x30000)] [desc [(10, 64), (18, 64), (22, 64), (26, 0x40000), (32, 4096)]]) [] false)
  (fun t => ended t stSortPlacement 0) = true ∧
    nx (.srtSort 5) (sorting (cmdOf 6 1 [(17, 1), (20, 1048577)] [desc []]) [] false) (fun t => ended t stRowTooLong 0xFFFFFFFF) = true ∧
    nx (.srtMerge 5) (sorting merge mergeHbm false) (fun t => t.sort.runs == [{ cmd := 5, stems := [0] }]) = true ∧
    nx (.srtNms 5) (sorting nms [] false) (fun t => t.sort.runs == [{ cmd := 5, stems := [0] }]) = true ∧
    nx (.srtNms 5) (sorting (cmdOf 6 4 [(17, 1), (20, 2), (24, 0x10001)] [desc []]) [] false) (fun t => (t.cmd? 5).map (·.status) == some stSortPlacement) = true ∧
    nx (.nmsOverride 5) (fly (ingest) (cmdOf 0 0x64 [(16, 255), (20, 1), (24, 2), (28, 3)])) (fun t => t.sort.overrides == [⟨255, 1, 2, 3⟩] && ended t stSuccess 0) = true ∧
    nx (.nmsOverride 5) (fly { ingest with sort := { base.sort with overrides := [⟨255, 1, 2, 3⟩] } } (cmdOf 0 0x64 [(16, 255), (30, 1)])) (fun t => t.sort.overrides == []) = true ∧
    nx (.sort 5) (fly (roomFor 1) basicSort) (fun t => t.sort.runs == [{ cmd := 5, stems := [0], scratch := [{ stem := 0, base := 0, bytes := 4096 }] }]) = true ∧
    nx (.sort 5) (fly (roomFor 0) basicSort) (fun t => ended t stResource 0) = true ∧
    nx (.srtTopk 5) (sorting { topk 3 with descs := [(topk 3).descs.headD 0, desc [(4, 0x50000), (10, 64), (18, 64), (22, 64), (26, 0x40000), (32, 2)]] } [(0x50000, words [9])] false) (fun t => ended t stRowTooLong 0 && t.sort.runs == []) = true := by
  decide +kernel

theorem test_witness_SortEnginesCompleteChunks :
    nx (.sortChunk 5 0) (sorting (topk 3) [(0x10000, scores)])
  (fun t => memRead t.hbm 0x20000 12 == words [0x3F68F5C3, 0x3F0CCCCD, 0x3F0CCCCD] && memRead t.hbm 0x30000 12 == words [0, 2, 3] && memRead t.hbm 0x40000 4 == words [3] && ended t stNanKeys 1) = true ∧
    nx (.sortChunk 5 0) (sorting (topk 8) [(0x10000, scores)])
  (fun t => memRead t.hbm 0x30000 32 == words [0, 2, 3, 6, 7, 0xFFFFFFFF, 0xFFFFFFFF, 0xFFFFFFFF] && memRead t.hbm 0x20010 8 == words [0x3ECCCCCD, 0] && memRead t.hbm 0x40000 4 == words [5]) = true ∧
    nx (.sortChunk 5 0) (sorting merge mergeHbm)
  (fun t => memRead t.hbm 0x20000 16 == words [0x3F68F5C3, 0x3F451EB8, 0x3F0CCCCD, 0x3F000000] && memRead t.hbm 0x30000 16 == words [100, 205, 102, 210] && memRead t.hbm 0x40000 4 == words [4]
    && ended t stDuplicatesCollapsed 1) = true ∧
    nx (.sortChunk 5 0) (sorting merge ((mergeHbm.take 3) ++ [(0x13000, words [0x3F451EB8, 0x3F0F5C29, 0x3F000000]), (0x14000, words [205, 102, 210])]))
  (fun t => ended t stMergeInconsistent 0x66) = true ∧
    nx (.sortChunk 5 0) (sorting (cmdOf 6 1 [(16, 0x52), (17, 1), (18, 1), (20, 2), (24, 0x10000), (36, 0x20000), (42, 0x30000)] [desc [(10, 64), (18, 64), (22, 64), (26, 0x40000), (32, 4096)]]) [(0x10000, words [1, 9])])
  (fun t => t.sort.runs.map (fun r => (r.row, r.rowsDone)) == [([1, 0, 0, 0], 1)]) = true ∧
    (let c := { topk 3 with started := true }; ((rival 0).sortWork 0).map (·.id) = [5, 6] ∧ (rival 3).nextOf (unitId 7 0 0) 2 ((rival 3).sortWork 0) = some { c with id := 6, crit := 3 } ∧
  nx (.sortChunk 5 0) (rival 3) (fun t => t == rival 3) = true ∧
  nx (.sortChunk 6 0) (rival 3) (fun t => ended t 0 0 == false && (t.cmd? 6).map (·.phase) == some .finished && t.sort.runs.map (·.chunk) == [[0, 0, 0, 0]]) = true) := by
  decide +kernel

/-! 15 prior tables and gathers. -/

/-- Prior table 255 of this chip alone with a version in slot 15, and a command on it. -/
def vers (st : VersionState) : Version := { slot := 15, state := st, gen := 9, d := 10, dirBase := 0x40000, rowBase := 0x50000, rowsCap := 4 }
def prior (c : Cmd) (st : List VersionState) (f : Gather → Gather := id) (g : Prior → Prior := id) : State :=
  fly { base with
    hbm := memWrite (memWrite [] 0x1000 (natToBytes 2 base.chipId)) 0x2000 (natToBytes 8 3 ++ List.replicate 16 7)
    gather := f { base.gather with tables := [g { id := 255, part := 0, index := false, home := true, rowBytes := 16, members := [base.chipId], indexLimit := 0, versions := st.map vers }] } } c
def look : Cmd := cmdOf 7 5 [(16, 255), (17, 1), (20, 1), (24, 0x2000), (30, 0x3000), (42, 64)]
def pos (e : Nat) : GatherPos := { engine := e, batch := e }

/-- The image of a table of one record, in host memory, and a command that loads it, with room in HBM for the table or not. -/
def priorImg : List Byte := natToBytes 4 0x4E505254 ++ [1, 0, 16, 0] ++ natToBytes 8 1 ++ List.replicate 16 0 ++ natToBytes 8 3 ++ List.replicate 16 7
def loadImg (pages : Nat) : State := fly { roomFor pages with host := memWrite [] 0x1000 priorImg } (cmdOf 0 0x70 [(16, 254), (24, 0x1000), (32, 56)])
def loading (faults : List Nat) : State :=
  prior { cmdOf 0 0x70 [(16, 255), (24, 0x1000), (32, 56)] with started := true } [.building] (fun g => { g with
    putRuns := [{ cmd := 5, table := 255, slot := 15, gen := 9, phase := .prepare, left := 0, faults := faults }] })
def withLater (c : Cmd) (s : State) : State := { s with queues := { s.queues with cmds := { c with id := 4, turn := 1 } :: s.queues.cmds.map (fun d => { d with turn := 2 }) } }

/-- BURL_SIZE of more units than a Stem has finds no place. -/
theorem test_witness_PriorTablesAreBuiltAndPublished_burl (s : State) : (s.placeBurls 0 255 [0]).2 = none := by
  have h := State.placeBurl_none (s := s) (part := 0) (units := 255) (stem := 0) (by decide)
  unfold State.placeBurls
  cases hb : s.placeBurl 0 255 0 with
  | mk u r => rw [hb] at h; simp only at h; subst h; rfl

theorem test_witness_PriorTablesAreBuiltAndPublished :
    nx (.gthTableCreate 5) (prior (cmdOf 7 1 [(16, 254), (17, 2), (20, 1), (24, 0x1000)]) []) (fun t => (t.prior? 254).map (fun p => (p.members, p.rowBytes, p.home)) == some ([t.chipId], 16, true) && ended t stSuccess 0) = true ∧
    nx (.gthTableCreate 5) (prior (cmdOf 7 1 [(16, 255)]) []) (fun t => ended t stPriorExists 255) = true ∧
    nx (.gthVersionBuild 5) (prior (cmdOf 7 2 [(16, 255), (17, 15), (18, 10), (20, 9), (24, 0x40000), (30, 0x50000), (36, 4)]) []) (fun t => (t.prior? 255).map (·.versions) == some [vers .building]) = true ∧
    nx (.gthVersionBuild 5) (prior (cmdOf 7 2 [(16, 255), (17, 15)]) [.building]) (fun t => (t.cmd? 5).map (·.status) == some stVersionState) = true ∧
    nx (.gthVersionBuild 5) (prior (cmdOf 7 2 [(16, 254)]) []) (fun t => ended t stPriorAbsent 254) = true ∧
    nx (.gthPut 5) (prior (cmdOf 7 3 [(16, 255), (17, 15), (20, 1), (24, 0x2000)]) [.building]) (fun t => t.gather.puts.map (·.key) == [3] && t.gather.putRuns.map (·.left) == [1]) = true ∧
    nx (.gthPublish 5) (prior (cmdOf 7 4 [(16, 255), (17, 15)]) [.building]) (fun t => t.gather.putRuns.map (fun r => (r.phase, r.left, r.gen)) == [(.check, 1, 9)]) = true ∧
    nx (.gthPublish 5) (prior (cmdOf 7 4 [(16, 255), (17, 15)]) [.current]) (fun t => (t.cmd? 5).map (·.status) == some stVersionMismatch) = true ∧
    nx (.publishOrder { act := .publish, cmd := 5, table := 255, slot := 15, gen := 9, member := base.chipId, home := base.chipId })
  (prior (cmdOf 7 4) [.building] (fun g => { g with orders := [{ act := .publish, cmd := 5, table := 255, slot := 15, gen := 9, member := base.chipId, home := base.chipId }] }))
  (fun t => (t.version? 255 15 9).map (·.state) == some .current) = true ∧
    nx (.gthTableDestroy 5) (prior (cmdOf 7 7 [(16, 255)]) []) (fun t => t.prior? 255 == none && ended t stSuccess 0) = true ∧
    nx (.gthTableDestroy 5) (prior (cmdOf 7 7 [(16, 255)]) [.current] (fun g => { g with pins := [⟨9, 255, 15, 9⟩] })) (fun t => (t.prior? 255).map (·.destroyCmd) == some (some 5)) = true ∧
    nx (.gthTableDestroy 5) (prior { cmdOf 7 7 [(16, 255)] with started := true } [] (fun g => { g with putRuns := [{ cmd := 5, table := 255, phase := .destroy, left := 0 }] }) (fun p => { p with destroyCmd := some 5 })) (fun t => t.prior? 255 == none) = true ∧
    nx (.priorBind 5) (prior (cmdOf 0 0x71 [(16, 9), (18, 3), (19, 255)]) []) (fun t => t.gather.binds == [(9, 3, 255)] && ended t stSuccess 0) = true ∧
    nx (.gthBurlSet 5) (prior (cmdOf 7 6 [(16, 3), (17, 63), (23, 1)]) []) (fun t => t.gather.allocs.map (fun b => (b.stem, b.units)) == [(3, 1)] && ended t stSuccess 0) = true ∧
    nx (.gthBurlSet 5) (prior (cmdOf 7 6 [(16, 3), (17, 63), (18, 1), (23, 1)]) []) (fun t => ended t stBurlPlacement 3) = true ∧
    nx (.burlSize 5) (prior (cmdOf 0 0x72) []) (fun t => (t.cmd? 5).map (·.phase) == some .finished) = true ∧
    nx (.priorLoad 5) (prior (cmdOf 0 0x70 [(16, 255)]) []) (fun t => (t.cmd? 5).map (·.phase) == some .finished) = true ∧
    nx (.gthVersionBuild 5) (prior (cmdOf 7 2 [(16, 255)]) [] id (fun p => { p with part := 1 })) (fun t => ended t stOwnership 16) = true ∧
  nx (.gthPut 5) (prior (cmdOf 7 3 [(16, 255)]) [] id (fun p => { p with part := 1 })) (fun t => ended t stOwnership 16) = true ∧
  nx (.gthPublish 5) (prior (cmdOf 7 4 [(16, 255)]) [] id (fun p => { p with part := 1 })) (fun t => ended t stOwnership 16) = true ∧
  nx (.gthTableDestroy 5) (prior (cmdOf 7 7 [(16, 255)]) [] id (fun p => { p with part := 1 })) (fun t => ended t stOwnership 16) = true ∧
    (let c := cmdOf 7 4 [(16, 255), (17, 15)]; let s := withLater c (prior c [.building]); s.portTurn { c with turn := 2 } = false ∧ nx (.gthPublish 5) s (fun t => t == s) = true) ∧
    nx (.publishOrder { act := .destroy, cmd := 5, table := 255, slot := 0, gen := 0, member := base.chipId, home := base.chipId })
  (prior (cmdOf 7 7) [.current] (fun g => { g with pins := [⟨9, 255, 15, 9⟩], orders := [{ act := .destroy, cmd := 5, table := 255, slot := 0, gen := 0, member := base.chipId, home := base.chipId }] }))
  (fun t => t.gather.orders.length == 1 && t.liveTable 255 == none) = true ∧
    nx (.publishOrder { act := .destroy, cmd := 5, table := 255, slot := 0, gen := 0, member := base.chipId, home := base.chipId })
  (prior (cmdOf 7 7) [.current] (fun g => { g with orders := [{ act := .destroy, cmd := 5, table := 255, slot := 0, gen := 0, member := base.chipId, home := base.chipId }] }))
  (fun t => t.prior? 255 == none) = true ∧
    nx (.priorLoad 5) (loadImg 5) (fun t => (t.putRun? 5).map (fun r => (r.phase, r.left)) == some (.prepare, 0) && (t.prior? 254).map (fun p => (p.home, p.versions.length)) == some (true, 1)) = true ∧
    nx (.priorLoad 5) (loadImg 4) (fun t => ended t stResource 0 && t.prior? 254 == none) = true ∧
    nx (.priorLoad 5) { loading [] with host := memWrite [] 0x1000 priorImg } (fun t => (t.putRun? 5).map (fun r => (r.phase, r.left)) == some (.puts, 1) && t.gather.puts.map (·.key) == [3]) = true ∧
    nx (.priorLoad 5) (loading [9]) (fun t => ended t stResource 0 && t.version? 255 15 9 == none) = true ∧
    nx (.gthBurlSet 5) (prior (cmdOf 7 6 [(16, 3), (17, 63), (23, 1)]) [] (fun g => { g with runs := [{ cmd := 9, table := 255, slot := 15, gen := 9, positions := [pos 6] }] })) (fun t => t.gather.allocs == [] && t.gather.nextAllocs.map (·.units) == [1] && ended t stSuccess 0) = true := by
  decide +kernel

theorem test_witness_GatherEnginesServeLookups :
    nx (.gthGather 5) (prior look [.current]) (fun t => t.gather.pins == [⟨5, 255, 15, 9⟩] && t.gather.runs.map (fun r => r.positions.map (·.engine)) == [[0, 1]]) = true ∧
    nx (.gthGather 5) (prior look [.building]) (fun t => ended t stNoVersion 255) = true ∧
    nx (.gthGather 5) (prior look [.current] id (fun p => { p with members := [] })) (fun t => (t.cmd? 5).map (·.status) == some stNotMember) = true ∧
    nx (.gatherChunk 5 0) (prior { look with started := true } [.current] (fun g => { g with runs := [{ cmd := 5, table := 255, slot := 15, gen := 9, positions := [pos 0, pos 1] }] })) (fun t => t.gather.fetches.map (fun f => (f.key, f.inputs)) == [(3, [0])]) = true ∧
    nx (.priorFetchRequest { chip := base.chipId, id := 4, table := 255, slot := 15, gen := 9, key := 3 })
  (prior { look with started := true } [.current] (fun g => { g with fetches := [{ id := 4, cmd := 5, engine := 0, table := 255, slot := 15, gen := 9, key := 3, owner := base.chipId, inputs := [0] }] })) (fun t => t.gather.fetches.map (·.answer) == [some .missing]) = true ∧
    packed 1 (List.replicate 32 (1 : Byte)) = [0, 1, 1, 0, 32, 0, 0, 0] ++ List.replicate 32 1 ∧ packed 1 ([0, 0, 9] ++ List.replicate 29 0) = [1, 1, 1, 0, 5, 0, 0, 0, 4, 0, 0, 0, 9] ∧
  packed 0 [1, 2] = [1, 2] ∧ wholeGroups 2 64 = true ∧ wholeGroups 2 32 = false ∧
    nx (.gatherFetchReturn 4)
  (prior { look with started := true } [.current] (fun g => { g with fetches := [{ id := 4, cmd := 5, engine := 0, table := 255, slot := 15, gen := 9, key := 3, owner := base.chipId, inputs := [0], answer := some (.failed stAddress 1) }] })) (fun t => ended t stAddress 1 && t.gather.fetches == []) = true ∧
    nx (.gatherFetchReturn 4)
  (prior { look with started := true } [.current] (fun g => { g with
    runs := [{ cmd := 5, table := 255, slot := 15, gen := 9, positions := [pos 0] }]
    fetches := [{ id := 4, cmd := 5, engine := 0, table := 255, slot := 15, gen := 9, key := 3, owner := base.chipId, inputs := [0], answer := some (.found (List.replicate 16 7)) }] }))
  (fun t => memRead t.hbm 0x3000 16 == List.replicate 16 7 && t.gather.fetches == []) = true ∧
    nx (.burlWindowExpire 3) (later (prior look [] (fun g => { g with filter := [⟨3, 1, 1, 1, 1⟩, ⟨2, 1, 1, 1, 1⟩] }))) (fun t => t.gather.filter == [⟨2, 1, 1, 1, 1⟩] && nx (.burlWindowExpire 3) t (fun u => u == t)) = true ∧
    nx (.versionUnpinReport ⟨255, 15, 9, base.chipId + 1⟩) (prior look [.retiring] id (fun p => { p with members := [base.chipId + 1] })) (fun t => t.version? 255 15 9 == none) = true ∧
    (let s := prior { look with started := true } [.current] (fun g => { g with runs := [{ cmd := 5, table := 255, slot := 15, gen := 9, positions := [{ pos 0 with hash := [default] }] }, { cmd := 6, table := 255, slot := 15, gen := 9, positions := [{ pos 0 with hash := [default] }] }] })
 let s := fly s { look with id := 6, crit := 3, started := true }
 nx (.gatherChunk 5 0) s (fun t => t == s) = true ∧
 nx (.gatherChunk 6 0) s (fun t => (t.gather.runs.find? (fun r => r.cmd == 5)).map (fun r => r.positions.map (·.hash)) == some [[]] && t.gather.fetches.map (·.cmd) == [6]) = true) := by
  decide +kernel

/-! 16 to 18 links, packets and routes. -/

/-- Chip 0x145E of the fabric of the example of chapter 13, 32 × 32 × 32 with a standby plane, whose six links are in a state. -/
def fab (st : Nat) (f : Fabric → Fabric := id) : State :=
  let s := ((((base.wrN Fld.wblFabricCfg_dx_m1 31).wrN Fld.wblFabricCfg_dy_m1 31).wrN Fld.wblFabricCfg_dz_m1 31).wrB Fld.wblFabricCfg_standby true).wrN Fld.crnChipId_chip_id 0x145E
  let s := (List.range 6).foldl (fun s l => (s.wrN Fld.wblLinkStatus_state st l).wrN Fld.wblLinkStatus_spared_lane 15 l) (s.wrB Fld.pciSetupLock_lock true)
  { s with fabric := f { s.fabric with links := List.replicate 6 { credits := List.replicate 8 64 } } }
def packet1 (type cls : Nat) (p : List Byte) : Packet := { dst := 0x145E, src := 0x1681, cls := cls, type := type, part := 0, crit := 0, tag := 7, payload := p }
/-- The bytes of a flit that holds a packet. -/
def flit (p : Packet) : List Byte :=
  let b := natToBytes 4 0 ++ p.bytes ++ List.replicate (224 - p.bytes.length) 0
  b ++ natToBytes 4 (crc32c b) ++ List.replicate 24 0
def answer1 (t : State) (type : Nat) (p : List Byte) : Bool :=
  match t.fabric.inbox with | [x] => x.packet.type == type && x.packet.dst == 0x1681 && x.packet.tag == 7 && x.packet.payload == p | _ => false

/-- A row like the example's, of 4 groups of 32 elements of one byte, 40 of them not zero. -/
def row : List Byte := (List.replicate 40 1) ++ List.replicate 88 0

theorem test_witness_PacketsTravelAsTheyAre :
    (compress 1 row).length = 8 + 4 * 4 + 40 ∧
    expand 1 (compress 1 row) = some row ∧
    packetOf (packet1 8 1 [1, 2, 3]).bytes = packet1 8 1 [1, 2, 3] ∧
    (takePackets 2 ((packet1 8 1 [1, 2, 3]).bytes ++ (packet1 9 1 []).bytes)) = ([packet1 8 1 [1, 2, 3], packet1 9 1 []], []) := by
  decide +kernel

theorem test_witness_LinksTrainSendAndFail :
    nx (.linkTrainingDone 3 { chip := 0x143E, link := 2, role := 0, dims := (fab 1).dimsWord, standby := false, digest := [] }) (fab 1) (fun t => t.linkState 3 == 4) = true ∧
    nx (.linkTrainingDone 3 { chip := 0x143E, link := 2, role := 0, dims := (fab 2).dimsWord, standby := true, digest := [] }) (fab 2) (fun t => t.linkState 3 == 2) = true ∧
    nx (.linkTrainingRetry 3) (later (fab 5)) (fun t => t.linkState 3 == 1) = true ∧ nx (.linkTrainingRetry 3) (fab 5) (fun t => t.linkState 3 == 5) = true ∧
    nx (.flitRx 3 { sent := flit (packet1 9 1 []) }) (fab 2) (fun t => t.fabric.inbox == [⟨3, packet1 9 1 [], none⟩] && (t.link 3).rxSeq == 1 && t.rd Fld.wblLinkCnt_count 16 == 1) = true ∧
    nx (.flitRx 3 { sent := (flit (packet1 9 1 [])).set 100 1 }) (fab 2) (fun t => t.fabric.inbox == [] && (t.link 3).rxSeq == 0) = true ∧
    nx (.replayTimeout 3) (later (fab 2 (fun f => { f with links := List.replicate 6 { replay := [⟨0, [], packet1 9 1 [], true, 7⟩] } }))) (fun t => (t.link 3).replay.map (·.resends) == [8] && t.linkState 3 == 2) = true ∧
    nx (.replayTimeout 3) (later ((fab 2 (fun f => { f with links := List.replicate 6 { replay := [⟨0, [], packet1 9 1 [], true, 8⟩] } })).wrN Fld.timCtrl_fabric_role 1)) (fun t => t.linkState 3 == 3) = true ∧
    nx (.laneSpareSwitch 3 8) (fab 2) (fun t => t.rdN Fld.wblLinkStatus_spared_lane 3 == 8 && t.reports.map (·.source) == [0x18, 0x13]) = true ∧
    nx (.heartbeatMiss 3) (later ((fab 2).wrN Fld.timCtrl_fabric_role 1)) (fun t => t.linkState 3 == 3 && t.reports.map (·.source) == [0x19] && t.fabric.inbox == []) = true ∧ nx (.heartbeatMiss 3) (fab 2) (fun t => t.linkState 3 == 2) = true ∧
    nx .heartbeatTx (fab 3) (fun t => t.out == [] && t.fabric.beatAt == some 0 && nx .heartbeatTx t (fun u => u == t)) = true ∧ (fab 3).duePeriod (fab 3).fabric.beatAt 1000000 = true ∧
    (let s := (fab 2).wrN Fld.brkPartCfg_fab_rate 1
 s.bucketOpen 0 3 = true ∧ (s.takeTokens 3 (packet1 9 1 [])).tokens 0 3 = s.tokens 0 3 - 16 ∧
 (State.bucketOpen { s with fabric := { s.fabric with buckets := [⟨0, 3, -1, 0⟩] } } 0 3) = false) := by
  decide +kernel

theorem test_witness_PacketsAreForwardedAndServed :
    nx (.packetForward 0) (fab 2 (fun f => { f with inbox := [⟨6, { packet1 1 0 (readPayload 0x1000 8) with dst := 0x1681, src := 0x145E }, none⟩] })) (fun t => t.fabric.inbox == [] && (t.link 0).replay.length == 1) = true ∧
    nx (.packetForward 0) (fab 2 (fun f => { f with inbox := [⟨6, { packet1 9 1 (ackPayload 0 0) with dst := 0x1681, src := 0x145E, hops := 63 }, none⟩] }))
  (fun t => t.fabric.inbox == [] && t.rd Fld.wblDrops_hop_limit_drops == 1 && t.reports.map (·.source) == [0x1A]) = true ∧
    nx (.read (packet1 1 0 (readPayload 0x1000 4))) { fab 2 with hbm := [(0x1001, 9)] } (fun t => answer1 t 8 [0, 9, 0, 0]) = true ∧
    nx (.write (packet1 2 0 (readPayload 0x1000 4 ++ [1, 2, 3, 4]))) (fab 2) (fun t => memRead t.hbm 0x1000 4 == [1, 2, 3, 4] && answer1 t 9 (ackPayload 0 0)) = true ∧
    nx (.atomic (packet1 3 0 (readPayload 0x1000 1 ++ natToBytes 8 5 ++ natToBytes 8 0))) { fab 2 with hbm := [(0x1000, 9)] } (fun t => memRead t.hbm 0x1000 1 == [14] && answer1 t 9 (ackPayload 0 9)) = true ∧
    nx (.knotSignalPacket (packet1 4 0 (natToBytes 8 0x800 ++ natToBytes 8 3))) (((fab 2).wrB Fld.crnKnotOwner_valid0 true 1).wrN Fld.crnKnotOwner_partition0 0 1) (fun t => t.knot 0x800 == 3 && answer1 t 9 (ackPayload 0 0)) = true ∧
    nx (.readData (packet1 8 1 [])) (fab 2) (fun t => t.rd Fld.wblDrops_timeouts == 1) = true ∧
    nx (.ack (packet1 9 1 (ackPayload 0 0))) (fab 2) (fun t => t.rd Fld.wblDrops_timeouts == 1) = true ∧
    nx (.readData (packet1 8 1 [9])) (fab 2 (fun f => { f with requests := [{ tag := 7, dst := 0x1681, owner := .firmware, kind := .fetch 4 }] })) (fun t => t.fabric.requests == []) = true ∧
    nx (.readData (packet1 8 1 ([1, 1, 1, 0, 5, 0, 0, 0] ++ [4, 0, 0, 0, 9]))) (fab 2 (fun f => { f with requests := [{ tag := 7, dst := 0x1681, owner := .command 5, kind := .piece 0x1681000000001000 0, comp := 1 }], reads := [{ cmd := 5, addr := 0x1681000000001000, len := 32 }] })) (fun t => t.fabric.requests == [] && t.fabric.reads.map (·.got) == [[(0, [0, 0, 9] ++ List.replicate 29 0)]]) = true ∧
    nx (.readData (packet1 8 1 ([1, 1, 1, 0, 4, 0, 0, 0] ++ [4, 0, 0, 0]))) (fly (fab 2 (fun f => { f with requests := [{ tag := 7, dst := 0x1681, owner := .command 5, kind := .piece 0x1681000000001000 0, comp := 1 }] })) (cmdOf 0xC 0)) (fun t => ended t stCompression 0x1681) = true ∧
    nx (.mgmt (packet1 24 3 [0x40])) ((fab 2).wrN Fld.wblLinkCfg_role 2 5) (fun t => t.twin.arrived == [[0x40]]) = true ∧
    nx (.reservedPacketType (packet1 0x1F 0 [])) (fab 2) (fun t => t.reports.map (·.source) == [0x1A]) = true ∧
    nx (.requestTimeout 0) (later (fly (fab 2 (fun f => { f with requests := [{ tag := 7, dst := 0x1681, owner := .command 5, kind := .mcast }] })) (cmdOf 0xC 0))) (fun t => ended t stFabricTimeout 0x1681) = true ∧
    -- R413: the units of a copy that came by link 3 are free when its last copy has left
(let p : Packet := { packet1 0x10 2 (natToBytes 4 (2 * 1024 + 3 * 32768 + 5 * 2 ^ 20 + 5 * 2 ^ 25) ++ List.replicate 12 0) with src := 0x1440 }
 let s := fab 2 (fun f => { f with inbox := [⟨3, p, none⟩] })
 s.mcastNext p = [0x147E] ∧ s.inBox (leAt p.payload 0 4) = false ∧
 nx (.mcastWrite p) s (fun t => t.fabric.links == s.fabric.links && t.fabric.inbox.map (fun x => (x.packet.dst, x.held)) == [(0x147E, some (0, 3, p.vc, p.units))] &&
   (match t.fabric.inbox with | x :: _ => nth 0 ((t.leaveInbox x).link 3).owed p.vc == p.units | _ => false)) = true) := by
  decide +kernel

theorem test_witness_NextHopFollowsTableAndDimensionOrder :
    (fab 2).nextHop 0 0x1681 = .link 0 ∧ ((fab 2).wrN Fld.crnChipId_chip_id 0x1441).nextHop 0 0x1681 = .link 3 ∧ ((fab 2).wrN Fld.crnChipId_chip_id 0x1681).nextHop 0 0x145E = .link 1 ∧
    (fab 2).namesChip 0x1681 = true ∧ (fab 2).twinLink = none ∧ (fab 2 (fun f => { f with bank0 := [⟨0x1681, 5⟩] })).nextHop 0 0x1681 = .link 5 ∧ (fab 2).nextHop 0 0x145E = .here := by
  decide +kernel

theorem test_witness_RoutesChangeByTheRoot :
    nx (.detourCommit [⟨0x1681, 4⟩]) (fab 2) (fun t => t.epoch == 1 && t.fabric.bank1 == [⟨0x1681, 4⟩] && t.nextHop 1 0x1681 == .link 4) = true ∧
    nx .routeChangeDrained (fly ((fab 2 (fun f => { f with routeCmds := [5] })).wrB Fld.wblFabricStatus_change_active true) (cmdOf 0 0x81)) (fun t => !t.rdB Fld.wblFabricStatus_change_active && ended t stSuccess 0) = true ∧
    nx (.linkServiceOut 5) (fly (fab 2) (cmdOf 0 0x80 [(16, 3)])) (fun t => (t.link 3).serviceCmd == some 5) = true ∧
    nx (.linkServiceOut 5) (fly (fab 3) (cmdOf 0 0x80 [(16, 3)])) (fun t => ended t stLinkState 3) = true ∧
nx (.linkServiceOut 5) (fly (fab 1) (cmdOf 0 0x80 [(16, 3)])) (fun t => (t.link 3).serviceCmd == some 5) = true ∧
nx (.linkServiceReturn 5) (fly (fab 2 (fun f => { f with links := List.replicate 6 { serviceCmd := some 6 } })) (cmdOf 0 0x80 [(16, 3), (17, 1)])) (fun t => (t.link 3).reenable && (t.takeOut 3 6).linkState 3 == 1 && ended t stSuccess 0) = true ∧
    nx (.linkServiceReturn 5) (fly (fab 6) (cmdOf 0 0x80 [(16, 3), (17, 1)])) (fun t => t.linkState 3 == 1 && ended t stSuccess 0) = true ∧
    nx (.routeRebuild 5) (fly (fab 2) (cmdOf 0 0x81)) (fun t => t.fabric.routeCmds == [5]) = true ∧
    nx (.wblRouteLoad 5) (fly ((fab 2).wrB Fld.wblFabricStatus_change_active true) (cmdOf 8 1 [(24, 0x1000)])) (fun t => ended t stRouteState 0) = true ∧
    nx (.wblRouteCommit 5) (fly (fab 2) (cmdOf 8 2)) (fun t => (t.cmd? 5).map (·.status) == some stNotRoot) = true ∧
    (let s := (((((((fab 2).wrN Fld.wblFabricCfg_dx_m1 1).wrN Fld.wblFabricCfg_dy_m1 0).wrN Fld.wblFabricCfg_dz_m1 0).wrB Fld.wblFabricCfg_standby false).wrN Fld.crnChipId_chip_id 0).wrN Fld.timCtrl_fabric_role 1)
 s.reachable = [0, 1] ∧
 nx (.wblAliasSet 5) (fly s (cmdOf 8 3 [(16, 1), (18, 0)])) (fun t => t.rdB Fld.wblAlias_valid 0 && t.rdN Fld.wblAlias_lost 0 == 1 && t.aliased 1 == 0 && ended t stSuccess 0) = true ∧
 nx (.wblAliasSet 5) (fly s (cmdOf 8 3 [(16, 2), (18, 1)])) (fun t => t.fabric.requests.map (fun r => (r.dst, r.kind)) == [(1, .substituted)] && (t.cmd? 5).map (·.phase) == some .running && ended (t.acked ((t.requestOf 0).getD default) 1 0 0) stSuccess 0) = true ∧
 nx .actingRootTimeout ((s.wrN Fld.timCtrl_fabric_role 0).wrB Fld.wblFabricCfg_root_eligible true) (fun t => t.fabric.acting) = true) ∧
    nx (.linkRetrainOrder 5) (fly ((fab 3).wrN Fld.timCtrl_fabric_role 1) (cmdOf 8 4 [(16, 3)])) (fun t => t.linkState 3 == 1 && ended t stSuccess 0) = true ∧
    nx (.linkForceSpare 5) (fly ((fab 2).wrN Fld.timCtrl_fabric_role 1) (cmdOf 8 4 [(16, 3), (17, 1)])) (fun t => ended t stSuccess 0) = true ∧
    nx (.linkDownOrder 5) (fly ((fab 2).wrN Fld.timCtrl_fabric_role 1) (cmdOf 8 4 [(16, 3), (17, 2)])) (fun t => t.linkState 3 == 3 && ended t stSuccess 0) = true ∧
    nx (.linkDownOrder 5) (fly (fab 2) (cmdOf 8 4 [(16, 3), (17, 2)])) (fun t => (t.cmd? 5).map (·.status) == some stNotRoot) = true ∧
    -- R135: the only way to the root goes
(let s := ((fab 3 (fun f => { f with acting := true })).wrN Fld.timCtrl_fabric_role 2).wrN Fld.timStatus_state tsFollower
 nx (.detourCommit []) s (fun t => t.timeState == tsHoldover && t.time.upstreamLost) = true) := by
  decide +kernel

/-! 19 twins. -/

/-- A chip whose twin link 5 is in a state, its twin unit in a state with a role. -/
def twin (link st role : Nat) (f : Twin → Twin := id) : State :=
  let s := ((((base.wrN Fld.wblLinkCfg_role 2 5).wrN Fld.wblLinkStatus_state link 5).wrN Fld.twnStatus_state st).wrN Fld.twnStatus_role role)
  { s with twin := f s.twin, ingest := (ingest).ingest }
def tol : Tolerances := { posTol := 100, sizeTol := 100, posQ := 20, sizeQ := 10, scoreTol := 3277, missScore := 19660, bevRel := 0, bevAbs := 0 }
def sig (l : List (Int × Int × Nat × Nat × Nat × Nat)) : Signature :=
  { set := 255, valid := true, truncated := false, window := 4, digest := 0, truncScore := 0, boxes := l.map (fun b => ⟨b.1, b.2.1, b.2.2.1, b.2.2.2.1, b.2.2.2.2.1, b.2.2.2.2.2⟩), samples := [] }
def sigA : Signature := sig [(617, -160, 452, 190, 59768, 1), (1250, 224, 80, 70, 42008, 2), (2000, 450, 170, 60, 23068, 3)]
def sigB : Signature := sig [(619, -159, 449, 192, 59309, 1), (1252, 225, 82, 70, 42925, 2), (2000, 450, 170, 60, 22806, 4)]
def wait : SigWait := { set := 255, window := 4, bytes := sigA.bytes }

theorem test_witness_TwinMessagesActByState :
    nx (.hello [0x40, 1]) (twin 2 1 0) (fun t => t.twin.peerHello == [0x40, 1]) = true ∧
    nx (.hello [0x40, 1]) (twin 2 4 1) (fun t => t.twin.peerHello == []) = true ∧
    nx (.cert [0x41, 1]) (twin 2 1 0) (fun t => t.twin.peerCert == [1]) = true ∧
    nx (.role [0x43, 2]) (twin 2 2 0 (fun t => { t with proofSent := true, peerKey := [1], checked := true, ownRole := 1 })) (fun t => t.twinState == 3 && t.twinRole == 1) = true ∧
    nx (.role [0x43, 1]) (fly (twin 2 2 0 (fun t => { t with proofSent := true, peerKey := [1], checked := true, ownRole := 1, pairCmd := some 5 })) (cmdOf 0 0x90)) (fun t => t.twinState == 1 && ended t stTwinConfig 4) = true ∧
    nx (.syncData [0x44, 2, 9, 7, 0, 0, 0]) (twin 2 3 2) (fun t => t.twin.syncGens == [(9, 7)]) = true ∧
    nx (.syncData [0x44, 1]) (twin 2 3 2 (fun t => { t with list := [(255, 1)] })) (fun t => t.twin.syncContexts && t.ingest.ctxs.map (·.state) == [.disabled]) = true ∧
    nx (.syncData [0x44, 4, 2]) (twin 2 3 1 (fun t => { t with list := [(255, 1)], syncContexts := true, syncVersions := true })) (fun t => t.twin.syncDone) = true ∧
    nx (.syncDone [0x45, 9, 0, 0, 0, 0, 0, 0, 0]) (twin 2 3 2) (fun t => t.twin.syncDone && t.k0 == 9) = true ∧
    nx (.signature (0x46 :: sigB.bytes)) (twin 2 4 1) (fun t => t.twin.peer.map (·.window) == [4]) = true ∧
    nx (.signature (0x46 :: sigB.bytes)) (twin 2 4 1 (fun t => { t with judged := [(255, 4)] })) (fun t => t.twin.peer == []) = true ∧
    nx (.verdict [0x47, 1]) ((twin 2 4 1).wrN Fld.twnVerdict_local_verdict 1) (fun t => t.rdN Fld.twnVerdict_partner_verdict == 1 && t.rd Fld.twnCnt_count 3 == 1) = true ∧
    nx (.leaving [0x48, 2]) (twin 2 2 0) (fun t => t.twinState == 1) = true ∧
    nx (.leaving [0x48, 0, 0x41, 9, 3]) (fly (twin 2 2 0 (fun t => { t with pairCmd := some 5 })) (cmdOf 0 0x90)) (fun t => t.twinState == 1 && ended t stTwinConfig 3 && t.reports.map (·.detail) == [3]) = true ∧
    nx (.syncData [0x44, 3]) (twin 2 3 2) (fun t => t.twin.syncHeard && t.twin.syncVersions && t.twin.syncTime && t.fabric.inbox.length == 2) = true ∧
(twin 2 3 2 (fun t => { t with syncHeard := true })).canConfirm = true ∧
(match step (twin 2 3 2 (fun t => { t with syncHeard := true })) with | .next t => t.twin.syncTime && t.time.uptime == 0 && !t.canConfirm | _ => false) = true ∧
    nx (.leaving [0x48, 2]) (twin 2 4 2) (fun t => t.twinState == 5 && t.twinRole == 1 && t.rdN Fld.twnStatus_lost_reason == 3 && t.reports.map (·.detail) == [3]) = true := by
  decide +kernel

theorem test_witness_TwinOrdersAndTimes :
    nx (.twinPair 5) (fly base (cmdOf 0 0x90 [(16, 1)])) (fun t => ended t stTwinNoLink 0) = true ∧
    nx (.twinPair 5) (fly { twin 1 1 0 with host := memWrite [] 0x1000 [255, 0, 255, 255], queues := { base.queues with packages := [{ handle := 65535, part := 0, minBanks := 0, tiles := [0, 0, 0, 0] }] } } (cmdOf 0 0x90 [(16, 1), (24, 0x1000)]))
  (fun t => t.twin.pairCmd == some 5 && t.twin.list == [(255, 65535)]) = true ∧
    nx (.twinDetach 5) (fly (twin 2 3 1) (cmdOf 0 0x91)) (fun t => ended t stTwinState 3) = true ∧
    nx (.twinDetach 5) (fly (twin 2 4 1 (fun t => { t with frames := [⟨9, 255, 4, 0, 0, []⟩] })) (cmdOf 0 0x91)) (fun t => t.twinState == 6) = true ∧
    nx (.twinDetach 5) (fly (twin 2 4 1) (cmdOf 0 0x91)) (fun t => t.twinState == 5 && t.rdN Fld.twnStatus_lost_reason == 5 && ended t stSuccess 0) = true ∧
    nx .syncTimeout (later (fly (twin 2 3 2 (fun t => { t with pairCmd := some 5, syncContexts := true })) (cmdOf 0 0x90))) (fun t => t.twinState == 1 && ended t stTwinSync 1) = true ∧
    nx .twinFaultIn (twin 2 4 1) (fun t => t.twinState == 5 && t.rdN Fld.twnStatus_lost_reason == 2) = true ∧
    nx (.historyCopyArrive ([255, 0] ++ natToBytes 8 8)) ((twin 2 3 2 (fun t => { t with list := [(255, 1)], syncDone := true })).wrN Fld.twnFirstFrame_k0 9) (fun t => t.twinState == 4) = true ∧
    nx (.historyCopyArrive ([255, 0] ++ natToBytes 8 8)) ((twin 2 4 2 (fun t => { t with list := [(255, 1)], syncDone := true })).wrN Fld.twnFirstFrame_k0 9) (fun t => t.twinState == 4 && t.twin.copied == [255]) = true ∧
    (let s (role st : Nat) := (twin role st role (fun t => { t with list := [(255, 1)], syncDone := true })).wrN Fld.twnFirstFrame_k0 9
 let r : Run := { cmd := 5, handle := 1, part := 0, set := 255, frameCount := 0, window := { k := 8 } }
 let p : Package := { handle := 1, part := 0, minBanks := 0, tiles := [0, 0, 0, 0] }
 let c := cmdOf 0 8
 ((s 1 3).joinFrame c r p true).twinState = 4 ∧ ((s 1 4).joinFrame c r p true).twinState = 4 ∧ (s 2 4).awaitsCopy r p = (s 2 4, false)) ∧
    mismatches tol sigA sigB = 2 ∧
    nx .sigWaitTimeout (twin 2 4 1 (fun t => { t with own := [wait] })) (fun t => t.twin.own == [wait]) = true ∧
    -- R429, R437: a frame of a SOLO chip completes alone, a compared one waits for the partner
(let fr (st role : Nat) : State :=
   let s := runs [{ run0 with frameActive := true, window := { k := 9 } }] (fun c => { c with started := true, slot := some 65 })
   let u := twin 2 st role (fun t => { t with list := [(255, 65535)], lastList := [(255, 65535)], syncDone := true })
   ({ s with regs := u.regs, twin := u.twin }).wrN Fld.twnFirstFrame_k0 9
 (fr 5 1).twinState = 5 ∧ (fr 4 1).twinState = 4 ∧ (fr 4 1).pointsIn { run0 with frameActive := true } = true ∧
 nx (.runFrameComplete 5 {}) (fr 5 1) (fun t => t.queues.runs == [] && (t.cmd? 5).map (fun c => (c.frames, c.twinOutcome)) == some (1, 4)) = true ∧
 nx (.runFrameComplete 5 {}) (fr 4 1) (fun t => t.twin.frames.map (fun f => (f.cmd, f.set, f.window)) == [(5, 255, 9)] && t.twin.own.length == 1) = true) ∧
    -- R445, R459: a twin that left for the safe state pairs again at its release, and with auto_pair when the link comes up
(let t (b : Bool) := twin 2 1 0 (fun t => { t with returning := b, lastList := [(255, 1)] })
 let s := { (t true).wrN Fld.brkStatus_mode 2 with security := { base.security with identity := true } }
 let u := { (t false).wrB Fld.twnCfg_auto_pair true with security := { base.security with identity := true } }
 s.releaseBlock = none ∧ s.twinUp = true ∧ s.twinState = twWaitLink ∧ u.mode ≠ modeSafe ∧ u.twinState = 1 ∧
 -- without an identity the handshake that begins fails at once (R433)
 nx (.safeRelease 5) (fly { s with security := base.security } (cmdOf 0 0xA0))
   (fun t => t.mode == 1 && t.twin.list == [(255, 1)] && t.reports.map (·.source) == [0x1C]) = true ∧
 (State.twinLinkUp { u with security := base.security }).reports.map (·.source) = [0x1C]) ∧
    nx .sigWaitTimeout (later (twin 2 4 1 (fun t => { t with own := [wait] }))) (fun t => t.twin.own == [] && t.rd Fld.twnCnt_count 5 == 1) = true ∧
    nx (.twnSigExchange 5) (fly (twin 2 3 1) (cmdOf 9 1 [(24, 0x1000), (30, 0x8000)])) (fun t => ended t stTwinState 3) = true ∧
    nx (.twnCopy 5) (fly (twin 2 3 1) (cmdOf 9 2)) (fun t => ended t stTwinState 3) = true ∧
    (let s := (twin 2 3 2 (fun t => { t with list := [(255, 1)], syncDone := true })).wrN Fld.twnFirstFrame_k0 9
 let s := fly { s with queues := { s.queues with runs := [{ cmd := 5, handle := 1, part := 0, set := 255, frameCount := 0 }] } } (cmdOf 0 8)
 nx (.historyCopyArrive ([255, 0] ++ natToBytes 8 8)) s (fun t => t.twinState == 4 && t.canopy.history.map (fun h => (h.set, h.handle, h.cmd, h.window, h.valid)) == [(255, 1, 5, 8, true)]) = true) := by
  decide +kernel

theorem test_witness_SignaturesReadBack :
    signatureOf sigA.bytes = sigA ∧ sigA.bytes.length = 64 + 36 := by
  decide +kernel

/-! 20 Core Samples and grafts. -/

/-- Bark in a state of its samples. -/
def sampling (f : Bark → Bark := id) : State :=
  let s := (base.wrB Fld.brkCsCfg_enable true).wrN Fld.brkSpares_spare 31 3
  { s with bark := f s.bark, time := { s.time with now := 900 } }
def rotation (st : SampleStep) : Bark → Bark := fun b => { b with samples := [{ stem := 3, tile := 63, kind := .rotation, step := st, spare := 67 }] }
def inPlace (st : SampleStep) : Bark → Bark := fun b => { b with samples := [{ stem := 3, tile := 63, kind := .inPlace, step := st }] }
/-- No spare position is left on Stem 3. -/
def noSpares (b : Bark) : Bark := { b with retiredPos := [⟨3, 64⟩, ⟨3, 65⟩, ⟨3, 66⟩, ⟨3, 67⟩] }

theorem test_witness_CoreSamplesTakeTestAndReturnTiles :
    nx (.coreSampleStart 3) (sampling noSpares) (fun t => t.bark.samples.map (fun x => (x.kind, x.step)) == [(.inPlace, .waitingIdle)]) = true ∧
    nx (.coreSampleStart 3) (base.wrB Fld.brkCsCfg_enable false) (fun t => t.bark.samples == []) = true ∧
    nx (.coreSampleSwitch 3 63) (sampling (rotation .copying)) (fun t => t.posOf 3 63 == 67 && t.bark.samples.map (fun x => (x.step, x.spare)) == [(.testing, 63)]) = true ∧
    nx (.inPlaceSampleTake 3 63) (sampling (inPlace .waitingIdle)) (fun t => t.bark.samples.map (·.step) == [.testing]) = true ∧
    nx (.inPlaceLagExpire 3 63) ((sampling (inPlace .waitingIdle)).wrN Fld.brkCsCfg_lag_us 9) (fun t => t.bark.samples.map (·.step) == [.waitingIdle]) = true ∧
    nx (.inPlaceLagExpire 3 63) (later (sampling (inPlace .waitingIdle))) (fun t => t.bark.samples.map (·.step) == [.waitingBoundary]) = true ∧
    nx (.inPlaceSampleTake 3 63) (sampling (inPlace .waitingBoundary)) (fun t => t.bark.samples.map (·.step) == [.testing]) = true ∧
    nx (.coreSampleComplete 3 63 true) (sampling (rotation .testing)) (fun t => t.bark.samples == [] && (t.sampleTime 3 63).pass == 900 && t.reports == []) = true ∧
    nx (.brkCsRequest 5) (fly (sampling) (cmdOf 0xA 1 [] [desc [(56, 2 ^ 63)]])) (fun t => t.bark.sampleSets.map (fun x => (x.cmd, x.tiles)) == [(some 5, [(3, 63)])]) = true ∧
    nx (.brkCsRequest 5) (fly (sampling (fun b => { b with lostTiles := [(3, 63)] })) (cmdOf 0xA 1 [] [desc [(56, 2 ^ 63)]])) (fun t => (t.cmd? 5).map (·.status) == some stUnitLost) = true := by
  decide +kernel

theorem test_witness_FailedUnitsAreGraftedOrLost :
    nx (.coreSampleComplete 3 63 false) (sampling (rotation .testing)) (fun t => t.posRetired 3 67 && t.reports.map (·.source) == [0x10] && t.rdN Fld.brkCsStem_failures 3 == 1) = true ∧
    nx (.wearSample [{ unit := .tile 3 63, increase := 1000 }]) (sampling (fun b => { b with wear := [⟨.tile 3 63, 2, 2⟩] })) (fun t => t.bark.graftDue == [.tile 3 63] && t.reports.map (·.source) == [0x12]) = true ∧
    nx (.wearSample [{ unit := .tile 3 63, increase := 1000 }]) (sampling (fun b => { b with wear := [⟨.tile 3 63, 2, 2⟩], wearAt := some 0 })) (fun t => t.bark.graftDue == []) = true ∧
    nx (.wearSample [{ unit := .tile 3 63, increase := 0 }]) (sampling) (fun t => t.bark.graftDue == [] && t.reports == []) = true ∧
    nx (.graft (.engine 3 .sort 0)) (sampling) (fun t => !(t.rdN Fld.brkSpares_spare 3).testBit EngineKind.sort.bit && t.enginePos 3 .sort 0 == 1 && t.bark.lostEngines == []) = true ∧
    nx (.graft (.engine 3 .sort 0)) (sampling (fun b => b) |>.wrN Fld.brkSpares_spare 0 3) (fun t => t.bark.lostEngines == [(3, .sort, 0)] && t.reports.map (·.source) == [0x14]) = true ∧
    nx (.graft (.tile 3 63)) (sampling noSpares) (fun t => t.tileLost 3 63 && t.posRetired 3 63 && (t.reports.map (·.source)).head? == some 0x14) = true ∧
    nx (.graft (.lane 5 8)) { fab 2 with bark := { base.bark with graftDue := [.lane 5 8] } } (fun t => t.bark.graftDue == [] && t.rdN Fld.wblLinkStatus_spared_lane 5 == 8) = true ∧
    nx (.hangGraftTimeout (3 * 4096 + 1024)) (base) (fun t => t.reports == []) = true ∧
    nx (.tdmaSlotChange 3) (sampling) (fun t => t.bark.slots == [0, 0, 0, 0]) = true := by
  decide +kernel

/-! 21 start-up and security. -/

/-- A device whose start-up is at a stage. -/
def boot (st : Nat) (f : Security → Security := id) : State :=
  let s := (State.reset.wrN Fld.secBootStatus_stage st)
  { s with security := f { s.security with perst := false } }

theorem test_witness_StartUpRunsItsStages :
    nx (.perstRelease 2 0) State.reset (fun t => t.stage == 14 && !t.security.perst) = true ∧
    nx (.perstRelease 6 0) State.reset (fun t => t.stage == 15 && t.rdN Fld.secBootStatus_error == stImageFormat.toNat) = true ∧
    nx (.perstRelease 0 512) State.reset (fun t => t.stage == 15 && t.bark.faultLog.map (fun r => (r.source, r.detail)) == [(3, 512)]) = true ∧
    nx (.perstRelease 1 0) State.reset (fun t => t.stage == 0 && t.security.bootMode == 1) = true ∧
    nx .perstAssert base (fun t => t.security.perst && t.regs == []) = true ∧
    nx .vddBarkPowerOn (base.wrB Fld.secTrialSeen_seen true) (fun t => !t.rdB Fld.secTrialSeen_seen) = true ∧
    nx (.railTrip 7) base (fun t => t.reports.map (fun r => (r.source, r.detail)) == [(3, 7)]) = true ∧
    nx (.railTrip 9) base (fun t => !t.barkRuns && t.mode == modeSafe) = true ∧
    nx .bootRomComplete (boot 0 (fun x => { x with flash := { x.flash with present := false } })) (fun t => t.stage == 14) = true ∧
    nx (.barkFirmwareComplete true) (boot 1) (fun t => t.stage == 2) = true ∧
    nx (.barkFirmwareComplete false) (boot 1) (fun t => t.stage == 0 && t.security.failures == 1 && t.reports.map (·.source) == [6]) = true ∧
    nx .graftLogApplied { boot 2 with bark := { base.bark with flashGraft := [{ seq := 0, time := 0, source := 0x0F, cls := 1, reaction := 0, kind := 3, stem := 3, logical := 1023 }] } } (fun t => t.stage == 3 && t.bankState ⟨3, 63, 15⟩ == bankOff) = true ∧
    nx (.memoryStageComplete true 8) (boot 3) (fun t => t.stage == 4 && t.rdN Fld.hbmStackStatus_usable_slices 3 == 0 && t.reports.map (·.source) == [0x0C]) = true ∧
    nx (.samplesStageComplete []) (boot 4) (fun t => t.stage == 5) = true ∧
    nx (.samplesStageComplete []) ((boot 4).wrB Fld.pciSetupLock_lock true) (fun t => t.stage == 7 && t.mode == modeOperational && !t.bark.faultLow) = true := by
  decide +kernel

theorem test_witness_SecurityCommandsKeepTheirRules :
    nx (.firmwareStage 5) (fly { base with security := { base.security with flash := { base.security.flash with dir0 := { crcOk := true, validB := true } } } } (cmdOf 0 0xB0 [(24, 0x1000)])) (fun t => t.security.staging == some 5 && (t.security.flash.dir?).map (fun d => (d.validB, d.seq)) == some (false, 1)) = true ∧
    nx (.firmwareStage 5) (fly { base with security := { base.security with staging := some 9 } } (cmdOf 0 0xB0)) (fun t => ended t stFwBusy 0) = true ∧
    nx (.firmwareStage 5) (fly { base with security := { base.security with flash := { present := false } } } (cmdOf 0 0xB0)) (fun t => ended t stFlashError 0) = true ∧
    nx (.firmwareActivateTrial 5) (fly { base with security := { base.security with flash := { base.security.flash with dir0 := { crcOk := true, validB := true } } } } (cmdOf 0 0xB1)) (fun t => (t.security.flash.dir?).map (fun d => (d.preferredB, d.trial, d.seq)) == some (true, true, 1) && ended t stSuccess 0) = true ∧
    nx (.firmwareActivateTrial 5) (fly { base with security := { base.security with flash := { base.security.flash with dir0 := { crcOk := true } } } } (cmdOf 0 0xB1)) (fun t => ended t stImageFormat 0) = true ∧
    nx (.firmwareActivateCommit 5) (fly { base with security := { base.security with flash := { base.security.flash with dir0 := { crcOk := true, trial := true } } } } (cmdOf 0 0xB1 [(16, 1)])) (fun t => (t.security.flash.dir?).map (fun d => (d.trial, d.seq)) == some (false, 1)) = true ∧
    nx (.otpOrder 5) (fly base (cmdOf 0 0xB2 [(24, 0x1000), (32, 8)])) (fun t => (t.cmd? 5).map (·.status) == some stOtpRefused) = true ∧
    nx (.rollbackCommit 5) (fly (base.wrN Fld.secBootStatus_sec_version 9) (cmdOf 0 0xB3)) (fun t => t.security.otp.rollback == 9 && ended t stSuccess 0) = true ∧
    nx (.measureExtend 5) (fly base (cmdOf 0 0xB4 [(16, 8)])) (fun t => ended t stMeasureRange 8) = true ∧
    nx (.measureExtend 5) (fly base (cmdOf 0 0xB4 [(16, 15), (24, 0x1000)])) (fun t => ended t stSuccess 0) = true ∧
    nx (.ideIntegrityFailure 7 (some 5)) (fly { base with security := { base.security with ide := List.replicate 8 .secure } } (cmdOf 0xC 0)) (fun t => t.security.ide[7]? == some .insecure && t.security.ide[0]? == some .secure && ended t stIdeStream 7) = true ∧
    nx (.spdmMessage []) base (fun t => t.security == base.security) = true := by
  decide +kernel

/-- Function 63's request of the mailbox, with an opcode and its first four argument words. -/
def mailbox (op : Nat) (args : List Nat) (f : Security → Security := id) : State :=
  let s : State := { base with
    pcie := { base.pcie with fns := base.pcie.fns ++ [{ num := 63, busMaster := true }], mailboxQueue := [63] }, security := f base.security }
  args.zipIdx.foldl (fun s x => s.wrN Fld.secMboxArg_arg x.1 x.2 63) ((s.wrN Fld.secMboxCmd_opcode op 0 63).wrB Fld.secMboxCmd_go true 0 63)

theorem test_witness_MailboxRequestsAreServed :
    nx (.attest 63) (mailbox 1 []) (fun t => t.rdB Fld.secMboxCmd_done 0 63 && !t.rdB Fld.secMboxCmd_go 0 63 && t.rdN Fld.secMboxCmd_status 0 63 == stIdentityAbsent.toNat && t.pcie.mailboxQueue == []) = true ∧
    nx (.recoveryBlock 63) (mailbox 5 [0x1000, 2, 1048577, 0]) (fun t => t.rdN Fld.secMboxCmd_status 0 63 == stBadValue.toNat) = true ∧
    nx (.attest 0) (mailbox 1 []) (fun t => t.pcie.mailboxQueue == [63]) = true ∧
    nx .challengeExpire (later { base with security := { base.security with challenge := some ([], 1) } }) (fun t => t.security.challenge == none) = true ∧
nx .challengeExpire { base with security := { base.security with challenge := some ([], 1) } } (fun t => t.security.challenge == some ([], 1)) = true := by
  decide +kernel

/-! 22 trace, hangs and dumps. -/

/-- A device with a trace region of 1 MiB and a dump region. -/
def traced : State := ((base.wrN Fld.trcBase_base 0x100).wrN Fld.trcSize_size_mib 1).wrN Fld.trcDumpBase_base 0x1000
def record : TraceRecord := { time := 0, unit := 0, type := 1, trigger := false, layerId := 0, opId := 0, ring := 0, part := 0, payload := [] }

theorem test_witness_TraceOrdersAndMarks :
    nx (.traceStart 5) (fly base (cmdOf 0 0xE0)) (fun t => ended t stResource 0) = true ∧
    nx (.traceStart 5) (fly traced (cmdOf 0 0xE0)) (fun t => t.rdB Fld.trcCtrl_enable && t.rdN Fld.trcStatus_state == 1 && ended t stSuccess 0) = true ∧
    nx (.traceStop 5) (fly ((traced.wrN Fld.trcStatus_state 1).wrB Fld.trcCtrl_enable true) (cmdOf 0 0xE0 [(16, 1)])) (fun t => !t.rdB Fld.trcCtrl_enable && t.rdN Fld.trcStatus_state == 3) = true ∧
    nx (.traceTriggerNow 5) (fly traced (cmdOf 0 0xE0 [(16, 2)])) (fun t => ended t stSuccess 0 && t.rdN Fld.trcStatus_state == 0) = true ∧
    nx (.traceTriggerNow 5) (fly (((traced.wrN Fld.trcStatus_state 1).wrB Fld.trcCtrl_enable true).wrN Fld.trcCtrl_mode 2) (cmdOf 0 0xE0 [(16, 2)])) (fun t => t.rdN Fld.trcStatus_state == 2 && t.observe.traceCount == 1) = true ∧
    nx (.traceTriggerNow 5) (fly ((((traced.wrN Fld.trcStatus_state 1).wrB Fld.trcCtrl_enable true).wrN Fld.trcCtrl_mode 2).wrN Fld.trcPost_post_records 0) (cmdOf 0 0xE0 [(16, 2)])) (fun t => t.rdN Fld.trcStatus_state == 3 && t.observe.traceCount == 1) = true ∧
    nx (.traceSetMode 5) (fly traced (cmdOf 0 0xE0 [(16, 3), (17, 2)])) (fun t => t.rdN Fld.trcCtrl_mode == 2 && ended t stSuccess 0) = true ∧
    nx (.traceMark 5) (fly traced (cmdOf 0 0xE1)) (fun t => ended t stSuccess 0 && t.observe.rings.map (fun r => r.2.map (·.event)) == [[0x0B]]) = true ∧
    ((traced.wrN Fld.trcStatus_state 1).putTrace record).observe.traceCount = 1 ∧ ((traced.wrN Fld.trcStatus_state 3).putTrace record).rd Fld.trcDropped_dropped = 1 := by
  decide +kernel

theorem test_witness_HangsAndDumps :
    nx (.unitHang (3 * 4096 + 1024)) (traced.wrB Fld.trcWdCfg_enable false) (fun t => t.observe.hung == []) = true ∧
    (let s : State := { traced.wrB Fld.trcWdCfg_enable true with queues := { base.queues with sqs := [{ num := 1024, fn := 0, part := 0, crit := 0, log2 := 4, base := 0x10000, state := .on, reading := 1 }] } }
 s.queuedAt 0 = [] ∧ s.holdsWork 0 = true ∧
 nx (.unitHang 0) s (fun t => t.observe.hung == [0] && t.reports.map (·.source) == [0x16] && t.observe.rings.map (fun r => r.2.map (·.event)) == [[0x11, 0x10]] && t.observe.dumps.map (fun d => (d.reason, d.unit)) == [(0, 0)] && !t.silentFor 0 && (t.worked 0).observe.hung == []) = true ∧
 nx (.unitHang 0) { s with observe := { s.observe with workAt := [(0, 0)] } } (fun t => t.observe.hung == []) = true) ∧
    nx (.dumpRequest 5) (fly traced (cmdOf 0 0xE2)) (fun t => t.observe.dumps.map (fun d => (d.reason, d.slot)) == [(2, 0)] && ended t stSuccess 0) = true ∧
    nx (.dumpRequest 5) (fly (traced.wrN Fld.trcDumpStatus_slot_full 3) (cmdOf 0 0xE2)) (fun t => ended t stResource 0 && t.rdN Fld.trcDumpStatus_dumps_lost == 1) = true ∧
    nx .dumpWritten base (fun t => t.observe.dumps == []) = true ∧
    nx (.dumpSlotFree 1) (base.wrN Fld.trcDumpStatus_slot_full 3) (fun t => t.rdN Fld.trcDumpStatus_slot_full == 1) = true := by
  decide +kernel

/-! 23 power. -/

/-- A device whose Stems are all OFF but Stem 3, which is in a state. -/
def stem (st : Nat) (f : Power → Power := id) : State :=
  let s : State := (List.range 3).foldl (fun s j => s.wrN Fld.pwrStemStatus_state 0 j) (base.wrN Fld.pwrStemStatus_state st 3)
  { s with power := f s.power }
def temps (t : Nat) : List (List Nat) := List.replicate 3 (List.replicate 64 0) ++ [List.replicate 63 0 ++ [t]]
def off : Cmd := cmdOf 0 0xF1 [(16, 3)]
def on : Cmd := cmdOf 0 0xF1 [(16, 3), (17, 1)]

theorem test_witness_PowerLoopsAndTemperatures :
    nx (.powerCap 5) (fly base (cmdOf 0 0xF0 [(16, 300)])) (fun t => t.capWatts == 300 && ended t stSuccess 0) = true ∧
    nx (.pollardLoop 600000) (base.wrB Fld.pwrCtrl_pollard_enable false) (fun t => t.power.tileCeil == [48, 48, 48, 48]) = true ∧
    nx (.pollardLoop 600000) { base.wrB Fld.pwrCtrl_pollard_enable true with power := { base.power with tileCeil := [14, 14, 14, 14], engineCeil := [14, 14, 14, 14] } } (fun t => t.rdB Fld.pwrStatus_cap_unmet) = true ∧
    nx (.pollardLoop 1000) { base.wrB Fld.pwrCtrl_pollard_enable true with power := { base.power with tileCeil := [33, 47, 48, 40] } } (fun t => t.power.tileCeil == [35, 48, 48, 42]) = true ∧
    nx (.thermalSample (temps 105)) (stem 2) (fun t => t.rdB Fld.pwrStemStatus_clamp 3 && t.reports.map (fun r => (r.source, r.logical)) == [(5, 63)] && t.rdN Fld.pwrStemStatus_thermal_ceiling 3 == 52) = true ∧
    nx (.thermalSample (temps 99)) ((stem 2).wrB Fld.pwrStemStatus_clamp true 3) (fun t => !t.rdB Fld.pwrStemStatus_clamp 3) = true ∧
    nx (.thermalSample (temps 105)) (stem 0) (fun t => t.reports == []) = true := by
  decide +kernel

theorem test_witness_StemsGoOffAndOn :
    nx (.stemPowerOff 5) (fly (stem 0) off) (fun t => ended t stSuccess 0) = true ∧
    nx (.stemPowerOff 5) (fly (stem 1) off) (fun t => t.power.downPending == [3] && t.power.offCmds == [(3, 5)]) = true ∧
    nx (.stemPowerOff 5) (fly ((stem 3).wrB Fld.pwrStemStatus_reenable_pending true 3) off) (fun t => !t.rdB Fld.pwrStemStatus_reenable_pending 3 && t.stemState 3 == 3) = true ∧
    nx (.stemPowerOn 5) (fly (stem 2) on) (fun t => ended t stSuccess 0) = true ∧
    nx (.stemPowerOn 5) (fly (stem 0) on) (fun t => t.stemState 3 == bankStarting && t.power.onCmds == [(3, 5)]) = true ∧
    nx (.stemPowerOn 5) (fly (stem 1 (fun p => { p with downPending := [3] })) on) (fun t => t.power.downPending == [] && t.stemState 3 == 1) = true ∧
    nx (.stemPowerOn 5) (fly (stem 3) on) (fun t => t.rdB Fld.pwrStemStatus_reenable_pending 3) = true ∧
    nx (.stemOffDone 3) (fly { stem 3 (fun p => { p with offCmds := [(3, 5)] }) with sap := [(bankBase ⟨3, 0, 0⟩, 1)] } { off with started := true }) (fun t => t.stemState 3 == 0 && t.sap == [] && ended t stSuccess 0) = true ∧
    nx (.stemOffDone 3) ((stem 3).wrB Fld.pwrStemStatus_reenable_pending true 3) (fun t => t.stemState 3 == 1) = true ∧
    nx (.stemStartDone 3 []) (fly (stem 1 (fun p => { p with onCmds := [(3, 5)] })) { on with started := true }) (fun t => t.stemState 3 == 2 && ended t stSuccess 0) = true := by
  decide +kernel

/-! 24 endpoint. -/

/-- Function 63 is enabled beside the physical function, in a condition. -/
def vf (f : Fn → Fn := id) : State := { base with pcie := { base.pcie with configReady := true, vfEnable := true, numVfs := 63, fns := base.pcie.fns ++ [f { num := 63, busMaster := true, msixEnable := true }] } }

/-- A device that waits for its set-up lock. -/
def booting : State := { State.reset.wrN Fld.secBootStatus_stage 5 with security := { State.reset.security with perst := false } }

theorem test_witness_FunctionsResetAndChangePower :
    nx (.functionLevelReset 63) (vf) (fun t => (t.fn? 63).map (·.resetting) == some true && t.holds 63) = true ∧
    nx (.functionLevelReset 0) (vf) (fun t => !t.pcie.vfEnable && t.pcie.fns.map (·.resetting) == [true, true]) = true ∧
    nx (.flrComplete 63) ((vf (fun f => { f with resetting := true })).wrB Fld.pciFnLock_lock true 0 63) (fun t => !t.rdB Fld.pciFnLock_lock 0 63) = true ∧
    nx (.vfEnableWrite true 2) base (fun t => t.fnOn 2 && !t.fnOn 3) = true ∧
    nx (.vfEnableWrite false 0) (vf) (fun t => !t.fnOn 63 && (t.fn? 63).isSome) = true ∧
    nx (.pmcsrD3hot 63) (vf) (fun t => (t.fn? 63).map (·.dstate) == some .d3hot && !t.answers 63) = true ∧
    nx (.pmcsrD0 63) (vf (fun f => { f with dstate := .d3hot, busMaster := false })) (fun t => t.answers 63) = true ∧
    nx (.pmcsrD0 0) { stem 0 (fun p => { p with wasOn := [3] }) with pcie := { base.pcie with fns := [{ num := 0, dstate := .d3hot }] } } (fun t => t.stemState 3 == bankStarting) = true := by
  decide +kernel

theorem test_witness_ConfigurationBar2VectorsAndLocks :
    nx (.pcieConfigRequest 63 0 false 0) (vf) (fun t => t.out == [.completion 63 0 [0xE1, 0x1F, 0x11, 0x5E]]) = true ∧
    nx (.pcieConfigRequest 63 0x2C false 0) (vf) (fun t => t.out == [.completion 63 0 [0xE1, 0x1F, 0, 0]]) = true ∧
    nx (.pcieConfigRequest 63 4 true 0) (vf) (fun t => t.holds 63) = true ∧
    nx (.bar2Read 63 0x40000000 4) (vf) (fun t => t.out == [.completion 63 3 []]) = true ∧
    -- the example of R564: byte 0x100 of logical tile 5 on Stem 2, and bit 30 of the Sapwood window
nx (.bar2Read 0 0x205000100 4) { (base.wrN Fld.pciBar2Base_base 0x4000 0) with sap := [(0x100205000101, 9)], pcie := { base.pcie with fns := [{ num := 0, busMaster := true, bar2Bytes := 2 ^ 34 }] } }
  (fun t => t.out == [.completion 0 1 []] || t.out == [.completion 0 0 [0, 9, 0, 0]]) = true ∧
    nx (.bar2Read 0 0x40000000 4) { (base.wrN Fld.pciBar2Base_base 0x4000 0) with pcie := { base.pcie with fns := [{ num := 0, busMaster := true, bar2Bytes := 2 ^ 34 }] } } (fun t => t.out == [.completion 0 1 []]) = true ∧
    nx (.bar2Write 0 0x1000 [1, 2]) base (fun t => memRead t.hbm 0x1000 2 == [1, 2]) = true ∧
    nx (.msixUnmask 63 (some 2047)) (vf (fun f => { f with pendingVecs := [2047] })) (fun t => t.out == [.msix 63 2047]) = true ∧
    nx (.pcieLinkRetrain 4 8) { base with security := { base.security with ide := [.secure] } } (fun t => t.rdN Fld.pciLinkStatus_speed == 4 && !t.rdB Fld.pciLinkStatus_flit_mode && t.security.ide == [.insecure]) = true ∧
    nx (.setupLockWrite 0 0x80000000) booting (fun t => t.locked && t.stage == 7 && t.mode == modeOperational) = true ∧
    nx (.setupLockWrite 0 0x80000000) (booting.wrB Fld.brkFwCtl_enable true 640) (fun t => !t.locked && t.rdB Fld.pciSetupLock_lock_error) = true ∧
    nx (.fnLockWrite 63 1) (vf) (fun t => t.rdB Fld.pciFnLock_lock 0 63) = true := by
  decide +kernel

theorem test_witness_FunctionLockGuardsItsOwnRegisters :
    nx (.registerWrite 63 Reg.crnAdminSqBase.info.offset 8 0x1000) (vf) (fun t => t.rdN Fld.crnAdminSqBase_base 0 63 == 1) = true ∧
    nx (.registerWrite 63 Reg.crnAdminSqBase.info.offset 8 0x1000) ((vf).wrB Fld.pciFnLock_lock true 0 63) (fun t => t.rdN Fld.crnAdminSqBase_base 0 63 == 0) = true := by
  decide +kernel

theorem test_witness_SecurityCapabilityReadsAsTheTable :
    (List.range 12).map (fun i => base.bar0Byte 63 (0x100 + i)) = [0x01, 0, 1, 0, 4, 0, 0, 0, 0x40, 1, 0, 0] := by
  decide +kernel

theorem test_witness_LocalAccessesFollowTheFirewalls :
    (match (base.wrB Fld.brkFwCtl_enable false 0).load { part := 0, crit := 0, stream := 0 } 0x1000 8 with | (t, .error e) => e.status == stFirewall && t.rd Fld.brkFwDeny_denied 0 == 1 | _ => false) = true ∧
    (match base.load { part := 0, crit := 0, stream := 0 } (2 ^ 46 + 2 ^ 45) 8 with | (_, .error e) => e.status == stAddress | _ => false) = true ∧
    (match base.store { part := 0, crit := 0, stream := 0 } 0x1FE0 (List.replicate 32 7) with | (t, none) => memRead t.hbm 0x1FDF 34 == [0] ++ List.replicate 32 7 ++ [0] | _ => false) = true ∧
    (match base.store { part := 0, crit := 0, stream := 0 } (bankBase ⟨3, 63, 11⟩) (List.replicate 8 7) with | (t, none) => memRead t.sap (bankBase ⟨3, 63, 11⟩) 9 == List.replicate 8 7 ++ [0] | _ => false) = true ∧
    (match ({ base with sap := [(bankBase ⟨3, 63, 11⟩, 9)] } : State).atomic { part := 0, crit := 0, stream := 0 } .cas (bankBase ⟨3, 63, 11⟩) 9 9 with | (_, .ok v) => v == 9 | _ => false) = true ∧
    -- R476: two windows of one partition side by side; neither covers an access across their border
(let s := (((((base.wrN Fld.brkFwLimit_limit 1 0).wrN Fld.brkFwBase_base 1 1).wrN Fld.brkFwLimit_limit 2 1).wrB Fld.brkFwCtl_enable true 1).wrB Fld.brkFwCtl_any_partition true 1).wrB Fld.brkFwCtl_write true 1
 match s.storeWhole { part := 0, crit := 0, stream := 0x2000 } 0xFFC (List.replicate 8 7), s.storeWhole { part := 0, crit := 0, stream := 0x2000 } 0x1000 (List.replicate 70 7) with
 | (t, some e), (u, none) => e.status == stFirewall && t.hbm == [] && t.rd Fld.brkFwDeny_denied 0 == 1 && memRead u.hbm 0x1000 71 == List.replicate 70 7 ++ [0]
 | _, _ => false) = true := by
  decide +kernel

end Sys2Proof.Tests
end

section
/-! SUPPORT. Every meaning answers, and what a write to a register's fields does. -/

namespace Sys2Proof

/-! The frame of an operation: which components it changes at most. -/

theorem OnlyIn.refl (l : List Component) (s : Machine.State) : OnlyIn l s s := fun p _ => by cases p <;> rfl

theorem OnlyIn.trans {l : List Component} {s t u : Machine.State} (hst : OnlyIn l s t) (htu : OnlyIn l t u) : OnlyIn l s u := by
  intro p hp
  have h1 := hst p hp
  have h2 := htu p hp
  cases p <;> exact h2.trans h1

theorem onlyIn_wr (s : Machine.State) (f : Machine.Field) (v : DWord) (i n : Nat) : OnlyIn [.regs] s (s.wr f v i n) := by
  intro p hp
  cases p
  case regs => exact absurd (List.mem_singleton.mpr rfl) hp
  all_goals rfl

namespace Machine

/-- A meaning that changes register fields alone answers its own state. -/
theorem State.after_of_onlyIn_regs {s t : State} (h : OnlyIn [.regs] s t) : s.after t = t :=
  s.after_eq t (h .pending (by decide)) (h .variant (by decide)) (h .revision (by decide))

/-! Every meaning is an answer. -/

/-- Each arm of the dispatch answers some state, under the check that the units the command names exist (log entry 6). -/
theorem exec_eq_answer (c : Instr) (s : State) : ∃ t, exec c s = answer s (wellFormed c) t := by
  cases c <;> exact ⟨_, rfl⟩

/-- A command that names existing units completes, and keeps the queue and the part. -/
theorem exec_next {c : Instr} (s : State) (h : wellFormed c = true) :
    ∃ t, exec c s = .next t ∧ t.pending = s.pending ∧ t.variant = s.variant ∧ t.revision = s.revision := by
  obtain ⟨t, ht⟩ := exec_eq_answer c s
  rw [ht]
  exact answer_next h

/-! The register map: every field lies inside the register that lists it, apart from the register's other fields. -/

theorem Reg.field_reg {r : Reg} {f : Field} (h : f ∈ r.info.fields) : f.reg = r := by
  have all : r.info.fields.all (fun f => f.reg == r) = true := by cases r <;> rfl
  simpa using List.all_eq_true.mp all f h

theorem Reg.field_fits {r : Reg} {f : Field} (h : f ∈ r.info.fields) : 0 < f.width ∧ f.lo + f.width ≤ 8 * r.info.bytes := by
  have all : r.info.fields.all (fun f => 0 < f.width ∧ f.lo + f.width ≤ 8 * r.info.bytes) = true := by cases r <;> rfl
  simpa using List.all_eq_true.mp all f h

theorem Reg.fields_apart (r : Reg) : r.info.fields.Pairwise (fun f g => f.lo ≠ g.lo) := by cases r <;> decide

/-! One field of a register takes a write (R12). -/

/-- A write leaves a field's state as it is or sets the field, in the copy of the function that writes (R562). -/
theorem State.writeField_cases (s : State) (fn idx mask v : Nat) (f : Field) :
    s.writeField fn idx mask v f = s ∨
      ∃ x, s.writeField fn idx mask v f = s.wrN f x idx (if f.reg.info.perFn then fn else 0) := by
  unfold State.writeField
  dsimp only
  split
  · exact .inl rfl
  · split
    case h_2 =>
      split
      · exact .inl rfl
      · exact .inr ⟨_, rfl⟩
    case h_1 | h_3 | h_4 => exact .inr ⟨_, rfl⟩
    all_goals exact .inl rfl

theorem State.onlyIn_writeField (s : State) (fn idx mask v : Nat) (f : Field) :
    OnlyIn [.regs] s (s.writeField fn idx mask v f) := by
  obtain h | ⟨x, h⟩ := s.writeField_cases fn idx mask v f
  · rw [h]; exact OnlyIn.refl _ _
  · rw [h]; exact onlyIn_wr s _ _ _ _

theorem State.rd_writeField_other (s : State) (fn idx mask v : Nat) {f g : Field} (j m : Nat)
    (h : f.reg = g.reg → f.lo ≠ g.lo) : (s.writeField fn idx mask v f).rd g j m = s.rd g j m := by
  obtain e | ⟨x, e⟩ := s.writeField_cases fn idx mask v f
  · rw [e]
  · rw [e]
    exact s.rd_wr_other _ _ _ _ _ _ _ fun hk => h (congrArg RegKey.reg hk) (congrArg RegKey.lo hk)

/-- The bits of a value that is written under a full mask replace the old ones. -/
theorem mergeBits_full (w old v : Nat) : mergeBits w old (2 ^ w - 1) v = v % 2 ^ w := by
  simp [mergeBits, Nat.and_two_pow_sub_one_eq_mod]

/-- A function may write a field: its access code is RW, or RWL while the lock that governs its register is clear (R12). -/
def State.MayWrite (s : State) (fn : Nat) (f : Field) : Prop :=
  f.access = .rw ∨ f.access = .rwl ∧ s.lockedFor fn f.reg = false

/-- A field that the function may write takes its bits of a value whose mask covers it. -/
theorem State.rdN_writeField_full (s : State) (fn idx mask v : Nat) {f : Field} (h0 : 0 < f.width) (h64 : f.width ≤ 64)
    (hm : getBits mask f.lo f.width = 2 ^ f.width - 1) (ha : s.MayWrite fn f) :
    (s.writeField fn idx mask v f).rdN f idx (if f.reg.info.perFn then fn else 0) = getBits v f.lo f.width := by
  have hne : (2 ^ f.width - 1 : Nat) ≠ 0 := by
    have := Nat.one_lt_two_pow (Nat.ne_of_gt h0)
    omega
  have e (old : Nat) : mergeBits f.width old (2 ^ f.width - 1) (getBits v f.lo f.width) % 2 ^ f.width = getBits v f.lo f.width := by
    rw [mergeBits_full, Nat.mod_mod, Nat.mod_eq_of_lt (getBits_lt ..)]
  unfold State.writeField
  obtain ha | ⟨ha, hl⟩ := ha
  · simp [hm, hne, ha, State.rdN_wrN _ _ _ _ _ _ _ _ h64, e]
  · simp [hm, hne, ha, hl, State.rdN_wrN _ _ _ _ _ _ _ _ h64, e]

/-! The fields of a register take a write, one after the other. -/

theorem State.rd_foldl_writeField_other (l : List Field) (s : State) (fn idx mask v : Nat) {g : Field} (j m : Nat)
    (h : ∀ f ∈ l, f.reg = g.reg → f.lo ≠ g.lo) :
    (l.foldl (fun s f => s.writeField fn idx mask v f) s).rd g j m = s.rd g j m := by
  induction l generalizing s with
  | nil => rfl
  | cons f l ih =>
    obtain ⟨hf, hl⟩ := List.forall_mem_cons.mp h
    rw [List.foldl_cons, ih _ hl, s.rd_writeField_other _ _ _ _ _ _ hf]

theorem State.onlyIn_writeFields (s : State) (fn : Nat) (r : Reg) (idx mask v : Nat) :
    OnlyIn [.regs] s (s.writeFields fn r idx mask v) := by
  unfold State.writeFields
  induction r.info.fields generalizing s with
  | nil => exact OnlyIn.refl _ _
  | cons f l ih => exact OnlyIn.trans (s.onlyIn_writeField fn idx mask v f) (ih _)

theorem State.rd_writeFields_other (s : State) (fn idx mask v : Nat) {r : Reg} {g : Field} (j m : Nat) (h : g.reg ≠ r) :
    (s.writeFields fn r idx mask v).rd g j m = s.rd g j m :=
  State.rd_foldl_writeField_other _ s _ _ _ _ _ _ fun _ hf e => absurd (e.symm.trans (Reg.field_reg hf)) h

/-- A write to a field outside the lock registers keeps what a function may write. -/
theorem State.mayWrite_writeField {s : State} {fn : Nat} {f : Field} (h : s.MayWrite fn f) (idx mask v : Nat) {g : Field}
    (h1 : g.reg ≠ .pciSetupLock) (h2 : g.reg ≠ .pciFnLock) : (s.writeField fn idx mask v g).MayWrite fn f := by
  have hl : (s.writeField fn idx mask v g).lockedFor fn f.reg = s.lockedFor fn f.reg := by
    simp only [State.lockedFor, State.locked, State.rdB]
    rw [s.rd_writeField_other (g := Fld.pciFnLock_lock) _ _ _ _ _ _ fun e => absurd e h2,
      s.rd_writeField_other (g := Fld.pciSetupLock_lock) _ _ _ _ _ _ fun e => absurd e h1]
  rwa [State.MayWrite, hl]

/-- Each field of a register that the function may write takes its bits of a value whose mask covers it. The register's other
fields do not overlap it, so neither those before nor those after it in the list change it. -/
theorem State.rdN_foldl_writeField {r : Reg} (h1 : r ≠ .pciSetupLock) (h2 : r ≠ .pciFnLock) (fn idx mask v : Nat) {f : Field}
    (h0 : 0 < f.width) (h64 : f.width ≤ 64) (hm : getBits mask f.lo f.width = 2 ^ f.width - 1) (l : List Field)
    (hr : ∀ g ∈ l, g.reg = r) (hd : l.Pairwise (fun f g => f.lo ≠ g.lo)) (hf : f ∈ l) (s : State) (ha : s.MayWrite fn f) :
    (l.foldl (fun s f => s.writeField fn idx mask v f) s).rdN f idx (if r.info.perFn then fn else 0) = getBits v f.lo f.width := by
  induction l generalizing s with
  | nil => cases hf
  | cons g l ih =>
    obtain ⟨rfl, hr⟩ := List.forall_mem_cons.mp hr
    obtain ⟨hgl, hd⟩ := List.pairwise_cons.mp hd
    rw [List.foldl_cons]
    obtain rfl | hf := List.mem_cons.mp hf
    · rw [State.rdN, State.rd_foldl_writeField_other l _ _ _ _ _ _ _ fun x hx _ => (hgl x hx).symm]
      exact s.rdN_writeField_full _ _ _ _ h0 h64 hm ha
    · exact ih hr hd hf _ (State.mayWrite_writeField ha _ _ _ h1 h2)

theorem State.rdN_writeFields {r : Reg} (h1 : r ≠ .pciSetupLock) (h2 : r ≠ .pciFnLock) {s : State} {fn : Nat} (idx mask v : Nat)
    {f : Field} (hf : f ∈ r.info.fields) (ha : s.MayWrite fn f) (h64 : f.width ≤ 64)
    (hm : getBits mask f.lo f.width = 2 ^ f.width - 1) :
    (s.writeFields fn r idx mask v).rdN f idx (if r.info.perFn then fn else 0) = getBits v f.lo f.width :=
  State.rdN_foldl_writeField h1 h2 _ _ _ _ (Reg.field_fits hf).1 h64 hm _ (fun _ => Reg.field_reg) r.fields_apart hf s ha

/-! Writes to registers. -/

theorem exec_registerWrite {fn off : Nat} (hfn : fn < 64) (hoff : off < 0x4000000) (n : Nat) (v : DWord) (s : State) :
    exec (.registerWrite fn off n v) s = .next (s.after (s.regWrite fn off n v)) :=
  answer_of _ _ (by simp [isFn, isBar0, hfn, hoff])

theorem exec_pertRegisterWrite {fn off : Nat} (hfn : fn < 64) (h1 : 0x3C0100 ≤ off) (h2 : off < 0x3C0118) (n : Nat) (v : DWord)
    (s : State) : exec (.pertRegisterWrite fn off n v) s = .next (s.after (s.regWrite fn off n v)) := by
  have hoff : off < 0x4000000 := by omega
  exact (answer_of _ _ (by simp [isFn, isBar0, hfn, hoff])).trans (by rw [if_pos ⟨h1, h2⟩])

/-- The registers whose write does no more than R12 says. -/
def Reg.plain : Reg → Bool
  | .crnChipId | .hbmStackRetireAck | .sapTilePwrReq | .crnAdminSqBase | .crnAdminCqBase | .crnAdminDbLine | .crnAdminHeadLine
  | .crnAdminCfg | .crnKnotOwner | .timCtrl | .timNextSec | .siuPortCfg | .wblLinkCfg | .brkFwBase | .brkFwLimit | .brkFwCtl
  | .brkSrcCfg | .brkCsCfg | .secMboxCmd | .trcCtrl | .trcPertCtrl | .trcPertSeed | .trcPertScope | .pciSetupLock
  | .pciFnLock => false
  | _ => true

theorem State.writeReg_plain {r : Reg} (h : r.plain = true) (s : State) (fn idx mask v : Nat) :
    s.writeReg fn r idx mask v = s.writeFields fn r idx mask v := by
  cases r <;> simp [Reg.plain, State.writeReg] at h ⊢

theorem State.regWrite_four {s : State} {fn off : Nat} (v : DWord) {r : Reg} {i byte : Nat} (hoff : off % 4 = 0)
    (hs : s.served = true) (ha : s.answers fn = true) (hr : locate off = some (r, i, byte)) (hv : visible fn r = true) :
    s.regWrite fn off 4 v
      = s.writeReg fn r i (0xFFFFFFFF <<< (8 * byte)) ((v.toNat % 4294967296) <<< (8 * byte)) := by
  simp [State.regWrite, writePart, hoff, hs, ha, hr, hv]

/-- An 8-byte write to an 8-byte register writes all of it. -/
theorem State.regWrite_eight {s : State} {fn off : Nat} (v : DWord) {r : Reg} {i byte : Nat} (hoff : off % 8 = 0)
    (hs : s.served = true) (ha : s.answers fn = true) (hr : locate off = some (r, i, byte)) (hv : visible fn r = true)
    (hb : r.info.bytes = 8) : s.regWrite fn off 8 v = s.writeReg fn r i (2 ^ 64 - 1) v.toNat := by
  simp [State.regWrite, hoff, hs, ha, hr, hv, hb]

/-- Before its stage a register outside those that are always served takes no write (R489). -/
theorem State.regWrite_unserved {s : State} {off : Nat} (fn n : Nat) (v : DWord) (hs : s.served = false)
    (ho : alwaysServed off = false) : s.regWrite fn off n v = s := by
  simp [State.regWrite, hs, ho]

/-- Ones from bit 0 up to a field and beyond read as ones in the field. -/
theorem getBits_ones {n lo w : Nat} (h : lo + w ≤ n) : getBits (2 ^ n - 1) lo w = 2 ^ w - 1 := by
  apply Nat.eq_of_testBit_eq
  intro k
  simp only [getBits, Nat.testBit_mod_two_pow, Nat.testBit_shiftRight, Nat.testBit_two_pow_sub_one]
  by_cases hk : k < w
  · simp only [hk, decide_true, Bool.true_and, decide_eq_true_eq]
    omega
  · simp [hk]

/-- A served 4-byte write to a plain register of the physical function is a write of its fields with all 32 bits in the mask. -/
theorem State.regWrite_plain {s : State} {off i : Nat} (v : DWord) {r : Reg} (hoff : off % 4 = 0) (hs : s.served = true)
    (ha : s.answers 0 = true) (hr : locate off = some (r, i, 0)) (hp : r.plain = true) :
    s.regWrite 0 off 4 v = s.writeFields 0 r i (2 ^ 32 - 1) (v.toNat % 2 ^ 32) := by
  rw [State.regWrite_four v hoff hs ha hr rfl, State.writeReg_plain hp]
  rfl

/-! The perturbation registers (R530). -/

theorem locate_pertSeed : locate 0x3C0108 = some (.trcPertSeed, 0, 0) := rfl

theorem State.pertWritten_locked {s : State} (h : s.pertUnlocked = false) (r : Reg) (mask v : Nat) :
    s.pertWritten r mask v = s := by
  simp [State.pertWritten, h]

theorem State.regWrite_pertSeed_locked {s : State} (h : s.pertUnlocked = false) (fn n : Nat) (v : DWord) :
    s.regWrite fn 0x3C0108 n v = s := by
  have hw (idx mask x : Nat) : s.writeReg fn .trcPertSeed idx mask x = s := State.pertWritten_locked h ..
  have hb : Reg.trcPertSeed.info.bytes = 8 := rfl
  simp [State.regWrite, writePart, locate_pertSeed, hw, hb]

/-- A write of the seed while debug has unlocked the perturbation registers starts the generator from what the seed then reads.
The unit is not switched on or off, so nothing goes to the Rings. -/
theorem State.pertWritten_seed {s u : State} (h : s.pertUnlocked = true) {mask x : Nat}
    (hu : s.writeFields 0 .trcPertSeed 0 mask x = u) :
    s.pertWritten .trcPertSeed mask x = { u with observe := { u.observe with
      pertState := if u.rd Fld.trcPertSeed_seed = 0 then 1 else u.rd Fld.trcPertSeed_seed } } := by
  have hon : u.rdB Fld.trcPertCtrl_enable = s.rdB Fld.trcPertCtrl_enable := by
    rw [← hu, State.rdB, s.rd_writeFields_other _ _ _ _ _ _ (by decide), State.rdB]
  simp [State.pertWritten, h, hu, hon]

/-- A seed that is written whole reads back. -/
theorem State.rd_writeFields_seed (s : State) (v : DWord) :
    (s.writeFields 0 .trcPertSeed 0 (2 ^ 64 - 1) v.toNat).rd Fld.trcPertSeed_seed = v := by
  have hf : Fld.trcPertSeed_seed ∈ Reg.trcPertSeed.info.fields := List.mem_singleton.mpr rfl
  have e := State.rdN_writeFields (by decide) (by decide) (s := s) (fn := 0) 0 (2 ^ 64 - 1) v.toNat hf (.inl rfl) (by decide)
    (getBits_ones (by decide))
  exact BitVec.eq_of_toNat_eq (e.trans (Nat.mod_eq_of_lt v.isLt))

end Machine
end Sys2Proof
end

section
/-! SUPPORT. The obligations on every step (O3) and on register writes (O13). -/
namespace Sys2Proof
open Machine

/-- Settles O3: the front command is well formed, so its arm answers a next state; with no command waiting the block ticks. -/
theorem everyStepAnswersAndKeepsTheQueue : Obligations.EveryStepAnswersAndKeepsTheQueue := by
  unfold Obligations.EveryStepAnswersAndKeepsTheQueue
  intro s hs
  cases hp : s.pending with
  | nil =>
    have ok : (s.after (tick s)).QueueOk := fun c hc => by simp [hp] at hc
    exact ⟨s.after (tick s), by simp [step, hp], ok, by simp [hp], rfl, rfl⟩
  | cons c rest =>
    obtain ⟨hc, hrest⟩ := List.forall_mem_cons.mp (hp ▸ hs : ∀ d ∈ c :: rest, wellFormed d = true)
    obtain ⟨t, ht, hq, hv, hr⟩ := exec_next { s with pending := rest } hc
    have ok : t.QueueOk := by
      rw [State.QueueOk, hq]
      exact hrest
    exact ⟨t, by simp [step, hp, ht], ok, hq, hv, hr⟩

/-- Settles O13: the plain registers by the write of one field after the other, the perturbation seed by the same write and the
start of its generator. -/
theorem registerWritesTakeEffect : Obligations.RegisterWritesTakeEffect := by
  unfold Obligations.RegisterWritesTakeEffect
  refine ⟨?plain, ?unserved, ?seed, ?locked⟩
  case plain =>
    intro s off i v r f hoff h4 hserved hans hlock hloc hbytes hfn hr hf hacc
    have hplain : r.plain = true := (List.all_eq_true (p := Reg.plain)).mp (by decide) r hr
    have hmay : s.MayWrite 0 f := hacc.imp_right fun h => ⟨h, by simp [State.lockedFor, Reg.field_reg hf, hfn, hlock]⟩
    have hfit : f.lo + f.width ≤ 32 := by
      have := (Reg.field_fits hf).2
      omega
    have hset := State.rdN_writeFields (by rintro rfl; cases hplain) (by rintro rfl; cases hplain) i (2 ^ 32 - 1) (v.toNat % 2 ^ 32)
      hf hmay (by omega) (getBits_ones hfit)
    rw [getBits_mod _ _ _ _ hfit, ite_self] at hset
    have hframe := s.onlyIn_writeFields 0 r i (2 ^ 32 - 1) (v.toNat % 2 ^ 32)
    refine ⟨_, exec_registerWrite (by decide) hoff 4 v s, ?_⟩
    rw [State.regWrite_plain v h4 hserved hans hloc hplain, State.after_of_onlyIn_regs hframe]
    exact ⟨hset, fun g j k hg => s.rd_writeFields_other _ _ _ _ j k hg, hframe⟩
  case unserved =>
    intro s fn off n v hfn hoff hserved halways
    rw [exec_registerWrite hfn hoff, State.regWrite_unserved fn n v hserved halways, s.after_self]
  case seed =>
    intro s v hserved hans hunlocked hv
    have hw : s.regWrite 0 0x3C0108 8 v = s.pertWritten .trcPertSeed (2 ^ 64 - 1) v.toNat :=
      State.regWrite_eight v rfl hserved hans locate_pertSeed rfl rfl
    have hseed := s.rd_writeFields_seed v
    refine ⟨_, exec_pertRegisterWrite (by decide) (by decide) (by decide) 8 v s, ?_⟩
    rw [hw, State.pertWritten_seed hunlocked rfl, hseed, if_neg hv]
    exact ⟨hseed, rfl⟩
  case locked =>
    intro s fn n v hfn hlocked
    rw [exec_pertRegisterWrite hfn (by decide) (by decide), State.regWrite_pertSeed_locked hlocked, s.after_self]

end Sys2Proof
end

section
/-! SUPPORT. Frame rules of the operations that commands share: which components they change, and which commands in flight. -/
namespace Sys2Proof
open Machine

theorem OnlyIn.mono {l l' : List Component} {s t : State} (h : OnlyIn l s t) (hl : l ⊆ l') : OnlyIn l' s t :=
  fun p hp => h p fun hm => hp (hl hm)

theorem OnlyIn.foldl {α : Type} {l : List Component} {f : State → α → State} (h : ∀ s a, OnlyIn l s (f s a))
    (as : List α) (s : State) : OnlyIn l s (as.foldl f s) := by
  induction as generalizing s with
  | nil => exact OnlyIn.refl l s
  | cons a as ih => exact (h s a).trans (ih _)

theorem OnlyIn.ite {l : List Component} {s t u : State} {c : Prop} [Decidable c] (ht : OnlyIn l s t) (hu : OnlyIn l s u) :
    OnlyIn l s (if c then t else u) := by
  split
  · exact ht
  · exact hu

/-- The answer of a meaning changes no more than the meaning does. -/
theorem OnlyIn.after {l : List Component} {s t : State} (h : OnlyIn l s t) : OnlyIn l s (s.after t) := by
  intro p hp
  have := h p hp
  cases p
  case pending | variant | revision => rfl
  all_goals exact this

theorem CmdsBut.trans {id : Nat} {s t u : State} (hst : CmdsBut id s t) (htu : CmdsBut id t u) : CmdsBut id s u :=
  fun j hj => (htu j hj).trans (hst j hj)

theorem cmdsBut_updCmd (s : State) (id : Nat) {f : Cmd → Cmd} (hf : ∀ c, (f c).id = c.id) : CmdsBut id s (s.updCmd id f) :=
  fun j hj => by rw [s.cmd?_updCmd id j f hf, if_neg hj]

theorem cmdsBut_finish (s : State) (id : Nat) (st : Half) (d : Word) : CmdsBut id s (s.finish id st d) :=
  cmdsBut_updCmd s id fun _ => rfl

namespace Machine

/-- A change of components outside the queue of commands and the part is its own answer. -/
theorem State.after_of_onlyIn {l : List Component} {s t : State} (h : OnlyIn l s t) (hp : Component.pending ∉ l)
    (hv : Component.variant ∉ l) (hr : Component.revision ∉ l) : s.after t = t :=
  s.after_eq t (h .pending hp) (h .variant hv) (h .revision hr)

/-- The commands in flight are all that a look-up of one looks at. -/
theorem State.cmd?_congr {s t : State} (h : t.queues.cmds = s.queues.cmds) (id : Nat) : t.cmd? id = s.cmd? id := by
  simp only [State.cmd?, h]

theorem State.cmd?_updCmd_same {s : State} {id : Nat} {c : Cmd} {f : Cmd → Cmd} (hf : ∀ c, (f c).id = c.id) (h : s.cmd? id = some c) :
    (s.updCmd id f).cmd? id = some (f c) := by
  rw [s.cmd?_updCmd id id f hf, if_pos rfl, h]
  rfl

/-! One component is replaced. -/

theorem State.onlyIn_mem (s : State) (x : MemCtl) : OnlyIn [.mem] s { s with mem := x } := by
  intro p hp
  cases p <;> simp at hp <;> rfl

theorem State.onlyIn_queues (s : State) (x : Queues) : OnlyIn [.queues] s { s with queues := x } := by
  intro p hp
  cases p <;> simp at hp <;> rfl

theorem State.onlyIn_compute (s : State) (x : Compute) : OnlyIn [.compute] s { s with compute := x } := by
  intro p hp
  cases p <;> simp at hp <;> rfl

theorem State.onlyIn_canopy (s : State) (x : Canopy) : OnlyIn [.canopy] s { s with canopy := x } := by
  intro p hp
  cases p <;> simp at hp <;> rfl

theorem State.onlyIn_free (s : State) (x : Nat) : OnlyIn [.free] s { s with free := x } := by
  intro p hp
  cases p <;> simp at hp <;> rfl

theorem State.onlyIn_updCmd (s : State) (id : Nat) (f : Cmd → Cmd) : OnlyIn [.queues] s (s.updCmd id f) := s.onlyIn_queues _

theorem State.onlyIn_finish (s : State) (id : Nat) (st : Half) (d : Word) : OnlyIn [.queues] s (s.finish id st d) :=
  s.onlyIn_queues _

/-- A choice changes nothing but the count of free values drawn. -/
theorem State.onlyIn_choose (s : State) (k : Nat) : OnlyIn [.free] s (s.choose k).2 := by
  unfold State.choose
  split
  · exact OnlyIn.refl _ s
  · exact s.onlyIn_free _

/-! Zeroing of memory. -/

theorem State.onlyIn_zeroSap (s : State) (lo hi : Nat) : OnlyIn [.sap, .mem] s (s.zeroSap lo hi) := by
  intro p hp
  cases p <;> simp at hp <;> rfl

theorem State.onlyIn_zeroHbm (s : State) (lo hi : Nat) : OnlyIn [.hbm, .mem] s (s.zeroHbm lo hi) := by
  intro p hp
  cases p <;> simp at hp <;> rfl

theorem State.onlyIn_zeroRegion (s : State) (stem : Nat) (d : Dealt) : OnlyIn [.sap, .mem] s (s.zeroRegion stem d) :=
  OnlyIn.foldl (f := fun (u : State) (r : Nat × Nat) => u.zeroSap r.1 r.2) (fun u r => u.onlyIn_zeroSap r.1 r.2) _ s

theorem State.onlyIn_zeroSlots (s : State) (c : TableCfg) : OnlyIn [.hbm, .sap, .mem] s (s.zeroSlots c) := by
  unfold State.zeroSlots
  split
  · exact (s.onlyIn_zeroHbm _ _).mono (by simp)
  · exact OnlyIn.foldl (fun u j => (u.onlyIn_zeroRegion j _).mono (by simp)) _ s

/-- The zeroing that starts is noted in the memory controllers and in SAP_SCRUB_STATUS (R65, R69). -/
theorem State.onlyIn_startZeroing (s : State) (toPart : Option Nat) (windows : List Nat) (r : Region) :
    OnlyIn [.mem, .regs] s (s.startZeroing toPart windows r) :=
  OnlyIn.ite (OnlyIn.refl _ s) (OnlyIn.ite ((s.onlyIn_mem _).mono (by simp))
    (((s.onlyIn_mem _).mono (by simp)).trans ((onlyIn_wr _ _ _ _ _).mono (by simp))))

theorem State.onlyIn_startScrub (s : State) (r : Region) (toPart : Option Nat) (windows : List Nat) :
    OnlyIn [.mem, .regs] s (s.startScrub r toPart windows) :=
  OnlyIn.foldl (fun u q => u.onlyIn_startZeroing toPart windows q) _ s

theorem State.onlyIn_releaseBanks (s : State) (p : Package) : OnlyIn [.mem, .regs] s (s.releaseBanks p) := by
  unfold State.releaseBanks
  split
  · exact OnlyIn.refl _ s
  · exact OnlyIn.foldl (fun u b => u.onlyIn_startScrub _ _ _) _ s

/-! What firmware allocates for a RUN (R8). -/

theorem State.onlyIn_freeId (s : State) (n : Nat) (used : List Nat) : OnlyIn [.free] s (s.freeId n used).1 := s.onlyIn_choose _

theorem State.onlyIn_makeTable (s : State) (id part : Nat) (cfg : TableCfg) (firmware : Option Nat) :
    OnlyIn [.compute, .hbm, .sap, .mem] s (s.makeTable id part cfg firmware) :=
  ((s.onlyIn_zeroSlots cfg).mono (by simp)).trans ((State.onlyIn_compute _ _).mono (by simp))

theorem State.onlyIn_allocTables (cmd part : Nat) (l : List TableCfg) (s : State) (ids : List Nat) :
    OnlyIn [.compute, .hbm, .sap, .mem, .free] s (s.allocTables cmd part l ids).1 := by
  induction l generalizing s ids with
  | nil => exact OnlyIn.refl _ s
  | cons c l ih =>
    have hid := (s.onlyIn_freeId 64 (s.compute.tables.map (·.id))).mono (l' := [.compute, .hbm, .sap, .mem, .free]) (by simp)
    unfold State.allocTables
    split
    · exact OnlyIn.refl _ s
    · split
      next u hu => rwa [hu] at hid
      next u id hu =>
        rw [hu] at hid
        exact (hid.trans ((u.onlyIn_makeTable id part c (some cmd)).mono (by simp))).trans (ih _ _)

theorem State.onlyIn_allocMaps (cmd part : Nat) (l : List CMap) (s : State) (ids : List Nat) :
    OnlyIn [.canopy, .free] s (s.allocMaps cmd part l ids).1 := by
  induction l generalizing s ids with
  | nil => exact OnlyIn.refl _ s
  | cons m l ih =>
    have hid := (s.onlyIn_freeId 256 (s.canopy.maps.map (·.id))).mono (l' := [.canopy, .free]) (by simp)
    unfold State.allocMaps
    split
    · exact OnlyIn.refl _ s
    · split
      next u hu => rwa [hu] at hid
      next u id hu =>
        rw [hu] at hid
        exact (hid.trans ((u.onlyIn_canopy _).mono (by simp))).trans (ih _ _)

/-- Allocation takes tables, zeroing their slots, and maps: it touches no command, RUN or stream set. -/
theorem State.onlyIn_allocRun (s : State) (cmd : Nat) (x : StreamSet) (p : Package) :
    OnlyIn [.compute, .canopy, .hbm, .sap, .mem, .free] s (s.allocRun cmd x p).1 := by
  have ht := (State.onlyIn_allocTables cmd p.part (p.tables.map (fun t => t.onGrid x.grid) ++ p.outTables) s []).mono
    (l' := [.compute, .canopy, .hbm, .sap, .mem, .free]) (by simp)
  unfold State.allocRun
  split
  next u hu => rwa [hu] at ht
  next u ts hu =>
    rw [hu] at ht
    have hm := (State.onlyIn_allocMaps cmd p.part p.maps u []).mono (l' := [.compute, .canopy, .hbm, .sap, .mem, .free]) (by simp)
    split
    next v hv => rw [hv] at hm; exact ht.trans hm
    next v ms hv => rw [hv] at hm; exact ht.trans hm

end Machine
end Sys2Proof
end

section
/-! SUPPORT. What an idle step does (R122, R124, R127, R434, R446, R455). -/
namespace Sys2Proof.Machine

/-! What a shadow confirms. -/

theorem State.onlyIn_inject (s : State) (p : Packet) : OnlyIn [.fabric] s (s.inject p) := by
  intro c hc
  cases c <;> simp at hc <;> rfl

theorem State.onlyIn_sendTwin (s : State) (bytes : List Byte) : OnlyIn [.fabric] s (s.sendTwin bytes) := by
  unfold State.sendTwin
  split
  · exact OnlyIn.refl _ s
  · split
    · exact OnlyIn.refl _ s
    · exact OnlyIn.foldl (fun u p => u.onlyIn_inject _) _ s

theorem State.onlyIn_twin (s : State) (x : Twin) : OnlyIn [.twin] s { s with twin := x } := by
  intro c hc
  cases c <;> simp at hc <;> rfl

/-- A confirmation changes what the twin unit remembers and sends. -/
theorem State.onlyIn_confirm (s : State) (x : Twin) (bytes : List Byte) :
    OnlyIn [.fabric, .twin] s (({ s with twin := x } : State).sendTwin bytes) :=
  ((s.onlyIn_twin x).mono (by simp)).trans ((State.onlyIn_sendTwin _ bytes).mono (by simp))

theorem State.onlyIn_syncConfirm (s : State) : OnlyIn [.fabric, .twin] s s.syncConfirm :=
  (OnlyIn.ite (s.onlyIn_confirm _ _) (OnlyIn.refl _ s)).trans (OnlyIn.ite (State.onlyIn_confirm _ _ _) (OnlyIn.refl _ _))

/-! A nanosecond passes. -/

/-- Nothing but time changes: the time since power-on rises by 1, and the count, which gains or loses a nanosecond while a phase error is
left, by 0, 1 or 2 (R122, R124, R127). -/
theorem State.passNs_cases (s : State) : ∃ x : Time, s.passNs = { s with time := x } ∧ x.uptime = s.time.uptime + 1 ∧
    (x.now = s.time.now ∨ x.now = s.time.now + 1 ∨ x.now = s.time.now + 2) := by
  unfold State.passNs
  dsimp only
  split
  · exact ⟨_, rfl, rfl, .inr (.inl rfl)⟩
  · split
    · exact ⟨_, rfl, rfl, .inr (.inl rfl)⟩
    · split
      · exact ⟨_, rfl, rfl, .inl rfl⟩
      · exact ⟨_, rfl, rfl, .inr (.inr rfl)⟩

theorem State.onlyIn_time (s : State) (x : Time) : OnlyIn [.time] s { s with time := x } := by
  intro p hp
  cases p <;> simp at hp <;> rfl

theorem State.onlyIn_passNs (s : State) : OnlyIn [.time] s s.passNs := by
  obtain ⟨x, hx, -⟩ := s.passNs_cases
  rw [hx]
  exact s.onlyIn_time x

/-- With no phase error left the count and the time since power-on both rise by 1 (R122). -/
theorem State.passNs_of_phaseErr_zero {s : State} (h : s.time.phaseErr = 0) :
    s.passNs = { s with time := { s.time with now := s.time.now + 1, uptime := s.time.uptime + 1 } } := by
  simp [State.passNs, h]

/-- A step on an empty queue is a tick. -/
theorem step_idle {s : State} (h : s.pending = []) : step s = .next (s.after (tick s)) := by simp [step, h]

theorem tick_no_report {s : State} (h : s.reports = []) : tick s = s.idle := by simp [tick, h]

theorem tick_report {s : State} {r : Report} {rest : List Report} (h : s.reports = r :: rest) (hb : s.barkRuns = true) :
    tick s = ({ s with reports := rest }).barkReport r := by simp [tick, h, hb]

theorem State.idle_confirm {s : State} (h : s.canConfirm = true) : s.idle = s.syncConfirm := by simp [State.idle, h]

theorem State.idle_detach {s : State} (hc : s.canConfirm = false) (hd : s.detachDue = true) : s.idle = s.endDetach := by
  simp [State.idle, hc, hd]

theorem State.idle_pass {s : State} (hc : s.canConfirm = false) (hd : s.detachDue = false) : s.idle = s.passNs := by
  simp [State.idle, hc, hd]

/-- With nothing for Bark or the twin unit to do, a step is a nanosecond. -/
theorem step_pass {s : State} (hp : s.pending = []) (hr : s.reports = []) (hc : s.canConfirm = false) (hd : s.detachDue = false) :
    step s = .next s.passNs := by
  rw [step_idle hp, tick_no_report hr, State.idle_pass hc hd,
    State.after_of_onlyIn s.onlyIn_passNs (by decide) (by decide) (by decide)]

end Sys2Proof.Machine
end

section
/-! SUPPORT. How the counts of the clock islands lie to each other (R32, R124). -/
namespace Sys2Proof.Machine

/-- Each of some numbers is at most the greatest of them. -/
theorem le_foldl_max_of_mem (f : Nat → Nat) {l : List Nat} {i : Nat} (h : i ∈ l) (m : Nat) :
    f i ≤ l.foldl (fun m i => max m (f i)) m := by
  induction l generalizing m with
  | nil => cases h
  | cons a l ih =>
    cases h with
    | head => exact Nat.le_trans (Nat.le_max_right m (f i)) (le_foldl_max f l _)
    | tail _ h => exact ih h _

/-- An island's count reaches each of its corrections so far: one more than four counts back lies below the latest one. -/
theorem leafPoint_le_leafCount (epoch isl : Nat) {u t : Nat} (h : u ≤ t) : leafPoint epoch isl u ≤ leafCount epoch isl t := by
  have recent {k : Nat} (hk : k < 5) : leafPoint epoch isl (t - k) ≤ leafCount epoch isl t :=
    le_foldl_max_of_mem (fun k => leafPoint epoch isl (t - k)) (List.mem_range.mpr hk) 0
  by_cases hk : t - u < 5
  · have := recent hk
    rwa [Nat.sub_sub_self h] at this
  · have hu := (leafPoint_near epoch isl u).1
    have ht := (leafPoint_near epoch isl t).2
    have h0 : leafPoint epoch isl t ≤ leafCount epoch isl t := recent (k := 0) (by decide)
    omega

/-- A bound on an island's corrections so far is one on its count. -/
theorem leafCount_le {epoch isl t n : Nat} (h : ∀ u ≤ t, leafPoint epoch isl u ≤ n) : leafCount epoch isl t ≤ n :=
  foldl_max_le _ _ _ _ (Nat.zero_le n) fun _ _ => h _ (Nat.sub_le ..)

/-- At one count of the Crown network two islands' corrections differ by at most 2 ns: they share the lag, and lead it by 2 ns at most. -/
theorem leafPoint_le_add_two (epoch i j t : Nat) : leafPoint epoch i t ≤ leafPoint epoch j t + 2 := by
  have h := Nat.mod_lt (Config.leafLead i epoch t) (show 0 < 3 by decide)
  simp only [leafPoint]
  omega

theorem leafCount_le_add_two (epoch i j t : Nat) : leafCount epoch i t ≤ leafCount epoch j t + 2 :=
  leafCount_le fun u hu => Nat.le_trans (leafPoint_le_add_two epoch i j u) (Nat.add_le_add_right (leafPoint_le_leafCount epoch j hu) 2)

theorem leafCount_mono (epoch isl : Nat) {t u : Nat} (h : t ≤ u) : leafCount epoch isl t ≤ leafCount epoch isl u :=
  leafCount_le fun _ hv => leafPoint_le_leafCount epoch isl (Nat.le_trans hv h)

/-- An island's count lies within 2 ns of the Crown network's. -/
theorem leafCount_near (epoch isl t : Nat) : leafCount epoch isl t ≤ t + 2 ∧ t ≤ leafCount epoch isl t + 2 :=
  ⟨leafCount_le fun u hu => Nat.le_trans (leafPoint_near epoch isl u).1 (Nat.add_le_add_right hu 2),
    Nat.le_trans (leafPoint_near epoch isl t).2 (Nat.add_le_add_right (leafPoint_le_leafCount epoch isl (Nat.le_refl t)) 2)⟩

/-- The time of an island in a state lies within 2 ns of the Crown network's, as long as the count does not wrap. -/
theorem State.leaf_within_two (s : State) (isl : Nat) (h : s.now.toNat + 2 < 2 ^ 64) :
    (s.leaf isl).toNat ≤ s.now.toNat + 2 ∧ s.now.toNat ≤ (s.leaf isl).toNat + 2 := by
  unfold State.leaf
  split
  · omega
  · obtain ⟨hhi, hlo⟩ := leafCount_near s.time.epoch isl s.now.toNat
    rw [BitVec.toNat_ofNat, Nat.mod_eq_of_lt (by omega)]
    exact ⟨hhi, hlo⟩

end Sys2Proof.Machine
end

section
/-! SUPPORT. What the commands on packages and RUN make of a state, branch by branch (R35, R115, R116, R119, R213, R329). -/
namespace Sys2Proof.Machine

@[simp] theorem State.after_finish (s : State) (id : Nat) (st : Half) (d : Word) : s.after (s.finish id st d) = s.finish id st d :=
  State.after_of_onlyIn (s.onlyIn_finish id st d) (by decide) (by decide) (by decide)

/-! Each command runs its meaning. -/

theorem exec_packageLoad (cmd : Nat) (f : PackageFacts) (s : State) : exec (.packageLoad cmd f) s = execPackageLoad cmd f s := rfl
theorem exec_packageUnload (cmd : Nat) (s : State) : exec (.packageUnload cmd) s = execPackageUnload cmd s := rfl
theorem exec_run (cmd : Nat) (s : State) : exec (.run cmd) s = execRun cmd s := rfl
theorem exec_runFrameComplete (cmd : Nat) (f : FrameFacts) (s : State) :
    exec (.runFrameComplete cmd f) s = execRunFrameComplete cmd f s := rfl

/-! PACKAGE_LOAD. -/

/-- A package joins the loaded ones, and its digest is measured (R35, R500). -/
def State.loadPackage (s : State) (p : Package) : State :=
  ({ s with queues := { s.queues with packages := s.queues.packages ++ [p], nextHandle := (p.handle + 1) % 65536 } }).extendMeasure 8
    p.digest

theorem State.onlyIn_loadPackage (s : State) (p : Package) : OnlyIn [.queues, .security] s (s.loadPackage p) := by
  intro c hc
  cases c <;> simp at hc <;> rfl

section
variable {s s1 : State} {cmd : Nat} {f : PackageFacts} {c : Cmd} {b : List Byte} (hrun : s.running cmd 0 6 = some c)
  (hload : s.basicLoad c (c.b 24 8) (c.b 32 4) = (s1, .ok b))
include hrun hload

theorem exec_packageLoad_loaded {h : Nat} (hf : f.reason = 0) (hr : s1.resourcesMeet c.part f = true)
    (hh : freeHandle s1.queues.packages s1.queues.nextHandle = some h) :
    exec (.packageLoad cmd f) s = .next (s.after
      ((s1.loadPackage (f.package h c.part (s1.banksTaken c.part f))).finish cmd stSuccess (BitVec.ofNat 32 h))) := by
  rw [exec_packageLoad, execPackageLoad, answer_true, State.onCmd_running _ hrun]
  simp [hload, hf, hr, hh, State.loadPackage, PackageFacts.package]

theorem exec_packageLoad_rejected (hf : f.reason ≠ 0) :
    exec (.packageLoad cmd f) s = .next (s.after (s1.finish cmd stFirmware f.reason)) := by
  rw [exec_packageLoad, execPackageLoad, answer_true, State.onCmd_running _ hrun]
  simp [hload, show f.reason ≠ 0#32 from hf]

theorem exec_packageLoad_unmet (hf : f.reason = 0) (hr : s1.resourcesMeet c.part f = false) :
    exec (.packageLoad cmd f) s = .next (s.after (s1.finish cmd stResource)) := by
  rw [exec_packageLoad, execPackageLoad, answer_true, State.onCmd_running _ hrun]
  simp [hload, hf, hr]

end

/-! PACKAGE_UNLOAD. -/

/-- A package goes, with the tables bound to it and the history kept for it. -/
def State.dropPackage (s : State) (part h : Nat) : State :=
  { s with
    queues := { s.queues with packages := s.queues.packages.filter (fun p => !(p.part == part && p.handle == h)) },
    gather := { s.gather with binds := s.gather.binds.filter (fun b => b.1 != h) },
    canopy := { s.canopy with history := s.canopy.history.filter (fun x => x.handle != h) } }

theorem State.onlyIn_dropPackage (s : State) (part h : Nat) : OnlyIn [.queues, .gather, .canopy] s (s.dropPackage part h) := by
  intro c hc
  cases c <;> simp at hc <;> rfl

theorem State.mem_dropPackage (s : State) (part h : Nat) (p : Package) :
    p ∈ (s.dropPackage part h).queues.packages ↔ p ∈ s.queues.packages ∧ ¬(p.part = part ∧ p.handle = h) := by
  simp only [State.dropPackage, List.mem_filter, Bool.not_eq_true', Bool.and_eq_false_iff, beq_eq_false_iff_ne, Decidable.not_and_iff_not_or_not, ne_eq]

section
variable {s : State} {cmd : Nat} {c : Cmd} (hrun : s.running cmd 0 7 = some c)
include hrun

theorem exec_packageUnload_unused {p : Package} (hp : s.package? c.part (c.b 16 2) = some p)
    (hr : ∀ r ∈ s.queues.runs, ¬(r.part = c.part ∧ r.handle = c.b 16 2)) :
    exec (.packageUnload cmd) s = .next (s.after
      (((s.releaseBanks p).dropPackage c.part (c.b 16 2)).finish cmd stSuccess)) := by
  have hany : s.queues.runs.any (fun r => r.part == c.part && r.handle == c.b 16 2) = false := by simpa using hr
  rw [exec_packageUnload, execPackageUnload, answer_true, State.onCmd_running _ hrun]
  simp [hp, hany, State.dropPackage]

theorem exec_packageUnload_refused
    (h : s.package? c.part (c.b 16 2) = none ∨ ∃ r ∈ s.queues.runs, r.part = c.part ∧ r.handle = c.b 16 2) :
    exec (.packageUnload cmd) s = .next (s.finish cmd stOwnership 16) := by
  have hany (hr : ∃ r ∈ s.queues.runs, r.part = c.part ∧ r.handle = c.b 16 2) :
    s.queues.runs.any (fun r => r.part == c.part && r.handle == c.b 16 2) = true := by simpa using hr
  rw [exec_packageUnload, execPackageUnload, answer_true, State.onCmd_running _ hrun]
  cases hp : s.package? c.part (c.b 16 2) with
  | none => simp [hp]
  | some p => simp [hp, hany (h.resolve_left (by simp [hp]))]

end

/-! RUN. -/

/-- A command has been taken to its engine: it is started once. -/
def State.begun (s : State) (cmd : Nat) : State := s.updCmd cmd (fun c => { c with started := true })

theorem State.updCmd_started (s : State) (cmd : Nat) : s.updCmd cmd (fun c => { c with started := true }) = s.begun cmd := rfl

theorem State.cmd?_begun {s : State} {cmd : Nat} {c : Cmd} (h : s.cmd? cmd = some c) :
    (s.begun cmd).cmd? cmd = some { c with started := true } := State.cmd?_updCmd_same (fun _ => rfl) h

theorem State.onlyIn_begun (s : State) (cmd : Nat) : OnlyIn [.queues] s (s.begun cmd) := s.onlyIn_updCmd cmd _

theorem State.cmdsBut_begun (s : State) (cmd : Nat) : CmdsBut cmd s (s.begun cmd) := cmdsBut_updCmd s cmd fun _ => rfl

/-- A RUN joins those in progress, and the grid that was set for its stream set is used up (R213). -/
def State.joinRun (s : State) (r : Run) : State :=
  { s.updSet r.set (fun x => { x with grid := none }) with queues := { s.queues with runs := s.queues.runs ++ [r] } }

theorem State.onlyIn_joinRun (s : State) (r : Run) : OnlyIn [.queues, .ingest] s (s.joinRun r) := by
  intro c hc
  cases c <;> simp at hc <;> rfl

theorem State.set?_joinRun {s : State} {r : Run} {x : StreamSet} (h : s.set? r.set = some x) :
    (s.joinRun r).set? r.set = some { x with grid := none } := by
  have e : (s.joinRun r).set? r.set = (s.set? r.set).map (fun x => if x.num == r.set then { x with grid := none } else x) :=
    find?_updWhere _ _ _ _ fun _ => rfl
  have hx : x.num = r.set := by simpa using List.find?_some h
  rw [e, h]
  simp [hx]

/-- A RUN on a defined stream set, of a package that is loaded: its checks, and what firmware allocates for it (R8, R116). -/
def State.admitRun (s : State) (cmd : Nat) (c : Cmd) (x : StreamSet) (p : Package) : State :=
  match s.runFault (c.b 18 2) x p with
  | some (st, d) => s.finish cmd st d
  | none =>
    if c.b 20 4 == 0 && s.ringDrains c.sq then s.finish cmd stSuccess
    else match s.allocRun cmd x p with
      | (_, none) => s.finish cmd stResource
      | (s, some (ts, ms)) =>
        s.joinRun { cmd := cmd, handle := p.handle, part := p.part, set := c.b 18 2, frameCount := c.b 20 4, tables := ts, maps := ms }

section
variable {s : State} {cmd : Nat} {c : Cmd} (hrun : s.running cmd 0 8 = some c)
include hrun

/-- RUN issued again goes on with the frame that waits. -/
theorem exec_run_again (hs : c.started = true) : exec (.run cmd) s = .next (s.after (s.startFrame cmd)) := by
  rw [exec_run, execRun, answer_true, State.onCmd_running _ hrun]
  simp [hs]

variable (hs : c.started = false)
include hs

theorem exec_run_undefined (hset : s.set? (c.b 18 2) = none) :
    exec (.run cmd) s = .next (s.after ((s.begun cmd).finish cmd stSetUndefined (BitVec.ofNat 32 (c.b 18 2)))) := by
  have hset' : (s.begun cmd).set? (c.b 18 2) = none := hset
  rw [exec_run, execRun, answer_true, State.onCmd_running _ hrun]
  simp [hs, State.updCmd_started, hset']

theorem exec_run_admit {x : StreamSet} {p : Package} (hset : s.set? (c.b 18 2) = some x)
    (hpkg : s.package? c.part (c.b 16 2) = some p) :
    exec (.run cmd) s = .next (s.after ((s.begun cmd).admitRun cmd c x p)) := by
  have hset' : (s.begun cmd).set? (c.b 18 2) = some x := hset
  have hpkg' : (s.begun cmd).package? c.part (c.b 16 2) = some p := hpkg
  rw [exec_run, execRun, answer_true, State.onCmd_running _ hrun]
  simp only [hs, State.updCmd_started, hset', hpkg']
  rfl

end

section
variable {s : State} {cmd : Nat} {c : Cmd} {x : StreamSet} {p : Package}

theorem State.admitRun_faulty {st : Half} {d : Word} (hf : s.runFault (c.b 18 2) x p = some (st, d)) :
    s.admitRun cmd c x p = s.finish cmd st d := by
  simp [State.admitRun, hf]

variable (hf : s.runFault (c.b 18 2) x p = none)
include hf

theorem State.admitRun_drained (hn : c.b 20 4 = 0) (hd : s.ringDrains c.sq = true) :
    s.admitRun cmd c x p = s.finish cmd stSuccess := by
  simp [State.admitRun, hf, hn, hd]

variable (hd : (c.b 20 4 == 0 && s.ringDrains c.sq) = false)
include hd

theorem State.admitRun_unplaced {s1 : State} (ha : s.allocRun cmd x p = (s1, none)) :
    s.admitRun cmd c x p = s.finish cmd stResource := by
  simp [State.admitRun, hf, hd, ha]

theorem State.admitRun_placed {s1 : State} {ts ms : List Nat} (ha : s.allocRun cmd x p = (s1, some (ts, ms))) :
    s.admitRun cmd c x p = s1.joinRun
      { cmd := cmd, handle := p.handle, part := p.part, set := c.b 18 2, frameCount := c.b 20 4, tables := ts, maps := ms } := by
  simp [State.admitRun, hf, hd, ha]

end

/-! A frame of a RUN starts. -/

theorem State.run?_updRun (s : State) (cmd : Nat) {f : Run → Run} (hf : ∀ r, (f r).cmd = r.cmd) :
    (s.updRun cmd f).run? cmd = (s.run? cmd).map f := by
  have e : (s.updRun cmd f).run? cmd = (s.run? cmd).map (fun r => if r.cmd == cmd then f r else r) :=
    find?_updWhere _ _ _ _ fun r => by simp [hf r]
  rw [e]
  cases h : s.run? cmd with
  | none => rfl
  | some r =>
    have hr : r.cmd = cmd := by simpa using List.find?_some h
    simp [hr]

/-- A RUN with its oldest frame that waits started: what HISTORY_RESET, HISTORY_LIMIT and NMS_OVERRIDE have asked for takes effect. -/
def Run.begin (s : State) (w : FrameWin) (rest : List FrameWin) (r : Run) : Run :=
  { r with
    frameActive := true, window := w, waiting := rest, historyReset := s.canopy.resets.contains r.set
    nms := s.sort.overrides.find? (fun o => o.set == r.set), historyLimit := (s.canopy.limits.find? (fun x => x.1 == r.set)).map (·.2) }

/-- A history reset of a stream set is asked for no more. -/
def State.dropReset (s : State) (set : Nat) : State :=
  { s with canopy := { s.canopy with resets := s.canopy.resets.filter (fun n => n != set) } }

/-- A frame that waits for a slot, and has one, starts. -/
theorem State.startFrame_waiting {s : State} {cmd n : Nat} {c : Cmd} {r : Run} {w : FrameWin} {rest : List FrameWin}
    (hr : s.run? cmd = some r) (hc : s.cmd? cmd = some c) (hp : c.phase = .running) (hw : r.waiting = w :: rest)
    (ha : r.frameActive = false) (hd : r.draining = false) (hn : c.slot = some n) :
    s.startFrame cmd = ((s.updCmd cmd (fun c => { c with slot := some n, counts := [], twinOutcome := 0 })).updRun cmd
      (Run.begin s w rest)).dropReset r.set := by
  have hslot : s.slotFor c = (s, some (some n)) := by simp [State.slotFor, hn]
  simp only [State.startFrame, hr, hc, hp, hw, ha, hd, hslot]
  rfl

/-! A frame of a RUN ends. -/

/-- Only the shadow's frame k0 of a paired stream set may have to wait for the lead's history buffer (R436). -/
theorem State.awaitsCopy_not {s : State} {r : Run} {p : Package}
    (h : (s.twinState ≠ 3 ∧ s.twinState ≠ 4) ∨ s.k0 ≠ r.window.k ∨ r.set ∈ s.twin.copied) : s.awaitsCopy r p = (s, false) := by
  refine if_neg ?_
  obtain ⟨h3, h4⟩ | h | h := h
  · simp [twSync, twPaired, h3, h4]
  · simp [Ne.symm h]
  · simp [h]

/-- That frame waits where the choice of 2 says so. -/
theorem State.awaitsCopy_may {s : State} {r : Run} {p : Package} (ht : s.twinState = 3 ∨ s.twinState = 4) (hrole : s.twinRole = 2)
    (hsync : s.twin.syncDone = true) (hcopy : r.set ∉ s.twin.copied) (hlist : ∃ x ∈ s.twin.list, x.1 = r.set) (hk : r.window.k = s.k0)
    (hh : p.history.isSome = true) : s.awaitsCopy r p = ((s.choose 2).2, (s.choose 2).1 == 1) := by
  refine if_pos ?_
  simpa [twSync, twPaired, hrole, hsync, hcopy, hk, hh] using And.intro ht hlist

/-- A choice of two is 0 or 1. -/
theorem State.choose_two (s : State) : (s.choose 2).1 = 0 ∨ (s.choose 2).1 = 1 := by
  have h : (s.choose 2).1 < 2 := Nat.mod_lt _ (by decide)
  omega

section
variable {s : State} {cmd : Nat} {f : FrameFacts} {c : Cmd} {r : Run} (hr : s.run? cmd = some r) (hc : s.cmd? cmd = some c)
  (ha : r.frameActive = true) (hp : c.phase = .running) (hw : ∀ x ∈ s.twin.frames, x.cmd ≠ cmd)
include hr hc ha hp hw

/-- No frame ends with a status that the device does not have, before its points are in, or with detections that the override could not
keep (R17, R18, R205, R362). -/
theorem exec_runFrameComplete_not
    (h : (!frameStatusOk f.status || !s.pointsIn r || !r.nms.all (fun o => o.keeps f.boxes)) = true) :
    exec (.runFrameComplete cmd f) s = .next s := by
  have hw' : s.twin.frames.any (fun f => f.cmd == cmd) = false := by simpa using hw
  rw [exec_runFrameComplete, execRunFrameComplete, answer_true, hr, hc]
  simp only [ha, hp, hw', h]
  rfl

variable {p : Package} (hpkg : s.package? r.part r.handle = some p)
  (hok : (!frameStatusOk f.status || !s.pointsIn r || !r.nms.all (fun o => o.keeps f.boxes)) = false)
include hpkg hok

theorem exec_runFrameComplete_waits {u : State} (hcopy : s.awaitsCopy r p = (u, true)) :
    exec (.runFrameComplete cmd f) s = .next (s.after u) := by
  have hw' : s.twin.frames.any (fun f => f.cmd == cmd) = false := by simpa using hw
  rw [exec_runFrameComplete, execRunFrameComplete, answer_true, hr, hc]
  simp only [ha, hp, hw', hok, hpkg, hcopy]
  rfl

theorem exec_runFrameComplete_ends (hcopy : s.awaitsCopy r p = (s, false))
    (hpair : (s.closeFrame c r p f).1.twin.list.any (fun x => x.1 == r.set) = false)
    (halone : (s.closeFrame c r p f).1.runsAlone r = false) (hcmp : (s.closeFrame c r p f).1.isCompared r = false) :
    exec (.runFrameComplete cmd f) s = .next (s.after ((s.closeFrame c r p f).1.frameDone cmd (s.closeFrame c r p f).2 0)) := by
  have hw' : s.twin.frames.any (fun f => f.cmd == cmd) = false := by simpa using hw
  rw [exec_runFrameComplete, execRunFrameComplete, answer_true, hr, hc]
  simp [ha, hp, hw', hok, hpkg, hcopy, hpair, halone, hcmp]

end

end Sys2Proof.Machine
end

section
/-! SUPPORT. What a package and a RUN are after the commands on them. -/
namespace Sys2Proof
open Machine

/-- A RUN that firmware has allocated for joins those in progress: what then stands of it, and what else may have changed. -/
theorem run_allocated {s s1 : State} {cmd : Nat} {c : Cmd} {x : StreamSet} {p : Package} {ts ms : List Nat}
    (hrun : s.running cmd 0 8 = some c) (hset : s.set? (c.b 18 2) = some x)
    (ha : (s.begun cmd).allocRun cmd x p = (s1, some (ts, ms))) {r : Run} (hr : r.set = c.b 18 2) :
    (s1.joinRun r).queues.runs = s.queues.runs ++ [r] ∧ ((s1.joinRun r).set? (c.b 18 2)).map (·.grid) = some none ∧
      (s1.joinRun r).cmd? cmd = some { c with started := true } ∧
      OnlyIn [.queues, .ingest, .compute, .canopy, .hbm, .sap, .mem, .free] s (s1.joinRun r) ∧ CmdsBut cmd s (s1.joinRun r) := by
  have hframe := (s.begun cmd).onlyIn_allocRun cmd x p
  rw [ha] at hframe
  have hq : s1.queues = (s.begun cmd).queues := hframe .queues (by decide)
  have hruns : s1.queues.runs = s.queues.runs := by rw [hq]; rfl
  have hcmd (j : Nat) : (s1.joinRun r).cmd? j = (s.begun cmd).cmd? j := State.cmd?_congr (congrArg Queues.cmds hq) j
  have hset1 : s1.set? r.set = some x := by
    rw [State.set?, show s1.ingest = s.ingest from hframe .ingest (by decide), hr]
    exact hset
  refine ⟨?runs, ?grid, ?cmd, ?frame, fun j hj => ?others⟩
  case runs => rw [← hruns]; rfl
  case grid => rw [← hr, State.set?_joinRun hset1]; rfl
  case cmd => exact (hcmd cmd).trans (State.cmd?_begun (State.running_eq_some.mp hrun).1)
  case frame =>
    exact (((s.onlyIn_begun cmd).mono (by simp)).trans (hframe.mono (by simp))).trans ((s1.onlyIn_joinRun r).mono (by simp))
  case others => exact (hcmd j).trans (s.cmdsBut_begun cmd j hj)

/-- A package that no RUN uses is unloaded: it alone goes, and no command in flight but the one that unloads it changes. -/
theorem packageUnload_unused {s : State} {cmd : Nat} {c : Cmd} {p : Package} (hrun : s.running cmd 0 7 = some c)
    (hp : s.package? c.part (c.b 16 2) = some p) (hruns : ∀ r ∈ s.queues.runs, ¬(r.part = c.part ∧ r.handle = c.b 16 2)) :
    Completes (.packageUnload cmd) s fun t =>
      (∀ p, p ∈ t.queues.packages ↔ p ∈ s.queues.packages ∧ ¬(p.part = c.part ∧ p.handle = c.b 16 2)) ∧
        t.Ended cmd stSuccess 0 ∧ OnlyIn [.queues, .gather, .canopy, .mem, .regs] s t ∧ CmdsBut cmd s t := by
  have hrel := s.onlyIn_releaseBanks p
  have hq : (s.releaseBanks p).queues = s.queues := hrel .queues (by decide)
  have hcmds (j : Nat) : ((s.releaseBanks p).dropPackage c.part (c.b 16 2)).cmd? j = s.cmd? j :=
    State.cmd?_congr (congrArg Queues.cmds hq) j
  refine ⟨_, exec_packageUnload_unused hrun hp hruns, fun q => ?packages, ?ended, ?frame, fun j hj => ?others⟩
  case packages =>
    rw [← hq]
    exact State.mem_dropPackage _ _ _ q
  case ended => exact State.ended_finish _ _ ((hcmds cmd).trans (State.running_eq_some.mp hrun).1)
  case frame =>
    exact (((hrel.mono (by simp)).trans ((State.onlyIn_dropPackage _ _ _).mono (by simp))).trans
      ((State.onlyIn_finish _ cmd stSuccess 0).mono (by simp))).after
  case others => exact (cmdsBut_finish _ cmd stSuccess 0 j hj).trans (hcmds j)

/-- A RUN that ends at its start: its status and detail stand, and no RUN has joined. -/
theorem run_ended {s : State} {cmd : Nat} {c : Cmd} (hc : s.cmd? cmd = some c) (st : Half) (d : Word) :
    ((s.begun cmd).finish cmd st d).Ended cmd st d ∧ OnlyIn [.queues] s ((s.begun cmd).finish cmd st d) ∧
      ((s.begun cmd).finish cmd st d).queues.runs = s.queues.runs ∧ CmdsBut cmd s ((s.begun cmd).finish cmd st d) :=
  ⟨State.ended_finish st d (State.cmd?_begun hc), (s.onlyIn_begun cmd).trans (State.onlyIn_finish _ cmd st d), rfl,
    (s.cmdsBut_begun cmd).trans (cmdsBut_finish _ cmd st d)⟩

end Sys2Proof
end

section
/-! SUPPORT. The obligations on the structure of the block: clock islands (O7), packages and RUNs (O32), idle steps (O2) and commands that
name absent units (O5). -/
namespace Sys2Proof
open Machine

/-- Settles O7: an island's count is the greatest of its corrections so far, which lie within 2 ns of the Crown network's count and
of the other islands' corrections. -/
theorem islandsStayWithinTwoNanoseconds : Obligations.IslandsStayWithinTwoNanoseconds :=
  ⟨leafCount_le_add_two, leafCount_near, fun epoch i _ _ h => leafCount_mono epoch i h, State.leaf_within_two⟩

/-- Settles O32, clause by clause: each command takes the branch that the clause's premises select, and the rules of its
operations say what that leaves. -/
theorem packagesLoadAndRun : Obligations.PackagesLoadAndRun := by
  unfold Obligations.PackagesLoadAndRun
  refine ⟨?loaded, ?notLoaded, ?unload, ?run, ?undefined, ?frameStarts, ?frameEnds⟩
  case loaded =>
    intro s s1 cmd h f c b hrun hload hcmd hf hres hh
    obtain ⟨c', hc'⟩ := Option.isSome_iff_exists.mp hcmd
    refine ⟨_, exec_packageLoad_loaded hrun hload hf hres hh, rfl, rfl, State.ended_finish _ _ hc', ?_⟩
    have hframe := (s1.onlyIn_loadPackage (f.package h c.part (s1.banksTaken c.part f))).trans
      ((State.onlyIn_finish _ cmd stSuccess (BitVec.ofNat 32 h)).mono (by simp))
    exact hframe.after
  case notLoaded =>
    intro s s1 cmd f c b hrun hload hcmd
    obtain ⟨c', hc'⟩ := Option.isSome_iff_exists.mp hcmd
    refine ⟨fun hf => ?_, fun hf hres => ?_⟩
    · exact ⟨_, exec_packageLoad_rejected hrun hload hf, State.ended_finish _ _ hc', rfl⟩
    · exact ⟨_, exec_packageLoad_unmet hrun hload hf hres, State.ended_finish _ _ hc', rfl⟩
  case unload =>
    intro s cmd c hrun
    refine ⟨fun hpkg hruns => ?_, exec_packageUnload_refused hrun⟩
    obtain ⟨p, hp⟩ := Option.isSome_iff_exists.mp hpkg
    exact packageUnload_unused hrun hp hruns
  case run =>
    intro s cmd c x p hrun hs hset hpkg
    have hc := (State.running_eq_some.mp hrun).1
    refine ⟨fun hf hd => ⟨fun s1 ts ms ha => ?placed, fun s1 ha => ?unplaced⟩, fun hf hn hd => ?drained, fun st d hf => ?faulty⟩
    case placed =>
      have hd' : (c.b 20 4 == 0 && s.ringDrains c.sq) = false := by simpa using hd
      obtain ⟨hruns, hgrid, hcmd, hframe, hothers⟩ := run_allocated hrun hset ha
        (r := { cmd := cmd, handle := p.handle, part := p.part, set := c.b 18 2, frameCount := c.b 20 4, tables := ts, maps := ms }) rfl
      refine ⟨_, exec_run_admit hrun hs hset hpkg, ?_⟩
      rw [State.admitRun_placed (s := s.begun cmd) hf hd' ha]
      exact ⟨hruns, hgrid, rfl, rfl, hcmd, hframe.after, hothers⟩
    case unplaced =>
      have hd' : (c.b 20 4 == 0 && s.ringDrains c.sq) = false := by simpa using hd
      obtain ⟨hended, hframe, hruns, hothers⟩ := run_ended hc stResource 0
      refine ⟨_, exec_run_admit hrun hs hset hpkg, ?_⟩
      rw [State.admitRun_unplaced (s := s.begun cmd) hf hd' ha]
      exact ⟨hended, hframe.after, hruns, hothers⟩
    case drained =>
      obtain ⟨hended, hframe, hruns, hothers⟩ := run_ended hc stSuccess 0
      refine ⟨_, exec_run_admit hrun hs hset hpkg, ?_⟩
      rw [State.admitRun_drained (s := s.begun cmd) hf hn hd]
      exact ⟨hended, hruns, hframe.after, hothers⟩
    case faulty =>
      obtain ⟨hended, hframe, hruns, -⟩ := run_ended hc st d
      refine ⟨_, exec_run_admit hrun hs hset hpkg, ?_⟩
      rw [State.admitRun_faulty (s := s.begun cmd) hf]
      exact ⟨hended, hruns, hframe.after⟩
  case undefined =>
    intro s cmd c hrun hs hset
    obtain ⟨hended, hframe, hruns, hothers⟩ :=
      run_ended (State.running_eq_some.mp hrun).1 stSetUndefined (BitVec.ofNat 32 (c.b 18 2))
    exact ⟨_, exec_run_undefined hrun hs hset, hended, hruns, hframe.after, hothers⟩
  case frameStarts =>
    intro s cmd n c r w rest hrun hs hr hw ha hd hn
    obtain ⟨hc, hp, -⟩ := State.running_eq_some.mp hrun
    refine ⟨_, exec_run_again hrun hs, ?_⟩
    rw [State.startFrame_waiting hr hc hp hw ha hd hn]
    refine ⟨?run, ?resets, ?frame⟩
    case run =>
      refine (State.run?_updRun (s.updCmd cmd _) cmd (f := Run.begin s w rest) fun _ => rfl).trans ?_
      exact congrArg (Option.map (Run.begin s w rest)) hr
    case resets =>
      intro m
      simp [State.dropReset, List.mem_filter]
    case frame =>
      exact ((((s.onlyIn_updCmd cmd _).mono (by simp)).trans ((State.onlyIn_queues _ _).mono (by simp))).trans
        ((State.onlyIn_canopy _ _).mono (by simp))).after
  case frameEnds =>
    intro s cmd f c r p hr hc ha hp hw hpkg
    refine ⟨?ends, fun h => ?status, ?waits, fun h => ?points, fun o ho h => ?override⟩
    case ends =>
      intro hst hpts hcopy hnms hpair halone hcmp
      have hkeep : r.nms.all (fun o => o.keeps f.boxes) = true := (Option.all_eq_true _ _).mpr hnms
      exact exec_runFrameComplete_ends hr hc ha hp hw hpkg (by simp [hst, hpts, hkeep]) (State.awaitsCopy_not hcopy)
        (by simpa using hpair) halone hcmp
    case waits =>
      intro hst hpts hnms ht hrole hsync hcopy hlist hk hh
      have hkeep : r.nms.all (fun o => o.keeps f.boxes) = true := (Option.all_eq_true _ _).mpr hnms
      obtain h0 | h1 := s.choose_two
      · exact .inl h0
      · have hcp := State.awaitsCopy_may ht hrole hsync hcopy hlist hk hh
        rw [h1] at hcp
        rw [exec_runFrameComplete_waits hr hc ha hp hw hpkg (by simp [hst, hpts, hkeep]) hcp,
          State.after_of_onlyIn (s.onlyIn_choose 2) (by decide) (by decide) (by decide)]
        exact .inr rfl
    case status => exact exec_runFrameComplete_not hr hc ha hp hw (by simp [h])
    case points => exact exec_runFrameComplete_not hr hc ha hp hw (by simp [h])
    case override => exact exec_runFrameComplete_not hr hc ha hp hw (by simp [Option.mem_def.mp ho, h])

/-- Settles O2: a step on an empty queue is a tick, and each clause takes one of the tick's branches. -/
theorem idleStepTicks : Obligations.IdleStepTicks := by
  unfold Obligations.IdleStepTicks
  refine ⟨?answers, ?plain, ?slew, ?confirm, ?detach, ?report⟩
  case answers => exact fun s hp => ⟨_, step_idle hp, by rw [State.after_pending, hp]⟩
  case plain =>
    intro s hp hr hc hd he
    rw [step_pass hp hr hc hd, State.passNs_of_phaseErr_zero he]
  case slew =>
    intro s hp hr hc hd
    obtain ⟨x, hx, huptime, hnow⟩ := s.passNs_cases
    exact ⟨_, by rw [step_pass hp hr hc hd, hx], s.onlyIn_time x, huptime, hnow⟩
  case confirm =>
    intro s hp hr hc
    rw [step_idle hp, tick_no_report hr, State.idle_confirm hc,
      State.after_of_onlyIn s.onlyIn_syncConfirm (by decide) (by decide) (by decide)]
  case detach =>
    intro s hp hr hc hd
    rw [step_idle hp, tick_no_report hr, State.idle_detach hc hd]
  case report =>
    intro s r rest hp hr hb
    rw [step_idle hp, tick_report hr hb]

/-- Settles O5: every meaning answers under the check that the units which the command names exist. -/
theorem commandsNamingAbsentUnitsFault : Obligations.CommandsNamingAbsentUnitsFault := by
  unfold Obligations.CommandsNamingAbsentUnitsFault
  refine ⟨fun c s h => ?_, fun c s h => ?_⟩
  · obtain ⟨t, ht⟩ := exec_eq_answer c s
    rw [ht, h]
    rfl
  · obtain ⟨t, ht, -⟩ := exec_next s h
    exact ⟨t, ht⟩

end Sys2Proof
end

section
/-! SUPPORT. More frame rules: one component is replaced, one register field is written, and what a command that changes a few components
answers. -/
namespace Sys2Proof
open Machine

theorem regsBut_wr (s : State) (f : Field) (v : DWord) (i n : Nat) : RegsBut [f.key i n] s (s.wr f v i n) :=
  fun _ _ _ hk => s.rd_wr_other _ _ _ _ _ _ _ fun e => hk (List.mem_singleton.mpr e.symm)

/-- A meaning that leaves the queue of commands and the part alone completes with its own state. -/
theorem completes_of_onlyIn {c : Instr} {s t : State} {l : List Component} {p : State → Prop} (e : exec c s = .next (s.after t))
    (h : OnlyIn l s t) (hl : ∀ x ∈ [Component.pending, .variant, .revision], x ∉ l) (hp : p t) : Completes c s p :=
  ⟨t, by rw [e, State.after_of_onlyIn h (hl _ (by simp)) (hl _ (by simp)) (hl _ (by simp))], hp⟩

namespace Machine

theorem State.onlyIn_ingest (s : State) (x : Ingest) : OnlyIn [.ingest] s { s with ingest := x } := by
  intro p hp
  cases p <;> simp at hp <;> rfl

theorem State.onlyIn_observe (s : State) (x : Observe) : OnlyIn [.observe] s { s with observe := x } := by
  intro p hp
  cases p <;> simp at hp <;> rfl

theorem State.onlyIn_host (s : State) (x : List Host.Cell) : OnlyIn [.host] s { s with host := x } := by
  intro p hp
  cases p <;> simp at hp <;> rfl

theorem State.onlyIn_report (s : State) (r : Report) : OnlyIn [.reports] s (s.report r) := by
  intro p hp
  cases p <;> simp at hp <;> rfl

theorem State.onlyIn_emit (s : State) (o : Output) : OnlyIn [.out] s (s.emit o) := by
  intro p hp
  cases p <;> simp at hp <;> rfl

theorem State.onlyIn_updFn (s : State) (n : Nat) (f : Fn → Fn) : OnlyIn [.pcie] s (s.updFn n f) := by
  intro p hp
  cases p <;> simp at hp <;> rfl

end Machine
end Sys2Proof
end

section
/-! SUPPORT. What the time unit's operations do: the entry of a state, the PPS_IN edges, the loss of the inputs (R124 to R127, R134). -/
namespace Sys2Proof.Machine

/-! The time unit enters a state. -/

theorem State.onlyIn_enterTime (s : State) (st cls : Nat) : OnlyIn [.regs, .time] s (s.enterTime st cls) := by
  unfold State.enterTime
  have hw : OnlyIn [.regs, .time] s ((s.wrN Fld.timStatus_state st).wrN Fld.timStatus_clock_class cls) :=
    ((onlyIn_wr s _ _ _ _).trans (onlyIn_wr _ _ _ _ _)).mono (by simp)
  refine OnlyIn.trans ?_ ((State.onlyIn_time _ _).mono (by simp))
  exact OnlyIn.ite (hw.trans ((onlyIn_wr _ _ _ _ _).mono (by simp))) hw

/-- A register field reads after the entry of a state as after the writes of the state and the class, but for holdover_expired. -/
theorem State.rd_enterTime (s : State) (st cls : Nat) {f : Field} (h : f.lo ≠ Fld.timStatus_holdover_expired.lo ∨ f.reg ≠ .timStatus)
    (i n : Nat) :
    (s.enterTime st cls).rd f i n = ((s.wrN Fld.timStatus_state st).wrN Fld.timStatus_clock_class cls).rd f i n := by
  unfold State.enterTime
  rw [State.rd_congr _ _ rfl rfl]
  split
  · refine State.rd_wr_other _ _ _ _ _ _ _ _ fun hk => ?_
    exact h.elim (fun hl => hl (congrArg RegKey.lo hk).symm) (fun hr => hr (congrArg RegKey.reg hk).symm)
  · rfl

theorem State.timeState_enterTime (s : State) {st : Nat} (cls : Nat) (h : st < 8) : (s.enterTime st cls).timeState = st := by
  rw [State.timeState, State.rdN, s.rd_enterTime st cls (.inl (by decide)), ← State.rdN, State.rdN_wrN _ _ _ _ _ _ _ _ (by decide),
    if_neg (by decide), State.rdN_wrN _ _ _ _ _ _ _ _ (by decide), if_pos rfl]
  exact Nat.mod_eq_of_lt h

theorem State.clockClass_enterTime (s : State) (st : Nat) {cls : Nat} (h : cls < 256) :
    (s.enterTime st cls).rdN Fld.timStatus_clock_class = cls := by
  rw [State.rdN, s.rd_enterTime st cls (.inl (by decide)), ← State.rdN, State.rdN_wrN _ _ _ _ _ _ _ _ (by decide), if_pos rfl]
  exact Nat.mod_eq_of_lt h

/-- No register but TIM_STATUS changes. -/
theorem State.rd_enterTime_other (s : State) (st cls : Nat) {f : Field} (h : f.reg ≠ .timStatus) (i n : Nat) :
    (s.enterTime st cls).rd f i n = s.rd f i n := by
  have hk (g : Field) (hg : g.reg = .timStatus) : g.key 0 0 ≠ f.key i n := fun e => h ((congrArg RegKey.reg e).symm.trans hg)
  rw [s.rd_enterTime st cls (.inr h), State.wrN, State.rd_wr_other _ _ _ _ _ _ _ _ (hk _ rfl), State.wrN,
    State.rd_wr_other _ _ _ _ _ _ _ _ (hk _ rfl)]

/-- LOCKED clears holdover_expired (R137). -/
theorem State.holdoverExpired_enterTime_locked (s : State) (cls : Nat) :
    (s.enterTime tsLocked cls).rdB Fld.timStatus_holdover_expired = false := by
  refine (State.rdB_wrB ((s.wrN Fld.timStatus_state tsLocked).wrN Fld.timStatus_clock_class cls) Fld.timStatus_holdover_expired
    Fld.timStatus_holdover_expired false 0 0 0 0 (by decide)).trans ?_
  rw [if_pos rfl]

theorem State.time_enterTime (s : State) (st cls : Nat) :
    (s.enterTime st cls).time = { s.time with
      goodEdges := 0, badEdges := 0, reachedLocked := s.time.reachedLocked || st == tsLocked
      holdoverAt := if st == tsHoldover then s.time.uptime else s.time.holdoverAt
      phaseErr := if st == tsFreerun then 0 else s.time.phaseErr } := by
  unfold State.enterTime
  dsimp only
  split <;> rfl

/-! The inputs are missing (R125). -/

/-- The inputs are noted as missing. -/
def State.noteLoss (s : State) : State :=
  { s with time := { s.time with inputsPresent := false, goodEdges := 0, badEdges := 0 } }

theorem State.onlyIn_noteLoss (s : State) : OnlyIn [.time] s s.noteLoss := s.onlyIn_time _

theorem State.inputsLost_eq (s : State) : s.inputsLost =
    if s.timeRole == 2 then s.noteLoss
    else if s.timeState == tsLocked then s.noteLoss.enterTime tsHoldover 7
    else if s.timeState == tsLocking then
      if s.time.reachedLocked then s.noteLoss.enterTime tsHoldover (s.noteLoss.holdClass 7) else s.noteLoss.enterTime tsFreerun 248
    else s.noteLoss := rfl

theorem State.inputsLost_ignored {s : State} (h : s.timeRole = 2 ∨ (s.timeState ≠ tsLocked ∧ s.timeState ≠ tsLocking)) :
    s.inputsLost = s.noteLoss := by
  rw [s.inputsLost_eq]
  obtain h | ⟨hlocked, hlocking⟩ := h
  · simp [h]
  · simp [hlocked, hlocking]

theorem State.inputsLost_locked {s : State} (hr : s.timeRole ≠ 2) (h : s.timeState = tsLocked) :
    s.inputsLost = s.noteLoss.enterTime tsHoldover 7 := by
  simp [s.inputsLost_eq, hr, h]

theorem State.inputsLost_locking {s : State} (hr : s.timeRole ≠ 2) (h : s.timeState = tsLocking) (hn : s.time.reachedLocked = false) :
    s.inputsLost = s.noteLoss.enterTime tsFreerun 248 := by
  simp [s.inputsLost_eq, hr, h, hn, tsLocking, tsLocked]

/-! An edge is rejected (R125). -/

/-- An edge is counted as rejected. -/
def State.noteReject (s : State) : State :=
  { s.count Fld.timPpsInStat_rejected 1 with time := { s.time with badEdges := s.time.badEdges + 1, goodEdges := 0 } }

theorem State.onlyIn_noteReject (s : State) : OnlyIn [.regs, .time] s s.noteReject :=
  ((onlyIn_wr s _ _ _ _).mono (by simp)).trans ((State.onlyIn_time _ _).mono (by simp))

theorem State.rd_noteReject_other (s : State) {f : Field} (h : f.reg ≠ .timPpsInStat) (i n : Nat) : s.noteReject.rd f i n = s.rd f i n :=
  s.rd_wr_other _ _ _ _ _ _ _ fun hk => h (congrArg RegKey.reg hk).symm

theorem State.rejected_noteReject (s : State) :
    s.noteReject.rd Fld.timPpsInStat_rejected = (s.rd Fld.timPpsInStat_rejected + 1) &&& lowMask 32 := s.rd_wr_same _ _ _ _

/-- The effective role and the state of the time unit follow from registers that the count of rejected edges is not among. -/
theorem State.timeRole_noteReject (s : State) : s.noteReject.timeRole = s.timeRole := by
  simp [State.timeRole, State.hasTwinLink, State.rdN, State.rd_noteReject_other, Fld.wblLinkCfg_role, Fld.twnStatus_role,
    Fld.timCtrl_fabric_role]

theorem State.timeState_noteReject (s : State) : s.noteReject.timeState = s.timeState := by
  simp [State.timeState, State.rdN, State.rd_noteReject_other, Fld.timStatus_state]

theorem State.rejectEdge_early {s : State} (h : s.time.badEdges < 2) : s.rejectEdge = s.noteReject := by
  have hlt : ¬ s.time.badEdges + 1 ≥ 3 := by omega
  exact if_neg hlt

theorem State.rejectEdge_third {s : State} (h : s.time.badEdges = 2) : s.rejectEdge = s.noteReject.inputsLost := by
  have hge : s.time.badEdges + 1 ≥ 3 := by omega
  exact if_pos hge

/-! An edge is taken (R125, R127). -/

/-- An edge within its bound ends the run of rejected ones. -/
def State.noteGood (s : State) : State := { s with time := { s.time with badEdges := 0 } }

/-- Its phase error is taken up to be removed. -/
def State.notePhase (s : State) (err : Int) : State := { s with time := { s.time with badEdges := 0, phaseErr := satPhase err } }

/-- How many edges running lie within 20 ns, with this one. -/
def State.goodRun (s : State) (err : Int) : Nat := if err < 20 ∧ err > -20 then s.time.goodEdges + 1 else 0

/-- An edge of a unit that stays in LOCKING. -/
def State.noteRun (s : State) (err : Int) : State :=
  { s.notePhase err with time := { (s.notePhase err).time with goodEdges := s.goodRun err } }

theorem State.takeEdge_eq (s : State) (err : Int) : s.takeEdge err =
    if s.timeState != tsLocking && s.timeState != tsLocked then s.noteGood
    else if s.timeState == tsLocked then s.notePhase err
    else if s.goodRun err ≥ 16 then (s.notePhase err).enterTime tsLocked 6 else s.noteRun err := rfl

/-- What an edge does, case by case: nothing more in a state that the inputs do not discipline, the phase error in LOCKED, and in LOCKING
LOCKED after 16 edges running within 20 ns, or a count of those so far. -/
theorem State.takeEdge_cases (s : State) (err : Int) :
    (s.timeState ≠ tsLocking ∧ s.timeState ≠ tsLocked ∧ s.takeEdge err = s.noteGood) ∨
    (s.timeState = tsLocked ∧ s.takeEdge err = s.notePhase err) ∨
    (s.timeState = tsLocking ∧ s.takeEdge err =
      if s.goodRun err ≥ 16 then (s.notePhase err).enterTime tsLocked 6 else s.noteRun err) := by
  rw [s.takeEdge_eq]
  by_cases hlocked : s.timeState = tsLocked
  · exact .inr (.inl ⟨hlocked, by simp [hlocked]⟩)
  · by_cases hlocking : s.timeState = tsLocking
    · exact .inr (.inr ⟨hlocking, by simp [hlocking, tsLocking, tsLocked]⟩)
    · exact .inl ⟨hlocking, hlocked, by simp [hlocked, hlocking]⟩

theorem State.takeEdge_undisciplined {s : State} (err : Int) (h1 : s.timeState ≠ tsLocking) (h2 : s.timeState ≠ tsLocked) :
    s.takeEdge err = s.noteGood := by
  obtain ⟨-, -, h⟩ | ⟨h, -⟩ | ⟨h, -⟩ := s.takeEdge_cases err
  · exact h
  · exact absurd h h2
  · exact absurd h h1

theorem State.takeEdge_locked {s : State} (err : Int) (hl : s.timeState = tsLocked) : s.takeEdge err = s.notePhase err := by
  obtain ⟨-, h, -⟩ | ⟨-, h⟩ | ⟨h, -⟩ := s.takeEdge_cases err
  · exact absurd hl h
  · exact h
  · exact absurd (h.symm.trans hl) (by decide)

/-- The 16th edge running within 20 ns locks the unit. -/
theorem State.takeEdge_locks {s : State} {err : Int} (hl : s.timeState = tsLocking) (hg : s.time.goodEdges = 15) (h1 : -20 < err)
    (h2 : err < 20) : s.takeEdge err = (s.notePhase err).enterTime tsLocked 6 := by
  obtain ⟨h, -⟩ | ⟨h, -⟩ | ⟨-, h⟩ := s.takeEdge_cases err
  · exact absurd hl h
  · exact absurd (hl.symm.trans h) (by decide)
  · have hrun : s.goodRun err = 16 := by rw [State.goodRun, if_pos ⟨h2, h1⟩, hg]
    rw [h, if_pos (by omega)]

/-- The count and a waiting time of day do not change at an edge that is taken; what is left to remove is as before or the edge's error. -/
theorem State.time_takeEdge (s : State) (err : Int) :
    (s.takeEdge err).now = s.now ∧ (s.takeEdge err).time.nextSecPending = s.time.nextSecPending ∧ (s.takeEdge err).time.badEdges = 0 ∧
      ((s.takeEdge err).time.phaseErr = s.time.phaseErr ∨ (s.takeEdge err).time.phaseErr = satPhase err) := by
  obtain ⟨-, -, h⟩ | ⟨-, h⟩ | ⟨-, h⟩ := s.takeEdge_cases err
  · rw [h]
    exact ⟨rfl, rfl, rfl, .inl rfl⟩
  · rw [h]
    exact ⟨rfl, rfl, rfl, .inr rfl⟩
  · rw [h]
    split
    · rw [State.now, State.time_enterTime]
      exact ⟨rfl, rfl, rfl, .inr rfl⟩
    · exact ⟨rfl, rfl, rfl, .inr rfl⟩

theorem State.onlyIn_takeEdge (s : State) (err : Int) : OnlyIn [.regs, .time] s (s.takeEdge err) := by
  have hphase : OnlyIn [.regs, .time] s (s.notePhase err) := (s.onlyIn_time _).mono (by simp)
  obtain ⟨-, -, h⟩ | ⟨-, h⟩ | ⟨-, h⟩ := s.takeEdge_cases err
  · rw [h]
    exact (s.onlyIn_time _).mono (by simp)
  · rw [h]
    exact hphase
  · rw [h]
    exact OnlyIn.ite (hphase.trans (State.onlyIn_enterTime _ _ _)) (hphase.trans ((State.onlyIn_time _ _).mono (by simp)))

/-! A PPS_IN edge. -/

theorem exec_ppsInEdge (err : Int) (s : State) : exec (.ppsInEdge err) s = .next (s.after (
    if s.timeRole == 2 then s
    else if s.time.nextSecPending && s.timeState != tsFreerun && !s.time.portsUp then s.applyNextSec.takeEdge 0
    else if err > 1000 ∨ err < -1000 then s.rejectEdge
    else (if s.timeState == tsFreerun then s else s.applyNextSec).takeEdge err)) := rfl

theorem exec_ppsInEdge_follower {s : State} (err : Int) (h : s.timeRole = 2) : exec (.ppsInEdge err) s = .next s := by
  simp [exec_ppsInEdge, h]

section
variable {s : State} (err : Int) (hrole : s.timeRole ≠ 2)
include hrole

/-- Before a sensor port has been up, a time of day that waits is applied at the edge (R126). -/
theorem exec_ppsInEdge_setsTime (hp : s.time.nextSecPending = true) (hup : s.time.portsUp = false) (hs : s.timeState ≠ tsFreerun) :
    exec (.ppsInEdge err) s = .next (s.after ((s.stepTime (s.rdN Fld.timNextSec_next_sec)).takeEdge 0)) := by
  simp [exec_ppsInEdge, hrole, hp, hup, hs, State.applyNextSec]

theorem exec_ppsInEdge_rejected (hp : s.time.nextSecPending = false ∨ s.timeState = tsFreerun ∨ s.time.portsUp = true)
    (herr : err > 1000 ∨ err < -1000) : exec (.ppsInEdge err) s = .next (s.after s.rejectEdge) := by
  have hno : (s.time.nextSecPending && s.timeState != tsFreerun && !s.time.portsUp) = false := by
    obtain h | h | h := hp <;> simp [h]
  simp [exec_ppsInEdge, hrole, hno, herr]

theorem exec_ppsInEdge_taken (hp : s.time.nextSecPending = false ∨ s.timeState = tsFreerun) (h1 : -1000 ≤ err) (h2 : err ≤ 1000) :
    exec (.ppsInEdge err) s = .next (s.after (s.takeEdge err)) := by
  have hno : (s.time.nextSecPending && s.timeState != tsFreerun && !s.time.portsUp) = false := by
    obtain h | h := hp <;> simp [h]
  have herr : ¬(err > 1000 ∨ err < -1000) := by omega
  have hsame : (if s.timeState == tsFreerun then s else s.applyNextSec) = s := by
    obtain h | h := hp <;> simp [h, State.applyNextSec]
  simp only [exec_ppsInEdge, beq_eq_false_iff_ne.mpr hrole, hno, herr, hsame, if_false, Bool.false_eq_true]

end

/-! The inputs go and return, and a hold-over expires. -/

theorem exec_timeInputLoss (s : State) : exec .timeInputLoss s = .next (s.after s.inputsLost) := rfl

/-- The inputs are noted as present. -/
def State.noteReturn (s : State) : State := { s with time := { s.time with inputsPresent := true, badEdges := 0 } }

theorem exec_timeInputsReturn (s : State) : exec .timeInputsReturn s = .next (s.after (
    if s.timeRole == 2 then s.noteReturn
    else if s.rdN Fld.timCtrl_source_sel == 1 ∧ (s.timeState == tsHoldover ∨ s.timeState == tsFreerun) then
      s.noteReturn.enterTime tsLocking 248
    else s.noteReturn)) := rfl

theorem exec_timeInputsReturn_locking {s : State} (hr : s.timeRole ≠ 2) (hsel : s.rdN Fld.timCtrl_source_sel = 1)
    (hs : s.timeState = tsHoldover ∨ s.timeState = tsFreerun) :
    exec .timeInputsReturn s = .next (s.after (s.noteReturn.enterTime tsLocking 248)) := by
  simp [exec_timeInputsReturn, hr, hsel, hs]

theorem exec_timeInputsReturn_ignored {s : State} (h : s.timeRole = 2 ∨ s.rdN Fld.timCtrl_source_sel ≠ 1 ∨
    (s.timeState ≠ tsHoldover ∧ s.timeState ≠ tsFreerun)) : exec .timeInputsReturn s = .next s.noteReturn := by
  have hafter : s.after s.noteReturn = s.noteReturn := rfl
  rw [exec_timeInputsReturn]
  obtain h | h | ⟨h, h'⟩ := h
  · simp [h, hafter]
  · simp [h, hafter]
  · simp [h, h', hafter]

/-- A hold-over has expired: TIM_STATUS says so, and Bark hears it (R125, R456). -/
def State.expireHoldover (s : State) : State :=
  ((s.wrB Fld.timStatus_holdover_expired true).wrN Fld.timStatus_clock_class 248).report { source := 0x1D }

theorem State.onlyIn_expireHoldover (s : State) : OnlyIn [.regs, .reports] s s.expireHoldover :=
  (((onlyIn_wr s _ _ _ _).trans (onlyIn_wr _ _ _ _ _)).mono (by simp)).trans ((State.onlyIn_report _ _).mono (by simp))

theorem exec_holdoverExpired (s : State) : exec .holdoverExpired s = .next (s.after (
    if s.timeState == tsHoldover && !s.rdB Fld.timStatus_holdover_expired
        && s.passed s.time.holdoverAt (1000000000 * s.rdN Fld.timCtrl_holdover_max_s) then s.expireHoldover
    else s)) := rfl

theorem exec_holdoverExpired_due {s : State} (hs : s.timeState = tsHoldover) (hx : s.rdB Fld.timStatus_holdover_expired = false)
    (ht : 1000000000 * s.rdN Fld.timCtrl_holdover_max_s ≤ (s.time.uptime - s.time.holdoverAt).toNat) :
    exec .holdoverExpired s = .next (s.after s.expireHoldover) := by
  have hpassed : s.passed s.time.holdoverAt (1000000000 * s.rdN Fld.timCtrl_holdover_max_s) = true := decide_eq_true ht
  rw [exec_holdoverExpired, if_pos (by simp [hs, hx, hpassed])]

theorem exec_holdoverExpired_idle {s : State} (h : s.timeState ≠ tsHoldover ∨ s.rdB Fld.timStatus_holdover_expired = true ∨
    (s.time.uptime - s.time.holdoverAt).toNat < 1000000000 * s.rdN Fld.timCtrl_holdover_max_s) :
    exec .holdoverExpired s = .next s := by
  rw [exec_holdoverExpired, if_neg, s.after_self]
  obtain h | h | h := h
  · simp [h]
  · simp [h]
  · have hearly : s.passed s.time.holdoverAt (1000000000 * s.rdN Fld.timCtrl_holdover_max_s) = false :=
      decide_eq_false (Nat.not_le_of_lt h)
    simp [hearly]

end Sys2Proof.Machine
end

section
/-! SUPPORT. The obligation on the time unit's inputs (O6). -/
namespace Sys2Proof
open Machine

/-- The time unit enters a state of its table with a clock class, after a change of its own components. -/
theorem onlyIn_enterTime_of {s u : State} (h : OnlyIn [.regs, .time] s u) (st cls : Nat) : OnlyIn [.regs, .time] s (u.enterTime st cls) :=
  h.trans (u.onlyIn_enterTime st cls)

/-- Settles O6, clause by clause: each edge or change of the inputs takes the branch that the clause's premises select, and what the unit
is in afterwards follows from the state that it enters. -/
theorem ppsEdgesLockTheTimeUnit : Obligations.PpsEdgesLockTheTimeUnit := by
  unfold Obligations.PpsEdgesLockTheTimeUnit
  refine ⟨?follower, ?rejected, ?third, ?undisciplined, ?locked, ?locks, ?setsTime, ?lostLocked, ?lostLocking, ?lostOther, ?returns,
    ?returnsOther, ?expires, ?expiresNot⟩
  case follower => exact fun _ err hr => exec_ppsInEdge_follower err hr
  case rejected =>
    intro s err hr hp herr hb
    rw [exec_ppsInEdge_rejected err hr hp herr, State.rejectEdge_early hb]
    exact congrArg _ (State.after_of_onlyIn s.onlyIn_noteReject (by decide) (by decide) (by decide))
  case third =>
    intro s err hr hp herr hb hs
    have hlost : s.rejectEdge = s.noteReject.noteLoss.enterTime tsHoldover 7 := by
      rw [State.rejectEdge_third hb, State.inputsLost_locked (s.timeRole_noteReject ▸ hr) (s.timeState_noteReject.trans hs)]
    have hframe := onlyIn_enterTime_of (s.onlyIn_noteReject.trans (s.noteReject.onlyIn_noteLoss.mono (by simp))) tsHoldover 7
    refine completes_of_onlyIn (hlost ▸ exec_ppsInEdge_rejected err hr (hp.imp_right .inr) herr) hframe (by decide) ?_
    refine ⟨State.timeState_enterTime _ _ (by decide), State.clockClass_enterTime _ _ (by decide), ?_, ?_, hframe⟩
    · rw [State.rd_enterTime_other _ _ _ (by decide)]
      exact s.rejected_noteReject
    · rw [State.time_enterTime]
      rfl
  case undisciplined =>
    intro s err hr h1 h2 hs
    obtain ⟨hp, hne⟩ : (s.time.nextSecPending = false ∨ s.timeState = tsFreerun) ∧ s.timeState ≠ tsLocking ∧ s.timeState ≠ tsLocked := by
      obtain h | ⟨h, hp⟩ := hs
      · exact ⟨.inr h, by rw [h]; decide⟩
      · exact ⟨.inl hp, by rw [h]; decide⟩
    rw [exec_ppsInEdge_taken err hr hp h1 h2, State.takeEdge_undisciplined err hne.1 hne.2]
    rfl
  case locked =>
    intro s err hr h1 h2 hp hs
    rw [exec_ppsInEdge_taken err hr (.inl hp) h1 h2, State.takeEdge_locked err hs]
    rfl
  case locks =>
    intro s err hr h1 h2 hp hs hg
    have hframe := s.onlyIn_takeEdge err
    rw [State.takeEdge_locks hs hg h1 h2] at hframe
    refine completes_of_onlyIn (State.takeEdge_locks hs hg h1 h2 ▸ exec_ppsInEdge_taken err hr (.inl hp) (by omega) (by omega)) hframe
      (by decide) ?_
    refine ⟨State.timeState_enterTime _ _ (by decide), State.clockClass_enterTime _ _ (by decide),
      State.holdoverExpired_enterTime_locked _ _, ?_, ?_, hframe⟩
    · rw [State.time_enterTime]
      rfl
    · rw [State.time_enterTime]
      exact Bool.or_true _
  case setsTime =>
    intro s err hr hp hup hs
    have hframe := ((s.onlyIn_time _).mono (by simp)).trans
      ((s.stepTime (s.rdN Fld.timNextSec_next_sec)).onlyIn_takeEdge 0)
    obtain ⟨hnow, hpend, hbad, hphase⟩ := (s.stepTime (s.rdN Fld.timNextSec_next_sec)).time_takeEdge 0
    exact completes_of_onlyIn (exec_ppsInEdge_setsTime err hr hp hup hs) hframe (by decide)
      ⟨hnow, hpend, hphase.elim id id, hbad, hframe⟩
  case lostLocked =>
    intro s hr hs
    have hframe := onlyIn_enterTime_of (s.onlyIn_noteLoss.mono (by simp)) tsHoldover 7
    refine completes_of_onlyIn (State.inputsLost_locked hr hs ▸ exec_timeInputLoss s) hframe (by decide) ?_
    refine ⟨State.timeState_enterTime _ _ (by decide), State.clockClass_enterTime _ _ (by decide), ?_, hframe⟩
    rw [State.time_enterTime]
    rfl
  case lostLocking =>
    intro s hr hs hn
    have hframe := onlyIn_enterTime_of (s.onlyIn_noteLoss.mono (by simp)) tsFreerun 248
    refine completes_of_onlyIn (State.inputsLost_locking hr hs hn ▸ exec_timeInputLoss s) hframe (by decide) ?_
    refine ⟨State.timeState_enterTime _ _ (by decide), State.clockClass_enterTime _ _ (by decide), ?_, hframe⟩
    rw [State.time_enterTime]
    rfl
  case lostOther =>
    intro s h
    rw [exec_timeInputLoss, State.inputsLost_ignored h]
    rfl
  case returns =>
    intro s hr hsel hs
    have hframe := onlyIn_enterTime_of ((s.onlyIn_time _ : OnlyIn [.time] s s.noteReturn).mono (by simp)) tsLocking 248
    refine completes_of_onlyIn (exec_timeInputsReturn_locking hr hsel hs) hframe (by decide) ?_
    refine ⟨State.timeState_enterTime _ _ (by decide), State.clockClass_enterTime _ _ (by decide), ?_, hframe⟩
    rw [State.time_enterTime]
    rfl
  case returnsOther => exact fun s h => exec_timeInputsReturn_ignored h
  case expires =>
    intro s hs hx ht
    refine completes_of_onlyIn (exec_holdoverExpired_due hs hx ht) s.onlyIn_expireHoldover (by decide) ?_
    refine ⟨?_, ?_, ?_, rfl, s.onlyIn_expireHoldover⟩
    · refine (State.rdB_wrN _ _ _ _ _ _ _ _ (by decide)).trans ?_
      rw [State.rdB_wrB _ _ _ _ _ _ _ _ (by decide), if_pos rfl]
    · exact (State.rdN_wrN _ _ _ _ _ _ _ _ (by decide)).trans (if_pos rfl)
    · refine ((State.rdN_wrN _ _ _ _ _ _ _ _ (by decide)).trans (if_neg (by decide))).trans ?_
      exact (State.rdN_wrB _ _ _ _ _ _ _ _ (by decide)).trans hs
  case expiresNot => exact fun s h => exec_holdoverExpired_idle h

end Sys2Proof
end

section
/-! SUPPORT. What the sensor ports send and take as PTP grandmasters, and what a follower measures (R128 to R130, R134, R135). -/
namespace Sys2Proof.Machine

theorem isPort_of_lt {p : Nat} (hp : p < 16) : isPort p = true := decide_eq_true hp

/-! Messages that a port sends. -/

theorem State.sendPtp_eq (s : State) (p kind : Nat) (time : DWord) (info : List Nat) :
    s.sendPtp p kind time info
      = s.emit (.ptp p (s.rdN Fld.timPortCfg_profile p) (decide (s.rdN Fld.timPortCfg_profile p ≠ 0)) kind time info) := by
  have h : (s.rdN Fld.timPortCfg_profile p != 0) = decide (s.rdN Fld.timPortCfg_profile p ≠ 0) := by
    rw [Bool.eq_iff_iff, bne_iff_ne, decide_eq_true_iff]
  rw [State.sendPtp, h]

theorem exec_ptpSyncTx {p : Nat} (hp : p < 16) (s : State) : exec (.ptpSyncTx p) s = .next (s.after (
    if s.ptpOn p && !s.rdB Fld.timPortStat_passive p && s.duePeriod (nth none s.time.syncSent p) (s.syncNs p) then
      ({ s with time := { s.time with syncSent := s.time.syncSent.set p (some s.time.uptime) } }.sendPtp p 0x0 0).sendPtp p 0x8
        (s.txStamp p)
    else s)) := answer_of _ _ (isPort_of_lt hp)

theorem exec_ptpAnnounceTx {p : Nat} (hp : p < 16) (s : State) : exec (.ptpAnnounceTx p) s = .next (s.after (
    if s.ptpOn p && !s.rdB Fld.timPortStat_passive p && s.duePeriod (nth none s.time.announced p) announceNs then
      { s with time := { s.time with announced := s.time.announced.set p (some s.time.uptime) } }.sendPtp p 0xB s.now
        [s.rdN Fld.timStatus_clock_class, s.priority2]
    else s)) := answer_of _ _ (isPort_of_lt hp)

/-- A port that is PASSIVE, or whose interval has not passed, sends no Sync. -/
theorem exec_ptpSyncTx_silent {p : Nat} (hp : p < 16) {s : State}
    (h : s.rdB Fld.timPortStat_passive p = true ∨ s.duePeriod (nth none s.time.syncSent p) (s.syncNs p) = false) :
    exec (.ptpSyncTx p) s = .next s := by
  rw [exec_ptpSyncTx hp]
  obtain h | h := h <;> simp [h]

/-- Nor an Announce. -/
theorem exec_ptpAnnounceTx_silent {p : Nat} (hp : p < 16) {s : State}
    (h : s.rdB Fld.timPortStat_passive p = true ∨ s.duePeriod (nth none s.time.announced p) announceNs = false) :
    exec (.ptpAnnounceTx p) s = .next s := by
  rw [exec_ptpAnnounceTx hp]
  obtain h | h := h <;> simp [h]

/-- A delay request of the end-to-end mechanism is answered on a port of profile 0 or 1. -/
theorem exec_ptpDelayReq_endToEnd {p : Nat} (hp : p < 16) {s : State} (stamp : DWord) (hon : s.ptpOn p = true)
    (hprofile : s.rdN Fld.timPortCfg_profile p ≠ 2) :
    exec (.ptpDelayReq p false stamp) s = .next (s.after
      (s.sendPtp p 0x9 (stamp - BitVec.ofNat 64 (s.rdN Fld.timPortCfg_rx_latency_ns p)))) := by
  have e : exec (.ptpDelayReq p false stamp) s = .next (s.after (s.ptpAnswer p false stamp)) := answer_of _ _ (isPort_of_lt hp)
  rw [e]
  simp [State.ptpAnswer, hon, hprofile]

/-! Announces that a port receives. -/

/-- The twin partner has been heard on a port. -/
def State.hearPartner (s : State) (p : Nat) : State :=
  { s with time := { s.time with partnerHeard := s.time.partnerHeard.set p s.time.uptime } }

theorem exec_ptpAnnounceRx_partner {p : Nat} (hp : p < 16) (s : State) :
    exec (.ptpAnnounceRx p true) s = .next (s.after ((s.hearPartner p).wrB Fld.timPortStat_passive true p)) :=
  answer_of _ _ (isPort_of_lt hp)

theorem exec_ptpAnnounceRx_foreign {p : Nat} (hp : p < 16) (s : State) :
    exec (.ptpAnnounceRx p false) s = .next (s.after (s.countSat Fld.timPortStat_foreign_announce 1 p)) :=
  answer_of _ _ (isPort_of_lt hp)

/-- An element of a list that is set reads as set, where there is one. -/
theorem nth_set_same {α : Type} (d x : α) (l : List α) (i : Nat) : nth d (l.set i x) i = if i < l.length then x else d := by
  by_cases h : i < l.length
  · simp [nth, h]
  · simp [nth, h]

theorem exec_ptpPassiveTimeout {p : Nat} (hp : p < 16) (s : State) : exec (.ptpPassiveTimeout p) s = .next (s.after (
    if s.passed (nth 0 s.time.partnerHeard p) 3000000000 then s.wrB Fld.timPortStat_passive false p else s)) :=
  answer_of _ _ (isPort_of_lt hp)

theorem exec_treeCalibrated (s : State) :
    exec .treeCalibrated s = .next (s.after (s.wrB Fld.timStatus_tree_calibrated true)) := rfl

/-! A follower measures its upstream link. -/

/-- A follower has measured its link: FOLLOWER, with the delay and the phase error measured (R134, R135). -/
def State.measure (s : State) (rootClass delay : Nat) (err : Int) : State :=
  { s.enterTime tsFollower rootClass with time := { (s.enterTime tsFollower rootClass).time with
      delayMeasures := s.time.delayMeasures + 1, linkDelayNs := delay, phaseErr := satPhase err, upstreamLost := false } }

theorem State.onlyIn_measure (s : State) (k delay : Nat) (err : Int) : OnlyIn [.regs, .time] s (s.measure k delay err) :=
  (s.onlyIn_enterTime tsFollower k).trans ((State.onlyIn_time _ _).mono (by simp))

theorem exec_followerDelayMeasure {s : State} (h : s.timeRole = 2) (t1 t2 t3 t4 : DWord) (k : Nat) :
    exec (.followerDelayMeasure t1 t2 t3 t4 k) s = .next (s.after (s.measure k
      (floorDiv (stampDiff t4 t1 - stampDiff t3 t2) 2).toNat (floorDiv (stampDiff t1 t2 + stampDiff t4 t3) 2))) := by
  have e : exec (.followerDelayMeasure t1 t2 t3 t4 k) s = execFollowerDelayMeasure t1 t2 t3 t4 k s := rfl
  rw [e, execFollowerDelayMeasure, answer_true, if_pos (by simp [h])]
  rfl

end Sys2Proof.Machine
end

section
/-! SUPPORT. The obligation on the sensor ports as PTP grandmasters (O9). -/
namespace Sys2Proof
open Machine

/-- A one-bit field that is written to reads so, and nothing else changes. -/
theorem completes_wrB {c : Instr} {s : State} {f : Field} {v : Bool} {i n : Nat} (e : exec c s = .next (s.after (s.wrB f v i n)))
    (h : 0 < f.width) : Completes c s fun t => t.rdB f i n = v ∧ OnlyIn [.regs] s t ∧ RegsBut [f.key i n] s t := by
  refine completes_of_onlyIn e (onlyIn_wr s f _ i n) (by decide) ⟨?_, onlyIn_wr s f _ i n, regsBut_wr s f _ i n⟩
  rw [State.rdB_wrB _ _ _ _ _ _ _ _ h, if_pos rfl]

/-- Settles O9, clause by clause: each message is sent, or each register written, on the branch that the clause's premises select. -/
theorem ptpPortsServeTime : Obligations.PtpPortsServeTime := by
  unfold Obligations.PtpPortsServeTime
  refine ⟨?sync, ?passive, ?syncEarly, ?announceEarly, ?announce, ?delayReq, ?partner, ?foreign, ?heardLately, ?timeout, ?calibrated,
    ?follower⟩
  case sync =>
    intro s p hp hon hpassive hdue
    rw [exec_ptpSyncTx hp, if_pos (by simp [hon, hpassive, State.syncNs, hdue]), State.sendPtp_eq, State.sendPtp_eq]
    rfl
  case passive => exact fun s p hp h => ⟨exec_ptpSyncTx_silent hp (.inl h), exec_ptpAnnounceTx_silent hp (.inl h)⟩
  case syncEarly => exact fun s p hp h => exec_ptpSyncTx_silent hp (.inr h)
  case announceEarly => exact fun s p hp h => exec_ptpAnnounceTx_silent hp (.inr h)
  case announce =>
    intro s p hp hon hpassive hdue
    rw [exec_ptpAnnounceTx hp, if_pos (by simp [hon, hpassive, announceNs, hdue]), State.sendPtp_eq]
    rfl
  case delayReq =>
    intro s p stamp hp hon hprofile
    rw [exec_ptpDelayReq_endToEnd hp stamp hon hprofile, State.sendPtp_eq]
    rfl
  case partner =>
    intro s p hp
    have hframe : OnlyIn [.regs, .time] s ((s.hearPartner p).wrB Fld.timPortStat_passive true p) :=
      ((s.onlyIn_time _).mono (by simp)).trans ((onlyIn_wr (s.hearPartner p) _ _ _ _).mono (by simp))
    refine completes_of_onlyIn (exec_ptpAnnounceRx_partner hp s) hframe (by decide) ⟨?_, nth_set_same _ _ _ _, hframe, ?_⟩
    · rw [State.rdB_wrB _ _ _ _ _ _ _ _ (by decide), if_pos rfl]
    · exact regsBut_wr (s.hearPartner p) _ _ _ _
  case foreign =>
    intro s p hp
    refine completes_of_onlyIn (exec_ptpAnnounceRx_foreign hp s) (onlyIn_wr s _ _ _ _) (by decide)
      ⟨?_, onlyIn_wr s _ _ _ _, regsBut_wr s _ _ _ _⟩
    exact (s.rdN_countSat _ _ _ _ _ _ _ (by decide)).trans (if_pos rfl)
  case heardLately =>
    intro s p hp h
    rw [exec_ptpPassiveTimeout hp, h]
    rfl
  case timeout =>
    intro s p hp h
    exact completes_wrB (by rw [exec_ptpPassiveTimeout hp, if_pos h]) (by decide)
  case calibrated => exact fun s => completes_wrB (exec_treeCalibrated s) (by decide)
  case follower =>
    intro s t1 t2 t3 t4 k hr hk
    refine completes_of_onlyIn (exec_followerDelayMeasure hr t1 t2 t3 t4 k) (s.onlyIn_measure _ _ _) (by decide)
      ⟨s.timeState_enterTime k (by decide), s.clockClass_enterTime _ hk, rfl, rfl, ?_, s.onlyIn_measure _ _ _⟩
    have hnow : (s.enterTime tsFollower k).now = s.now := by rw [State.now, s.time_enterTime tsFollower k, State.now]
    exact hnow

end Sys2Proof
end

section
/-! SUPPORT. What the shared operations of sweep ingest change and leave alone: contexts in their table, counts, the host's rings, memory of
the Crown's own (R46, R47, R146, R166, R178, R180, R181). -/
namespace Sys2Proof.Machine

/-- Two states have the same frames in their FIFOs and the same points waiting for de-skew. -/
structure KeepsFlow (s t : State) : Prop where
  fifos : t.ingest.fifos = s.ingest.fifos
  deskew : t.ingest.deskew = s.ingest.deskew

/-- And the same stream contexts. -/
structure KeepsInput (s t : State) : Prop extends KeepsFlow s t where
  ctxs : t.ingest.ctxs = s.ingest.ctxs

theorem KeepsFlow.refl (s : State) : KeepsFlow s s := ⟨rfl, rfl⟩

theorem KeepsFlow.trans {s t u : State} (h : KeepsFlow s t) (h' : KeepsFlow t u) : KeepsFlow s u :=
  ⟨h'.fifos.trans h.fifos, h'.deskew.trans h.deskew⟩

theorem KeepsInput.refl (s : State) : KeepsInput s s := ⟨.refl s, rfl⟩

theorem KeepsInput.trans {s t u : State} (h : KeepsInput s t) (h' : KeepsInput t u) : KeepsInput s u :=
  ⟨h.toKeepsFlow.trans h'.toKeepsFlow, h'.ctxs.trans h.ctxs⟩

theorem KeepsInput.of_ingest {s t : State} (h : t.ingest = s.ingest) : KeepsInput s t :=
  ⟨⟨congrArg Ingest.fifos h, congrArg Ingest.deskew h⟩, congrArg Ingest.ctxs h⟩

theorem KeepsInput.foldl {α : Type} {f : State → α → State} (h : ∀ s a, KeepsInput s (f s a)) (as : List α) (s : State) :
    KeepsInput s (as.foldl f s) := by
  induction as generalizing s with
  | nil => exact .refl s
  | cons a as ih => exact (h s a).trans (ih _)

theorem KeepsInput.ite {s t u : State} {c : Prop} [Decidable c] (ht : KeepsInput s t) (hu : KeepsInput s u) :
    KeepsInput s (if c then t else u) := by
  split
  · exact ht
  · exact hu

theorem KeepsInput.ctx? {s t : State} (h : KeepsInput s t) (i : Nat) : t.ctx? i = s.ctx? i := by rw [State.ctx?, h.ctxs, State.ctx?]

/-! Memory of a unit of the Crown. -/

theorem State.onlyIn_putHbm (s : State) (a : Nat) (b : List Byte) : OnlyIn [.hbm, .mem] s (s.putHbm a b) := by
  refine OnlyIn.ite (fun p hp => ?_) (OnlyIn.refl _ s)
  cases p <;> simp at hp <;> rfl

/-- A word with an error is counted and reported, and a corrected one written back (R47, R53). -/
theorem State.onlyIn_eccWord (s : State) (o : Origin) (w : Nat) : OnlyIn [.regs, .mem, .reports] s (s.eccWord o w).1 := by
  have counted (u : State) (f : Field) (n i : Nat) : OnlyIn [.regs, .mem, .reports] u (u.count f n i) :=
    (onlyIn_wr u f _ i 0).mono (by simp)
  have written (u : State) (f : Field) (v i : Nat) : OnlyIn [.regs, .mem, .reports] u (u.wrN f v i) :=
    (onlyIn_wr u f _ i 0).mono (by simp)
  have reported (u : State) (r : Report) : OnlyIn [.regs, .mem, .reports] u (u.report r) := (u.onlyIn_report r).mono (by simp)
  unfold State.eccWord
  split
  · exact OnlyIn.refl _ s
  · dsimp only
    split
    · exact OnlyIn.ite ((((s.onlyIn_mem _).mono (by simp)).trans (counted _ _ _ _)).trans (reported _ _))
        ((counted _ _ _ _).trans (reported _ _))
    · exact OnlyIn.ite (((counted _ _ _ _).trans (written _ _ _ _)).trans (reported _ _))
        (((counted _ _ _ _).trans (written _ _ _ _)).trans (reported _ _))

theorem State.onlyIn_eccWords (o : Origin) (ws : List Nat) (s : State) : OnlyIn [.regs, .mem, .reports] s (s.eccWords o ws).1 := by
  induction ws generalizing s with
  | nil => exact OnlyIn.refl _ s
  | cons w ws ih =>
    have hw := s.onlyIn_eccWord o w
    unfold State.eccWords
    split
    next u hu =>
      rw [hu] at hw
      exact hw.trans (ih u)
    next u e hu => rwa [hu] at hw

theorem State.onlyIn_getHbm (s : State) (o : Origin) (a n : Nat) : OnlyIn [.regs, .mem, .reports] s (s.getHbm o a n).1 := by
  have h := State.onlyIn_eccWords o (wordsOf a n) s
  unfold State.getHbm
  split
  next u e hu => rwa [hu] at h
  next u hu => rwa [hu] at h

/-! A context in its table. -/

theorem State.onlyIn_saveCtx (s : State) (c : Ctx) : OnlyIn [.hbm, .mem] s (s.saveCtx c) := s.onlyIn_putHbm _ _

/-- The contexts with one of them changed. -/
def State.withCtx (s : State) (id : Nat) (f : Ctx → Ctx) : State :=
  { s with ingest := { s.ingest with ctxs := updWhere s.ingest.ctxs (fun x => x.id == id) f } }

/-- A change to a context is written to its table. -/
theorem State.onlyIn_updCtx_withCtx (s : State) (id : Nat) (f : Ctx → Ctx) : OnlyIn [.hbm, .mem] (s.withCtx id f) (s.updCtx id f) := by
  have e : s.updCtx id f = match (s.withCtx id f).ctx? id with | some c => (s.withCtx id f).saveCtx c | none => s.withCtx id f := rfl
  rw [e]
  cases (s.withCtx id f).ctx? id with
  | none => exact OnlyIn.refl _ _
  | some c => exact State.onlyIn_saveCtx _ c

theorem State.onlyIn_updCtx (s : State) (id : Nat) (f : Ctx → Ctx) : OnlyIn [.ingest, .hbm, .mem] s (s.updCtx id f) :=
  ((s.onlyIn_ingest _).mono (by simp)).trans ((s.onlyIn_updCtx_withCtx id f).mono (by simp))

theorem State.ingest_updCtx (s : State) (id : Nat) (f : Ctx → Ctx) : (s.updCtx id f).ingest = (s.withCtx id f).ingest :=
  s.onlyIn_updCtx_withCtx id f .ingest (by decide)

theorem State.keepsFlow_updCtx (s : State) (id : Nat) (f : Ctx → Ctx) : KeepsFlow s (s.updCtx id f) :=
  KeepsFlow.trans (t := s.withCtx id f) ⟨rfl, rfl⟩ (KeepsInput.of_ingest (s.ingest_updCtx id f)).toKeepsFlow

theorem State.ctx?_updCtx {s : State} {id : Nat} {c : Ctx} {f : Ctx → Ctx} (h : s.ctx? id = some c) (hf : ∀ c, (f c).id = c.id) :
    (s.updCtx id f).ctx? id = some (f c) := by
  have e : (s.updCtx id f).ctx? id = (s.ctx? id).map (fun x => if x.id == id then f x else x) := by
    rw [State.ctx?, s.ingest_updCtx id f]
    exact find?_updWhere _ _ _ _ fun c => by rw [hf c]
  have hc : c.id = id := by simpa using List.find?_some h
  rw [e, h]
  simp [hc]

/-- A context that becomes FREE is in the table no more. -/
theorem State.ctx?_dropCtx (s : State) (id : Nat) : (s.dropCtx id).ctx? id = none := by
  unfold State.dropCtx
  split
  next h => exact h
  next c h =>
    rw [(KeepsInput.of_ingest (State.onlyIn_saveCtx _ _ .ingest (by decide))).ctx? id]
    exact List.find?_eq_none.mpr fun x hx => by simpa using (List.mem_filter.mp hx).2

/-! Counts. -/

theorem State.onlyIn_tally (s : State) (unit code n : Nat) : OnlyIn [.observe] s (s.tally none unit code n) := s.onlyIn_observe _

theorem State.onlyIn_portCount (s : State) (p i n : Nat) : OnlyIn [.regs, .observe, .ingest] s (s.portCount p i n) := by
  have hc : OnlyIn [.regs, .observe, .ingest] s (s.count Fld.siuPortCnt_count n (7 * p + i)) := (onlyIn_wr s _ _ _ _).mono (by simp)
  exact OnlyIn.ite (OnlyIn.refl _ s) (OnlyIn.ite hc
    ((hc.trans ((State.onlyIn_tally _ _ _ _).mono (by simp))).trans ((State.onlyIn_ingest _ _).mono (by simp))))

theorem State.keepsInput_portCount (s : State) (p i n : Nat) : KeepsInput s (s.portCount p i n) := by
  unfold State.portCount
  split
  · exact .refl s
  · dsimp only
    split <;> exact ⟨⟨rfl, rfl⟩, rfl⟩

/-- Received frames are counted in the register alone. -/
theorem State.portCount_rx (s : State) (p : Nat) : s.portCount p pcRx 1 = s.count Fld.siuPortCnt_count 1 (7 * p + pcRx) := rfl

theorem and_lowMask_64 (v : DWord) : v &&& lowMask 64 = v := BitVec.and_allOnes

/-- A port counter wraps at 64 bits. -/
theorem State.rd_portCount (s : State) (p i : Nat) :
    (s.portCount p i 1).rd Fld.siuPortCnt_count (7 * p + i) = s.rd Fld.siuPortCnt_count (7 * p + i) + 1 := by
  have hregs : (s.portCount p i 1).regs = (s.count Fld.siuPortCnt_count 1 (7 * p + i)).regs := by
    rw [State.portCount, if_neg (by decide)]
    dsimp only
    split <;> rfl
  rw [State.rd_congr (s.count Fld.siuPortCnt_count 1 (7 * p + i)) _ hregs (s.onlyIn_portCount p i 1 .variant (by decide))]
  exact (s.rd_wr_same _ _ _ _).trans (and_lowMask_64 _)

theorem State.keepsInput_setCount (s : State) (set code n : Nat) (loss : Bool) : KeepsInput s (s.setCount set code n loss) := by
  unfold State.setCount
  split
  · exact .refl s
  · exact ⟨⟨rfl, rfl⟩, rfl⟩

/-! The host's rings. -/

theorem State.onlyIn_raise (s : State) (fn v : Nat) : OnlyIn [.out, .pcie] s (s.raise fn v) := by
  unfold State.raise
  split
  · exact OnlyIn.refl _ s
  · exact OnlyIn.ite ((s.onlyIn_emit _).mono (by simp)) (OnlyIn.ite (OnlyIn.refl _ s) ((s.onlyIn_updFn _ _).mono (by simp)))

theorem State.onlyIn_ringWrite (s : State) (disc : Bool) (r : HostRing) (entry : List Byte) :
    OnlyIn [.host, .out, .pcie] s (s.ringWrite disc r entry).1 := by
  have hs (a : Nat) : OnlyIn [.host, .out, .pcie] s (s.hostStore 0 a entry) :=
    ((s.onlyIn_host _).mono (by simp)).trans ((State.onlyIn_emit _ _).mono (by simp))
  exact OnlyIn.ite ((hs _).trans ((State.onlyIn_raise _ _ _).mono (by simp))) (hs _)

theorem State.keepsInput_queueLost (s : State) (disc : Bool) (n : Nat) : KeepsInput s (s.queueLost disc n) := by
  unfold State.queueLost
  split
  · exact .refl s
  · cases disc <;> exact ⟨⟨rfl, rfl⟩, rfl⟩

theorem State.keepsInput_putRing (s : State) (disc : Bool) (r : HostRing) : KeepsInput s (s.putRing disc r) := by
  cases disc <;> exact ⟨⟨rfl, rfl⟩, rfl⟩

theorem State.onlyIn_putRing (s : State) (disc : Bool) (r : HostRing) : OnlyIn [.ingest] s (s.putRing disc r) :=
  OnlyIn.ite (s.onlyIn_ingest _) (s.onlyIn_ingest _)

theorem State.keepsInput_postRing (s : State) (disc : Bool) (entry : List Byte) : KeepsInput s (s.postRing disc entry) := by
  unfold State.postRing
  split
  · exact .refl s
  next r _ =>
    split
    · exact s.keepsInput_queueLost disc 1
    · split
      · exact s.keepsInput_putRing disc _
      · exact (KeepsInput.of_ingest (s.onlyIn_ringWrite disc r entry .ingest (by decide))).trans (State.keepsInput_putRing _ disc _)

theorem State.keepsInput_ingestEvent (s : State) (code subject : Nat) (param : DWord) :
    KeepsInput s (s.ingestEvent code subject param) := by
  unfold State.ingestEvent
  dsimp only
  split
  · exact .refl s
  · refine KeepsInput.trans (t := { s with ingest := { s.ingest with eventSeq := s.ingest.eventSeq + 1 } }) ⟨⟨rfl, rfl⟩, rfl⟩ ?_
    exact State.keepsInput_postRing _ false _

/-- A ring whose read count has been read at an address of host memory, with no entry waiting. -/
def HostRing.readAt (r : HostRing) (host : List Host.Cell) (a : Nat) : HostRing :=
  { r with readCount := BitVec.ofNat 32 (bytesToNat (memRead host a 4)), waiting := [] }

theorem State.headRead_idle {s : State} {disc : Bool} {r : HostRing} (h : s.ingest.ring disc = some r) (hw : r.waiting = []) :
    s.headRead disc = s.putRing disc (r.readAt s.host (s.ingest.headLine + (if disc then 0 else 4))) := by
  simp [State.headRead, h, hw, State.drainRingEntries, HostRing.readAt]

/-- A new read of the head line gives both rings their read counts (R180). -/
theorem State.headReads_idle {s : State} {r e : HostRing} (hr : s.ingest.discovery = some r) (hrw : r.waiting = [])
    (he : s.ingest.events = some e) (hew : e.waiting = []) : (s.headRead true).headRead false =
      (s.putRing true (r.readAt s.host s.ingest.headLine)).putRing false (e.readAt s.host (s.ingest.headLine + 4)) := by
  have hdisc : s.headRead true = s.putRing true (r.readAt s.host s.ingest.headLine) := State.headRead_idle (disc := true) hr hrw
  rw [hdisc]
  exact State.headRead_idle (s := s.putRing true (r.readAt s.host s.ingest.headLine)) (disc := false) he hew

theorem State.onlyIn_hostStores (s : State) (l : List HostStore) : OnlyIn [.host] s (s.hostStores l) :=
  OnlyIn.foldl (fun u _ => u.onlyIn_host _) l s

/-- Which functions are requesters is all that a hold looks at. -/
theorem State.holds_congr {s t : State} (h : t.pcie = s.pcie) (fn : Nat) : t.holds fn = s.holds fn := by
  simp only [State.holds, State.fn?, h]

/-! Pose records (R165, R166). -/

theorem State.keepsInput_poseAccept (s : State) (num : Nat) (p : Pose) : KeepsInput s (s.poseAccept num p).1 := by
  unfold State.poseAccept
  split
  · exact .refl s
  next src _ =>
    dsimp only
    rw [apply_ite Prod.fst]
    refine KeepsInput.ite ?rejected ?accepted
    case rejected =>
      refine KeepsInput.trans (t := s.count Fld.siuPoseRej_pose_rejected 1 num) (.of_ingest rfl) ?_
      exact KeepsInput.foldl (fun u (x : StreamSet) => u.keepsInput_setCount x.num 0x010B 1 true) _ _
    case accepted =>
      cases src.records.getLast? with
      | none => exact ⟨⟨rfl, rfl⟩, rfl⟩
      | some newest =>
        refine KeepsInput.ite (KeepsInput.trans ?_ (State.keepsInput_ingestEvent _ _ _ _)) ?_ <;> exact ⟨⟨rfl, rfl⟩, rfl⟩

theorem State.keepsInput_poseAcceptAll (num : Nat) (ps : List Pose) (s : State) : KeepsInput s (s.poseAcceptAll num ps).1 := by
  induction ps generalizing s with
  | nil => exact .refl s
  | cons p ps ih => exact (s.keepsInput_poseAccept num p).trans (ih _)

end Sys2Proof.Machine
end

section
/-! SUPPORT. What a frame, its parsing, a point's de-skew and the ageing of its context do, by branches (R139 to R152, R162 to R174). -/
namespace Sys2Proof.Machine

/-! A frame arrives at a port. -/

theorem exec_sensorPortLinkUp {p : Nat} (hp : p < 16) {s : State} (hc : s.rdB Fld.timStatus_tree_calibrated = true)
    (hu : s.rdB Fld.siuCtrl_enable = true) (he : s.rdB Fld.siuPortCfg_enable p = true) :
    exec (.sensorPortLinkUp p) s = .next (s.after
      { s.wrB Fld.siuPortCfg_link_up true p with time := { s.time with portsUp := true } }) := by
  have e : exec (.sensorPortLinkUp p) s = execSensorPortLinkUp p s := rfl
  rw [e, execSensorPortLinkUp, answer_of _ _ (isPort_of_lt hp), if_pos (by simp [hc, hu, he])]
  rfl

theorem exec_sensorPortLinkDown {p : Nat} (hp : p < 16) (s : State) :
    exec (.sensorPortLinkDown p) s = .next (s.after (s.wrB Fld.siuPortCfg_link_up false p)) := answer_of _ _ (isPort_of_lt hp)

theorem exec_sensorFrameRx_badFcs {p : Nat} (hp : p < 16) {s : State} (f : List Byte) (hr : s.portReceives p = true) :
    exec (.sensorFrameRx p f false) s = .next (s.after (s.portCount p pcFcs 1)) := by
  have e : exec (.sensorFrameRx p f false) s = execSensorFrameRx p f false s := rfl
  rw [e, execSensorFrameRx, answer_of _ _ (isPort_of_lt hp)]
  simp [hr]

section
variable {p : Nat} (hp : p < 16) {s : State} {f : List Byte} (hmin : 64 ≤ f.length) (hmax : f.length ≤ 9216)
include hp hmin hmax

/-- A frame for a solicited-node group that is not the port's is not received (R141). -/
theorem exec_sensorFrameRx_foreign (hm : s.takesMac p f = false) : exec (.sensorFrameRx p f true) s = .next s := by
  have e : exec (.sensorFrameRx p f true) s = execSensorFrameRx p f true s := rfl
  have hlen : ¬(f.length < 64 ∨ 9216 < f.length) := by omega
  rw [e, execSensorFrameRx, answer_of _ _ (isPort_of_lt hp)]
  simp [hlen, hm]

theorem exec_sensorFrameRx_udp (hr : s.portReceives p = true) (hm : s.takesMac p f = true) {d : Datagram}
    (hk : s.frameKind p (f.take (f.length - 4)) = .udp d) :
    exec (.sensorFrameRx p f true) s = .next (s.after (s.udpFrame p d
      (s.leaf siuIsland - BitVec.ofNat 64 (s.rdN Fld.timPortCfg_rx_latency_ns p)) f.length)) := by
  have e : exec (.sensorFrameRx p f true) s = execSensorFrameRx p f true s := rfl
  have hlen : ¬(f.length < 64 ∨ 9216 < f.length) := by omega
  rw [e, execSensorFrameRx, answer_of _ _ (isPort_of_lt hp)]
  simp [hr, hlen, hm, hk]

end

/-- The count of a port's frames is not among what a frame's key is read from. -/
theorem State.frameKey_portCount_rx (s : State) (p : Nat) (d : Datagram) : (s.portCount p pcRx 1).frameKey p d = s.frameKey p d := by
  have hrd (g : Field) (i : Nat) (h : g.reg ≠ .siuPortCnt) : (s.portCount p pcRx 1).rd g i = s.rd g i :=
    s.rd_wr_other _ _ _ _ _ _ _ fun hk => h (congrArg RegKey.reg hk).symm
  have hon : (s.portCount p pcRx 1).rdB Fld.siuPortCfg_sid_enable p = s.rdB Fld.siuPortCfg_sid_enable p := by
    rw [State.rdB, hrd _ _ (by decide), State.rdB]
  have hoff : (s.portCount p pcRx 1).rdN Fld.siuPortCfg_sid_offset p = s.rdN Fld.siuPortCfg_sid_offset p := by
    rw [State.rdN, hrd _ _ (by decide), State.rdN]
  simp only [State.frameKey, State.sensorId, hon, hoff]

section
variable {s : State} {p : Nat} {d : Datagram} {c : Ctx} (hm : s.matchCtx (s.frameKey p d) = some c) (stamp : DWord) (len : Nat)
include hm

theorem State.udpFrame_disabled (hs : c.state = .disabled) :
    s.udpFrame p d stamp len = (s.portCount p pcRx 1).updCtx c.id (fun c => { c with frames := c.frames + 1 }) := by
  have hm' : (s.portCount p pcRx 1).matchCtx (s.frameKey p d) = some c := hm
  simp [State.udpFrame, State.frameKey_portCount_rx, hm', hs]

theorem State.udpFrame_active (hs : c.state = .active) :
    s.udpFrame p d stamp len = (s.portCount p pcRx 1).deliver c (s.frameKey p d) d stamp len := by
  have hm' : (s.portCount p pcRx 1).matchCtx (s.frameKey p d) = some c := hm
  simp [State.udpFrame, State.frameKey_portCount_rx, hm', hs]

end

/-! A frame is parsed. -/

/-- The head of a port's FIFO leaves it. -/
def State.popFrame (s : State) (p : Nat) : State := s.setFifo p (fun q => { q with frames := q.frames.drop 1 })

theorem exec_frameParse_ready {p : Nat} (hp : p < 16) {s s1 : State} {f : QFrame} {c : Ctx} {r : Parsed}
    (hw : (s.fifo p).wr = (s.fifo p).wrCopy) (hready : s.headReady p = some f) (hfirst : s.headFirst p f = true)
    (hc : (s.popFrame p).ctx? f.ctx = some c) (hkey : c.key = f.key) (ht : c.template = false)
    (hparse : (s.popFrame p).parse c f = (r, s1)) : exec (.frameParse p) s = .next (s.after (s1.parsedFrame p c f r)) := by
  have e : exec (.frameParse p) s = execFrameParse p s := rfl
  unfold State.popFrame at hc hparse
  rw [e, execFrameParse, answer_of _ _ (isPort_of_lt hp)]
  simp only [hw, bne_self_eq_false, hready, hfirst, hc, hkey, ht, hparse]
  rfl

/-- The points and excess of a parsed frame are counted for its port, its context and its stream set. -/
def State.countParsed (s : State) (p : Nat) (c : Ctx) (r : Parsed) : State :=
  ((s.portCount p pcBudget r.excess).updCtx c.id (fun c => { c with
    budgetPoints := c.budgetPoints + BitVec.ofNat 32 r.excess, points := c.points + BitVec.ofNat 64 r.points.length })).setCount
    c.set 0x0100 r.points.length false

theorem State.keepsFlow_countParsed (s : State) (p : Nat) (c : Ctx) (r : Parsed) : KeepsFlow s (s.countParsed p c r) :=
  ((s.keepsInput_portCount p pcBudget r.excess).toKeepsFlow.trans (State.keepsFlow_updCtx _ _ _)).trans
    (State.keepsInput_setCount _ _ _ _ _).toKeepsFlow

/-- Points join those that wait for de-skew. -/
def State.addPoints (s : State) (l : List RawPoint) : State :=
  { s with ingest := { s.ingest with deskew := s.ingest.deskew ++ l } }

/-- Pose records reach the sources of a context, which touch neither frames nor points. -/
theorem State.parsedFrame_flow {s : State} {p : Nat} {c : Ctx} {f : QFrame} {r : Parsed} (h : r.fault = false) :
    KeepsFlow ((s.countParsed p c r).addPoints r.points) (s.parsedFrame p c f r) := by
  rw [State.parsedFrame, if_neg (by simp [h])]
  exact (KeepsInput.foldl (fun u (x : PoseSource) => State.keepsInput_poseAcceptAll x.num r.poses u) _ _).toKeepsFlow

/-! A point is de-skewed. -/

/-- A point whose window is not open is counted for its set and its context (R164). -/
def State.windowDrop (s : State) (p : RawPoint) : State :=
  (s.setCount p.set 0x0107 1 true).updCtx p.ctx (fun c => { c with windowDrops := c.windowDrops + 1 })

theorem State.keepsFlow_windowDrop (s : State) (p : RawPoint) : KeepsFlow s (s.windowDrop p) :=
  (s.keepsInput_setCount p.set 0x0107 1 true).toKeepsFlow.trans (State.keepsFlow_updCtx _ _ _)

theorem State.keepsFlow_poseDrop (s : State) (p : RawPoint) : KeepsFlow s (s.poseDrop p) :=
  (s.keepsInput_setCount p.set 0x0108 1 true).toKeepsFlow.trans (State.keepsFlow_updCtx _ _ _)

/-- A point whose pose is extrapolated is counted for its set and its context (R167). -/
def State.countExtrapolated (s : State) (p : RawPoint) : State :=
  (s.setCount p.set 0x010A 1 false).updCtx p.ctx (fun c => { c with extrapolated := c.extrapolated + 1 })

theorem State.keepsFlow_countExtrapolated (s : State) (p : RawPoint) : KeepsFlow s (s.countExtrapolated p) :=
  (s.keepsInput_setCount p.set 0x010A 1 false).toKeepsFlow.trans (State.keepsFlow_updCtx _ _ _)

theorem State.keepsInput_updSet (s : State) (n : Nat) (f : StreamSet → StreamSet) : KeepsInput s (s.updSet n f) := ⟨⟨rfl, rfl⟩, rfl⟩

theorem State.keepsInput_latchRef (s : State) (x : StreamSet) (k : Int) : KeepsInput s (s.latchRef x k).1 := by
  unfold State.latchRef
  split
  · exact .refl s
  · split
    · exact .refl s
    · exact s.keepsInput_updSet _ _

theorem State.keepsFlow_storePoint (s : State) (set : Nat) (k : Int) (p : Point) : KeepsFlow s (s.storePoint set k p) := by
  unfold State.storePoint
  split
  · exact .refl s
  · dsimp only
    split
    · have hdrop : KeepsFlow s ((s.setCount set 0x0109 1 true).updCtx p.ctx (fun c => { c with bufferDrops := c.bufferDrops + 1 })) :=
        (s.keepsInput_setCount set 0x0109 1 true).toKeepsFlow.trans (State.keepsFlow_updCtx _ _ _)
      split
      · exact hdrop
      · exact (hdrop.trans (State.keepsInput_updSet _ _ _).toKeepsFlow).trans (State.keepsInput_ingestEvent _ _ _ _).toKeepsFlow
    · exact (KeepsInput.of_ingest (State.onlyIn_putHbm s _ _ .ingest (by decide))).toKeepsFlow.trans ⟨rfl, rfl⟩

theorem State.keepsFlow_deskewPoint (s : State) (x : StreamSet) (p : RawPoint) (t k : Int) : KeepsFlow s (s.deskewPoint x p t k) := by
  have hl := (s.keepsInput_latchRef x k).toKeepsFlow
  unfold State.deskewPoint
  split
  next u hu =>
    rw [hu] at hl
    exact hl.trans (u.keepsFlow_poseDrop p)
  next u ref refExtra hu =>
    rw [hu] at hl
    split
    · exact hl.trans (u.keepsFlow_poseDrop p)
    · dsimp only
      refine (hl.trans ?_).trans (State.keepsFlow_storePoint _ _ _ _)
      split
      · refine KeepsFlow.trans ?_ (State.keepsFlow_countExtrapolated _ p)
        exact ⟨rfl, rfl⟩
      · exact ⟨rfl, rfl⟩

/-- The oldest point has left the queue of those that wait. -/
def State.popPoint (s : State) (rest : List RawPoint) : State := { s with ingest := { s.ingest with deskew := rest } }

/-- A point goes to its window where that is open, and is lost where it is not or where its stream set is undefined. -/
def State.placePoint (s : State) (p : RawPoint) : State :=
  match s.set? p.set with
  | none => s.windowDrop p
  | some x =>
    if s.windowOpen x (x.cfg.window p.time) then s.deskewPoint x p p.time (x.cfg.window p.time) else s.windowDrop p

theorem State.keepsFlow_placePoint (s : State) (p : RawPoint) : KeepsFlow s (s.placePoint p) := by
  unfold State.placePoint
  split
  · exact s.keepsFlow_windowDrop p
  · split
    · exact s.keepsFlow_deskewPoint _ _ _ _
    · exact s.keepsFlow_windowDrop p

theorem State.placePoint_dropped {s : State} {p : RawPoint} {x : StreamSet} (hx : s.set? p.set = some x)
    (hw : s.windowOpen x (x.cfg.window p.time) = false) : s.placePoint p = s.windowDrop p := by
  simp [State.placePoint, hx, hw]

theorem exec_pointDeskew {s : State} {p : RawPoint} {rest : List RawPoint} (h : s.ingest.deskew = p :: rest) :
    exec .pointDeskew s = .next (s.after ((s.popPoint rest).placePoint p)) := by
  have e : exec .pointDeskew s = execPointDeskew s := rfl
  rw [e, execPointDeskew, answer_true]
  simp only [h]
  rfl

/-! A context ages (R149). -/

theorem exec_contextAgeingCheck_young {s : State} {i : Nat} {c : Ctx} (hc : s.ctx? i = some c)
    (h : (s.leaf siuIsland).toNat < c.lastNs.toNat + c.ageMs * 1000000) : exec (.contextAgeingCheck i) s = .next s := by
  have e : exec (.contextAgeingCheck i) s = execContextAgeingCheck i s := rfl
  rw [e, execContextAgeingCheck, answer_true]
  simp [hc, h]

section
variable {s : State} {i : Nat} {c : Ctx} (hc : s.ctx? i = some c) (ht : c.template = false) (ha : c.ageMs ≠ 0)
  (hold : c.lastNs.toNat + c.ageMs * 1000000 ≤ (s.leaf siuIsland).toNat)
include hc ht ha hold

/-- A context that was admitted by itself is removed, with an event (R149, R181). -/
theorem exec_contextAgeingCheck_auto (hauto : c.auto = true) :
    exec (.contextAgeingCheck i) s = .next (s.after ((s.dropCtx i).ingestEvent 0x0003 i c.lastNs)) := by
  have e : exec (.contextAgeingCheck i) s = execContextAgeingCheck i s := rfl
  rw [e, execContextAgeingCheck, answer_true]
  simp [hc, ht, ha, Nat.not_lt.mpr hold, hauto]

theorem exec_contextAgeingCheck_active (hauto : c.auto = false) (hs : c.state = .active) :
    exec (.contextAgeingCheck i) s = .next (s.after
      ((s.updCtx i (fun c => { c with state := .silent })).ingestEvent 0x0002 i c.lastNs)) := by
  have e : exec (.contextAgeingCheck i) s = execContextAgeingCheck i s := rfl
  rw [e, execContextAgeingCheck, answer_true]
  simp [hc, ht, ha, Nat.not_lt.mpr hold, hauto, hs]

end

/-! A context is fetched, a key leaves the filter, the head line is read. -/

/-- A fetched context is in the cache. -/
def State.fetched (s : State) (i : Nat) : State :=
  { (s.getHbm { part := 0, crit := 0, stream := 0 } (s.ctxAddr i) 128).1 with
    ingest := (s.getHbm { part := 0, crit := 0, stream := 0 } (s.ctxAddr i) 128).1.ingest.cached i }

theorem exec_contextFetchDone {s : State} {i : Nat} (h : i ∈ s.ingest.fetching) :
    exec (.contextFetchDone i) s = .next (s.after (s.fetched i)) := by
  have e : exec (.contextFetchDone i) s = execContextFetchDone i s := rfl
  rw [e, execContextFetchDone, answer_true, if_pos (List.contains_iff_mem.mpr h)]
  rfl

theorem State.onlyIn_fetched (s : State) (i : Nat) : OnlyIn [.ingest, .regs, .mem, .reports] s (s.fetched i) :=
  ((s.onlyIn_getHbm _ _ _).mono (by simp)).trans ((State.onlyIn_ingest _ _).mono (by simp))

theorem State.ingest_fetched (s : State) (i : Nat) : (s.fetched i).ingest = s.ingest.cached i :=
  congrArg (Ingest.cached · i) (s.onlyIn_getHbm _ _ _ .ingest (by decide))

/-- Whether a key stays in the discovery filter when the hold-off of one is looked at (R179). -/
def State.filterKeeps (s : State) (k : FrameKey) (x : FrameKey × DWord) : Bool :=
  x.1 != k || !s.passed x.2 (1000000 * s.rdN Fld.siuDiscCtrl_holdoff_ms)

theorem exec_discoveryHoldoffExpire (k : FrameKey) (s : State) : exec (.discoveryHoldoffExpire k) s =
    .next { s with ingest := { s.ingest with filter := s.ingest.filter.filter (s.filterKeeps k) } } := rfl

theorem exec_ingestHeadLineRead {s : State} (st : List HostStore) (h : s.holds 0 = false) :
    exec (.ingestHeadLineRead true st) s = .next (s.after (((s.hostStores st).headRead true).headRead false)) := by
  have e : exec (.ingestHeadLineRead true st) s = execIngestHeadLineRead true st s := rfl
  have hh : (s.hostStores st).holds 0 = false := (State.holds_congr (s.onlyIn_hostStores st .pcie (by decide)) 0).trans h
  rw [e, execIngestHeadLineRead, answer_true]
  simp [hh]

end Sys2Proof.Machine
end

section
/-! SUPPORT. The obligation on the frames of the sensor ports (O20). -/
namespace Sys2Proof
open Machine

/-- Settles O20, clause by clause: each row takes the branch that the clause's premises select, and the rules of its operations say what
reaches the FIFOs, the points that wait, the contexts and the host's rings. -/
theorem sensorFramesReachTheirContext : Obligations.SensorFramesReachTheirContext := by
  unfold Obligations.SensorFramesReachTheirContext
  refine ⟨?linkUp, ?linkDown, ?badFcs, ?disabled, ?foreign, ?active, ?parse, ?deskew, ?dropped, ?silent, ?removed, ?young, ?fetched,
    ?expires, ?expiresNot, ?headLine⟩
  case linkUp =>
    intro s p hp hc hu he
    have hframe : OnlyIn [.regs, .time] s { s.wrB Fld.siuPortCfg_link_up true p with time := { s.time with portsUp := true } } :=
      ((onlyIn_wr s _ _ _ _).mono (by simp)).trans ((State.onlyIn_time _ _).mono (by simp))
    refine completes_of_onlyIn (exec_sensorPortLinkUp hp hc hu he) hframe (by decide) ⟨?_, rfl, hframe, regsBut_wr s _ _ _ _⟩
    exact (s.rdB_wrB _ _ _ _ _ _ _ (by decide)).trans (if_pos rfl)
  case linkDown => exact fun s p hp => completes_wrB (exec_sensorPortLinkDown hp s) (by decide)
  case badFcs =>
    intro s p f hp hr
    have hframe := (s.onlyIn_portCount p pcFcs 1).mono (l' := [.regs, .ingest, .observe]) (by simp)
    have hkept := s.keepsInput_portCount p pcFcs 1
    exact completes_of_onlyIn (exec_sensorFrameRx_badFcs hp f hr) hframe (by decide)
      ⟨s.rd_portCount p pcFcs, hkept.fifos, hkept.ctxs, hframe⟩
  case disabled =>
    intro s p f d c hp hr hmin hmax hmac hk hm hs
    have hctx := (s.portCount p pcRx 1).onlyIn_updCtx c.id (fun c => { c with frames := c.frames + 1 })
    have hframe : OnlyIn [.regs, .ingest, .hbm, .mem] s _ :=
      ((onlyIn_wr s _ _ _ _).mono (by simp)).trans (State.portCount_rx s p ▸ hctx.mono (by simp))
    refine completes_of_onlyIn (State.udpFrame_disabled hm _ _ hs ▸ exec_sensorFrameRx_udp hp hmin hmax hr hmac hk) hframe (by decide)
      ⟨?_, (State.keepsFlow_updCtx _ _ _).fifos, hframe⟩
    exact (State.rd_congr _ _ (hctx .regs (by decide)) (hctx .variant (by decide)) _ _ _).trans (s.rd_portCount p pcRx)
  case foreign => exact fun s p f hp hmin hmax hmac => exec_sensorFrameRx_foreign hp hmin hmax hmac
  case active =>
    intro s p f d c hp hr hmin hmax hmac hk hm hs
    rw [exec_sensorFrameRx_udp hp hmin hmax hr hmac hk, State.udpFrame_active hm _ _ hs]
  case parse =>
    intro s s1 p f c r hp hw hready hfirst hc hkey ht hparse hf hd
    have hcount := s1.keepsFlow_countParsed p c r
    have hflow := State.parsedFrame_flow (s := s1) (p := p) (c := c) (f := f) hf
    refine ⟨_, exec_frameParse_ready hp hw hready hfirst hc hkey ht hparse, hflow.deskew.trans ?_, hflow.fifos.trans hcount.fifos⟩
    exact congrArg (· ++ r.points) (hcount.deskew.trans hd)
  case deskew => exact fun s p rest h => ⟨_, exec_pointDeskew h, ((s.popPoint rest).keepsFlow_placePoint p).deskew⟩
  case dropped =>
    intro s p rest x c h hx hw hc
    have hkept := (s.popPoint rest).keepsInput_setCount p.set 0x0107 1 true
    refine ⟨_, exec_pointDeskew h, { c with windowDrops := c.windowDrops + 1 }, ?_, rfl⟩
    rw [State.placePoint_dropped (s := s.popPoint rest) hx hw]
    exact State.ctx?_updCtx ((hkept.ctx? p.ctx).trans hc) fun _ => rfl
  case silent =>
    intro s i c hc ht ha hauto hs hold
    refine ⟨_, exec_contextAgeingCheck_active hc ht ha hold hauto hs, { c with state := .silent }, ?_, rfl, rfl⟩
    exact ((State.keepsInput_ingestEvent _ _ _ _).ctx? i).trans (State.ctx?_updCtx hc fun _ => rfl)
  case removed =>
    intro s i c hc ht ha hauto hold
    exact ⟨_, exec_contextAgeingCheck_auto hc ht ha hold hauto, ((State.keepsInput_ingestEvent _ _ _ _).ctx? i).trans (s.ctx?_dropCtx i)⟩
  case young => exact fun s i c hc h => exec_contextAgeingCheck_young hc h
  case fetched =>
    intro s i h hnodup
    refine completes_of_onlyIn (exec_contextFetchDone h) (s.onlyIn_fetched i) (by decide) ⟨?_, ?_, s.onlyIn_fetched i⟩
    · rw [s.ingest_fetched i]
      exact List.mem_cons_self
    · rw [s.ingest_fetched i]
      exact hnodup.not_mem_erase
  case expires =>
    intro s k h
    refine ⟨_, exec_discoveryHoldoffExpire k s, fun x => ?_, s.onlyIn_ingest _⟩
    have hx (hm : x ∈ s.ingest.filter) : s.filterKeeps k x = true ↔ x.1 ≠ k := by
      by_cases hk : x.1 = k
      · simp [State.filterKeeps, hk, h x hm hk]
      · simp [State.filterKeeps, hk]
    exact List.mem_filter.trans (and_congr_right hx)
  case expiresNot =>
    intro s k h
    have hall : s.ingest.filter.filter (s.filterKeeps k) = s.ingest.filter := by
      refine List.filter_eq_self.mpr fun x hm => ?_
      by_cases hk : x.1 = k
      · simp [State.filterKeeps, h x hm hk]
      · simp [State.filterKeeps, hk]
    rw [exec_discoveryHoldoffExpire, hall]
  case headLine =>
    intro s st r e hh hr hrw he hew
    have hing : (s.hostStores st).ingest = s.ingest := s.onlyIn_hostStores st .ingest (by decide)
    have hreads := State.headReads_idle (s := s.hostStores st) (by rwa [hing]) hrw (by rwa [hing]) hew
    have hframe : OnlyIn [.host, .ingest] s (((s.hostStores st).headRead true).headRead false) := by
      rw [hreads]
      exact ((s.onlyIn_hostStores st).mono (by simp)).trans
        (((State.onlyIn_putRing _ true _).trans (State.onlyIn_putRing _ false _)).mono (by simp))
    refine completes_of_onlyIn (exec_ingestHeadLineRead st hh) hframe (by decide) ?_
    rw [hreads, hing] at hframe ⊢
    exact ⟨⟨_, rfl, rfl⟩, ⟨_, rfl, rfl⟩, hframe⟩

end Sys2Proof
end
